-- ==== Sys2Proof/Word.lean ====
section
/-!
DEFINITION. The word types of the ZV-940 model.  A value is a bit vector where the manual adds, shifts or
masks it, or where software sees it as a word (R10, R38, R168); counts and indexes are Nat or Fin.
-/
namespace Sys2Proof

/-- A byte. -/
abbrev Byte := BitVec 8
/-- Every register is 32 bits wide (R10). -/
abbrev Word := BitVec 32
/-- A 64-bit quantity: two consecutive words, low word first (R10); also a stamp (R386). -/
abbrev DWord := BitVec 64
/-- One route entry is 128 bits wide (R168). -/
abbrev EntryWord := BitVec 128

end Sys2Proof
end

