-- ==== Sys2Proof/Syntax.lean ====
section
/-!
DEFINITION. The commands of the ZV-940: one constructor of `Instr` for each row of spec/opcode_table.json.
Indexes are `Fin`, so that no command names an object that the part does not have; what the environment
decides (readings, received bytes, memory upsets, outcomes of a physical test) is an operand.
-/
namespace Sys2Proof

/-- An agent that makes an access (R43): a Summit core, the command interface, the debug port, the spur core
of a tile, or a peer package over a Col port (R339). -/
inductive Agent where
  | summit
  | command
  | debug
  | spur (tile : Fin 96)
  | remote (port : Fin 6)
deriving DecidableEq, Repr

/-- The list a debug or supervision register names (R542, R500): a flat tile's list, or the Tarn or the
ingest list of the step of a loop. -/
inductive ListId where
  | tile (t : Fin 96)
  | tarn (loop : Fin 16)
  | ingest (loop : Fin 16)
deriving DecidableEq, Repr

/-- What the environment has made of the memories by the time a command runs: a tile-memory row (R122) or an
HBM burst (R352) with a correctable error, or with an uncorrectable one that flips the bits listed; an HBM burst returned
from another offset; an error that a stack's own code has corrected and reports (R348); and the beats that the accesses of
the command waited for a bank of their tile (R124): banks 0 to 15 of activation memory, 16 to 19 of partial-sum memory. -/
inductive Upset where
  | correctable (addr : Nat)
  | uncorrectable (addr : Nat) (flips : List (Fin 512))
  | wrongOffset (addr : Nat)
  | onDie (stack : Fin 4)
  | bankWait (bank : Fin 20) (beats : Nat)
deriving DecidableEq, Repr

/-- The classes of R273, as SCH_LOOPn_CFG.CLASS encodes them. -/
inductive LoopClass where
  | bulk
  | paced
  | safety
deriving DecidableEq, Repr

/-- The form of a load or store of a Summit core or of the debug port: its bytes as a power of two, and the class that it
carries to another package (R330). -/
structure AccessForm where
  size : Fin 4
  cls : LoopClass
deriving DecidableEq, Repr

/-- How the FEC codeword that begins in a flit was decoded (R315, R322). -/
inductive FecResult where
  | clean
  | corrected
  | uncorrectable
deriving DecidableEq, Repr

/-- Where a request at an arbiter comes from (R306): the requester that originated it (at a mesh egress), the step whose
traffic it carries, whether an ingest request is for a live stream, and the class that a remote access carries. -/
structure ArbOrigin where
  requester : Fin 195
  served : Option (Fin 16)
  live : Bool
  cls : LoopClass
deriving DecidableEq, Repr

/-- A send to another logical package (R599): the sending list (a logical tile, or 0x7E and 0x7F for the engines' lists),
and the logical package, logical tile and queue that it names. -/
structure CrossSend where
  list : Fin 128
  pkg  : Fin 4
  tile : Fin 96
  q    : Fin 16
deriving DecidableEq, Repr

/-- A queue whose producer lies in another logical package (R599): the producer's logical package and tile, its own logical
tile and number, and its length in rows. -/
structure CrossQueue where
  pkg      : Fin 4
  producer : Fin 96
  tile     : Fin 96
  q        : Fin 16
  rows     : Fin 32769
deriving DecidableEq, Repr

/-- A fault of a data column of an array in one row slot: one bit of the integer of R55 flips, or, with `stored`, one bit
of the stored operand's code (R91). -/
structure Flip where
  stored : Bool
  lane : Fin 32
  col  : Fin 64
  bit  : Fin 96
deriving DecidableEq, Repr

/-- The result of bringing up the lanes of a Col port (R336): which lanes failed training. -/
structure TrainResult where
  laneFail : BitVec 8
deriving DecidableEq, Repr

/-- A CAN or CAN FD frame (R411, R413). -/
structure CanFrame where
  ide  : Bool
  id   : BitVec 29
  fd   : Bool
  rtr  : Bool
  data : List Byte
deriving DecidableEq, Repr

/-- The outcome of a NAND operation (R359, R361 to R363). -/
inductive NandOutcome where
  | ok
  | retried
  | softDecoded
  | failed
deriving DecidableEq, Repr

/-- A completed NAND operation: programming the oldest buffered unit, erasing a block, reading a unit. -/
inductive NandOp where
  | program (outcome : NandOutcome)
  | erase (block : Nat) (outcome : NandOutcome)
  | read (unit : Nat) (block : Nat) (outcome : NandOutcome)
deriving DecidableEq, Repr

/-- What a target's parameter page states (R359, R360): LUNs, planes of a LUN, blocks of a plane, pages of a block, and the
data and spare bytes of a page. -/
structure TargetGeom where
  chan   : Fin 8
  target : Fin 4
  luns   : Nat
  planes : Nat
  blocks : Nat
  pages  : Nat
  data   : Nat
  spare  : Nat
deriving DecidableEq, Repr

/-- What the mount found (R360, R374): the targets' geometry, a checkpoint or a blank array, the close marker; and, for
a mount at boot, the parts of the firmware slots whose flash reads fail (R521): slot, and 0 boot record, 1 stage 1,
2 Tarinady. -/
structure MountFound where
  targets     : List TargetGeom
  formatted   : Bool
  closeMarker : Bool
  goodPages   : Nat
  spareBlocks : Nat
  slotFails   : List (Fin 2 × Fin 3)
deriving DecidableEq, Repr

/-- How the reads of a replay sample came out (R438): the record was read from its region, or a read of it failed. -/
inductive SampleSource where
  | read
  | flashFailed
  | hbmFailed
deriving DecidableEq, Repr

/-- What an accepted or arriving time-source measurement carries (R388, R389). -/
structure Measurement where
  theta    : Int
  interval : Nat
  newGrandmaster : Bool
deriving DecidableEq, Repr

/-- What start-up error injection saw (R493, R494): per step, passed, failed device-wide, or failed in
particular tiles (steps 4 and 5 only). -/
inductive InjectResult where
  | passed
  | failed
  | failedTiles (tiles : List (Fin 96))
deriving DecidableEq, Repr

/-- How an ARRAY or SPUR chunk came out (R507, R512); a MEM chunk reads the rows as they stand. -/
inductive ChunkResult where
  | passed
  | failed
deriving DecidableEq, Repr

/-- A debug-module access (R541): halt, step, resume a hart, or set one of its four triggers. -/
inductive DmiOp where
  | halt
  | step
  | resume
  | trigger (n : Fin 4) (value : DWord)
deriving DecidableEq, Repr

/-- The faults that an array self-test finds in a tile, by physical array (R112): a faulty lane row, a faulty column, or
one that no spare can repair. -/
structure ArrayFaults where
  rows   : List (Fin 4 × Fin 16)
  cols   : List (Fin 4 × Fin 65)
  beyond : List (Fin 4)
deriving DecidableEq, Repr

/-- The environment at reset release (R579, R593): the levels and straps sampled, the faults of every tile's arrays that
the fuses name or the power-on self-test finds (R112). -/
structure ReleaseEnv where
  pwrFailN   : Bool
  coolOk     : Bool
  pkgId      : Fin 4
  grpM1      : Fin 4
  colBoot    : Bool
  arrays     : List (Fin 96 × ArrayFaults)
deriving DecidableEq, Repr

/-- The commands.  Each constructor names its row of the table and the rule the row cites. -/
inductive Instr where
  /-- UNMAPPED_READ (R42). -/
  | unmappedRead (who : Agent) (addr : BitVec 54) (form : AccessForm)
  /-- UNMAPPED_WRITE (R42). -/
  | unmappedWrite (who : Agent) (addr : BitVec 54) (data : DWord) (form : AccessForm)
  /-- REGISTER_WRITE (R12). -/
  | registerWrite (who : Agent) (addr : BitVec 48) (value : Word)
  /-- REGISTER_READ (R10). -/
  | registerRead (who : Agent) (addr : BitVec 48)
  /-- PACE_SAMPLE (R30): the 28 readings, in units of 1/8 ps, the loops whose step starts in the Summit cycle of the sampling
  (R496), and the lists whose MARK reaches its supervisor in it (R498). -/
  | paceSample (readings : List (BitVec 16)) (started : List (Fin 16)) (marked : List ListId)
  /-- PACE_FROZEN (R32). -/
  | paceFrozen (m : Fin 28)
  /-- PACE_RECOVERED (R32). -/
  | paceRecovered (m : Fin 28)
  /-- CLR_PEAK (R30). -/
  | clrPeak
  /-- RAIL_SETTLED (R33). -/
  | railSettled
  /-- ND_CLR (R82). -/
  | ndClr
  /-- SLOAD (R171): the tile's sequencer issues a stationary load; `wait` beats were spent waiting for its fill
  (R132) and `stall` beats for the back register (R94). -/
  | sload (t : Fin 96) (wait stall : Nat) (upsets : List Upset)
  /-- PASS (R173). -/
  | pass (t : Fin 96)
  /-- ARRAY_ROW (R97): the next row slot of the open pass of logical array `l`, a bubble when the feeder has no
  data ready; `stall` beats were spent held at the input. -/
  | arrayRow (t : Fin 96) (l : Fin 4) (bubble : Bool) (stall : Nat) (flips : List Flip) (upsets : List Upset)
  /-- SWAP_FRONT_BACK (R95) of physical array `p`. -/
  | swapFrontBack (t : Fin 96) (p : Fin 4)
  /-- PASS_COMPARE (R105) of logical array `l`. -/
  | passCompare (t : Fin 96) (l : Fin 4) (upsets : List Upset)
  /-- ARRAY_REMAP (R114). -/
  | arrayRemap (t : Fin 96)
  /-- DRAIN (R108). -/
  | drain (t : Fin 96) (stall : Nat) (upsets : List Upset)
  /-- ARRAY_RAMP_STEP (R117). -/
  | arrayRampStep (t : Fin 96) (p : Fin 4)
  /-- ARRAY_IDLE (R118). -/
  | arrayIdle (t : Fin 96) (p : Fin 4)
  /-- ARR_CNT_CLR (R120). -/
  | arrCntClr (t : Fin 96)
  /-- WFETCH_PLAIN (R136). -/
  | wfetchPlain (t : Fin 96)
  /-- WFETCH_SPEC (R192). -/
  | wfetchSpec (t : Fin 96) (upsets : List Upset)
  /-- WFETCH_RESOLVE (R193). -/
  | wfetchResolve (t : Fin 96) (upsets : List Upset)
  /-- STREAMER_FILL_START (R131): `wait` beats were spent waiting for the slot at the fill pointer. -/
  | streamerFillStart (t : Fin 96) (wait : Nat)
  /-- FETCH_LANDED (R132). -/
  | fetchLanded (t : Fin 96) (slot : Fin 6) (upsets : List Upset)
  /-- SLOT_RELEASE (R133). -/
  | slotRelease (t : Fin 96) (slot : Fin 6)
  /-- LIST_FETCH (R189): `n` further entries. -/
  | listFetch (l : ListId) (n : Fin 4097) (upsets : List Upset)
  /-- SEND (R140): the list issues a stream send, or sends the rows its credits allow. -/
  | send (l : ListId) (upsets : List Upset)
  /-- LANDING_ROW (R141): the oldest row in transit to queue `q` lands. -/
  | landingRow (t : Fin 96) (q : Fin 16) (upsets : List Upset)
  /-- RECV (R142). -/
  | recv (t : Fin 96) (upsets : List Upset)
  /-- SPUR_CALL (R148). -/
  | spurCall (t : Fin 96)
  /-- SPUR_ECALL (R150). -/
  | spurEcall (t : Fin 96) (n : Nat) (upsets : List Upset)
  /-- SPUR_TRAP (R150). -/
  | spurTrap (t : Fin 96) (n : Nat) (upsets : List Upset)
  /-- ECC_WRITE_BACK (R153, R353): the corrected row or burst that holds `addr`. -/
  | eccWriteBack (addr : BitVec 48)
  /-- MEM_CNT_CLR (R157). -/
  | memCntClr (t : Fin 96)
  /-- RDG_CNT_CLR (R157). -/
  | rdgCntClr (r : Fin 24)
  /-- SPEC_CNT_CLR (R203). -/
  | specCntClr (t : Fin 96)
  /-- CONV_CNT_CLR (R230). -/
  | convCntClr (t : Fin 96)
  /-- CTAP (R210). -/
  | ctap (t : Fin 96)
  /-- DTAP (R221). -/
  | dtap (t : Fin 96)
  /-- ARGMAX (R226). -/
  | argmax (t : Fin 96) (upsets : List Upset)
  /-- SUPPLY (R262). -/
  | supply (t : Fin 96) (upsets : List Upset)
  /-- APPEND (R266): the Tarn list of the step of `loop` issues an APPEND. -/
  | append (loop : Fin 16)
  /-- TOKENS (R262). -/
  | tokens (loop : Fin 16)
  /-- DECODE (R269). -/
  | decode (loop : Fin 16)
  /-- WALK (R266). -/
  | walk (loop : Fin 16)
  /-- FEED (R266). -/
  | feed (loop : Fin 16)
  /-- MARK (R498). -/
  | mark (l : ListId)
  /-- ACQUIRE (R290). -/
  | acquire (l : ListId)
  /-- RELEASE (R290). -/
  | release (l : ListId)
  /-- SIGN (R183). -/
  | sign (t : Fin 96) (upsets : List Upset)
  /-- END (R184). -/
  | endList (l : ListId)
  /-- STEP_END (R188): `beats` is the sum of the meters of R280. -/
  | stepEnd (loop : Fin 16) (beats : Nat)
  /-- POST (R466). -/
  | post (loop : Fin 16)
  /-- GRACE_FREE (R246). -/
  | graceFree (node : Fin 1048576)
  /-- PACED_RELEASE (R275). -/
  | pacedRelease (loop : Fin 16)
  /-- GUARD_START (R276). -/
  | guardStart (loop : Fin 16)
  /-- WINDOW_OPEN (R277). -/
  | windowOpen (loop : Fin 16)
  /-- WINDOW_CLOSE (R276). -/
  | windowClose (loop : Fin 16)
  /-- SCHED_DECISION (R285): `nowUs` is the time of the decision in microseconds from the timebase's zero. -/
  | schedDecision (nowUs : Nat)
  /-- PREEMPT_HOLD (R299): a hold from package `pkg` for the step of `loop`. -/
  | preemptHold (pkg : Fin 4) (loop : Fin 16)
  /-- REMOTE_TIMEOUT (R299). -/
  | remoteTimeout (pkg : Fin 4) (loop : Fin 16) (beats : Nat)
  /-- SAVE_DONE (R295): `beats` of the step, `saveBeats` of the saving, `us` from the halt. -/
  | saveDone (loop : Fin 16) (beats saveBeats us : Nat) (stateError : Option (Fin 96)) (spurRan : List (Fin 96 × Nat))
      (upsets : List Upset)
  /-- RESTORE_DONE (R302). -/
  | restoreDone (loop : Fin 16) (restoreBeats : Nat) (upsets : List Upset)
  /-- CARRY_SAVE_DONE (R303): `save` is false for a restore. -/
  | carrySaveDone (loop : Fin 16) (save : Bool) (beats : Nat) (upsets : List Upset)
  /-- ARB_REQUEST (R307): with `reset`, the Summit has reset the requester's unit since the watchdog bit it (R310). -/
  | arbRequest (a : Fin 256) (req : Fin 256) (origin : ArbOrigin) (reset : Bool)
  /-- ARB_GRANT (R307): with `drop`, the owner drops its request first (R309). -/
  | arbGrant (a : Fin 256) (drop : Bool)
  /-- ARB_WATCHDOG (R310). -/
  | arbWatchdog (a : Fin 256)
  /-- ARB_FREEZE (R311). -/
  | arbFreeze (k : Fin 8) (value : Word)
  /-- ARB_CNT_CLR (R313). -/
  | arbCntClr
  /-- SCH_EN (R284). -/
  | schEn (en : Bool)
  /-- SCH_CNT_CLR (R313). -/
  | schCntClr
  /-- LOOP_EN_WRITE (R312). -/
  | loopEnWrite (loop : Fin 16) (en : Bool)
  /-- LOOP_BOUND_REPORT (R342, R599): a peer reports the map with which it has the loop bound, its sends to other logical
  packages, its queues whose producer lies in another one, and its logical tiles with a list. -/
  | loopBoundReport (pkg : Fin 4) (loop : Fin 16) (bound : Bool) (pmap : BitVec 8) (sends : List CrossSend)
      (queues : List CrossQueue) (lists : List (Fin 96))
  /-- LINK_TRAIN (R336). -/
  | linkTrain (p : Fin 6) (result : TrainResult)
  /-- LINK_TRAIN_TIMEOUT (R336). -/
  | linkTrainTimeout (p : Fin 6)
  /-- FLIT_RX (R322): the 256 bytes and what the FEC made of the codeword. -/
  | flitRx (p : Fin 6) (flit : List Byte) (fec : FecResult)
  /-- REPLAY_TIMEOUT (R323). -/
  | replayTimeout (p : Fin 6)
  /-- RECOVERY (R324). -/
  | recovery (p : Fin 6)
  /-- DOWN (R325). -/
  | down (p : Fin 6)
  /-- COL_READ (R339): the READ message at the head of the REQUEST channel of port `p`. -/
  | colRead (p : Fin 6) (upsets : List Upset)
  /-- COL_WRITE (R339). -/
  | colWrite (p : Fin 6) (upsets : List Upset)
  /-- READ_RESP (R339). -/
  | readResp (p : Fin 6)
  /-- WRITE_RESP (R339). -/
  | writeResp (p : Fin 6)
  /-- COL_STREAM (R331). -/
  | colStream (p : Fin 6)
  /-- QCREDIT (R332). -/
  | qcredit (p : Fin 6)
  /-- MGMT (R331). -/
  | mgmt (p : Fin 6)
  /-- REMOTE_ACCESS_TIMEOUT (R339): the access with that Col tag. -/
  | remoteAccessTimeout (tag : BitVec 16)
  /-- COL_TSYNC (R341): the offset of this timebase from the lead's, in ns. -/
  | colTsync
  /-- COL_BOOT_TIMEOUT (R340). -/
  | colBootTimeout
  /-- RETRAIN (R346). -/
  | retrain (p : Fin 6)
  /-- PORT_EN (R346). -/
  | portEn (p : Fin 6) (en : Bool)
  /-- COL_CNT_CLR (R347). -/
  | colCntClr
  /-- HBM_READ (R354): a read by requester `req` (R306). -/
  | hbmRead (addr : Fin 103079215104) (len : Nat) (req : Fin 256) (served : Option (Fin 16)) (upsets : List Upset)
  /-- HBM_WRITE (R351). -/
  | hbmWrite (addr : Fin 103079215104) (data : List Byte) (req : Fin 256) (served : Option (Fin 16)) (upsets : List Upset)
  /-- HBM_REFRESH (R356): the stacks report these temperatures in °C. -/
  | hbmRefresh (temps : List Int)
  /-- PATROL_SCRUB (R357) of the burst at `addr`. -/
  | patrolScrub (addr : Fin 103079215104) (upsets : List Upset)
  /-- HBM_FILL_DONE (R355). -/
  | hbmFillDone (trainFail : BitVec 4)
  /-- HBM_CNT_CLR (R358). -/
  | hbmCntClr
  /-- FL_EN (R374): a write of FL_CTRL.EN. -/
  | flEn (en : Bool)
  /-- MOUNT_DONE (R374). -/
  | mountDone (found : MountFound)
  /-- NAND_OPERATION_DONE (R363). -/
  | nandOperationDone (op : NandOp)
  /-- JOURNAL_FLUSH (R369). -/
  | journalFlush
  /-- CHECKPOINT (R369). -/
  | checkpoint
  /-- RETENTION_SCRUB (R365): the scrub reads a page of `block` whose worst codeword has `corrected` bits. -/
  | retentionScrub (block : Nat) (corrected : Nat) (neededRetry : Bool)
  /-- GARBAGE_COLLECT (R364). -/
  | garbageCollect
  /-- FLASH_CLOSED (R372). -/
  | flashClosed
  /-- FLASH_RESUME (R373). -/
  | flashResume
  /-- FL_CNT_CLR (R363). -/
  | flCntClr
  /-- CV_JOB (R379): a job of requester `req` (187 Summit DMA, 188 flash, 255 SDIO). -/
  | cvJob (req : Fin 256) (sel : Fin 4) (data : List Byte)
  /-- CV_SLICE_END (R379) of unit `u`. -/
  | cvSliceEnd (u : Fin 16)
  /-- CLAIM (R380). -/
  | claim (u : Fin 16) (on : Bool)
  /-- START (R378). -/
  | cvStart (u : Fin 16)
  /-- CV_DATA (R378). -/
  | cvData (u : Fin 16) (value : Word)
  /-- CV_VAL_HI (R382). -/
  | cvValHi (u : Fin 16) (value : Word)
  /-- CV_CNT_HI (R382). -/
  | cvCntHi (u : Fin 16) (value : Word)
  /-- TB_MEASUREMENT (R389). -/
  | tbMeasurement (m : Measurement)
  /-- TB_SOURCE_TIMEOUT (R389). -/
  | tbSourceTimeout
  /-- RESTEP (R389). -/
  | restep
  /-- TB_CNT_CLR (R415). -/
  | tbCntClr
  /-- COUNTER_COMPARE (R490). -/
  | counterCompare
  /-- CMP_FIRE (R394). -/
  | cmpFire (n : Fin 8)
  /-- CMP_TARGET_WRITE (R394). -/
  | cmpTargetWrite (n : Fin 8) (hi : Word)
  /-- EVT_IN (R397). -/
  | evtIn (n : Fin 4)
  /-- ETH_RX (R401): the frame from the destination address up to the FCS, exclusive. -/
  | ethRx (m : Fin 4) (frame : List Byte) (fcsOk : Bool)
  /-- FEEDBACK (R409): the oldest sorted FEEDBACK frame of MAC `m`. -/
  | feedback (m : Fin 4)
  /-- SENSOR (R424): the oldest sorted SENSOR frame of MAC `m`. -/
  | sensor (m : Fin 4)
  /-- DRIVE_RECEIVED (R408): the oldest sorted DRIVE frame of MAC `m`. -/
  | driveReceived (m : Fin 4)
  /-- TX_SELECT (R404): a transmission opportunity of MAC `m`. -/
  | txSelect (m : Fin 4)
  /-- CHANGE (R402). -/
  | change (m : Fin 4)
  /-- GCL_APPLY (R402). -/
  | gclApply (m : Fin 4)
  /-- PTP_ROLE_WRITE (R388). -/
  | ptpRoleWrite (m : Fin 4) (role : BitVec 2)
  /-- ETH_CNT_CLR (R415). -/
  | ethCntClr (m : Fin 4)
  /-- CAN_RX (R413). -/
  | canRx (n : Fin 4) (frame : CanFrame)
  /-- CAN_TX (R412): arbitration is won by a pending buffer. -/
  | canTx (n : Fin 4)
  /-- ERROR_PASSIVE (R414). -/
  | errorPassive (n : Fin 4) (tec rec : Byte)
  /-- BUS_OFF (R414). -/
  | busOff (n : Fin 4)
  /-- CAN_RECOVERED (R414). -/
  | canRecovered (n : Fin 4)
  /-- RECOVER (R414). -/
  | recover (n : Fin 4)
  /-- CAN_CNT_CLR (R415). -/
  | canCntClr (n : Fin 4)
  /-- CSI_PACKET (R422): a long packet of virtual channel `vc` and data type `dt`. -/
  | csiPacket (p : Fin 16) (vc : Fin 16) (dt : BitVec 6) (eccBad crcOk late : Bool) (line : List Byte)
  /-- CSI_FRAME_START (R423). -/
  | csiFrameStart (p : Fin 16) (vc : Fin 16) (frame : BitVec 16)
  /-- CSI_FRAME_END (R423). -/
  | csiFrameEnd (p : Fin 16) (vc : Fin 16)
  /-- TENSOR_COMPLETE (R428). -/
  | tensorComplete (stream : Fin 64)
  /-- WAITNEW_BIND (R432). -/
  | waitnewBind (stream : Fin 64) (loop : Fin 16)
  /-- SAMPLE_DECODED (R441): the sample drawn at list position `pos` of epoch `epoch`. -/
  | sampleDecoded (stream : Fin 64) (pos : Nat) (epoch : Nat) (source : SampleSource)
  /-- MISSING_POS (R442). -/
  | missingPos (stream : Fin 64)
  /-- ING_CNT_CLR (R444). -/
  | ingCntClr
  /-- CE_INSTANT (R447). -/
  | ceInstant
  /-- CHANNEL_EVAL (R458): `dupFails` when the duplicate compare of R514 fails. -/
  | channelEval (c : Fin 256) (dupFails : Bool)
  /-- CE_EN_WRITE (R453). -/
  | ceEnWrite (en : Bool)
  /-- SWAP (R452). -/
  | swap
  /-- CE_MODE_WRITE (R461). -/
  | ceModeWrite (c : Fin 256) (mode : BitVec 2)
  /-- CE_MAN_WRITE (R463). -/
  | ceManWrite (c : Fin 256) (value : Word)
  /-- ARM (R476). -/
  | arm (on : Bool)
  /-- FORCE (R475). -/
  | force
  /-- CE_CNT_CLR (R479). -/
  | ceCntClr
  /-- FAULT_RECORD (R483): `n` of the raised faults arrive at the aggregator in this Summit cycle. -/
  | faultRecord (n : Nat)
  /-- WARM_RESET (R483). -/
  | warmReset
  /-- ERROR_INJECTION (R493): the result of each of the steps 0 to 10. -/
  | errorInjection (results : List InjectResult)
  /-- STEP_SUPERVISOR_EXPIRE (R500). -/
  | stepSupervisorExpire (loop : Fin 16) (beats : Nat)
  /-- SEGMENT_EXPIRE (R500). -/
  | segmentExpire (l : ListId) (beats : Nat)
  /-- CHUNK_DONE (R507). -/
  | chunkDone (t : Fin 96) (result : ChunkResult) (upsets : List Upset)
  /-- SELFTEST_FORCE (R510). -/
  | selftestForce (t : Fin 96)
  /-- LATE (R511). -/
  | late (t : Fin 96)
  /-- HALT_TIMEOUT (R492): the tile reset's array self-test finds these faults in the physical arrays (R112, R116): in a
  lane row, in a column, or elsewhere. -/
  | haltTimeout (t : Fin 96) (found : ArrayFaults)
  /-- FENCE (R492). -/
  | fence (t : Fin 96)
  /-- RING_BREAK (R25): watch domain `d`, at member `m`. -/
  | ringBreak (d : Fin 4) (m : Fin 24)
  /-- MISMATCH (R513). -/
  | mismatch (pair : Fin 4)
  /-- CLOCK (R594). -/
  | clock
  /-- RAIL (R490): rail `r` in the row order of R577, at `mv` mV. -/
  | rail (r : Fin 12) (mv : BitVec 16)
  /-- THERMAL_CHECK (R592): the junction temperatures in °C. -/
  | thermalCheck (fab : Int) (hbm : List Int)
  /-- THERMTRIP (R592). -/
  | thermtrip
  /-- SAF_CNT_CLR (R516). -/
  | safCntClr
  /-- RESET_RELEASE (R579). -/
  | resetRelease (env : ReleaseEnv)
  /-- PORST_ASSERT (R580). -/
  | porstAssert
  /-- POWER_FAIL (R588). -/
  | powerFail
  /-- POWER_RESTORE (R589). -/
  | powerRestore
  /-- COOLING (R593). -/
  | cooling
  /-- CAP_WRITE (R585). -/
  | capWrite (cap : BitVec 2)
  /-- BOOST_WRITE (R584). -/
  | boostWrite (boost : Bool)
  /-- GOVERNOR (R587): the 1 ms average in units of 0.1 W. -/
  | governor (avg : BitVec 16)
  /-- PWR_CNT_CLR (R596). -/
  | pwrCntClr
  /-- TAP_CHAL (R537). -/
  | tapChal
  /-- TAP_TOKEN (R539): the 288 bytes shifted in. -/
  | tapToken (token : List Byte)
  /-- CHALLENGE_EXPIRE (R537). -/
  | challengeExpire
  /-- BUSACC (R544): a 64-bit read (`data` none) or write; `collide` when a route read meets a write at the same instant
  (R156). -/
  | busacc (addr : BitVec 48) (data : Option DWord) (collide : Bool) (upsets : List Upset)
  /-- HALT (R542): the write of 1 to DBG_RT_CTRL.HALT. -/
  | halt
  /-- STEP (R542). -/
  | step
  /-- RESUME (R542). -/
  | resume
  /-- SDIO_WRITE (R549). -/
  | sdioWrite (bytes : List Byte)
  /-- SDIO_READ (R550). -/
  | sdioRead (n : Nat)
  /-- SDIO_CNT_CLR (R573). -/
  | sdioCntClr
  /-- DEV_INFO (R563): the accepted packet with that tag is executed; so for each opcode below. -/
  | devInfo (tag : BitVec 16)
  /-- ECHO (R563). -/
  | echo (tag : BitVec 16)
  /-- RESET (R563). -/
  | reset (tag : BitVec 16)
  /-- REG_READ (R565). -/
  | regRead (tag : BitVec 16)
  /-- REG_WRITE (R566). -/
  | regWrite (tag : BitVec 16)
  /-- REG_RMW (R567). -/
  | regRmw (tag : BitVec 16)
  /-- MEM_READ (R568). -/
  | memRead (tag : BitVec 16) (upsets : List Upset)
  /-- MEM_WRITE (R569): `collide` names the activation rows at which a route read meets the write at the same instant
  (R155, R156). -/
  | memWrite (tag : BitVec 16) (collide : List (Fin 96 × Fin 32768)) (upsets : List Upset)
  /-- MEM_FILL (R568). -/
  | memFill (tag : BitVec 16) (collide : List (Fin 96 × Fin 32768)) (upsets : List Upset)
  /-- MEM_CHECK (R568). -/
  | memCheck (tag : BitVec 16) (upsets : List Upset)
  /-- ROUTE_LOAD (R198). -/
  | routeLoad (tag : BitVec 16)
  /-- ROUTE_UNLOAD (R202). -/
  | routeUnload (tag : BitVec 16)
  /-- ROUTE_BIND (R200). -/
  | routeBind (tag : BitVec 16)
  /-- ROUTE_UNBIND (R563). -/
  | routeUnbind (tag : BitVec 16)
  /-- LOOP_CONFIG (R312). -/
  | loopConfig (tag : BitVec 16)
  /-- LOOP_PREEMPT (R286). -/
  | loopPreempt (tag : BitVec 16)
  /-- NS_CONFIG (R233). -/
  | nsConfig (tag : BitVec 16)
  /-- SEQ_OPEN (R237). -/
  | seqOpen (tag : BitVec 16)
  /-- SEQ_CLOSE (R251). -/
  | seqClose (tag : BitVec 16)
  /-- SEQ_FORK (R247). -/
  | seqFork (tag : BitVec 16)
  /-- SEQ_TRUNCATE (R253). -/
  | seqTruncate (tag : BitVec 16)
  /-- SEQ_DROP (R254). -/
  | seqDrop (tag : BitVec 16)
  /-- BATCH_SET (R239). -/
  | batchSet (tag : BitVec 16)
  /-- STREAM_OPEN (R419). -/
  | streamOpen (tag : BitVec 16)
  /-- STREAM_CLOSE (R420). -/
  | streamClose (tag : BitVec 16)
  /-- REGION_CREATE (R376). -/
  | regionCreate (tag : BitVec 16)
  /-- REGION_DELETE (R376). -/
  | regionDelete (tag : BitVec 16)
  /-- REGION_READ (R376): `outcome` is how the flash read ends (R362). -/
  | regionRead (tag : BitVec 16) (outcomes : List NandOutcome) (collide : List (Fin 96 × Fin 32768)) (upsets : List Upset)
  /-- REGION_WRITE (R368). -/
  | regionWrite (tag : BitVec 16) (upsets : List Upset)
  /-- REGION_TRIM (R376). -/
  | regionTrim (tag : BitVec 16)
  /-- REGION_SEAL (R375). -/
  | regionSeal (tag : BitVec 16)
  /-- REGION_LIST (R563). -/
  | regionList (tag : BitVec 16)
  /-- FLASH_FORMAT (R529): the good pages and spare blocks that the format finds. -/
  | flashFormat (tag : BitVec 16) (goodPages spareBlocks : Nat)
  /-- FW_ACTIVATE (R524): the parts of the slot whose flash reads fail, as in `MountFound`. -/
  | fwActivate (tag : BitVec 16) (slotFails : List (Fin 2 × Fin 3))
  /-- FW_COMMIT (R525). -/
  | fwCommit (tag : BitVec 16)
  /-- TIME_GET (R386). -/
  | timeGet (tag : BitVec 16)
  /-- TIME_SET (R392). -/
  | timeSet (tag : BitVec 16)
  /-- CE_ENABLE (R453). -/
  | ceEnable (tag : BitVec 16)
  /-- CE_SWAP (R452). -/
  | ceSwap (tag : BitVec 16)
  /-- CE_SETPOINT (R467). -/
  | ceSetpoint (tag : BitVec 16)
  /-- CE_MODE (R461). -/
  | ceMode (tag : BitVec 16)
  /-- FAULT_LOG (R486). -/
  | faultLog (tag : BitVec 16)
  /-- FAULT_ACK (R487). -/
  | faultAck (tag : BitVec 16)
  /-- SAFETY_CLEAR (R488): `f2` when an F2 arrives in the same Summit cycle. -/
  | safetyClear (tag : BitVec 16) (f2 : Bool)
  /-- CAIRN_CONFIG (R502). -/
  | cairnConfig (tag : BitVec 16)
  /-- ID_CERT (R530). -/
  | idCert (tag : BitVec 16)
  /-- ATTEST (R532). -/
  | attest (tag : BitVec 16)
  /-- DEBUG_CHALLENGE (R537). -/
  | debugChallenge (tag : BitVec 16)
  /-- DEBUG_TOKEN (R539). -/
  | debugToken (tag : BitVec 16)
  /-- LIFECYCLE (R535). -/
  | lifecycle (tag : BitVec 16)
  /-- OWNER_KEY (R535). -/
  | ownerKey (tag : BitVec 16)
  /-- RECOVERY_LOAD (R564). -/
  | recoveryLoad (tag : BitVec 16)
  /-- TRACE_READ (R563). -/
  | traceRead (tag : BitVec 16)
  /-- TRN_CNT_CLR (R271). -/
  | trnCntClr
  /-- TRN_EN (R232). -/
  | trnEn (en : Bool)
  /-- CARRY_INTO_SECONDS (R396). -/
  | carryIntoSeconds
  /-- ETH_LINK_CHANGE (R410). -/
  | ethLinkChange (m : Fin 4) (up : Bool)
  /-- PARITY (R490): watch domain `d`, member `m`. -/
  | parity (d : Fin 4) (m : Fin 24)
  /-- XBAR_FAULT (R597). -/
  | xbarFault (r : Fin 24)
  /-- CODEWORD_LOCK (R324). -/
  | codewordLock (p : Fin 6)
  /-- IOE1_WRITE (R547). -/
  | ioe1Write (on : Bool)
  /-- DMI (R541): hart 0 to 3 a Summit pair, 4 + t the spur core of tile t. -/
  | dmi (hart : Fin 100) (op : DmiOp)
deriving DecidableEq, Repr

end Sys2Proof
end

