-- ==== Sys2Proof/Decode.lean ====
section
/-!
DEFINITION. No row of spec/opcode_table.json gives bits: the commands arrive as events, not as words.  A command packet's
own bytes are taken apart by Machine/SdioCore.lean (R552 to R556) and a route entry's by Machine/Route.lean (R168).
-/
namespace Sys2Proof

/-- The command that a word of the opcode table spells: none, because the table gives no row bits. -/
def decodeTableWord (_nbits _w : Nat) : Option Instr := none

end Sys2Proof
end

