-- ==== Sys2Proof/Machine/Bits.lean ====
section
/-!
DEFINITION. Helpers that fix a convention once: bit fields and two's complement over natural numbers, the
little-endian byte order of every multi-byte item (R158, R168, R486), saturating counts (R83), and finite maps.
-/
/-- `x` put before the first element that it does not come after. -/
def List.insertLe {α : Type} (le : α → α → Bool) (x : α) : List α → List α
  | [] => [x]
  | y :: ys => if le x y then x :: y :: ys else y :: List.insertLe le x ys

/-- A list in the order of `le`; elements of equal rank keep their order. -/
def List.sortLe {α : Type} (l : List α) (le : α → α → Bool) : List α := l.foldr (List.insertLe le) []

namespace Sys2Proof

/-- Bits `hi` to `lo` of `v`, inclusive (the bit ranges of the manual's conventions). -/
def bits (v hi lo : Nat) : Nat := (v / 2 ^ lo) % 2 ^ (hi + 1 - lo)

/-- Bit `i` of `v`. -/
def bit (v i : Nat) : Bool := (v / 2 ^ i) % 2 == 1

/-- `v` with bits `hi` to `lo` replaced by `x`. -/
def setBits (v hi lo x : Nat) : Nat :=
  v - bits v hi lo * 2 ^ lo + (x % 2 ^ (hi + 1 - lo)) * 2 ^ lo

/-- The two's-complement reading of the low `w` bits of `v`. -/
def sext (w v : Nat) : Int :=
  let u := v % 2 ^ w
  if u < 2 ^ (w - 1) then (u : Int) else (u : Int) - 2 ^ w

/-- The low `w` bits of an integer, as a natural number. -/
def wrap (w : Nat) (i : Int) : Nat := (i % (2 ^ w : Int)).toNat

/-- The number a string of bytes spells, least significant byte first. -/
def leNat : List Byte → Nat
  | [] => 0
  | b :: bs => b.toNat + 256 * leNat bs

/-- The `n` low bytes of `v`, least significant byte first. -/
def leBytes : Nat → Nat → List Byte
  | 0, _ => []
  | n + 1, v => BitVec.ofNat 8 v :: leBytes n (v / 256)

/-- The number a string of bytes spells, most significant byte first. -/
def beNat (bs : List Byte) : Nat := bs.foldl (fun v b => v * 256 + b.toNat) 0

/-- The `n` low bytes of `v`, most significant byte first. -/
def beBytes (n v : Nat) : List Byte := (leBytes n v).reverse

/-- `n` bytes of `bs` from offset `o`; bytes past the end read as zero. -/
def slice (bs : List Byte) (o n : Nat) : List Byte :=
  let s := (bs.drop o).take n
  s ++ List.replicate (n - s.length) 0

/-- The little-endian number in `n` bytes of `bs` at offset `o`. -/
def field (bs : List Byte) (o n : Nat) : Nat := leNat (slice bs o n)

/-- Whether `n` bytes of `bs` from offset `o` are zero. -/
def zeroAt (bs : List Byte) (o n : Nat) : Bool := field bs o n == 0

/-- A 32-bit count after `n` more events (R83 and every COUNT field: saturates at 0xFFFF_FFFF). -/
def satAdd (w v n : Nat) : Nat := min (v + n) (2 ^ w - 1)

/-- Quotient rounded up. -/
def ceilDiv (a b : Nat) : Nat := (a + b - 1) / b

/-- Zero or one. -/
def b2n (b : Bool) : Nat := if b then 1 else 0

/-- Element `i` of a list replaced by its image under `f`. -/
def modAt {α : Type} (l : List α) (i : Nat) (f : α → α) : List α :=
  match l, i with
  | [], _ => []
  | x :: xs, 0 => f x :: xs
  | x :: xs, i + 1 => x :: modAt xs i f

/-- A finite map from numbers: pairs in rising order of key. -/
abbrev AMap (β : Type) := List (Nat × β)

/-- The value at key `k`. -/
def AMap.find {β : Type} (m : AMap β) (k : Nat) : Option β :=
  match m with
  | [] => none
  | (j, v) :: r => if j = k then some v else if k < j then none else AMap.find r k

/-- The value at key `k`, or `d`. -/
def AMap.getD {β : Type} (m : AMap β) (k : Nat) (d : β) : β := (AMap.find m k).getD d

/-- The map with `v` at key `k`. -/
def AMap.set {β : Type} (m : AMap β) (k : Nat) (v : β) : AMap β :=
  match m with
  | [] => [(k, v)]
  | (j, u) :: r => if j = k then (k, v) :: r else if k < j then (k, v) :: (j, u) :: r else (j, u) :: AMap.set r k v

/-- The map without key `k`. -/
def AMap.erase {β : Type} (m : AMap β) (k : Nat) : AMap β := List.filter (fun p => p.1 != k) m

end Sys2Proof
end

