-- ==== Sys2Proof/Machine/Check.lean ====
section
/-!
DEFINITION. The check values of R377: CRC-16/CCITT-FALSE, CRC-32, CRC-32C and CRC-64/XZ, as one bit-serial register
over natural numbers.
-/
namespace Sys2Proof

/-- A CRC of R377: width, polynomial, initial value, whether bits are taken least significant first, final XOR. -/
structure CrcParams where
  width : Nat
  poly : Nat
  init : Nat
  reflected : Bool
  xorOut : Nat
deriving DecidableEq, Repr

/-- One bit of a reflected register: `poly` is the reversed polynomial. -/
def crcBitR (poly r : Nat) : Nat := if r % 2 = 1 then (r / 2) ^^^ poly else r / 2

/-- One bit of a register that shifts left. -/
def crcBitL (w poly r : Nat) : Nat :=
  if r / 2 ^ (w - 1) % 2 = 1 then ((r * 2) % 2 ^ w) ^^^ poly else (r * 2) % 2 ^ w

/-- The low `w` bits of `v` in reverse order. -/
def reverseBits : Nat → Nat → Nat
  | 0, _ => 0
  | w + 1, v => (v % 2) * 2 ^ w + reverseBits w (v / 2)

/-- The register after one more byte. -/
def CrcParams.byte (p : CrcParams) (r : Nat) (b : Byte) : Nat :=
  if p.reflected then
    let q := reverseBits p.width p.poly
    (List.range 8).foldl (fun s _ => crcBitR q s) (r ^^^ b.toNat)
  else
    (List.range 8).foldl (fun s _ => crcBitL p.width p.poly s) (r ^^^ (b.toNat * 2 ^ (p.width - 8)))

/-- The register after a string of bytes. -/
def CrcParams.run (p : CrcParams) (r : Nat) (bs : List Byte) : Nat := bs.foldl p.byte r

/-- The finished value of a register. -/
def CrcParams.finish (p : CrcParams) (r : Nat) : Nat := r ^^^ p.xorOut

/-- The check value of a string. -/
def CrcParams.check (p : CrcParams) (bs : List Byte) : Nat := p.finish (p.run p.init bs)

/-- The four CRCs of R377, by SEL. -/
def crcParams : Nat → CrcParams
  | 0 => ⟨32, 0x1EDC6F41, 0xFFFFFFFF, true, 0xFFFFFFFF⟩
  | 1 => ⟨32, 0x04C11DB7, 0xFFFFFFFF, true, 0xFFFFFFFF⟩
  | 2 => ⟨16, 0x1021, 0xFFFF, false, 0⟩
  | _ => ⟨64, 0x42F0E1EBA9EA3693, 0xFFFFFFFFFFFFFFFF, true, 0xFFFFFFFFFFFFFFFF⟩

def crc32c (bs : List Byte) : Nat := (crcParams 0).check bs
def crc32 (bs : List Byte) : Nat := (crcParams 1).check bs
def crc16 (bs : List Byte) : Nat := (crcParams 2).check bs
def crc64 (bs : List Byte) : Nat := (crcParams 3).check bs

end Sys2Proof
end

