-- ==== Sys2Proof/Config.lean ====
section
/-!
DEFINITION. The values that the manual leaves open, as opaque constants: nothing in Lean can evaluate one.
Each is applied to the state's counter of open values, so that every use is a fresh value.
-/
namespace Sys2Proof

/-- The beats charged to a step that aborts, or to a restore that stops, where no operand of the command carries the
meters (R279; log 21). -/
opaque Config.freeBeats : Nat → Nat
/-- A byte that the manual leaves open: nonces, challenges and signatures of the device (R532, R533, R537; log 34), the
channel law state (R477; log 18), the step record of a save area (R300; log 49), Tarn memory beyond the sequence table (R231;
log 79), the bytes of a NET frame that no chunk brought (log 38). -/
opaque Config.freeByte : Nat → BitVec 8
/-- Old or new content of a flash unit whose change was not durable at a power failure (R374; log 37). -/
opaque Config.freeBit : Nat → Bool
/-- A number that the manual leaves open: the block that new flash data goes to (R364; log 35), the misses of the descriptor
cache (R271; log 44), a value read from control-engine memory with an uncorrectable error (R490; log 36), the operands of a
block whose DUAL bit does not suit the mode of a pass (R87; log 59), and the DETAIL of a tile state item that cannot be read
(R600; log 49). -/
opaque Config.freeNat : Nat → Nat
/-- Whether an agnostic element of a vector result is all ones or keeps its value, by the step's open value and the
element (R145; log 82). -/
opaque Config.agnosticOnes : Nat → Nat → Bool

end Sys2Proof
end

