-- ==== Sys2Proof/Machine/Memory.lean ====
section
/-!
DEFINITION. The memories of the 48-bit map (R38 to R40) as one list of cells in canonical form: addresses strictly
rising, and no cell equal to what an unlisted address reads as.  An unlisted address reads as zero: the tile
memories are written with zero at power-on (R125), the HBM fill writes zero (R355) and the boot ROM zeroes Summit
RAM (R526); for the other memories zero is the model's choice (log 3).
-/
namespace Sys2Proof.Machine

/-- The contents of all memories. -/
abbrev Memory := List Host.Cell

/-- The byte at an address. -/
def Memory.read : Memory → Nat → Byte
  | [], _ => 0
  | (j, v) :: r, a => if j = a then v else if a < j then 0 else Memory.read r a

/-- The memory after one byte is written; a zero byte is not listed. -/
def Memory.write : Memory → Nat → Byte → Memory
  | [], a, b => if b = 0 then [] else [(a, b)]
  | (j, v) :: r, a, b =>
    if j = a then (if b = 0 then r else (a, b) :: r)
    else if a < j then (if b = 0 then (j, v) :: r else (a, b) :: (j, v) :: r)
    else (j, v) :: Memory.write r a b

/-- The memory after the stores of a log, newest first, are written. -/
def Memory.writeLog (m : Memory) : List Host.Cell → Memory
  | [] => m
  | (a, b) :: older => Memory.write (Memory.writeLog m older) a b

/-- The memory with the cells that `keep` accepts: the rest read as zero again. -/
def Memory.keepOnly (m : Memory) (keep : Nat → Bool) : Memory := m.filter (fun c => keep c.1)

/-- Every address of the list lies above `lo`, in rising order, and no cell is zero. -/
def Memory.wfFrom : Option Nat → Memory → Bool
  | _, [] => true
  | lo, (a, b) :: r =>
    (match lo with
     | none => true
     | some l => decide (l < a)) && b != 0 && Memory.wfFrom (some a) r

/-- The canonical form. -/
def Memory.wf (m : Memory) : Bool := Memory.wfFrom none m

end Sys2Proof.Machine
end

