-- ==== Sys2Proof/Machine/RegMap.lean ====
section
/-!
DEFINITION. The register map (R41 and the register headings of every chapter): the address of each register, the
bits of each of its fields, and each field's access code and reset value (R12).
A register that stands once per object takes the object's numbers as arguments.
-/
namespace Sys2Proof

/-- The access codes of R12. -/
inductive Access where
  | RO | RW | W1C | WO | RWS | RWL
deriving DecidableEq, Repr

/-- The bits of a register field, most significant first. -/
structure Fd where
  hi : Nat
  lo : Nat
deriving DecidableEq, Repr

/-- One field of a register with its access code and its value at reset. -/
structure FieldDesc where
  hi : Nat
  lo : Nat
  acc : Access
  reset : Nat
deriving DecidableEq, Repr

/-- One heading of the register map: its first address, how often it is repeated (count and stride, the widest stride
first), and its fields.  Bits outside every field are reserved (R11). -/
structure RegDesc where
  base : Nat
  dims : List (Nat × Nat)
  fields : List FieldDesc
deriving DecidableEq, Repr

/-- GEN_ID, after R5 of 00_scope.md. -/
def Reg.GEN_ID : Nat := 0x40000000000
/-- GEN_RIDGE_EN, after R5 of 00_scope.md. -/
def Reg.GEN_RIDGE_EN : Nat := 0x40000000004
/-- GEN_PACE_n, after R33 of 01_architecture.md. -/
def Reg.GEN_PACE_n (n : Nat) : Nat := 0x40000000100 + 0x4 * n
/-- GEN_PACE_SLOW, after R33 of 01_architecture.md. -/
def Reg.GEN_PACE_SLOW : Nat := 0x40000000180
/-- GEN_PACE_CTRL, after R33 of 01_architecture.md. -/
def Reg.GEN_PACE_CTRL : Nat := 0x40000000184
/-- GEN_ND_TOTAL_LO, after R83 of 02_arithmetic.md. -/
def Reg.GEN_ND_TOTAL_LO : Nat := 0x40000000200
/-- GEN_ND_TOTAL_HI, after R83 of 02_arithmetic.md. -/
def Reg.GEN_ND_TOTAL_HI : Nat := 0x40000000204
/-- GEN_ND_INGEST, after R83 of 02_arithmetic.md. -/
def Reg.GEN_ND_INGEST : Nat := 0x40000000208
/-- GEN_ND_COLLIDE, after R83 of 02_arithmetic.md. -/
def Reg.GEN_ND_COLLIDE : Nat := 0x4000000020C
/-- GEN_ND_SEMA, after R83 of 02_arithmetic.md. -/
def Reg.GEN_ND_SEMA : Nat := 0x40000000210
/-- GEN_ND_LAST, after R83 of 02_arithmetic.md. -/
def Reg.GEN_ND_LAST : Nat := 0x40000000214
/-- GEN_ND_CTRL, after R83 of 02_arithmetic.md. -/
def Reg.GEN_ND_CTRL : Nat := 0x40000000218
/-- GEN_ND_LOOP_n, after R83 of 02_arithmetic.md. -/
def Reg.GEN_ND_LOOP_n (n : Nat) : Nat := 0x40000000240 + 0x4 * n
/-- TILE_ARR_CTRL, after R119 of 03_matrix_arrays.md. -/
def Reg.TILE_ARR_CTRL (t : Nat) : Nat := 0x100003F1000 + 0x400000 * t
/-- TILE_ARR_MAP, after R119 of 03_matrix_arrays.md. -/
def Reg.TILE_ARR_MAP (t : Nat) : Nat := 0x100003F1004 + 0x400000 * t
/-- TILE_ARRn_STAT, after R119 of 03_matrix_arrays.md. -/
def Reg.TILE_ARRn_STAT (t : Nat) (n : Nat) : Nat := 0x100003F1010 + 0x400000 * t + 0x4 * n
/-- TILE_ARRn_CNT_k, after R119 of 03_matrix_arrays.md. -/
def Reg.TILE_ARRn_CNT_k (t : Nat) (n : Nat) (k : Nat) : Nat := 0x100003F1020 + 0x400000 * t + 0x20 * n + 0x4 * k
/-- TILE_STAT, after R156 of 04_tiles_and_memories.md. -/
def Reg.TILE_STAT (t : Nat) : Nat := 0x100003F0000 + 0x400000 * t
/-- TILE_MEM_CTRL, after R156 of 04_tiles_and_memories.md. -/
def Reg.TILE_MEM_CTRL (t : Nat) : Nat := 0x100003F0100 + 0x400000 * t
/-- TILE_AM_CONF_b, after R156 of 04_tiles_and_memories.md. -/
def Reg.TILE_AM_CONF_b (t : Nat) (b : Nat) : Nat := 0x100003F0110 + 0x400000 * t + 0x4 * b
/-- TILE_PS_CONF_b, after R156 of 04_tiles_and_memories.md. -/
def Reg.TILE_PS_CONF_b (t : Nat) (b : Nat) : Nat := 0x100003F0150 + 0x400000 * t + 0x4 * b
/-- TILE_ECC_CE_m, after R156 of 04_tiles_and_memories.md. -/
def Reg.TILE_ECC_CE_m (t : Nat) (m : Nat) : Nat := 0x100003F0160 + 0x400000 * t + 0x4 * m
/-- TILE_ECC_UE, after R156 of 04_tiles_and_memories.md. -/
def Reg.TILE_ECC_UE (t : Nat) : Nat := 0x100003F016C + 0x400000 * t
/-- TILE_ECC_LAST, after R156 of 04_tiles_and_memories.md. -/
def Reg.TILE_ECC_LAST (t : Nat) : Nat := 0x100003F0170 + 0x400000 * t
/-- TILE_COLLIDE, after R156 of 04_tiles_and_memories.md. -/
def Reg.TILE_COLLIDE (t : Nat) : Nat := 0x100003F0174 + 0x400000 * t
/-- TILE_WR_SLOTn, after R156 of 04_tiles_and_memories.md. -/
def Reg.TILE_WR_SLOTn (t : Nat) (n : Nat) : Nat := 0x100003F0200 + 0x400000 * t + 0x4 * n
/-- TILE_WR_STAT, after R156 of 04_tiles_and_memories.md. -/
def Reg.TILE_WR_STAT (t : Nat) : Nat := 0x100003F0220 + 0x400000 * t
/-- TILE_WR_CNT_k, after R156 of 04_tiles_and_memories.md. -/
def Reg.TILE_WR_CNT_k (t : Nat) (k : Nat) : Nat := 0x100003F0230 + 0x400000 * t + 0x4 * k
/-- TILE_LQn_CFG, after R156 of 04_tiles_and_memories.md. -/
def Reg.TILE_LQn_CFG (t : Nat) (n : Nat) : Nat := 0x100003F0300 + 0x400000 * t + 0x10 * n
/-- TILE_LQn_SRC, after R156 of 04_tiles_and_memories.md. -/
def Reg.TILE_LQn_SRC (t : Nat) (n : Nat) : Nat := 0x100003F0304 + 0x400000 * t + 0x10 * n
/-- TILE_LQn_PTR, after R156 of 04_tiles_and_memories.md. -/
def Reg.TILE_LQn_PTR (t : Nat) (n : Nat) : Nat := 0x100003F0308 + 0x400000 * t + 0x10 * n
/-- TILE_LQn_RD, after R156 of 04_tiles_and_memories.md. -/
def Reg.TILE_LQn_RD (t : Nat) (n : Nat) : Nat := 0x100003F030C + 0x400000 * t + 0x10 * n
/-- TILE_SPUR_STAT, after R156 of 04_tiles_and_memories.md. -/
def Reg.TILE_SPUR_STAT (t : Nat) : Nat := 0x100003F0400 + 0x400000 * t
/-- TILE_SPUR_CAUSE, after R156 of 04_tiles_and_memories.md. -/
def Reg.TILE_SPUR_CAUSE (t : Nat) : Nat := 0x100003F0404 + 0x400000 * t
/-- TILE_SPUR_EPC_LO, after R156 of 04_tiles_and_memories.md. -/
def Reg.TILE_SPUR_EPC_LO (t : Nat) : Nat := 0x100003F0408 + 0x400000 * t
/-- TILE_SPUR_EPC_HI, after R156 of 04_tiles_and_memories.md. -/
def Reg.TILE_SPUR_EPC_HI (t : Nat) : Nat := 0x100003F040C + 0x400000 * t
/-- TILE_SPUR_CALLS, after R156 of 04_tiles_and_memories.md. -/
def Reg.TILE_SPUR_CALLS (t : Nat) : Nat := 0x100003F0410 + 0x400000 * t
/-- RDG_STAT, after R157 of 04_tiles_and_memories.md. -/
def Reg.RDG_STAT (r : Nat) : Nat := 0x40000200000 + 0x10000 * r
/-- RDG_CTRL, after R157 of 04_tiles_and_memories.md. -/
def Reg.RDG_CTRL (r : Nat) : Nat := 0x40000200004 + 0x10000 * r
/-- RDG_PORT_ROWS_p, after R157 of 04_tiles_and_memories.md. -/
def Reg.RDG_PORT_ROWS_p (r : Nat) (p : Nat) : Nat := 0x40000200040 + 0x10000 * r + 0x4 * p
/-- SCH_RT_LOADED_LO, after R599 of 05_routes_and_run_ahead.md. -/
def Reg.SCH_RT_LOADED_LO : Nat := 0x40000020800
/-- SCH_RT_LOADED_HI, after R599 of 05_routes_and_run_ahead.md. -/
def Reg.SCH_RT_LOADED_HI : Nat := 0x40000020804
/-- SCH_RT_VERR, after R599 of 05_routes_and_run_ahead.md. -/
def Reg.SCH_RT_VERR : Nat := 0x40000020808
/-- SCH_RTh_STAT, after R599 of 05_routes_and_run_ahead.md. -/
def Reg.SCH_RTh_STAT (h : Nat) : Nat := 0x40000020900 + 0x4 * h
/-- SCH_RTh_ID, after R599 of 05_routes_and_run_ahead.md. -/
def Reg.SCH_RTh_ID (h : Nat) : Nat := 0x40000020A00 + 0x4 * h
/-- TILE_SPEC_CNT_k, after R599 of 05_routes_and_run_ahead.md. -/
def Reg.TILE_SPEC_CNT_k (t : Nat) (k : Nat) : Nat := 0x100003F0500 + 0x400000 * t + 0x4 * k
/-- TILE_SPEC_CTRL, after R599 of 05_routes_and_run_ahead.md. -/
def Reg.TILE_SPEC_CTRL (t : Nat) : Nat := 0x100003F0520 + 0x400000 * t
/-- TILE_CONV_STAT, after R229 of 06_convolution.md. -/
def Reg.TILE_CONV_STAT (t : Nat) : Nat := 0x100003F0600 + 0x400000 * t
/-- TILE_CONV_CTRL, after R229 of 06_convolution.md. -/
def Reg.TILE_CONV_CTRL (t : Nat) : Nat := 0x100003F0604 + 0x400000 * t
/-- TILE_CONV_CNT_k, after R229 of 06_convolution.md. -/
def Reg.TILE_CONV_CNT_k (t : Nat) (k : Nat) : Nat := 0x100003F0610 + 0x400000 * t + 0x4 * k
/-- TRN_CTRL, after R270 of 07_attention_and_kv_cache.md. -/
def Reg.TRN_CTRL : Nat := 0x40000040000
/-- TRN_HBM_BASE_LO, after R270 of 07_attention_and_kv_cache.md. -/
def Reg.TRN_HBM_BASE_LO : Nat := 0x40000040004
/-- TRN_HBM_BASE_HI, after R270 of 07_attention_and_kv_cache.md. -/
def Reg.TRN_HBM_BASE_HI : Nat := 0x40000040008
/-- TRN_STAT, after R270 of 07_attention_and_kv_cache.md. -/
def Reg.TRN_STAT : Nat := 0x4000004000C
/-- TRN_EPOCH, after R270 of 07_attention_and_kv_cache.md. -/
def Reg.TRN_EPOCH : Nat := 0x40000040010
/-- TRN_FREE_NODES, after R270 of 07_attention_and_kv_cache.md. -/
def Reg.TRN_FREE_NODES : Nat := 0x40000040014
/-- TRN_FREE_DESC, after R270 of 07_attention_and_kv_cache.md. -/
def Reg.TRN_FREE_DESC : Nat := 0x40000040018
/-- TRN_EDITQ, after R270 of 07_attention_and_kv_cache.md. -/
def Reg.TRN_EDITQ : Nat := 0x4000004001C
/-- TRN_EDIT_LAST, after R270 of 07_attention_and_kv_cache.md. -/
def Reg.TRN_EDIT_LAST : Nat := 0x40000040020
/-- TRN_NSn_FREE, after R270 of 07_attention_and_kv_cache.md. -/
def Reg.TRN_NSn_FREE (n : Nat) : Nat := 0x40000040100 + 0x4 * n
/-- TRN_CNT_k, after R270 of 07_attention_and_kv_cache.md. -/
def Reg.TRN_CNT_k (k : Nat) : Nat := 0x40000040200 + 0x4 * k
/-- SCH_CTRL, after R312 of 08_loops_scheduling_arbitration.md. -/
def Reg.SCH_CTRL : Nat := 0x40000020000
/-- SCH_STAT, after R312 of 08_loops_scheduling_arbitration.md. -/
def Reg.SCH_STAT : Nat := 0x40000020004
/-- SCH_RIDGE_OWN_k, after R312 of 08_loops_scheduling_arbitration.md. -/
def Reg.SCH_RIDGE_OWN_k (k : Nat) : Nat := 0x40000020010 + 0x4 * k
/-- SCH_CNT_k, after R312 of 08_loops_scheduling_arbitration.md. -/
def Reg.SCH_CNT_k (k : Nat) : Nat := 0x40000020040 + 0x4 * k
/-- SCH_LOOPn_CFG, after R312 of 08_loops_scheduling_arbitration.md. -/
def Reg.SCH_LOOPn_CFG (n : Nat) : Nat := 0x40000020100 + 0x40 * n
/-- SCH_LOOPn_PERIOD, after R312 of 08_loops_scheduling_arbitration.md. -/
def Reg.SCH_LOOPn_PERIOD (n : Nat) : Nat := 0x40000020104 + 0x40 * n
/-- SCH_LOOPn_PHASE, after R312 of 08_loops_scheduling_arbitration.md. -/
def Reg.SCH_LOOPn_PHASE (n : Nat) : Nat := 0x40000020108 + 0x40 * n
/-- SCH_LOOPn_WIN, after R312 of 08_loops_scheduling_arbitration.md. -/
def Reg.SCH_LOOPn_WIN (n : Nat) : Nat := 0x4000002010C + 0x40 * n
/-- SCH_LOOPn_SAVE_LO, after R312 of 08_loops_scheduling_arbitration.md. -/
def Reg.SCH_LOOPn_SAVE_LO (n : Nat) : Nat := 0x40000020110 + 0x40 * n
/-- SCH_LOOPn_SAVE_HI, after R312 of 08_loops_scheduling_arbitration.md. -/
def Reg.SCH_LOOPn_SAVE_HI (n : Nat) : Nat := 0x40000020114 + 0x40 * n
/-- SCH_LOOPn_SAVE_SIZE, after R312 of 08_loops_scheduling_arbitration.md. -/
def Reg.SCH_LOOPn_SAVE_SIZE (n : Nat) : Nat := 0x40000020118 + 0x40 * n
/-- SCH_LOOPn_STAT, after R312 of 08_loops_scheduling_arbitration.md. -/
def Reg.SCH_LOOPn_STAT (n : Nat) : Nat := 0x4000002011C + 0x40 * n
/-- SCH_LOOPn_ACCT_LO, after R312 of 08_loops_scheduling_arbitration.md. -/
def Reg.SCH_LOOPn_ACCT_LO (n : Nat) : Nat := 0x40000020120 + 0x40 * n
/-- SCH_LOOPn_ACCT_HI, after R312 of 08_loops_scheduling_arbitration.md. -/
def Reg.SCH_LOOPn_ACCT_HI (n : Nat) : Nat := 0x40000020124 + 0x40 * n
/-- SCH_LOOPn_CNT_k, after R312 of 08_loops_scheduling_arbitration.md. -/
def Reg.SCH_LOOPn_CNT_k (n : Nat) (k : Nat) : Nat := 0x40000020128 + 0x40 * n + 0x4 * k
/-- SCH_LOOPn_PREEMPT_T, after R312 of 08_loops_scheduling_arbitration.md. -/
def Reg.SCH_LOOPn_PREEMPT_T (n : Nat) : Nat := 0x40000020138 + 0x40 * n
/-- SCH_LOOPn_BOOST_T, after R312 of 08_loops_scheduling_arbitration.md. -/
def Reg.SCH_LOOPn_BOOST_T (n : Nat) : Nat := 0x4000002013C + 0x40 * n
/-- SCH_SEMA_HELD_k, after R312 of 08_loops_scheduling_arbitration.md. -/
def Reg.SCH_SEMA_HELD_k (k : Nat) : Nat := 0x40000020600 + 0x4 * k
/-- SCH_COLPOOL_HELD, after R312 of 08_loops_scheduling_arbitration.md. -/
def Reg.SCH_COLPOOL_HELD : Nat := 0x40000020680
/-- SCH_SEMA_QUERY, after R312 of 08_loops_scheduling_arbitration.md. -/
def Reg.SCH_SEMA_QUERY : Nat := 0x40000020690
/-- SCH_SEMA_OWNER, after R312 of 08_loops_scheduling_arbitration.md. -/
def Reg.SCH_SEMA_OWNER : Nat := 0x40000020694
/-- ARB_CTRL, after R312 of 08_loops_scheduling_arbitration.md. -/
def Reg.ARB_CTRL : Nat := 0x40000030000
/-- ARB_FREEZE_k, after R312 of 08_loops_scheduling_arbitration.md. -/
def Reg.ARB_FREEZE_k (k : Nat) : Nat := 0x40000030010 + 0x4 * k
/-- ARB_DRAINED_k, after R312 of 08_loops_scheduling_arbitration.md. -/
def Reg.ARB_DRAINED_k (k : Nat) : Nat := 0x40000030030 + 0x4 * k
/-- ARB_BITE_LAST, after R312 of 08_loops_scheduling_arbitration.md. -/
def Reg.ARB_BITE_LAST : Nat := 0x40000030050
/-- ARB_BITES, after R312 of 08_loops_scheduling_arbitration.md. -/
def Reg.ARB_BITES : Nat := 0x40000030054
/-- ARB_STATa, after R312 of 08_loops_scheduling_arbitration.md. -/
def Reg.ARB_STATa (a : Nat) : Nat := 0x40000030100 + 0x4 * a
/-- COL_GRP, after R346 of 09_col_links_and_groups.md. -/
def Reg.COL_GRP : Nat := 0x400000D0000
/-- COL_CTRL, after R346 of 09_col_links_and_groups.md. -/
def Reg.COL_CTRL : Nat := 0x400000D0004
/-- COL_TSYNC, after R346 of 09_col_links_and_groups.md. -/
def Reg.COL_TSYNC : Nat := 0x400000D0008
/-- COL_Pp_CTRL, after R346 of 09_col_links_and_groups.md. -/
def Reg.COL_Pp_CTRL (p : Nat) : Nat := 0x400000D0100 + 0x100 * p
/-- COL_Pp_STAT, after R346 of 09_col_links_and_groups.md. -/
def Reg.COL_Pp_STAT (p : Nat) : Nat := 0x400000D0104 + 0x100 * p
/-- COL_Pp_CRED, after R346 of 09_col_links_and_groups.md. -/
def Reg.COL_Pp_CRED (p : Nat) : Nat := 0x400000D0108 + 0x100 * p
/-- COL_Pp_CNT_k, after R346 of 09_col_links_and_groups.md. -/
def Reg.COL_Pp_CNT_k (p : Nat) (k : Nat) : Nat := 0x400000D0110 + 0x100 * p + 0x4 * k
/-- HBM_CTRL, after R357 of 10_hbm_flash_and_check_values.md. -/
def Reg.HBM_CTRL : Nat := 0x400000B0000
/-- HBM_STAT, after R357 of 10_hbm_flash_and_check_values.md. -/
def Reg.HBM_STAT : Nat := 0x400000B0004
/-- HBM_CNT_k, after R357 of 10_hbm_flash_and_check_values.md. -/
def Reg.HBM_CNT_k (k : Nat) : Nat := 0x400000B0010 + 0x4 * k
/-- HBM_UE_ADDR_LO, after R357 of 10_hbm_flash_and_check_values.md. -/
def Reg.HBM_UE_ADDR_LO : Nat := 0x400000B0030
/-- HBM_UE_ADDR_HI, after R357 of 10_hbm_flash_and_check_values.md. -/
def Reg.HBM_UE_ADDR_HI : Nat := 0x400000B0034
/-- HBM_UE_INFO, after R357 of 10_hbm_flash_and_check_values.md. -/
def Reg.HBM_UE_INFO : Nat := 0x400000B0038
/-- FL_CTRL, after R376 of 10_hbm_flash_and_check_values.md. -/
def Reg.FL_CTRL : Nat := 0x400000C0000
/-- FL_STAT, after R376 of 10_hbm_flash_and_check_values.md. -/
def Reg.FL_STAT : Nat := 0x400000C0004
/-- FL_MAP_BASE, after R376 of 10_hbm_flash_and_check_values.md. -/
def Reg.FL_MAP_BASE : Nat := 0x400000C0008
/-- FL_WB_BASE, after R376 of 10_hbm_flash_and_check_values.md. -/
def Reg.FL_WB_BASE : Nat := 0x400000C000C
/-- FL_POLICY, after R376 of 10_hbm_flash_and_check_values.md. -/
def Reg.FL_POLICY : Nat := 0x400000C0010
/-- FL_WB_LIMIT, after R376 of 10_hbm_flash_and_check_values.md. -/
def Reg.FL_WB_LIMIT : Nat := 0x400000C0014
/-- FL_CNT_k, after R376 of 10_hbm_flash_and_check_values.md. -/
def Reg.FL_CNT_k (k : Nat) : Nat := 0x400000C0020 + 0x4 * k
/-- CV_CTRL, after R381 of 10_hbm_flash_and_check_values.md. -/
def Reg.CV_CTRL : Nat := 0x400000A0000
/-- CV_Un_SEL, after R381 of 10_hbm_flash_and_check_values.md. -/
def Reg.CV_Un_SEL (n : Nat) : Nat := 0x400000A0100 + 0x20 * n
/-- CV_Un_VAL_LO, after R381 of 10_hbm_flash_and_check_values.md. -/
def Reg.CV_Un_VAL_LO (n : Nat) : Nat := 0x400000A0104 + 0x20 * n
/-- CV_Un_VAL_HI, after R381 of 10_hbm_flash_and_check_values.md. -/
def Reg.CV_Un_VAL_HI (n : Nat) : Nat := 0x400000A0108 + 0x20 * n
/-- CV_Un_CNT_LO, after R381 of 10_hbm_flash_and_check_values.md. -/
def Reg.CV_Un_CNT_LO (n : Nat) : Nat := 0x400000A010C + 0x20 * n
/-- CV_Un_CNT_HI, after R381 of 10_hbm_flash_and_check_values.md. -/
def Reg.CV_Un_CNT_HI (n : Nat) : Nat := 0x400000A0110 + 0x20 * n
/-- CV_Un_DATA, after R381 of 10_hbm_flash_and_check_values.md. -/
def Reg.CV_Un_DATA (n : Nat) : Nat := 0x400000A0114 + 0x20 * n
/-- TB_CTRL, after R414 of 11_timebase_and_networks.md. -/
def Reg.TB_CTRL : Nat := 0x40000060000
/-- TB_STAT, after R414 of 11_timebase_and_networks.md. -/
def Reg.TB_STAT : Nat := 0x40000060004
/-- TB_NOW_LO, after R414 of 11_timebase_and_networks.md. -/
def Reg.TB_NOW_LO : Nat := 0x40000060010
/-- TB_NOW_HI, after R414 of 11_timebase_and_networks.md. -/
def Reg.TB_NOW_HI : Nat := 0x40000060014
/-- TB_NOW_EXT, after R414 of 11_timebase_and_networks.md. -/
def Reg.TB_NOW_EXT : Nat := 0x40000060018
/-- TB_RATE, after R414 of 11_timebase_and_networks.md. -/
def Reg.TB_RATE : Nat := 0x40000060020
/-- TB_LIMITS, after R414 of 11_timebase_and_networks.md. -/
def Reg.TB_LIMITS : Nat := 0x40000060024
/-- TB_STEP_THR, after R414 of 11_timebase_and_networks.md. -/
def Reg.TB_STEP_THR : Nat := 0x40000060028
/-- TB_OFFSET, after R414 of 11_timebase_and_networks.md. -/
def Reg.TB_OFFSET : Nat := 0x4000006002C
/-- TB_STEP_LO, after R414 of 11_timebase_and_networks.md. -/
def Reg.TB_STEP_LO : Nat := 0x40000060030
/-- TB_STEP_HI, after R414 of 11_timebase_and_networks.md. -/
def Reg.TB_STEP_HI : Nat := 0x40000060034
/-- TB_CNT_k, after R414 of 11_timebase_and_networks.md. -/
def Reg.TB_CNT_k (k : Nat) : Nat := 0x40000060040 + 0x4 * k
/-- TB_CMP_FIRED, after R414 of 11_timebase_and_networks.md. -/
def Reg.TB_CMP_FIRED : Nat := 0x40000060080
/-- TB_CMPn_CTRL, after R414 of 11_timebase_and_networks.md. -/
def Reg.TB_CMPn_CTRL (n : Nat) : Nat := 0x40000060100 + 0x10 * n
/-- TB_CMPn_LO, after R414 of 11_timebase_and_networks.md. -/
def Reg.TB_CMPn_LO (n : Nat) : Nat := 0x40000060104 + 0x10 * n
/-- TB_CMPn_HI, after R414 of 11_timebase_and_networks.md. -/
def Reg.TB_CMPn_HI (n : Nat) : Nat := 0x40000060108 + 0x10 * n
/-- TB_EVTn_LO, after R414 of 11_timebase_and_networks.md. -/
def Reg.TB_EVTn_LO (n : Nat) : Nat := 0x40000060200 + 0x8 * n
/-- TB_EVTn_HI, after R414 of 11_timebase_and_networks.md. -/
def Reg.TB_EVTn_HI (n : Nat) : Nat := 0x40000060204 + 0x8 * n
/-- ETH_CTRL, after R414 of 11_timebase_and_networks.md. -/
def Reg.ETH_CTRL (m : Nat) : Nat := 0x40000070000 + 0x4000 * m
/-- ETH_STAT, after R414 of 11_timebase_and_networks.md. -/
def Reg.ETH_STAT (m : Nat) : Nat := 0x40000070004 + 0x4000 * m
/-- ETH_LAT, after R414 of 11_timebase_and_networks.md. -/
def Reg.ETH_LAT (m : Nat) : Nat := 0x40000070008 + 0x4000 * m
/-- ETH_ADDR_LO, after R414 of 11_timebase_and_networks.md. -/
def Reg.ETH_ADDR_LO (m : Nat) : Nat := 0x4000007000C + 0x4000 * m
/-- ETH_ADDR_HI, after R414 of 11_timebase_and_networks.md. -/
def Reg.ETH_ADDR_HI (m : Nat) : Nat := 0x40000070010 + 0x4000 * m
/-- ETH_QBV_CTRL, after R414 of 11_timebase_and_networks.md. -/
def Reg.ETH_QBV_CTRL (m : Nat) : Nat := 0x40000070020 + 0x4000 * m
/-- ETH_QBV_BASE_LO, after R414 of 11_timebase_and_networks.md. -/
def Reg.ETH_QBV_BASE_LO (m : Nat) : Nat := 0x40000070024 + 0x4000 * m
/-- ETH_QBV_BASE_HI, after R414 of 11_timebase_and_networks.md. -/
def Reg.ETH_QBV_BASE_HI (m : Nat) : Nat := 0x40000070028 + 0x4000 * m
/-- ETH_QBV_CYCLE, after R414 of 11_timebase_and_networks.md. -/
def Reg.ETH_QBV_CYCLE (m : Nat) : Nat := 0x4000007002C + 0x4000 * m
/-- ETH_CBS_q, after R414 of 11_timebase_and_networks.md. -/
def Reg.ETH_CBS_q (m : Nat) (q : Nat) : Nat := 0x40000070040 + 0x4000 * m + 0x4 * q
/-- ETH_CNT_k, after R414 of 11_timebase_and_networks.md. -/
def Reg.ETH_CNT_k (m : Nat) (k : Nat) : Nat := 0x40000070080 + 0x4000 * m + 0x4 * k
/-- ETH_OVERSIZE, after R414 of 11_timebase_and_networks.md. -/
def Reg.ETH_OVERSIZE (m : Nat) : Nat := 0x4000007009C + 0x4000 * m
/-- ETH_GCL_i, after R414 of 11_timebase_and_networks.md. -/
def Reg.ETH_GCL_i (m : Nat) (i : Nat) : Nat := 0x40000071000 + 0x4000 * m + 0x4 * i
/-- CAN_CTRL, after R414 of 11_timebase_and_networks.md. -/
def Reg.CAN_CTRL (n : Nat) : Nat := 0x40000080000 + 0x1000 * n
/-- CAN_NBT, after R414 of 11_timebase_and_networks.md. -/
def Reg.CAN_NBT (n : Nat) : Nat := 0x40000080004 + 0x1000 * n
/-- CAN_DBT, after R414 of 11_timebase_and_networks.md. -/
def Reg.CAN_DBT (n : Nat) : Nat := 0x40000080008 + 0x1000 * n
/-- CAN_STAT, after R414 of 11_timebase_and_networks.md. -/
def Reg.CAN_STAT (n : Nat) : Nat := 0x4000008000C + 0x1000 * n
/-- CAN_CNT_k, after R414 of 11_timebase_and_networks.md. -/
def Reg.CAN_CNT_k (n : Nat) (k : Nat) : Nat := 0x40000080010 + 0x1000 * n + 0x4 * k
/-- CAN_FLTf_ID, after R414 of 11_timebase_and_networks.md. -/
def Reg.CAN_FLTf_ID (n : Nat) (f : Nat) : Nat := 0x40000080100 + 0x1000 * n + 0x8 * f
/-- CAN_FLTf_MASK, after R414 of 11_timebase_and_networks.md. -/
def Reg.CAN_FLTf_MASK (n : Nat) (f : Nat) : Nat := 0x40000080104 + 0x1000 * n + 0x8 * f
/-- ING_CTRL, after R443 of 12_sensor_ingest.md. -/
def Reg.ING_CTRL : Nat := 0x40000050000
/-- ING_STAT, after R443 of 12_sensor_ingest.md. -/
def Reg.ING_STAT : Nat := 0x40000050004
/-- ING_SCREE_BASE_LO, after R443 of 12_sensor_ingest.md. -/
def Reg.ING_SCREE_BASE_LO : Nat := 0x40000050010
/-- ING_SCREE_BASE_HI, after R443 of 12_sensor_ingest.md. -/
def Reg.ING_SCREE_BASE_HI : Nat := 0x40000050014
/-- ING_SCREE_HEAD, after R443 of 12_sensor_ingest.md. -/
def Reg.ING_SCREE_HEAD : Nat := 0x40000050018
/-- ING_CACHE_BASE_LO, after R443 of 12_sensor_ingest.md. -/
def Reg.ING_CACHE_BASE_LO : Nat := 0x40000050020
/-- ING_CACHE_BASE_HI, after R443 of 12_sensor_ingest.md. -/
def Reg.ING_CACHE_BASE_HI : Nat := 0x40000050024
/-- ING_CACHE_SIZE, after R443 of 12_sensor_ingest.md. -/
def Reg.ING_CACHE_SIZE : Nat := 0x40000050028
/-- ING_CSIp_CTRL, after R443 of 12_sensor_ingest.md. -/
def Reg.ING_CSIp_CTRL (p : Nat) : Nat := 0x40000050040 + 0x4 * p
/-- ING_CSIp_DISC, after R443 of 12_sensor_ingest.md. -/
def Reg.ING_CSIp_DISC (p : Nat) : Nat := 0x40000050080 + 0x4 * p
/-- ING_Sn_STAT, after R443 of 12_sensor_ingest.md. -/
def Reg.ING_Sn_STAT (n : Nat) : Nat := 0x40000050100 + 0x4 * n
/-- ING_Sn_CNT_k, after R443 of 12_sensor_ingest.md. -/
def Reg.ING_Sn_CNT_k (n : Nat) (k : Nat) : Nat := 0x40000051000 + 0x20 * n + 0x4 * k
/-- CE_CTRL, after R478 of 13_control_engine.md. -/
def Reg.CE_CTRL : Nat := 0x40000090000
/-- CE_STAT, after R478 of 13_control_engine.md. -/
def Reg.CE_STAT : Nat := 0x40000090004
/-- CE_PERIOD, after R478 of 13_control_engine.md. -/
def Reg.CE_PERIOD : Nat := 0x40000090008
/-- CE_SLOT_CYC, after R478 of 13_control_engine.md. -/
def Reg.CE_SLOT_CYC : Nat := 0x4000009000C
/-- CE_BASE_LO, after R478 of 13_control_engine.md. -/
def Reg.CE_BASE_LO : Nat := 0x40000090010
/-- CE_BASE_HI, after R478 of 13_control_engine.md. -/
def Reg.CE_BASE_HI : Nat := 0x40000090014
/-- CE_FRAME_LO, after R478 of 13_control_engine.md. -/
def Reg.CE_FRAME_LO : Nat := 0x40000090018
/-- CE_FRAME_HI, after R478 of 13_control_engine.md. -/
def Reg.CE_FRAME_HI : Nat := 0x4000009001C
/-- CE_SWAP_ERR, after R478 of 13_control_engine.md. -/
def Reg.CE_SWAP_ERR : Nat := 0x40000090020
/-- CE_JOFF_LO, after R478 of 13_control_engine.md. -/
def Reg.CE_JOFF_LO : Nat := 0x40000090024
/-- CE_JOFF_HI, after R478 of 13_control_engine.md. -/
def Reg.CE_JOFF_HI : Nat := 0x40000090028
/-- CE_CNT_k, after R478 of 13_control_engine.md. -/
def Reg.CE_CNT_k (k : Nat) : Nat := 0x40000090030 + 0x4 * k
/-- CE_POSTn_CFG, after R478 of 13_control_engine.md. -/
def Reg.CE_POSTn_CFG (n : Nat) : Nat := 0x40000090080 + 0x4 * n
/-- CE_TR_CTRL, after R478 of 13_control_engine.md. -/
def Reg.CE_TR_CTRL : Nat := 0x40000090100
/-- CE_TR_TRIG, after R478 of 13_control_engine.md. -/
def Reg.CE_TR_TRIG : Nat := 0x40000090104
/-- CE_TR_LEVEL, after R478 of 13_control_engine.md. -/
def Reg.CE_TR_LEVEL : Nat := 0x40000090108
/-- CE_TR_WIN, after R478 of 13_control_engine.md. -/
def Reg.CE_TR_WIN : Nat := 0x4000009010C
/-- CE_TR_STAT, after R478 of 13_control_engine.md. -/
def Reg.CE_TR_STAT : Nat := 0x40000090110
/-- CE_TR_POS, after R478 of 13_control_engine.md. -/
def Reg.CE_TR_POS : Nat := 0x40000090114
/-- CE_TR_STAMP_LO, after R478 of 13_control_engine.md. -/
def Reg.CE_TR_STAMP_LO : Nat := 0x40000090118
/-- CE_TR_STAMP_HI, after R478 of 13_control_engine.md. -/
def Reg.CE_TR_STAMP_HI : Nat := 0x4000009011C
/-- CE_TR_NODEi, after R478 of 13_control_engine.md. -/
def Reg.CE_TR_NODEi (i : Nat) : Nat := 0x40000090140 + 0x4 * i
/-- CE_CHn_MODE, after R478 of 13_control_engine.md. -/
def Reg.CE_CHn_MODE (n : Nat) : Nat := 0x40000090400 + 0x4 * n
/-- CE_CHn_MAN, after R478 of 13_control_engine.md. -/
def Reg.CE_CHn_MAN (n : Nat) : Nat := 0x40000090800 + 0x4 * n
/-- CE_CHn_STAT, after R478 of 13_control_engine.md. -/
def Reg.CE_CHn_STAT (n : Nat) : Nat := 0x40000090C00 + 0x4 * n
/-- SAF_CTRL, after R515 of 14_functional_safety.md. -/
def Reg.SAF_CTRL : Nat := 0x400000E0000
/-- SAF_STAT, after R515 of 14_functional_safety.md. -/
def Reg.SAF_STAT : Nat := 0x400000E0004
/-- SAF_INJ_STAT, after R515 of 14_functional_safety.md. -/
def Reg.SAF_INJ_STAT : Nat := 0x400000E0008
/-- SAF_PROMOTE, after R515 of 14_functional_safety.md. -/
def Reg.SAF_PROMOTE : Nat := 0x400000E000C
/-- SAF_SEQ, after R515 of 14_functional_safety.md. -/
def Reg.SAF_SEQ : Nat := 0x400000E0010
/-- SAF_ACK, after R515 of 14_functional_safety.md. -/
def Reg.SAF_ACK : Nat := 0x400000E0014
/-- SAF_F2_SEQ, after R515 of 14_functional_safety.md. -/
def Reg.SAF_F2_SEQ : Nat := 0x400000E0018
/-- SAF_RESET_CAUSE, after R515 of 14_functional_safety.md. -/
def Reg.SAF_RESET_CAUSE : Nat := 0x400000E001C
/-- SAF_TILE_OK_k, after R515 of 14_functional_safety.md. -/
def Reg.SAF_TILE_OK_k (k : Nat) : Nat := 0x400000E0020 + 0x4 * k
/-- SAF_DTI, after R515 of 14_functional_safety.md. -/
def Reg.SAF_DTI : Nat := 0x400000E0030
/-- SAF_ST_CFG, after R515 of 14_functional_safety.md. -/
def Reg.SAF_ST_CFG : Nat := 0x400000E0034
/-- SAF_CAIRN_STAT, after R515 of 14_functional_safety.md. -/
def Reg.SAF_CAIRN_STAT : Nat := 0x400000E0040
/-- SAF_CFG_CRC, after R515 of 14_functional_safety.md. -/
def Reg.SAF_CFG_CRC : Nat := 0x400000E0044
/-- SAF_CNT_k, after R598 of 14_functional_safety.md. -/
def Reg.SAF_CNT_k (k : Nat) : Nat := 0x400000E0080 + 0x4 * k
/-- SAF_TILEt_ST, after R598 of 14_functional_safety.md. -/
def Reg.SAF_TILEt_ST (t : Nat) : Nat := 0x400000E0100 + 0x4 * t
/-- SEC_LCS, after R544 of 15_boot_security_debug.md. -/
def Reg.SEC_LCS : Nat := 0x400000F0000
/-- SEC_BOOT, after R544 of 15_boot_security_debug.md. -/
def Reg.SEC_BOOT : Nat := 0x400000F0004
/-- SEC_KEYS, after R544 of 15_boot_security_debug.md. -/
def Reg.SEC_KEYS : Nat := 0x400000F0008
/-- DBG_STAT, after R544 of 15_boot_security_debug.md. -/
def Reg.DBG_STAT : Nat := 0x40000100000
/-- DBG_RT_CTRL, after R544 of 15_boot_security_debug.md. -/
def Reg.DBG_RT_CTRL : Nat := 0x40000100004
/-- DBG_RT_BPn, after R544 of 15_boot_security_debug.md. -/
def Reg.DBG_RT_BPn (n : Nat) : Nat := 0x40000100010 + 0x4 * n
/-- DBG_RT_HALTED_k, after R544 of 15_boot_security_debug.md. -/
def Reg.DBG_RT_HALTED_k (k : Nat) : Nat := 0x40000100060 + 0x4 * k
/-- SDIO_CTRL, after R572 of 16_command_interface.md. -/
def Reg.SDIO_CTRL : Nat := 0x40000110000
/-- SDIO_STAT, after R572 of 16_command_interface.md. -/
def Reg.SDIO_STAT : Nat := 0x40000110004
/-- SDIO_INT_STAT, after R572 of 16_command_interface.md. -/
def Reg.SDIO_INT_STAT : Nat := 0x40000110008
/-- SDIO_INT_EN, after R572 of 16_command_interface.md. -/
def Reg.SDIO_INT_EN : Nat := 0x4000011000C
/-- SDIO_CMD_SPACE, after R572 of 16_command_interface.md. -/
def Reg.SDIO_CMD_SPACE : Nat := 0x40000110010
/-- SDIO_REPLY_LEN, after R572 of 16_command_interface.md. -/
def Reg.SDIO_REPLY_LEN : Nat := 0x40000110014
/-- SDIO_CNT_k, after R572 of 16_command_interface.md. -/
def Reg.SDIO_CNT_k (k : Nat) : Nat := 0x40000110020 + 0x4 * k
/-- PWR_CTRL, after R595 of 17_electrical_and_thermal.md. -/
def Reg.PWR_CTRL : Nat := 0x40000010000
/-- PWR_STAT, after R595 of 17_electrical_and_thermal.md. -/
def Reg.PWR_STAT : Nat := 0x40000010004
/-- PWR_MEAS, after R595 of 17_electrical_and_thermal.md. -/
def Reg.PWR_MEAS : Nat := 0x40000010008
/-- PWR_THERM, after R595 of 17_electrical_and_thermal.md. -/
def Reg.PWR_THERM : Nat := 0x4000001000C
/-- PWR_INLET, after R595 of 17_electrical_and_thermal.md. -/
def Reg.PWR_INLET : Nat := 0x40000010010
/-- PWR_CNT_k, after R595 of 17_electrical_and_thermal.md. -/
def Reg.PWR_CNT_k (k : Nat) : Nat := 0x40000010020 + 0x4 * k

namespace Fld.GEN_ID
def PART : Fd := ⟨31, 16⟩
def GRADE : Fd := ⟨15, 12⟩
def STEPPING : Fd := ⟨7, 0⟩
end Fld.GEN_ID
namespace Fld.GEN_RIDGE_EN
def RIDGE_EN : Fd := ⟨23, 0⟩
end Fld.GEN_RIDGE_EN
namespace Fld.GEN_PACE_n
def PEAK : Fd := ⟨31, 16⟩
def CUR : Fd := ⟨15, 0⟩
end Fld.GEN_PACE_n
namespace Fld.GEN_PACE_SLOW
def ALL_INVALID : Fd := ⟨31, 31⟩
def FALLING : Fd := ⟨30, 30⟩
def SLOWEST : Fd := ⟨20, 16⟩
def VALUE : Fd := ⟨15, 0⟩
end Fld.GEN_PACE_SLOW
namespace Fld.GEN_PACE_CTRL
def CLR_PEAK : Fd := ⟨28, 28⟩
def INVALID : Fd := ⟨27, 0⟩
end Fld.GEN_PACE_CTRL
namespace Fld.GEN_ND_TOTAL_LO
def COUNT_LO : Fd := ⟨31, 0⟩
end Fld.GEN_ND_TOTAL_LO
namespace Fld.GEN_ND_TOTAL_HI
def COUNT_HI : Fd := ⟨31, 0⟩
end Fld.GEN_ND_TOTAL_HI
namespace Fld.GEN_ND_INGEST
def COUNT : Fd := ⟨31, 0⟩
end Fld.GEN_ND_INGEST
namespace Fld.GEN_ND_COLLIDE
def COUNT : Fd := ⟨31, 0⟩
end Fld.GEN_ND_COLLIDE
namespace Fld.GEN_ND_SEMA
def COUNT : Fd := ⟨31, 0⟩
end Fld.GEN_ND_SEMA
namespace Fld.GEN_ND_LAST
def CAUSE : Fd := ⟨31, 30⟩
def LOOP : Fd := ⟨27, 24⟩
def DETAIL : Fd := ⟨15, 0⟩
end Fld.GEN_ND_LAST
namespace Fld.GEN_ND_CTRL
def CLR : Fd := ⟨0, 0⟩
end Fld.GEN_ND_CTRL
namespace Fld.GEN_ND_LOOP_n
def COUNT : Fd := ⟨31, 0⟩
end Fld.GEN_ND_LOOP_n
namespace Fld.TILE_ARR_CTRL
def CNT_CLR : Fd := ⟨31, 31⟩
def RAMP : Fd := ⟨4, 0⟩
end Fld.TILE_ARR_CTRL
namespace Fld.TILE_ARR_MAP
def RETIRED : Fd := ⟨11, 8⟩
def LOG3 : Fd := ⟨7, 6⟩
def LOG2 : Fd := ⟨5, 4⟩
def LOG1 : Fd := ⟨3, 2⟩
def LOG0 : Fd := ⟨1, 0⟩
end Fld.TILE_ARR_MAP
namespace Fld.TILE_ARRn_STAT
def RETIRED : Fd := ⟨31, 31⟩
def RET_CAUSE : Fd := ⟨30, 29⟩
def ROW_REP : Fd := ⟨28, 28⟩
def ROW_BAD : Fd := ⟨27, 24⟩
def COL_REP : Fd := ⟨23, 23⟩
def COL_BAD : Fd := ⟨22, 16⟩
def RAMP_STATE : Fd := ⟨15, 14⟩
def BACK : Fd := ⟨13, 12⟩
def FRONT_PAR : Fd := ⟨11, 11⟩
def DFLAGS : Fd := ⟨4, 0⟩
end Fld.TILE_ARRn_STAT
namespace Fld.TILE_ARRn_CNT_k
def COUNT : Fd := ⟨31, 0⟩
end Fld.TILE_ARRn_CNT_k
namespace Fld.TILE_STAT
def STATE : Fd := ⟨31, 29⟩
def FENCED : Fd := ⟨28, 28⟩
def SPUR_BUSY : Fd := ⟨27, 27⟩
def ENTRY : Fd := ⟨19, 0⟩
end Fld.TILE_STAT
namespace Fld.TILE_MEM_CTRL
def CNT_CLR : Fd := ⟨31, 31⟩
end Fld.TILE_MEM_CTRL
namespace Fld.TILE_AM_CONF_b
def COUNT : Fd := ⟨31, 0⟩
end Fld.TILE_AM_CONF_b
namespace Fld.TILE_PS_CONF_b
def COUNT : Fd := ⟨31, 0⟩
end Fld.TILE_PS_CONF_b
namespace Fld.TILE_ECC_CE_m
def COUNT : Fd := ⟨31, 0⟩
end Fld.TILE_ECC_CE_m
namespace Fld.TILE_ECC_UE
def COUNT : Fd := ⟨31, 0⟩
end Fld.TILE_ECC_UE
namespace Fld.TILE_ECC_LAST
def UE : Fd := ⟨31, 31⟩
def MEM : Fd := ⟨30, 29⟩
def ROW : Fd := ⟨14, 0⟩
end Fld.TILE_ECC_LAST
namespace Fld.TILE_COLLIDE
def COUNT : Fd := ⟨31, 0⟩
end Fld.TILE_COLLIDE
namespace Fld.TILE_WR_SLOTn
def STATE : Fd := ⟨31, 29⟩
def USES : Fd := ⟨15, 0⟩
end Fld.TILE_WR_SLOTn
namespace Fld.TILE_WR_STAT
def FILL_PTR : Fd := ⟨28, 26⟩
def DEPTH : Fd := ⟨25, 23⟩
def OUTSTANDING : Fd := ⟨9, 0⟩
end Fld.TILE_WR_STAT
namespace Fld.TILE_WR_CNT_k
def COUNT : Fd := ⟨31, 0⟩
end Fld.TILE_WR_CNT_k
namespace Fld.TILE_LQn_CFG
def EN : Fd := ⟨31, 31⟩
def LENM1 : Fd := ⟨30, 16⟩
def BASE : Fd := ⟨14, 0⟩
end Fld.TILE_LQn_CFG
namespace Fld.TILE_LQn_SRC
def KIND : Fd := ⟨31, 30⟩
def PKG : Fd := ⟨29, 28⟩
def TILE : Fd := ⟨6, 0⟩
end Fld.TILE_LQn_SRC
namespace Fld.TILE_LQn_PTR
def WPTR : Fd := ⟨30, 16⟩
def RELPTR : Fd := ⟨14, 0⟩
end Fld.TILE_LQn_PTR
namespace Fld.TILE_LQn_RD
def LEFT : Fd := ⟨31, 31⟩
def RDPTR : Fd := ⟨30, 16⟩
def HELD : Fd := ⟨15, 0⟩
end Fld.TILE_LQn_RD
namespace Fld.TILE_SPUR_STAT
def BUSY : Fd := ⟨31, 31⟩
def TRAP : Fd := ⟨30, 30⟩
def RESULT : Fd := ⟨15, 0⟩
end Fld.TILE_SPUR_STAT
namespace Fld.TILE_SPUR_CAUSE
def CAUSE : Fd := ⟨31, 0⟩
end Fld.TILE_SPUR_CAUSE
namespace Fld.TILE_SPUR_EPC_LO
def EPC_LO : Fd := ⟨31, 0⟩
end Fld.TILE_SPUR_EPC_LO
namespace Fld.TILE_SPUR_EPC_HI
def EPC_HI : Fd := ⟨31, 0⟩
end Fld.TILE_SPUR_EPC_HI
namespace Fld.TILE_SPUR_CALLS
def COUNT : Fd := ⟨31, 0⟩
end Fld.TILE_SPUR_CALLS
namespace Fld.RDG_STAT
def FENCED : Fd := ⟨31, 28⟩
def LINK_UP : Fd := ⟨27, 24⟩
def XBAR_FAULT : Fd := ⟨0, 0⟩
end Fld.RDG_STAT
namespace Fld.RDG_CTRL
def CNT_CLR : Fd := ⟨31, 31⟩
end Fld.RDG_CTRL
namespace Fld.RDG_PORT_ROWS_p
def COUNT : Fd := ⟨31, 0⟩
end Fld.RDG_PORT_ROWS_p
namespace Fld.SCH_RT_LOADED_LO
def LOADED_LO : Fd := ⟨31, 0⟩
end Fld.SCH_RT_LOADED_LO
namespace Fld.SCH_RT_LOADED_HI
def LOADED_HI : Fd := ⟨31, 0⟩
end Fld.SCH_RT_LOADED_HI
namespace Fld.SCH_RT_VERR
def REASON : Fd := ⟨31, 27⟩
def LTILE : Fd := ⟨26, 20⟩
def ENTRY : Fd := ⟨19, 0⟩
end Fld.SCH_RT_VERR
namespace Fld.SCH_RTh_STAT
def LOADED : Fd := ⟨31, 31⟩
def BOUND : Fd := ⟨30, 30⟩
def SPEC_EN : Fd := ⟨29, 29⟩
def PENDING : Fd := ⟨28, 28⟩
def LOOP : Fd := ⟨27, 24⟩
def NRIDGES : Fd := ⟨23, 19⟩
def RUN_AHEAD : Fd := ⟨18, 16⟩
end Fld.SCH_RTh_STAT
namespace Fld.SCH_RTh_ID
def ROUTE_ID : Fd := ⟨31, 0⟩
end Fld.SCH_RTh_ID
namespace Fld.TILE_SPEC_CNT_k
def COUNT : Fd := ⟨31, 0⟩
end Fld.TILE_SPEC_CNT_k
namespace Fld.TILE_SPEC_CTRL
def CNT_CLR : Fd := ⟨31, 31⟩
end Fld.TILE_SPEC_CTRL
namespace Fld.TILE_CONV_STAT
def EMPTY : Fd := ⟨31, 31⟩
def OFLAGS : Fd := ⟨20, 16⟩
def ETABLE : Fd := ⟨7, 0⟩
end Fld.TILE_CONV_STAT
namespace Fld.TILE_CONV_CTRL
def CNT_CLR : Fd := ⟨31, 31⟩
end Fld.TILE_CONV_CTRL
namespace Fld.TILE_CONV_CNT_k
def COUNT : Fd := ⟨31, 0⟩
end Fld.TILE_CONV_CNT_k
namespace Fld.TRN_CTRL
def CNT_CLR : Fd := ⟨31, 31⟩
def EN : Fd := ⟨0, 0⟩
end Fld.TRN_CTRL
namespace Fld.TRN_HBM_BASE_LO
def BASE_LO : Fd := ⟨31, 29⟩
end Fld.TRN_HBM_BASE_LO
namespace Fld.TRN_HBM_BASE_HI
def BASE_HI : Fd := ⟨15, 0⟩
end Fld.TRN_HBM_BASE_HI
namespace Fld.TRN_STAT
def CFG_LOCKED_WRITE : Fd := ⟨31, 31⟩
def POOL_SHORT : Fd := ⟨30, 30⟩
def OPEN : Fd := ⟨12, 0⟩
end Fld.TRN_STAT
namespace Fld.TRN_EPOCH
def EPOCH : Fd := ⟨31, 0⟩
end Fld.TRN_EPOCH
namespace Fld.TRN_FREE_NODES
def COUNT : Fd := ⟨20, 0⟩
end Fld.TRN_FREE_NODES
namespace Fld.TRN_FREE_DESC
def COUNT : Fd := ⟨22, 0⟩
end Fld.TRN_FREE_DESC
namespace Fld.TRN_EDITQ
def QUEUED : Fd := ⟨12, 0⟩
end Fld.TRN_EDITQ
namespace Fld.TRN_EDIT_LAST
def TAG : Fd := ⟨31, 16⟩
def STATUS : Fd := ⟨15, 0⟩
end Fld.TRN_EDIT_LAST
namespace Fld.TRN_NSn_FREE
def FRAMES : Fd := ⟨24, 0⟩
end Fld.TRN_NSn_FREE
namespace Fld.TRN_CNT_k
def COUNT : Fd := ⟨31, 0⟩
end Fld.TRN_CNT_k
namespace Fld.SCH_CTRL
def CNT_CLR : Fd := ⟨31, 31⟩
def EN : Fd := ⟨0, 0⟩
end Fld.SCH_CTRL
namespace Fld.SCH_STAT
def CFG_LOCKED_WRITE : Fd := ⟨31, 31⟩
def ACTIVE : Fd := ⟨15, 0⟩
end Fld.SCH_STAT
namespace Fld.SCH_RIDGE_OWN_k
def RIDGE0 : Fd := ⟨7, 0⟩
def RIDGE1 : Fd := ⟨15, 8⟩
def RIDGE2 : Fd := ⟨23, 16⟩
def RIDGE3 : Fd := ⟨31, 24⟩
end Fld.SCH_RIDGE_OWN_k
namespace Fld.SCH_CNT_k
def COUNT : Fd := ⟨31, 0⟩
end Fld.SCH_CNT_k
namespace Fld.SCH_LOOPn_CFG
def CLASS : Fd := ⟨31, 30⟩
def EN : Fd := ⟨29, 29⟩
def SHARE : Fd := ⟨15, 0⟩
end Fld.SCH_LOOPn_CFG
namespace Fld.SCH_LOOPn_PERIOD
def PERIOD : Fd := ⟨23, 0⟩
end Fld.SCH_LOOPn_PERIOD
namespace Fld.SCH_LOOPn_PHASE
def PHASE : Fd := ⟨23, 0⟩
end Fld.SCH_LOOPn_PHASE
namespace Fld.SCH_LOOPn_WIN
def GUARD : Fd := ⟨31, 16⟩
def LEN : Fd := ⟨15, 0⟩
end Fld.SCH_LOOPn_WIN
namespace Fld.SCH_LOOPn_SAVE_LO
def BASE_LO : Fd := ⟨31, 16⟩
end Fld.SCH_LOOPn_SAVE_LO
namespace Fld.SCH_LOOPn_SAVE_HI
def BASE_HI : Fd := ⟨15, 0⟩
end Fld.SCH_LOOPn_SAVE_HI
namespace Fld.SCH_LOOPn_SAVE_SIZE
def SIZE : Fd := ⟨15, 0⟩
end Fld.SCH_LOOPn_SAVE_SIZE
namespace Fld.SCH_LOOPn_STAT
def STATE : Fd := ⟨31, 29⟩
def BOOSTED : Fd := ⟨28, 28⟩
def SAVE_SHORT : Fd := ⟨27, 27⟩
def ABORTED : Fd := ⟨26, 26⟩
def WAIT : Fd := ⟨25, 23⟩
end Fld.SCH_LOOPn_STAT
namespace Fld.SCH_LOOPn_ACCT_LO
def ACCT_LO : Fd := ⟨31, 0⟩
end Fld.SCH_LOOPn_ACCT_LO
namespace Fld.SCH_LOOPn_ACCT_HI
def ACCT_HI : Fd := ⟨31, 0⟩
end Fld.SCH_LOOPn_ACCT_HI
namespace Fld.SCH_LOOPn_CNT_k
def COUNT : Fd := ⟨31, 0⟩
end Fld.SCH_LOOPn_CNT_k
namespace Fld.SCH_LOOPn_PREEMPT_T
def PREEMPT_MAX : Fd := ⟨31, 16⟩
def PREEMPT_LAST : Fd := ⟨15, 0⟩
end Fld.SCH_LOOPn_PREEMPT_T
namespace Fld.SCH_LOOPn_BOOST_T
def BOOST_MAX : Fd := ⟨31, 16⟩
def BOOST_LAST : Fd := ⟨15, 0⟩
end Fld.SCH_LOOPn_BOOST_T
namespace Fld.SCH_SEMA_HELD_k
def HELD : Fd := ⟨31, 0⟩
end Fld.SCH_SEMA_HELD_k
namespace Fld.SCH_COLPOOL_HELD
def HELD : Fd := ⟨23, 0⟩
end Fld.SCH_COLPOOL_HELD
namespace Fld.SCH_SEMA_QUERY
def POOL : Fd := ⟨10, 10⟩
def NUMBER : Fd := ⟨9, 0⟩
end Fld.SCH_SEMA_QUERY
namespace Fld.SCH_SEMA_OWNER
def HELD : Fd := ⟨31, 31⟩
def LOOP : Fd := ⟨27, 24⟩
def WAITERS : Fd := ⟨23, 16⟩
def RANK : Fd := ⟨15, 0⟩
end Fld.SCH_SEMA_OWNER
namespace Fld.ARB_CTRL
def CNT_CLR : Fd := ⟨31, 31⟩
def PROMOTE : Fd := ⟨19, 16⟩
def WDOG : Fd := ⟨15, 0⟩
end Fld.ARB_CTRL
namespace Fld.ARB_FREEZE_k
def FREEZE : Fd := ⟨31, 0⟩
end Fld.ARB_FREEZE_k
namespace Fld.ARB_DRAINED_k
def DRAINED : Fd := ⟨31, 0⟩
end Fld.ARB_DRAINED_k
namespace Fld.ARB_BITE_LAST
def ARB : Fd := ⟨23, 16⟩
def REQ : Fd := ⟨7, 0⟩
end Fld.ARB_BITE_LAST
namespace Fld.ARB_BITES
def COUNT : Fd := ⟨31, 0⟩
end Fld.ARB_BITES
namespace Fld.ARB_STATa
def OWNED : Fd := ⟨31, 31⟩
def OWNER_CLASS : Fd := ⟨30, 29⟩
def FROZEN : Fd := ⟨28, 28⟩
def PENDING : Fd := ⟨23, 16⟩
def REMOVED : Fd := ⟨15, 8⟩
def OWNER : Fd := ⟨7, 0⟩
end Fld.ARB_STATa
namespace Fld.COL_GRP
def PKG : Fd := ⟨31, 30⟩
def GRP : Fd := ⟨29, 28⟩
def BOOT_COL : Fd := ⟨27, 27⟩
def PEER_UP : Fd := ⟨23, 20⟩
end Fld.COL_GRP
namespace Fld.COL_CTRL
def CNT_CLR : Fd := ⟨31, 31⟩
def AUTO : Fd := ⟨30, 30⟩
def RTO : Fd := ⟨15, 0⟩
end Fld.COL_CTRL
namespace Fld.COL_TSYNC
def OFFSET : Fd := ⟨31, 0⟩
end Fld.COL_TSYNC
namespace Fld.COL_Pp_CTRL
def RETRAIN : Fd := ⟨31, 31⟩
def EN : Fd := ⟨30, 30⟩
def ALLOW4 : Fd := ⟨0, 0⟩
end Fld.COL_Pp_CTRL
namespace Fld.COL_Pp_STAT
def STATE : Fd := ⟨31, 29⟩
def PEER_PKG : Fd := ⟨28, 27⟩
def PEER_PORT : Fd := ⟨26, 24⟩
def WIDTH4 : Fd := ⟨23, 23⟩
def WIRING : Fd := ⟨22, 22⟩
def LANE_FAIL : Fd := ⟨15, 8⟩
end Fld.COL_Pp_STAT
namespace Fld.COL_Pp_CRED
def MGMT : Fd := ⟨31, 24⟩
def STREAM : Fd := ⟨23, 16⟩
def RESP : Fd := ⟨15, 8⟩
def REQ : Fd := ⟨7, 0⟩
end Fld.COL_Pp_CRED
namespace Fld.COL_Pp_CNT_k
def COUNT : Fd := ⟨31, 0⟩
end Fld.COL_Pp_CNT_k
namespace Fld.HBM_CTRL
def CNT_CLR : Fd := ⟨31, 31⟩
def SCRUB_EN : Fd := ⟨8, 8⟩
def SCRUB_H : Fd := ⟨7, 0⟩
end Fld.HBM_CTRL
namespace Fld.HBM_STAT
def READY : Fd := ⟨31, 31⟩
def HOT : Fd := ⟨7, 4⟩
def TRAIN_FAIL : Fd := ⟨3, 0⟩
end Fld.HBM_STAT
namespace Fld.HBM_CNT_k
def COUNT : Fd := ⟨31, 0⟩
end Fld.HBM_CNT_k
namespace Fld.HBM_UE_ADDR_LO
def ADDR_LO : Fd := ⟨31, 0⟩
end Fld.HBM_UE_ADDR_LO
namespace Fld.HBM_UE_ADDR_HI
def ADDR_HI : Fd := ⟨15, 0⟩
end Fld.HBM_UE_ADDR_HI
namespace Fld.HBM_UE_INFO
def ADDR : Fd := ⟨31, 31⟩
def PC : Fd := ⟨14, 8⟩
def REQ : Fd := ⟨7, 0⟩
end Fld.HBM_UE_INFO
namespace Fld.FL_CTRL
def CNT_CLR : Fd := ⟨31, 31⟩
def EN : Fd := ⟨0, 0⟩
end Fld.FL_CTRL
namespace Fld.FL_STAT
def STATE : Fd := ⟨31, 29⟩
def CLEAN : Fd := ⟨28, 28⟩
def GEOM : Fd := ⟨27, 27⟩
def CFG_LOCKED_WRITE : Fd := ⟨26, 26⟩
def TARGETS : Fd := ⟨7, 0⟩
end Fld.FL_STAT
namespace Fld.FL_MAP_BASE
def BASE : Fd := ⟨25, 0⟩
end Fld.FL_MAP_BASE
namespace Fld.FL_WB_BASE
def BASE : Fd := ⟨10, 0⟩
end Fld.FL_WB_BASE
namespace Fld.FL_POLICY
def SCRUB_THR : Fd := ⟨31, 24⟩
def SCRUB_D : Fd := ⟨23, 16⟩
def SPARE_WARN : Fd := ⟨15, 8⟩
def WEAR_THR : Fd := ⟨7, 0⟩
end Fld.FL_POLICY
namespace Fld.FL_WB_LIMIT
def LIMIT : Fd := ⟨12, 0⟩
end Fld.FL_WB_LIMIT
namespace Fld.FL_CNT_k
def COUNT : Fd := ⟨31, 0⟩
end Fld.FL_CNT_k
namespace Fld.CV_CTRL
def SLICE : Fd := ⟨7, 0⟩
end Fld.CV_CTRL
namespace Fld.CV_Un_SEL
def CLAIM : Fd := ⟨31, 31⟩
def CLAIMED : Fd := ⟨30, 30⟩
def CFG_LOCKED_WRITE : Fd := ⟨29, 29⟩
def START : Fd := ⟨28, 28⟩
def BYTES : Fd := ⟨4, 2⟩
def SEL : Fd := ⟨1, 0⟩
end Fld.CV_Un_SEL
namespace Fld.CV_Un_VAL_LO
def VALUE_LO : Fd := ⟨31, 0⟩
end Fld.CV_Un_VAL_LO
namespace Fld.CV_Un_VAL_HI
def VALUE_HI : Fd := ⟨31, 0⟩
end Fld.CV_Un_VAL_HI
namespace Fld.CV_Un_CNT_LO
def COUNT_LO : Fd := ⟨31, 0⟩
end Fld.CV_Un_CNT_LO
namespace Fld.CV_Un_CNT_HI
def COUNT_HI : Fd := ⟨31, 0⟩
end Fld.CV_Un_CNT_HI
namespace Fld.CV_Un_DATA
def DATA : Fd := ⟨31, 0⟩
end Fld.CV_Un_DATA
namespace Fld.TB_CTRL
def RESTEP : Fd := ⟨31, 31⟩
def CNT_CLR : Fd := ⟨30, 30⟩
def KIS : Fd := ⟨7, 4⟩
def KPS : Fd := ⟨3, 0⟩
end Fld.TB_CTRL
namespace Fld.TB_STAT
def STATE : Fd := ⟨31, 30⟩
def FAR : Fd := ⟨29, 29⟩
def STEPPED : Fd := ⟨28, 28⟩
def SOURCE : Fd := ⟨27, 26⟩
def PORT : Fd := ⟨25, 24⟩
end Fld.TB_STAT
namespace Fld.TB_NOW_LO
def STAMP_LO : Fd := ⟨31, 0⟩
end Fld.TB_NOW_LO
namespace Fld.TB_NOW_HI
def STAMP_HI : Fd := ⟨31, 0⟩
end Fld.TB_NOW_HI
namespace Fld.TB_NOW_EXT
def SEC_TOP : Fd := ⟨31, 18⟩
def FRAC : Fd := ⟨15, 0⟩
end Fld.TB_NOW_EXT
namespace Fld.TB_RATE
def RATE : Fd := ⟨31, 0⟩
end Fld.TB_RATE
namespace Fld.TB_LIMITS
def LOCK_NS : Fd := ⟨31, 16⟩
def SLEW : Fd := ⟨15, 0⟩
end Fld.TB_LIMITS
namespace Fld.TB_STEP_THR
def THR : Fd := ⟨31, 0⟩
end Fld.TB_STEP_THR
namespace Fld.TB_OFFSET
def THETA : Fd := ⟨31, 0⟩
end Fld.TB_OFFSET
namespace Fld.TB_STEP_LO
def STEP_LO : Fd := ⟨31, 0⟩
end Fld.TB_STEP_LO
namespace Fld.TB_STEP_HI
def STEP_HI : Fd := ⟨31, 0⟩
end Fld.TB_STEP_HI
namespace Fld.TB_CNT_k
def COUNT : Fd := ⟨31, 0⟩
end Fld.TB_CNT_k
namespace Fld.TB_CMP_FIRED
def FIRED : Fd := ⟨7, 0⟩
end Fld.TB_CMP_FIRED
namespace Fld.TB_CMPn_CTRL
def EN : Fd := ⟨31, 31⟩
def OUT : Fd := ⟨30, 30⟩
def PERIOD : Fd := ⟨29, 0⟩
end Fld.TB_CMPn_CTRL
namespace Fld.TB_CMPn_LO
def TARGET_LO : Fd := ⟨31, 0⟩
end Fld.TB_CMPn_LO
namespace Fld.TB_CMPn_HI
def TARGET_HI : Fd := ⟨31, 0⟩
end Fld.TB_CMPn_HI
namespace Fld.TB_EVTn_LO
def STAMP_LO : Fd := ⟨31, 0⟩
end Fld.TB_EVTn_LO
namespace Fld.TB_EVTn_HI
def STAMP_HI : Fd := ⟨31, 0⟩
end Fld.TB_EVTn_HI
namespace Fld.ETH_CTRL
def CNT_CLR : Fd := ⟨31, 31⟩
def EN : Fd := ⟨30, 30⟩
def IF : Fd := ⟨29, 29⟩
def SPEED : Fd := ⟨28, 27⟩
def PTP_ROLE : Fd := ⟨26, 25⟩
def PTP_PROFILE : Fd := ⟨24, 24⟩
def JUMBO : Fd := ⟨23, 23⟩
def ALLMC : Fd := ⟨22, 22⟩
def ETYPE : Fd := ⟨15, 0⟩
end Fld.ETH_CTRL
namespace Fld.ETH_STAT
def LINK : Fd := ⟨31, 31⟩
def CFG_LOCKED_WRITE : Fd := ⟨30, 30⟩
def CFG_BAD : Fd := ⟨29, 29⟩
def ROLE_REFUSED : Fd := ⟨28, 28⟩
def GCL_PEND : Fd := ⟨27, 27⟩
end Fld.ETH_STAT
namespace Fld.ETH_LAT
def TX_LAT : Fd := ⟨31, 16⟩
def RX_LAT : Fd := ⟨15, 0⟩
end Fld.ETH_LAT
namespace Fld.ETH_ADDR_LO
def ADDR_LO : Fd := ⟨31, 0⟩
end Fld.ETH_ADDR_LO
namespace Fld.ETH_ADDR_HI
def ADDR_HI : Fd := ⟨15, 0⟩
end Fld.ETH_ADDR_HI
namespace Fld.ETH_QBV_CTRL
def CHANGE : Fd := ⟨31, 31⟩
def EN : Fd := ⟨30, 30⟩
def LEN : Fd := ⟨8, 0⟩
end Fld.ETH_QBV_CTRL
namespace Fld.ETH_QBV_BASE_LO
def BASE_LO : Fd := ⟨31, 0⟩
end Fld.ETH_QBV_BASE_LO
namespace Fld.ETH_QBV_BASE_HI
def BASE_HI : Fd := ⟨31, 0⟩
end Fld.ETH_QBV_BASE_HI
namespace Fld.ETH_QBV_CYCLE
def CYCLE : Fd := ⟨29, 0⟩
end Fld.ETH_QBV_CYCLE
namespace Fld.ETH_CBS_q
def EN : Fd := ⟨31, 31⟩
def IDLE : Fd := ⟨30, 0⟩
end Fld.ETH_CBS_q
namespace Fld.ETH_CNT_k
def COUNT : Fd := ⟨31, 0⟩
end Fld.ETH_CNT_k
namespace Fld.ETH_OVERSIZE
def COUNT : Fd := ⟨31, 0⟩
end Fld.ETH_OVERSIZE
namespace Fld.ETH_GCL_i
def GATES : Fd := ⟨31, 24⟩
def INTERVAL : Fd := ⟨23, 0⟩
end Fld.ETH_GCL_i
namespace Fld.CAN_CTRL
def CNT_CLR : Fd := ⟨31, 31⟩
def EN : Fd := ⟨30, 30⟩
def MODE : Fd := ⟨29, 28⟩
def FD : Fd := ⟨27, 27⟩
def AUTO_REC : Fd := ⟨26, 26⟩
def RECOVER : Fd := ⟨25, 25⟩
end Fld.CAN_CTRL
namespace Fld.CAN_NBT
def BRP : Fd := ⟨31, 27⟩
def TSEG1 : Fd := ⟨26, 19⟩
def TSEG2 : Fd := ⟨18, 12⟩
def SJW : Fd := ⟨11, 5⟩
end Fld.CAN_NBT
namespace Fld.CAN_DBT
def BRP : Fd := ⟨31, 27⟩
def TSEG1 : Fd := ⟨26, 22⟩
def TSEG2 : Fd := ⟨21, 18⟩
def SJW : Fd := ⟨17, 14⟩
def TDC_EN : Fd := ⟨13, 13⟩
def TDC_OFF : Fd := ⟨12, 6⟩
end Fld.CAN_DBT
namespace Fld.CAN_STAT
def ESTATE : Fd := ⟨31, 30⟩
def CFG_LOCKED_WRITE : Fd := ⟨29, 29⟩
def REC : Fd := ⟨23, 16⟩
def TEC : Fd := ⟨15, 8⟩
end Fld.CAN_STAT
namespace Fld.CAN_CNT_k
def COUNT : Fd := ⟨31, 0⟩
end Fld.CAN_CNT_k
namespace Fld.CAN_FLTf_ID
def ROUTE : Fd := ⟨31, 30⟩
def IDE : Fd := ⟨29, 29⟩
def ID : Fd := ⟨28, 0⟩
end Fld.CAN_FLTf_ID
namespace Fld.CAN_FLTf_MASK
def MASK : Fd := ⟨28, 0⟩
end Fld.CAN_FLTf_MASK
namespace Fld.ING_CTRL
def CNT_CLR : Fd := ⟨31, 31⟩
def EN : Fd := ⟨0, 0⟩
end Fld.ING_CTRL
namespace Fld.ING_STAT
def CFG_LOCKED_WRITE : Fd := ⟨31, 31⟩
def OPEN : Fd := ⟨22, 16⟩
def NET : Fd := ⟨12, 8⟩
def CSI : Fd := ⟨5, 0⟩
end Fld.ING_STAT
namespace Fld.ING_SCREE_BASE_LO
def BASE_LO : Fd := ⟨31, 12⟩
end Fld.ING_SCREE_BASE_LO
namespace Fld.ING_SCREE_BASE_HI
def BASE_HI : Fd := ⟨15, 0⟩
end Fld.ING_SCREE_BASE_HI
namespace Fld.ING_SCREE_HEAD
def COUNT : Fd := ⟨31, 0⟩
end Fld.ING_SCREE_HEAD
namespace Fld.ING_CACHE_BASE_LO
def BASE_LO : Fd := ⟨31, 26⟩
end Fld.ING_CACHE_BASE_LO
namespace Fld.ING_CACHE_BASE_HI
def BASE_HI : Fd := ⟨15, 0⟩
end Fld.ING_CACHE_BASE_HI
namespace Fld.ING_CACHE_SIZE
def SIZE : Fd := ⟨9, 0⟩
end Fld.ING_CACHE_SIZE
namespace Fld.ING_CSIp_CTRL
def EN : Fd := ⟨31, 31⟩
def LANES : Fd := ⟨30, 29⟩
end Fld.ING_CSIp_CTRL
namespace Fld.ING_CSIp_DISC
def COUNT : Fd := ⟨31, 0⟩
end Fld.ING_CSIp_DISC
namespace Fld.ING_Sn_STAT
def STATE : Fd := ⟨31, 30⟩
def KIND : Fd := ⟨29, 28⟩
def ORDERED : Fd := ⟨27, 27⟩
def PINNED : Fd := ⟨23, 16⟩
def COMPLETE : Fd := ⟨15, 8⟩
def NEWEST : Fd := ⟨3, 0⟩
end Fld.ING_Sn_STAT
namespace Fld.ING_Sn_CNT_k
def COUNT : Fd := ⟨31, 0⟩
end Fld.ING_Sn_CNT_k
namespace Fld.CE_CTRL
def CNT_CLR : Fd := ⟨31, 31⟩
def SWAP : Fd := ⟨30, 30⟩
def EN : Fd := ⟨0, 0⟩
end Fld.CE_CTRL
namespace Fld.CE_STAT
def CFG_LOCKED_WRITE : Fd := ⟨31, 31⟩
def RUN : Fd := ⟨30, 30⟩
def ACTIVE : Fd := ⟨29, 29⟩
def SWAP_PEND : Fd := ⟨28, 28⟩
def SAFE_ALL : Fd := ⟨27, 27⟩
end Fld.CE_STAT
namespace Fld.CE_PERIOD
def PERIOD : Fd := ⟨31, 0⟩
end Fld.CE_PERIOD
namespace Fld.CE_SLOT_CYC
def C : Fd := ⟨20, 0⟩
end Fld.CE_SLOT_CYC
namespace Fld.CE_BASE_LO
def BASE_LO : Fd := ⟨31, 0⟩
end Fld.CE_BASE_LO
namespace Fld.CE_BASE_HI
def BASE_HI : Fd := ⟨31, 0⟩
end Fld.CE_BASE_HI
namespace Fld.CE_FRAME_LO
def FRAME_LO : Fd := ⟨31, 0⟩
end Fld.CE_FRAME_LO
namespace Fld.CE_FRAME_HI
def FRAME_HI : Fd := ⟨31, 0⟩
end Fld.CE_FRAME_HI
namespace Fld.CE_SWAP_ERR
def REASON : Fd := ⟨31, 27⟩
def SLOT : Fd := ⟨26, 18⟩
def ITEM : Fd := ⟨15, 0⟩
end Fld.CE_SWAP_ERR
namespace Fld.CE_JOFF_LO
def JOFF_LO : Fd := ⟨31, 0⟩
end Fld.CE_JOFF_LO
namespace Fld.CE_JOFF_HI
def JOFF_HI : Fd := ⟨31, 0⟩
end Fld.CE_JOFF_HI
namespace Fld.CE_CNT_k
def COUNT : Fd := ⟨31, 0⟩
end Fld.CE_CNT_k
namespace Fld.CE_POSTn_CFG
def EN : Fd := ⟨31, 31⟩
def NROWS : Fd := ⟨30, 24⟩
def LTILE : Fd := ⟨22, 16⟩
def ROW : Fd := ⟨14, 0⟩
end Fld.CE_POSTn_CFG
namespace Fld.CE_TR_CTRL
def ARM : Fd := ⟨31, 31⟩
def FORCE : Fd := ⟨30, 30⟩
def NNODES : Fd := ⟨29, 24⟩
def DIVM1 : Fd := ⟨15, 0⟩
end Fld.CE_TR_CTRL
namespace Fld.CE_TR_TRIG
def KIND : Fd := ⟨31, 28⟩
def TNODE : Fd := ⟨20, 16⟩
def TCH : Fd := ⟨7, 0⟩
end Fld.CE_TR_TRIG
namespace Fld.CE_TR_LEVEL
def LEVEL : Fd := ⟨31, 0⟩
end Fld.CE_TR_LEVEL
namespace Fld.CE_TR_WIN
def PRE : Fd := ⟨31, 16⟩
def POST : Fd := ⟨15, 0⟩
end Fld.CE_TR_WIN
namespace Fld.CE_TR_STAT
def STATE : Fd := ⟨31, 30⟩
def BADCFG : Fd := ⟨29, 29⟩
def PRE_GOT : Fd := ⟨15, 0⟩
end Fld.CE_TR_STAT
namespace Fld.CE_TR_POS
def FIRST_IDX : Fd := ⟨31, 16⟩
def TRIG_IDX : Fd := ⟨15, 0⟩
end Fld.CE_TR_POS
namespace Fld.CE_TR_STAMP_LO
def STAMP_LO : Fd := ⟨31, 0⟩
end Fld.CE_TR_STAMP_LO
namespace Fld.CE_TR_STAMP_HI
def STAMP_HI : Fd := ⟨31, 0⟩
end Fld.CE_TR_STAMP_HI
namespace Fld.CE_TR_NODEi
def SIG : Fd := ⟨12, 8⟩
def CH : Fd := ⟨7, 0⟩
end Fld.CE_TR_NODEi
namespace Fld.CE_CHn_MODE
def MODE : Fd := ⟨31, 30⟩
end Fld.CE_CHn_MODE
namespace Fld.CE_CHn_MAN
def MAN_OUT : Fd := ⟨31, 0⟩
end Fld.CE_CHn_MAN
namespace Fld.CE_CHn_STAT
def MODE : Fd := ⟨31, 30⟩
def STALE : Fd := ⟨29, 29⟩
def SAT : Fd := ⟨28, 28⟩
def NOSLOT : Fd := ⟨27, 27⟩
def SAFE_CAUSE : Fd := ⟨26, 24⟩
def STALE_RUN : Fd := ⟨23, 0⟩
end Fld.CE_CHn_STAT
namespace Fld.SAF_CTRL
def CNT_CLR : Fd := ⟨31, 31⟩
def CAIRN_EN : Fd := ⟨30, 30⟩
def ST_EN : Fd := ⟨29, 29⟩
def F3_DELAY : Fd := ⟨15, 0⟩
end Fld.SAF_CTRL
namespace Fld.SAF_STAT
def INJ_DONE : Fd := ⟨31, 31⟩
def INJ_FAIL : Fd := ⟨30, 30⟩
def OUT_EN : Fd := ⟨29, 29⟩
def F2_LATCHED : Fd := ⟨28, 28⟩
def DEBUG_HOLD : Fd := ⟨27, 27⟩
def HOLD : Fd := ⟨26, 26⟩
def ALERT : Fd := ⟨25, 25⟩
def CFG_LOCKED_WRITE : Fd := ⟨24, 24⟩
end Fld.SAF_STAT
namespace Fld.SAF_INJ_STAT
def PASSED : Fd := ⟨10, 0⟩
end Fld.SAF_INJ_STAT
namespace Fld.SAF_PROMOTE
def PROMOTE : Fd := ⟨31, 1⟩
end Fld.SAF_PROMOTE
namespace Fld.SAF_SEQ
def SEQ : Fd := ⟨31, 0⟩
end Fld.SAF_SEQ
namespace Fld.SAF_ACK
def SEQ : Fd := ⟨31, 0⟩
end Fld.SAF_ACK
namespace Fld.SAF_F2_SEQ
def SEQ : Fd := ⟨31, 0⟩
end Fld.SAF_F2_SEQ
namespace Fld.SAF_RESET_CAUSE
def SOURCE : Fd := ⟨31, 24⟩
def RECENT : Fd := ⟨19, 18⟩
def CODE : Fd := ⟨15, 0⟩
end Fld.SAF_RESET_CAUSE
namespace Fld.SAF_TILE_OK_k
def OK : Fd := ⟨31, 0⟩
end Fld.SAF_TILE_OK_k
namespace Fld.SAF_DTI
def DTI : Fd := ⟨31, 0⟩
end Fld.SAF_DTI
namespace Fld.SAF_ST_CFG
def FORCE : Fd := ⟨31, 16⟩
def MAXPAR : Fd := ⟨4, 0⟩
end Fld.SAF_ST_CFG
namespace Fld.SAF_CAIRN_STAT
def LAST : Fd := ⟨31, 30⟩
def RUN : Fd := ⟨7, 0⟩
end Fld.SAF_CAIRN_STAT
namespace Fld.SAF_CFG_CRC
def CRC : Fd := ⟨31, 0⟩
end Fld.SAF_CFG_CRC
namespace Fld.SAF_CNT_k
def COUNT : Fd := ⟨31, 0⟩
end Fld.SAF_CNT_k
namespace Fld.SAF_TILEt_ST
def LATE : Fd := ⟨31, 31⟩
def FAILED : Fd := ⟨30, 30⟩
def DONE : Fd := ⟨29, 24⟩
def CYCLES : Fd := ⟨15, 0⟩
end Fld.SAF_TILEt_ST
namespace Fld.SEC_LCS
def STATE : Fd := ⟨31, 29⟩
def FUSED : Fd := ⟨28, 26⟩
def ID_BLOCK : Fd := ⟨25, 25⟩
def DEBUG_THIS_BOOT : Fd := ⟨24, 24⟩
def SLOT : Fd := ⟨23, 23⟩
def COL_BOOTED : Fd := ⟨22, 22⟩
def RECOVERY : Fd := ⟨21, 21⟩
def DEBUG_COUNT : Fd := ⟨15, 8⟩
def SVN_MIN : Fd := ⟨7, 0⟩
end Fld.SEC_LCS
namespace Fld.SEC_BOOT
def REASON0 : Fd := ⟨31, 24⟩
def REASON1 : Fd := ⟨23, 16⟩
def STAGE : Fd := ⟨15, 12⟩
end Fld.SEC_BOOT
namespace Fld.SEC_KEYS
def REVOKED : Fd := ⟨11, 8⟩
def PRESENT : Fd := ⟨7, 4⟩
end Fld.SEC_KEYS
namespace Fld.DBG_STAT
def OPEN : Fd := ⟨31, 31⟩
def SCOPE : Fd := ⟨30, 28⟩
def FAILS : Fd := ⟨15, 8⟩
end Fld.DBG_STAT
namespace Fld.DBG_RT_CTRL
def GROUP : Fd := ⟨31, 31⟩
def RESUME : Fd := ⟨30, 30⟩
def STEP : Fd := ⟨29, 29⟩
def HALT : Fd := ⟨28, 28⟩
def TILE : Fd := ⟨6, 0⟩
end Fld.DBG_RT_CTRL
namespace Fld.DBG_RT_BPn
def EN : Fd := ⟨31, 31⟩
def TILE : Fd := ⟨30, 24⟩
def LOOP : Fd := ⟨23, 20⟩
def ENTRY : Fd := ⟨19, 0⟩
end Fld.DBG_RT_BPn
namespace Fld.DBG_RT_HALTED_k
def HALTED : Fd := ⟨31, 0⟩
end Fld.DBG_RT_HALTED_k
namespace Fld.SDIO_CTRL
def CNT_CLR : Fd := ⟨31, 31⟩
def SPACE_THR : Fd := ⟨15, 8⟩
end Fld.SDIO_CTRL
namespace Fld.SDIO_STAT
def READY : Fd := ⟨31, 31⟩
def RECOVERY : Fd := ⟨30, 30⟩
def OUTSTANDING : Fd := ⟨21, 16⟩
def DEFERRED : Fd := ⟨15, 0⟩
end Fld.SDIO_STAT
namespace Fld.SDIO_INT_STAT
def FAULT : Fd := ⟨4, 4⟩
def OVERRUN : Fd := ⟨3, 3⟩
def HDR_ERR : Fd := ⟨2, 2⟩
def SPACE : Fd := ⟨1, 1⟩
def REPLY : Fd := ⟨0, 0⟩
end Fld.SDIO_INT_STAT
namespace Fld.SDIO_INT_EN
def FAULT : Fd := ⟨4, 4⟩
def EN : Fd := ⟨3, 0⟩
end Fld.SDIO_INT_EN
namespace Fld.SDIO_CMD_SPACE
def SPACE : Fd := ⟨16, 0⟩
end Fld.SDIO_CMD_SPACE
namespace Fld.SDIO_REPLY_LEN
def LEN : Fd := ⟨16, 0⟩
end Fld.SDIO_REPLY_LEN
namespace Fld.SDIO_CNT_k
def COUNT : Fd := ⟨31, 0⟩
end Fld.SDIO_CNT_k
namespace Fld.PWR_CTRL
def CNT_CLR : Fd := ⟨31, 31⟩
def BOOST : Fd := ⟨30, 30⟩
def CAP : Fd := ⟨29, 28⟩
def GOV_MAX : Fd := ⟨21, 16⟩
end Fld.PWR_CTRL
namespace Fld.PWR_STAT
def BOOT_ONLY : Fd := ⟨31, 31⟩
def TRANS : Fd := ⟨30, 30⟩
def OVERCAP : Fd := ⟨29, 29⟩
def CFG_LOCKED_WRITE : Fd := ⟨28, 28⟩
def CAP_EFF : Fd := ⟨27, 26⟩
def STRETCH : Fd := ⟨25, 20⟩
def HBM_LIM : Fd := ⟨19, 18⟩
def VFAB : Fd := ⟨15, 0⟩
end Fld.PWR_STAT
namespace Fld.PWR_MEAS
def PEAK : Fd := ⟨31, 16⟩
def AVG : Fd := ⟨15, 0⟩
end Fld.PWR_MEAS
namespace Fld.PWR_THERM
def FAB_MAX : Fd := ⟨31, 24⟩
def HBM_MAX : Fd := ⟨23, 16⟩
end Fld.PWR_THERM
namespace Fld.PWR_INLET
def BAND : Fd := ⟨11, 8⟩
def INLET : Fd := ⟨7, 0⟩
end Fld.PWR_INLET
namespace Fld.PWR_CNT_k
def COUNT : Fd := ⟨31, 0⟩
end Fld.PWR_CNT_k

def regTable_gen_0 : List RegDesc :=
  [⟨0x40000000000, [], [⟨31, 16, .RO, 0x940⟩, ⟨15, 12, .RO, 0xA⟩, ⟨7, 0, .RO, 0x11⟩]⟩,
   ⟨0x40000000004, [], [⟨23, 0, .RO, 0xFFFFFF⟩]⟩,
   ⟨0x40000000100, [(28, 0x4)], [⟨31, 16, .RO, 0x0⟩, ⟨15, 0, .RO, 0x0⟩]⟩,
   ⟨0x40000000180, [], [⟨31, 31, .RO, 0x0⟩, ⟨30, 30, .RO, 0x0⟩, ⟨20, 16, .RO, 0x0⟩, ⟨15, 0, .RO, 0x0⟩]⟩,
   ⟨0x40000000184, [], [⟨28, 28, .WO, 0x0⟩, ⟨27, 0, .RO, 0x0⟩]⟩,
   ⟨0x40000000200, [], [⟨31, 0, .RO, 0x0⟩]⟩,
   ⟨0x40000000204, [], [⟨31, 0, .RO, 0x0⟩]⟩,
   ⟨0x40000000208, [], [⟨31, 0, .RO, 0x0⟩]⟩,
   ⟨0x4000000020C, [], [⟨31, 0, .RO, 0x0⟩]⟩,
   ⟨0x40000000210, [], [⟨31, 0, .RO, 0x0⟩]⟩,
   ⟨0x40000000214, [], [⟨31, 30, .RO, 0x0⟩, ⟨27, 24, .RO, 0x0⟩, ⟨15, 0, .RO, 0x0⟩]⟩,
   ⟨0x40000000218, [], [⟨0, 0, .WO, 0x0⟩]⟩]
def regTable_gen_1 : List RegDesc :=
  [⟨0x40000000240, [(16, 0x4)], [⟨31, 0, .RO, 0x0⟩]⟩]
/-- The registers of the GEN block. -/
def regTable_gen : List RegDesc := regTable_gen_0 ++ regTable_gen_1
def regTable_tile_0 : List RegDesc :=
  [⟨0x100003F1000, [(96, 0x400000)], [⟨31, 31, .WO, 0x0⟩, ⟨4, 0, .RWS, 0x6⟩]⟩,
   ⟨0x100003F1004, [(96, 0x400000)], [⟨11, 8, .RO, 0x0⟩, ⟨7, 6, .RO, 0x3⟩, ⟨5, 4, .RO, 0x2⟩, ⟨3, 2, .RO, 0x1⟩, ⟨1, 0, .RO, 0x0⟩]⟩,
   ⟨0x100003F1010, [(96, 0x400000), (4, 0x4)], [⟨31, 31, .RO, 0x0⟩, ⟨30, 29, .RO, 0x0⟩, ⟨28, 28, .RO, 0x0⟩, ⟨27, 24, .RO, 0x0⟩, ⟨23, 23, .RO, 0x0⟩, ⟨22, 16, .RO, 0x0⟩, ⟨15, 14, .RO, 0x0⟩, ⟨13, 12, .RO, 0x0⟩, ⟨11, 11, .RO, 0x0⟩, ⟨4, 0, .W1C, 0x0⟩]⟩,
   ⟨0x100003F1020, [(96, 0x400000), (4, 0x20), (8, 0x4)], [⟨31, 0, .RO, 0x0⟩]⟩,
   ⟨0x100003F0000, [(96, 0x400000)], [⟨31, 29, .RO, 0x0⟩, ⟨28, 28, .RO, 0x0⟩, ⟨27, 27, .RO, 0x0⟩, ⟨19, 0, .RO, 0x0⟩]⟩,
   ⟨0x100003F0100, [(96, 0x400000)], [⟨31, 31, .WO, 0x0⟩]⟩,
   ⟨0x100003F0110, [(96, 0x400000), (16, 0x4)], [⟨31, 0, .RO, 0x0⟩]⟩,
   ⟨0x100003F0150, [(96, 0x400000), (4, 0x4)], [⟨31, 0, .RO, 0x0⟩]⟩,
   ⟨0x100003F0160, [(96, 0x400000), (3, 0x4)], [⟨31, 0, .RO, 0x0⟩]⟩,
   ⟨0x100003F016C, [(96, 0x400000)], [⟨31, 0, .RO, 0x0⟩]⟩,
   ⟨0x100003F0170, [(96, 0x400000)], [⟨31, 31, .RO, 0x0⟩, ⟨30, 29, .RO, 0x0⟩, ⟨14, 0, .RO, 0x0⟩]⟩,
   ⟨0x100003F0174, [(96, 0x400000)], [⟨31, 0, .RO, 0x0⟩]⟩]
def regTable_tile_1 : List RegDesc :=
  [⟨0x100003F0200, [(96, 0x400000), (6, 0x4)], [⟨31, 29, .RO, 0x0⟩, ⟨15, 0, .RO, 0x0⟩]⟩,
   ⟨0x100003F0220, [(96, 0x400000)], [⟨28, 26, .RO, 0x0⟩, ⟨25, 23, .RO, 0x6⟩, ⟨9, 0, .RO, 0x0⟩]⟩,
   ⟨0x100003F0230, [(96, 0x400000), (4, 0x4)], [⟨31, 0, .RO, 0x0⟩]⟩,
   ⟨0x100003F0300, [(96, 0x400000), (16, 0x10)], [⟨31, 31, .RO, 0x0⟩, ⟨30, 16, .RO, 0x0⟩, ⟨14, 0, .RO, 0x0⟩]⟩,
   ⟨0x100003F0304, [(96, 0x400000), (16, 0x10)], [⟨31, 30, .RO, 0x0⟩, ⟨29, 28, .RO, 0x0⟩, ⟨6, 0, .RO, 0x0⟩]⟩,
   ⟨0x100003F0308, [(96, 0x400000), (16, 0x10)], [⟨30, 16, .RO, 0x0⟩, ⟨14, 0, .RO, 0x0⟩]⟩,
   ⟨0x100003F030C, [(96, 0x400000), (16, 0x10)], [⟨31, 31, .W1C, 0x0⟩, ⟨30, 16, .RO, 0x0⟩, ⟨15, 0, .RO, 0x0⟩]⟩,
   ⟨0x100003F0400, [(96, 0x400000)], [⟨31, 31, .RO, 0x0⟩, ⟨30, 30, .RO, 0x0⟩, ⟨15, 0, .RO, 0x0⟩]⟩,
   ⟨0x100003F0404, [(96, 0x400000)], [⟨31, 0, .RO, 0x0⟩]⟩,
   ⟨0x100003F0408, [(96, 0x400000)], [⟨31, 0, .RO, 0x0⟩]⟩,
   ⟨0x100003F040C, [(96, 0x400000)], [⟨31, 0, .RO, 0x0⟩]⟩,
   ⟨0x100003F0410, [(96, 0x400000)], [⟨31, 0, .RO, 0x0⟩]⟩]
def regTable_tile_2 : List RegDesc :=
  [⟨0x100003F0500, [(96, 0x400000), (5, 0x4)], [⟨31, 0, .RO, 0x0⟩]⟩,
   ⟨0x100003F0520, [(96, 0x400000)], [⟨31, 31, .WO, 0x0⟩]⟩,
   ⟨0x100003F0600, [(96, 0x400000)], [⟨31, 31, .W1C, 0x0⟩, ⟨20, 16, .W1C, 0x0⟩, ⟨7, 0, .RO, 0x0⟩]⟩,
   ⟨0x100003F0604, [(96, 0x400000)], [⟨31, 31, .WO, 0x0⟩]⟩,
   ⟨0x100003F0610, [(96, 0x400000), (4, 0x4)], [⟨31, 0, .RO, 0x0⟩]⟩]
/-- The registers of the TILE block. -/
def regTable_tile : List RegDesc := regTable_tile_0 ++ regTable_tile_1 ++ regTable_tile_2
def regTable_rdg_0 : List RegDesc :=
  [⟨0x40000200000, [(24, 0x10000)], [⟨31, 28, .RO, 0x0⟩, ⟨27, 24, .RO, 0x0⟩, ⟨0, 0, .RO, 0x0⟩]⟩,
   ⟨0x40000200004, [(24, 0x10000)], [⟨31, 31, .WO, 0x0⟩]⟩,
   ⟨0x40000200040, [(24, 0x10000), (9, 0x4)], [⟨31, 0, .RO, 0x0⟩]⟩]
/-- The registers of the RDG block. -/
def regTable_rdg : List RegDesc := regTable_rdg_0
def regTable_sch_0 : List RegDesc :=
  [⟨0x40000020800, [], [⟨31, 0, .RO, 0x0⟩]⟩,
   ⟨0x40000020804, [], [⟨31, 0, .RO, 0x0⟩]⟩,
   ⟨0x40000020808, [], [⟨31, 27, .RO, 0x0⟩, ⟨26, 20, .RO, 0x0⟩, ⟨19, 0, .RO, 0x0⟩]⟩,
   ⟨0x40000020900, [(64, 0x4)], [⟨31, 31, .RO, 0x0⟩, ⟨30, 30, .RO, 0x0⟩, ⟨29, 29, .RO, 0x0⟩, ⟨28, 28, .RO, 0x0⟩, ⟨27, 24, .RO, 0x0⟩, ⟨23, 19, .RO, 0x0⟩, ⟨18, 16, .RO, 0x0⟩]⟩,
   ⟨0x40000020A00, [(64, 0x4)], [⟨31, 0, .RO, 0x0⟩]⟩,
   ⟨0x40000020000, [], [⟨31, 31, .WO, 0x0⟩, ⟨0, 0, .RW, 0x0⟩]⟩,
   ⟨0x40000020004, [], [⟨31, 31, .W1C, 0x0⟩, ⟨15, 0, .RO, 0x0⟩]⟩,
   ⟨0x40000020010, [(6, 0x4)], [⟨7, 0, .RO, 0x0⟩, ⟨15, 8, .RO, 0x0⟩, ⟨23, 16, .RO, 0x0⟩, ⟨31, 24, .RO, 0x0⟩]⟩,
   ⟨0x40000020040, [(4, 0x4)], [⟨31, 0, .RO, 0x0⟩]⟩,
   ⟨0x40000020100, [(16, 0x40)], [⟨31, 30, .RWS, 0x0⟩, ⟨29, 29, .RW, 0x0⟩, ⟨15, 0, .RWS, 0x1⟩]⟩,
   ⟨0x40000020104, [(16, 0x40)], [⟨23, 0, .RWS, 0x2710⟩]⟩,
   ⟨0x40000020108, [(16, 0x40)], [⟨23, 0, .RWS, 0x0⟩]⟩]
def regTable_sch_1 : List RegDesc :=
  [⟨0x4000002010C, [(16, 0x40)], [⟨31, 16, .RWS, 0x190⟩, ⟨15, 0, .RWS, 0x0⟩]⟩,
   ⟨0x40000020110, [(16, 0x40)], [⟨31, 16, .RWL, 0x0⟩]⟩,
   ⟨0x40000020114, [(16, 0x40)], [⟨15, 0, .RWL, 0x0⟩]⟩,
   ⟨0x40000020118, [(16, 0x40)], [⟨15, 0, .RWL, 0x0⟩]⟩,
   ⟨0x4000002011C, [(16, 0x40)], [⟨31, 29, .RO, 0x0⟩, ⟨28, 28, .RO, 0x0⟩, ⟨27, 27, .W1C, 0x0⟩, ⟨26, 26, .W1C, 0x0⟩, ⟨25, 23, .RO, 0x0⟩]⟩,
   ⟨0x40000020120, [(16, 0x40)], [⟨31, 0, .RO, 0x0⟩]⟩,
   ⟨0x40000020124, [(16, 0x40)], [⟨31, 0, .RO, 0x0⟩]⟩,
   ⟨0x40000020128, [(16, 0x40), (4, 0x4)], [⟨31, 0, .RO, 0x0⟩]⟩,
   ⟨0x40000020138, [(16, 0x40)], [⟨31, 16, .RO, 0x0⟩, ⟨15, 0, .RO, 0x0⟩]⟩,
   ⟨0x4000002013C, [(16, 0x40)], [⟨31, 16, .RO, 0x0⟩, ⟨15, 0, .RO, 0x0⟩]⟩,
   ⟨0x40000020600, [(32, 0x4)], [⟨31, 0, .RO, 0x0⟩]⟩,
   ⟨0x40000020680, [], [⟨23, 0, .RO, 0x0⟩]⟩]
def regTable_sch_2 : List RegDesc :=
  [⟨0x40000020690, [], [⟨10, 10, .RW, 0x0⟩, ⟨9, 0, .RW, 0x0⟩]⟩,
   ⟨0x40000020694, [], [⟨31, 31, .RO, 0x0⟩, ⟨27, 24, .RO, 0x0⟩, ⟨23, 16, .RO, 0x0⟩, ⟨15, 0, .RO, 0x0⟩]⟩]
/-- The registers of the SCH block. -/
def regTable_sch : List RegDesc := regTable_sch_0 ++ regTable_sch_1 ++ regTable_sch_2
def regTable_trn_0 : List RegDesc :=
  [⟨0x40000040000, [], [⟨31, 31, .WO, 0x0⟩, ⟨0, 0, .RWL, 0x0⟩]⟩,
   ⟨0x40000040004, [], [⟨31, 29, .RWL, 0x0⟩]⟩,
   ⟨0x40000040008, [], [⟨15, 0, .RWL, 0x0⟩]⟩,
   ⟨0x4000004000C, [], [⟨31, 31, .W1C, 0x0⟩, ⟨30, 30, .W1C, 0x0⟩, ⟨12, 0, .RO, 0x0⟩]⟩,
   ⟨0x40000040010, [], [⟨31, 0, .RO, 0x0⟩]⟩,
   ⟨0x40000040014, [], [⟨20, 0, .RO, 0x100000⟩]⟩,
   ⟨0x40000040018, [], [⟨22, 0, .RO, 0x0⟩]⟩,
   ⟨0x4000004001C, [], [⟨12, 0, .RO, 0x0⟩]⟩,
   ⟨0x40000040020, [], [⟨31, 16, .RO, 0x0⟩, ⟨15, 0, .RO, 0x0⟩]⟩,
   ⟨0x40000040100, [(16, 0x4)], [⟨24, 0, .RO, 0x0⟩]⟩,
   ⟨0x40000040200, [(16, 0x4)], [⟨31, 0, .RO, 0x0⟩]⟩]
/-- The registers of the TRN block. -/
def regTable_trn : List RegDesc := regTable_trn_0
def regTable_arb_0 : List RegDesc :=
  [⟨0x40000030000, [], [⟨31, 31, .WO, 0x0⟩, ⟨19, 16, .RW, 0xF⟩, ⟨15, 0, .RW, 0x3E8⟩]⟩,
   ⟨0x40000030010, [(8, 0x4)], [⟨31, 0, .RW, 0x0⟩]⟩,
   ⟨0x40000030030, [(8, 0x4)], [⟨31, 0, .RO, 0x0⟩]⟩,
   ⟨0x40000030050, [], [⟨23, 16, .RO, 0x0⟩, ⟨7, 0, .RO, 0x0⟩]⟩,
   ⟨0x40000030054, [], [⟨31, 0, .RO, 0x0⟩]⟩,
   ⟨0x40000030100, [(256, 0x4)], [⟨31, 31, .RO, 0x0⟩, ⟨30, 29, .RO, 0x0⟩, ⟨28, 28, .RO, 0x0⟩, ⟨23, 16, .RO, 0x0⟩, ⟨15, 8, .RO, 0x0⟩, ⟨7, 0, .RO, 0x0⟩]⟩]
/-- The registers of the ARB block. -/
def regTable_arb : List RegDesc := regTable_arb_0
def regTable_col_0 : List RegDesc :=
  [⟨0x400000D0000, [], [⟨31, 30, .RO, 0x0⟩, ⟨29, 28, .RO, 0x0⟩, ⟨27, 27, .RO, 0x0⟩, ⟨23, 20, .RO, 0x0⟩]⟩,
   ⟨0x400000D0004, [], [⟨31, 31, .WO, 0x0⟩, ⟨30, 30, .RW, 0x1⟩, ⟨15, 0, .RW, 0x7D0⟩]⟩,
   ⟨0x400000D0008, [], [⟨31, 0, .RO, 0x0⟩]⟩,
   ⟨0x400000D0100, [(6, 0x100)], [⟨31, 31, .WO, 0x0⟩, ⟨30, 30, .RW, 0x0⟩, ⟨0, 0, .RW, 0x1⟩]⟩,
   ⟨0x400000D0104, [(6, 0x100)], [⟨31, 29, .RO, 0x0⟩, ⟨28, 27, .RO, 0x0⟩, ⟨26, 24, .RO, 0x0⟩, ⟨23, 23, .RO, 0x0⟩, ⟨22, 22, .W1C, 0x0⟩, ⟨15, 8, .RO, 0x0⟩]⟩,
   ⟨0x400000D0108, [(6, 0x100)], [⟨31, 24, .RO, 0x0⟩, ⟨23, 16, .RO, 0x0⟩, ⟨15, 8, .RO, 0x0⟩, ⟨7, 0, .RO, 0x0⟩]⟩,
   ⟨0x400000D0110, [(6, 0x100), (9, 0x4)], [⟨31, 0, .RO, 0x0⟩]⟩]
/-- The registers of the COL block. -/
def regTable_col : List RegDesc := regTable_col_0
def regTable_hbm_0 : List RegDesc :=
  [⟨0x400000B0000, [], [⟨31, 31, .WO, 0x0⟩, ⟨8, 8, .RW, 0x1⟩, ⟨7, 0, .RW, 0x18⟩]⟩,
   ⟨0x400000B0004, [], [⟨31, 31, .RO, 0x0⟩, ⟨7, 4, .RO, 0x0⟩, ⟨3, 0, .RO, 0x0⟩]⟩,
   ⟨0x400000B0010, [(5, 0x4)], [⟨31, 0, .RO, 0x0⟩]⟩,
   ⟨0x400000B0030, [], [⟨31, 0, .RO, 0x0⟩]⟩,
   ⟨0x400000B0034, [], [⟨15, 0, .RO, 0x0⟩]⟩,
   ⟨0x400000B0038, [], [⟨31, 31, .RO, 0x0⟩, ⟨14, 8, .RO, 0x0⟩, ⟨7, 0, .RO, 0x0⟩]⟩]
/-- The registers of the HBM block. -/
def regTable_hbm : List RegDesc := regTable_hbm_0
def regTable_fl_0 : List RegDesc :=
  [⟨0x400000C0000, [], [⟨31, 31, .WO, 0x0⟩, ⟨0, 0, .RW, 0x0⟩]⟩,
   ⟨0x400000C0004, [], [⟨31, 29, .RO, 0x0⟩, ⟨28, 28, .RO, 0x0⟩, ⟨27, 27, .W1C, 0x0⟩, ⟨26, 26, .W1C, 0x0⟩, ⟨7, 0, .RO, 0x0⟩]⟩,
   ⟨0x400000C0008, [], [⟨25, 0, .RWL, 0x0⟩]⟩,
   ⟨0x400000C000C, [], [⟨10, 0, .RWL, 0x0⟩]⟩,
   ⟨0x400000C0010, [], [⟨31, 24, .RW, 0x78⟩, ⟨23, 16, .RW, 0x7⟩, ⟨15, 8, .RW, 0x40⟩, ⟨7, 0, .RW, 0x20⟩]⟩,
   ⟨0x400000C0014, [], [⟨12, 0, .RWL, 0x40⟩]⟩,
   ⟨0x400000C0020, [(8, 0x4)], [⟨31, 0, .RO, 0x0⟩]⟩]
/-- The registers of the FL block. -/
def regTable_fl : List RegDesc := regTable_fl_0
def regTable_cv_0 : List RegDesc :=
  [⟨0x400000A0000, [], [⟨7, 0, .RW, 0x40⟩]⟩,
   ⟨0x400000A0100, [(16, 0x20)], [⟨31, 31, .RW, 0x0⟩, ⟨30, 30, .RO, 0x0⟩, ⟨29, 29, .W1C, 0x0⟩, ⟨28, 28, .WO, 0x0⟩, ⟨4, 2, .RW, 0x4⟩, ⟨1, 0, .RW, 0x0⟩]⟩,
   ⟨0x400000A0104, [(16, 0x20)], [⟨31, 0, .RW, 0x0⟩]⟩,
   ⟨0x400000A0108, [(16, 0x20)], [⟨31, 0, .RW, 0x0⟩]⟩,
   ⟨0x400000A010C, [(16, 0x20)], [⟨31, 0, .RW, 0x0⟩]⟩,
   ⟨0x400000A0110, [(16, 0x20)], [⟨31, 0, .RW, 0x0⟩]⟩,
   ⟨0x400000A0114, [(16, 0x20)], [⟨31, 0, .WO, 0x0⟩]⟩]
/-- The registers of the CV block. -/
def regTable_cv : List RegDesc := regTable_cv_0
def regTable_tb_0 : List RegDesc :=
  [⟨0x40000060000, [], [⟨31, 31, .WO, 0x0⟩, ⟨30, 30, .WO, 0x0⟩, ⟨7, 4, .RW, 0x4⟩, ⟨3, 0, .RW, 0x1⟩]⟩,
   ⟨0x40000060004, [], [⟨31, 30, .RO, 0x0⟩, ⟨29, 29, .W1C, 0x0⟩, ⟨28, 28, .RO, 0x0⟩, ⟨27, 26, .RO, 0x0⟩, ⟨25, 24, .RO, 0x0⟩]⟩,
   ⟨0x40000060010, [], [⟨31, 0, .RO, 0x0⟩]⟩,
   ⟨0x40000060014, [], [⟨31, 0, .RO, 0x0⟩]⟩,
   ⟨0x40000060018, [], [⟨31, 18, .RO, 0x0⟩, ⟨15, 0, .RO, 0x0⟩]⟩,
   ⟨0x40000060020, [], [⟨31, 0, .RO, 0x0⟩]⟩,
   ⟨0x40000060024, [], [⟨31, 16, .RW, 0x64⟩, ⟨15, 0, .RW, 0x64⟩]⟩,
   ⟨0x40000060028, [], [⟨31, 0, .RW, 0x3E8⟩]⟩,
   ⟨0x4000006002C, [], [⟨31, 0, .RO, 0x0⟩]⟩,
   ⟨0x40000060030, [], [⟨31, 0, .RO, 0x0⟩]⟩,
   ⟨0x40000060034, [], [⟨31, 0, .RO, 0x0⟩]⟩,
   ⟨0x40000060040, [(4, 0x4)], [⟨31, 0, .RO, 0x0⟩]⟩]
def regTable_tb_1 : List RegDesc :=
  [⟨0x40000060080, [], [⟨7, 0, .W1C, 0x0⟩]⟩,
   ⟨0x40000060100, [(8, 0x10)], [⟨31, 31, .RW, 0x0⟩, ⟨30, 30, .RW, 0x0⟩, ⟨29, 0, .RW, 0x0⟩]⟩,
   ⟨0x40000060104, [(8, 0x10)], [⟨31, 0, .RW, 0x0⟩]⟩,
   ⟨0x40000060108, [(8, 0x10)], [⟨31, 0, .RW, 0x0⟩]⟩,
   ⟨0x40000060200, [(4, 0x8)], [⟨31, 0, .RO, 0x0⟩]⟩,
   ⟨0x40000060204, [(4, 0x8)], [⟨31, 0, .RO, 0x0⟩]⟩]
/-- The registers of the TB block. -/
def regTable_tb : List RegDesc := regTable_tb_0 ++ regTable_tb_1
def regTable_eth_0 : List RegDesc :=
  [⟨0x40000070000, [(4, 0x4000)], [⟨31, 31, .WO, 0x0⟩, ⟨30, 30, .RWL, 0x0⟩, ⟨29, 29, .RWL, 0x0⟩, ⟨28, 27, .RWL, 0x0⟩, ⟨26, 25, .RW, 0x0⟩, ⟨24, 24, .RW, 0x0⟩, ⟨23, 23, .RWL, 0x0⟩, ⟨22, 22, .RW, 0x0⟩, ⟨15, 0, .RW, 0x88B5⟩]⟩,
   ⟨0x40000070004, [(4, 0x4000)], [⟨31, 31, .RO, 0x0⟩, ⟨30, 30, .W1C, 0x0⟩, ⟨29, 29, .RO, 0x0⟩, ⟨28, 28, .W1C, 0x0⟩, ⟨27, 27, .RO, 0x0⟩]⟩,
   ⟨0x40000070008, [(4, 0x4000)], [⟨31, 16, .RW, 0x0⟩, ⟨15, 0, .RW, 0x0⟩]⟩,
   ⟨0x4000007000C, [(4, 0x4000)], [⟨31, 0, .RW, 0x0⟩]⟩,
   ⟨0x40000070010, [(4, 0x4000)], [⟨15, 0, .RW, 0x0⟩]⟩,
   ⟨0x40000070020, [(4, 0x4000)], [⟨31, 31, .WO, 0x0⟩, ⟨30, 30, .RW, 0x0⟩, ⟨8, 0, .RW, 0x1⟩]⟩,
   ⟨0x40000070024, [(4, 0x4000)], [⟨31, 0, .RW, 0x0⟩]⟩,
   ⟨0x40000070028, [(4, 0x4000)], [⟨31, 0, .RW, 0x0⟩]⟩,
   ⟨0x4000007002C, [(4, 0x4000)], [⟨29, 0, .RW, 0xF4240⟩]⟩,
   ⟨0x40000070040, [(4, 0x4000), (8, 0x4)], [⟨31, 31, .RW, 0x0⟩, ⟨30, 0, .RW, 0x0⟩]⟩,
   ⟨0x40000070080, [(4, 0x4000), (7, 0x4)], [⟨31, 0, .RO, 0x0⟩]⟩,
   ⟨0x4000007009C, [(4, 0x4000)], [⟨31, 0, .RO, 0x0⟩]⟩]
def regTable_eth_1 : List RegDesc :=
  [⟨0x40000071000, [(4, 0x4000), (256, 0x4)], [⟨31, 24, .RW, 0xFF⟩, ⟨23, 0, .RW, 0x0⟩]⟩]
/-- The registers of the ETH block. -/
def regTable_eth : List RegDesc := regTable_eth_0 ++ regTable_eth_1
def regTable_can_0 : List RegDesc :=
  [⟨0x40000080000, [(4, 0x1000)], [⟨31, 31, .WO, 0x0⟩, ⟨30, 30, .RWL, 0x0⟩, ⟨29, 28, .RWL, 0x0⟩, ⟨27, 27, .RWL, 0x1⟩, ⟨26, 26, .RW, 0x1⟩, ⟨25, 25, .WO, 0x0⟩]⟩,
   ⟨0x40000080004, [(4, 0x1000)], [⟨31, 27, .RWL, 0x0⟩, ⟨26, 19, .RWL, 0x7E⟩, ⟨18, 12, .RWL, 0x1F⟩, ⟨11, 5, .RWL, 0x1F⟩]⟩,
   ⟨0x40000080008, [(4, 0x1000)], [⟨31, 27, .RWL, 0x0⟩, ⟨26, 22, .RWL, 0x1E⟩, ⟨21, 18, .RWL, 0x7⟩, ⟨17, 14, .RWL, 0x7⟩, ⟨13, 13, .RWL, 0x1⟩, ⟨12, 6, .RWL, 0x20⟩]⟩,
   ⟨0x4000008000C, [(4, 0x1000)], [⟨31, 30, .RO, 0x0⟩, ⟨29, 29, .W1C, 0x0⟩, ⟨23, 16, .RO, 0x0⟩, ⟨15, 8, .RO, 0x0⟩]⟩,
   ⟨0x40000080010, [(4, 0x1000), (6, 0x4)], [⟨31, 0, .RO, 0x0⟩]⟩,
   ⟨0x40000080100, [(4, 0x1000), (64, 0x8)], [⟨31, 30, .RWL, 0x0⟩, ⟨29, 29, .RWL, 0x0⟩, ⟨28, 0, .RWL, 0x0⟩]⟩,
   ⟨0x40000080104, [(4, 0x1000), (64, 0x8)], [⟨28, 0, .RWL, 0x0⟩]⟩]
/-- The registers of the CAN block. -/
def regTable_can : List RegDesc := regTable_can_0
def regTable_ing_0 : List RegDesc :=
  [⟨0x40000050000, [], [⟨31, 31, .WO, 0x0⟩, ⟨0, 0, .RWL, 0x0⟩]⟩,
   ⟨0x40000050004, [], [⟨31, 31, .W1C, 0x0⟩, ⟨22, 16, .RO, 0x0⟩, ⟨12, 8, .RO, 0x0⟩, ⟨5, 0, .RO, 0x0⟩]⟩,
   ⟨0x40000050010, [], [⟨31, 12, .RWL, 0x0⟩]⟩,
   ⟨0x40000050014, [], [⟨15, 0, .RWL, 0x0⟩]⟩,
   ⟨0x40000050018, [], [⟨31, 0, .RO, 0x0⟩]⟩,
   ⟨0x40000050020, [], [⟨31, 26, .RWL, 0x0⟩]⟩,
   ⟨0x40000050024, [], [⟨15, 0, .RWL, 0x0⟩]⟩,
   ⟨0x40000050028, [], [⟨9, 0, .RWL, 0x0⟩]⟩,
   ⟨0x40000050040, [(16, 0x4)], [⟨31, 31, .RWL, 0x0⟩, ⟨30, 29, .RWL, 0x2⟩]⟩,
   ⟨0x40000050080, [(16, 0x4)], [⟨31, 0, .RO, 0x0⟩]⟩,
   ⟨0x40000050100, [(64, 0x4)], [⟨31, 30, .RO, 0x0⟩, ⟨29, 28, .RO, 0x0⟩, ⟨27, 27, .RO, 0x0⟩, ⟨23, 16, .RO, 0x0⟩, ⟨15, 8, .RO, 0x0⟩, ⟨3, 0, .RO, 0x0⟩]⟩,
   ⟨0x40000051000, [(64, 0x20), (8, 0x4)], [⟨31, 0, .RO, 0x0⟩]⟩]
/-- The registers of the ING block. -/
def regTable_ing : List RegDesc := regTable_ing_0
def regTable_ce_0 : List RegDesc :=
  [⟨0x40000090000, [], [⟨31, 31, .WO, 0x0⟩, ⟨30, 30, .WO, 0x0⟩, ⟨0, 0, .RW, 0x0⟩]⟩,
   ⟨0x40000090004, [], [⟨31, 31, .W1C, 0x0⟩, ⟨30, 30, .RO, 0x0⟩, ⟨29, 29, .RO, 0x0⟩, ⟨28, 28, .RO, 0x0⟩, ⟨27, 27, .RO, 0x0⟩]⟩,
   ⟨0x40000090008, [], [⟨31, 0, .RWL, 0xF4240⟩]⟩,
   ⟨0x4000009000C, [], [⟨20, 0, .RO, 0x61A⟩]⟩,
   ⟨0x40000090010, [], [⟨31, 0, .RWL, 0x0⟩]⟩,
   ⟨0x40000090014, [], [⟨31, 0, .RWL, 0x0⟩]⟩,
   ⟨0x40000090018, [], [⟨31, 0, .RO, 0x0⟩]⟩,
   ⟨0x4000009001C, [], [⟨31, 0, .RO, 0x0⟩]⟩,
   ⟨0x40000090020, [], [⟨31, 27, .RO, 0x0⟩, ⟨26, 18, .RO, 0x0⟩, ⟨15, 0, .RO, 0x0⟩]⟩,
   ⟨0x40000090024, [], [⟨31, 0, .RO, 0x0⟩]⟩,
   ⟨0x40000090028, [], [⟨31, 0, .RO, 0x0⟩]⟩,
   ⟨0x40000090030, [(8, 0x4)], [⟨31, 0, .RO, 0x0⟩]⟩]
def regTable_ce_1 : List RegDesc :=
  [⟨0x40000090080, [(16, 0x4)], [⟨31, 31, .RWS, 0x0⟩, ⟨30, 24, .RWS, 0x0⟩, ⟨22, 16, .RWS, 0x0⟩, ⟨14, 0, .RWS, 0x0⟩]⟩,
   ⟨0x40000090100, [], [⟨31, 31, .RW, 0x0⟩, ⟨30, 30, .WO, 0x0⟩, ⟨29, 24, .RWL, 0x1⟩, ⟨15, 0, .RWL, 0x0⟩]⟩,
   ⟨0x40000090104, [], [⟨31, 28, .RWL, 0x0⟩, ⟨20, 16, .RWL, 0x0⟩, ⟨7, 0, .RWL, 0x0⟩]⟩,
   ⟨0x40000090108, [], [⟨31, 0, .RWL, 0x0⟩]⟩,
   ⟨0x4000009010C, [], [⟨31, 16, .RWL, 0x0⟩, ⟨15, 0, .RWL, 0x0⟩]⟩,
   ⟨0x40000090110, [], [⟨31, 30, .RO, 0x0⟩, ⟨29, 29, .W1C, 0x0⟩, ⟨15, 0, .RO, 0x0⟩]⟩,
   ⟨0x40000090114, [], [⟨31, 16, .RO, 0x0⟩, ⟨15, 0, .RO, 0x0⟩]⟩,
   ⟨0x40000090118, [], [⟨31, 0, .RO, 0x0⟩]⟩,
   ⟨0x4000009011C, [], [⟨31, 0, .RO, 0x0⟩]⟩,
   ⟨0x40000090140, [(32, 0x4)], [⟨12, 8, .RWL, 0x0⟩, ⟨7, 0, .RWL, 0x0⟩]⟩,
   ⟨0x40000090400, [(256, 0x4)], [⟨31, 30, .RWS, 0x0⟩]⟩,
   ⟨0x40000090800, [(256, 0x4)], [⟨31, 0, .RWS, 0x0⟩]⟩]
def regTable_ce_2 : List RegDesc :=
  [⟨0x40000090C00, [(256, 0x4)], [⟨31, 30, .RO, 0x0⟩, ⟨29, 29, .RO, 0x0⟩, ⟨28, 28, .RO, 0x0⟩, ⟨27, 27, .RO, 0x0⟩, ⟨26, 24, .RO, 0x0⟩, ⟨23, 0, .RO, 0x0⟩]⟩]
/-- The registers of the CE block. -/
def regTable_ce : List RegDesc := regTable_ce_0 ++ regTable_ce_1 ++ regTable_ce_2
def regTable_saf_0 : List RegDesc :=
  [⟨0x400000E0000, [], [⟨31, 31, .WO, 0x0⟩, ⟨30, 30, .RW, 0x0⟩, ⟨29, 29, .RW, 0x1⟩, ⟨15, 0, .RW, 0x3E8⟩]⟩,
   ⟨0x400000E0004, [], [⟨31, 31, .RO, 0x0⟩, ⟨30, 30, .RO, 0x0⟩, ⟨29, 29, .RO, 0x0⟩, ⟨28, 28, .RO, 0x0⟩, ⟨27, 27, .RO, 0x0⟩, ⟨26, 26, .RO, 0x0⟩, ⟨25, 25, .RO, 0x0⟩, ⟨24, 24, .W1C, 0x0⟩]⟩,
   ⟨0x400000E0008, [], [⟨10, 0, .RO, 0x0⟩]⟩,
   ⟨0x400000E000C, [], [⟨31, 1, .RWL, 0x0⟩]⟩,
   ⟨0x400000E0010, [], [⟨31, 0, .RO, 0x0⟩]⟩,
   ⟨0x400000E0014, [], [⟨31, 0, .RO, 0x0⟩]⟩,
   ⟨0x400000E0018, [], [⟨31, 0, .RO, 0x0⟩]⟩,
   ⟨0x400000E001C, [], [⟨31, 24, .RO, 0x0⟩, ⟨19, 18, .RO, 0x0⟩, ⟨15, 0, .RO, 0x0⟩]⟩,
   ⟨0x400000E0020, [(3, 0x4)], [⟨31, 0, .RO, 0xFFFFFFFF⟩]⟩,
   ⟨0x400000E0030, [], [⟨31, 0, .RW, 0xE10⟩]⟩,
   ⟨0x400000E0034, [], [⟨31, 16, .RW, 0x3C⟩, ⟨4, 0, .RW, 0x18⟩]⟩,
   ⟨0x400000E0040, [], [⟨31, 30, .RO, 0x0⟩, ⟨7, 0, .RO, 0x0⟩]⟩]
def regTable_saf_1 : List RegDesc :=
  [⟨0x400000E0044, [], [⟨31, 0, .RO, 0x0⟩]⟩,
   ⟨0x400000E0080, [(12, 0x4)], [⟨31, 0, .RO, 0x0⟩]⟩,
   ⟨0x400000E0100, [(96, 0x4)], [⟨31, 31, .W1C, 0x0⟩, ⟨30, 30, .RO, 0x0⟩, ⟨29, 24, .RO, 0x0⟩, ⟨15, 0, .RO, 0x0⟩]⟩]
/-- The registers of the SAF block. -/
def regTable_saf : List RegDesc := regTable_saf_0 ++ regTable_saf_1
def regTable_sec_0 : List RegDesc :=
  [⟨0x400000F0000, [], [⟨31, 29, .RO, 0x0⟩, ⟨28, 26, .RO, 0x0⟩, ⟨25, 25, .RO, 0x0⟩, ⟨24, 24, .RO, 0x0⟩, ⟨23, 23, .RO, 0x0⟩, ⟨22, 22, .RO, 0x0⟩, ⟨21, 21, .RO, 0x0⟩, ⟨15, 8, .RO, 0x0⟩, ⟨7, 0, .RO, 0x0⟩]⟩,
   ⟨0x400000F0004, [], [⟨31, 24, .RO, 0x0⟩, ⟨23, 16, .RO, 0x0⟩, ⟨15, 12, .RO, 0x1⟩]⟩,
   ⟨0x400000F0008, [], [⟨11, 8, .RO, 0x0⟩, ⟨7, 4, .RO, 0x0⟩]⟩]
/-- The registers of the SEC block. -/
def regTable_sec : List RegDesc := regTable_sec_0
def regTable_dbg_0 : List RegDesc :=
  [⟨0x40000100000, [], [⟨31, 31, .RO, 0x0⟩, ⟨30, 28, .RO, 0x0⟩, ⟨15, 8, .RO, 0x0⟩]⟩,
   ⟨0x40000100004, [], [⟨31, 31, .RW, 0x1⟩, ⟨30, 30, .WO, 0x0⟩, ⟨29, 29, .WO, 0x0⟩, ⟨28, 28, .WO, 0x0⟩, ⟨6, 0, .RW, 0x0⟩]⟩,
   ⟨0x40000100010, [(16, 0x4)], [⟨31, 31, .RW, 0x0⟩, ⟨30, 24, .RW, 0x0⟩, ⟨23, 20, .RW, 0x0⟩, ⟨19, 0, .RW, 0x0⟩]⟩,
   ⟨0x40000100060, [(3, 0x4)], [⟨31, 0, .RO, 0x0⟩]⟩]
/-- The registers of the DBG block. -/
def regTable_dbg : List RegDesc := regTable_dbg_0
def regTable_sdio_0 : List RegDesc :=
  [⟨0x40000110000, [], [⟨31, 31, .WO, 0x0⟩, ⟨15, 8, .RW, 0x10⟩]⟩,
   ⟨0x40000110004, [], [⟨31, 31, .RO, 0x0⟩, ⟨30, 30, .RO, 0x0⟩, ⟨21, 16, .RO, 0x0⟩, ⟨15, 0, .RO, 0x0⟩]⟩,
   ⟨0x40000110008, [], [⟨4, 4, .RO, 0x0⟩, ⟨3, 3, .W1C, 0x0⟩, ⟨2, 2, .W1C, 0x0⟩, ⟨1, 1, .W1C, 0x0⟩, ⟨0, 0, .RO, 0x0⟩]⟩,
   ⟨0x4000011000C, [], [⟨4, 4, .RO, 0x1⟩, ⟨3, 0, .RW, 0x1⟩]⟩,
   ⟨0x40000110010, [], [⟨16, 0, .RO, 0x10000⟩]⟩,
   ⟨0x40000110014, [], [⟨16, 0, .RO, 0x0⟩]⟩,
   ⟨0x40000110020, [(8, 0x4)], [⟨31, 0, .RO, 0x0⟩]⟩]
/-- The registers of the SDIO block. -/
def regTable_sdio : List RegDesc := regTable_sdio_0
def regTable_pwr_0 : List RegDesc :=
  [⟨0x40000010000, [], [⟨31, 31, .WO, 0x0⟩, ⟨30, 30, .RW, 0x0⟩, ⟨29, 28, .RW, 0x3⟩, ⟨21, 16, .RW, 0x8⟩]⟩,
   ⟨0x40000010004, [], [⟨31, 31, .RO, 0x0⟩, ⟨30, 30, .RO, 0x0⟩, ⟨29, 29, .W1C, 0x0⟩, ⟨28, 28, .W1C, 0x0⟩, ⟨27, 26, .RO, 0x3⟩, ⟨25, 20, .RO, 0x8⟩, ⟨19, 18, .RO, 0x0⟩, ⟨15, 0, .RO, 0x2EE⟩]⟩,
   ⟨0x40000010008, [], [⟨31, 16, .RO, 0x0⟩, ⟨15, 0, .RO, 0x0⟩]⟩,
   ⟨0x4000001000C, [], [⟨31, 24, .RO, 0x0⟩, ⟨23, 16, .RO, 0x0⟩]⟩,
   ⟨0x40000010010, [], [⟨11, 8, .RO, 0xF⟩, ⟨7, 0, .RW, 0x0⟩]⟩,
   ⟨0x40000010020, [(4, 0x4)], [⟨31, 0, .RO, 0x0⟩]⟩]
/-- The registers of the PWR block. -/
def regTable_pwr : List RegDesc := regTable_pwr_0

/-- The registers among which the address `a` is looked up: the block of R41 or the tile registers of R40. -/
def regTableOf (a : Nat) : List RegDesc :=
  if a < 0x040000000000 then regTable_tile
  else if 0x040000200000 ≤ a then regTable_rdg
  else match (a - 0x040000000000) / 0x10000 with

    | 0 => regTable_gen
    | 1 => regTable_pwr
    | 2 => regTable_sch
    | 3 => regTable_arb
    | 4 => regTable_trn
    | 5 => regTable_ing
    | 6 => regTable_tb
    | 7 => regTable_eth
    | 8 => regTable_can
    | 9 => regTable_ce
    | 10 => regTable_cv
    | 11 => regTable_hbm
    | 12 => regTable_fl
    | 13 => regTable_col
    | 14 => regTable_saf
    | 15 => regTable_sec
    | 16 => regTable_dbg
    | 17 => regTable_sdio
    | _ => []

/-- Whether the offset `off` is that of a repetition: at each level the index is in range and the last one leaves no
remainder. -/
def inDims (off : Nat) : List (Nat × Nat) → Bool
  | [] => off == 0
  | (c, s) :: ds => decide (off / s < c) && inDims (off % s) ds

/-- The heading that describes the register at address `a`, if a register is there. -/
def regDesc (a : Nat) : Option RegDesc :=
  (regTableOf a).find? (fun r => decide (r.base ≤ a) && inDims (a - r.base) r.dims)

/-- The value of a register at reset by its heading alone: the sum of its fields' reset values, each in its place. -/
def RegDesc.resetValue (r : RegDesc) : Word :=
  BitVec.ofNat 32 (r.fields.foldl (fun v f => v + f.reset * 2 ^ f.lo) 0)

/-- The bits of a register whose access code is `acc`. -/
def RegDesc.mask (r : RegDesc) (acc : Access) : Word :=
  BitVec.ofNat 32 (r.fields.foldl (fun v f =>
    if f.acc = acc then v + (2 ^ (f.hi + 1) - 2 ^ f.lo) else v) 0)

end Sys2Proof
end

