-- ==== Sys2Proof/Machine/State.lean ====
section
/-!
DEFINITION. The state of one ZV-940 package: the registers, the memories, the queue of waiting commands, and every
structure that the manual gives its engines, as plain data.
Indexed collections are finite maps (`AMap`) whose absent keys stand for the value at reset.
-/
namespace Sys2Proof.Machine

/-- Why a command stops without an effect.  The manual gives every command of the table an effect, so no meaning of
this model answers with a fault; the type has one reason, kept for a step of a queue that holds no command's effect.
Safe: a stop proves nothing about the device. -/
inductive Fault where
  /-- A command whose effect the manual does not give; raised by no meaning.  Safe. -/
  | noEffect (mnemonic : String)
deriving DecidableEq, Repr

/-- Why a command has no meaning in this model. -/
inductive Refusal where
  /-- The model has no meaning for the command yet; raised only by an arm of `exec`.  Safe. -/
  | notModelled (mnemonic : String)
deriving DecidableEq, Repr

/-! ### Matrix arrays (R84 to R120) -/

/-- One column's tally (R53): EXT and VALUE as one 128-bit number, COUNT, and the sticky flags. -/
structure Tally where
  value : BitVec 128 := 0
  count : Nat := 0
  loss : Bool := false
  ovf : Bool := false
  nan : Bool := false
  pinf : Bool := false
  ninf : Bool := false
deriving DecidableEq, Repr

/-- The check value of one lane (R91, R92): an integer and its exponent, or a special state. -/
structure LaneCheck where
  m : Int := 0
  e : Int := 0
  nan : Bool := false
  pinf : Bool := false
  ninf : Bool := false
deriving DecidableEq, Repr

/-- A stationary block (R171, R175): where it was read, and its operands, scales and check values. -/
structure Block where
  /-- The fill it was read from, or none for activation rows. -/
  fill : Option Nat := none
  /-- First row, in the slot or in activation memory. -/
  row : Nat := 0
  nrows : Nat := 0
  sfmt : Nat := 0
  scaled : Bool := false
  dual : Bool := false
  lanes : List (List Nat) := []
  scales : List Nat := []
  checks : List LaneCheck := []
  checkRange : Bool := false
deriving DecidableEq, Repr

/-- A stationary load that has been issued and waits for its fill or for an EMPTY back register (R94, R132). -/
structure PendingLoad where
  /-- The entry index, and whether this is an automatic load of a run (R175). -/
  entry : Nat
  auto : Bool
  fill : Option Nat
  row : Nat
  sfmt : Nat
  scaled : Bool
  dual : Bool
deriving DecidableEq, Repr

/-- The activity ramp of a physical array (R117, R118), as RAMP_STATE encodes it. -/
inductive Ramp where
  | idle | up | active | down
deriving DecidableEq, Repr

/-- A physical array: its ramp (R117), the column groups that are awake, and its drain buffer (R85, R108): in each slot in
use, the converted results of the columns with their status. -/
structure PhysArray where
  ramp : Ramp := .idle
  awake : Nat := 0
  drain : List (List (Nat × Nat)) := []
deriving DecidableEq, Repr

/-- One data row of a pass (R97): its elements by lane with the scale byte, or, for a depthwise tap pass (R222), the
elements of each column. -/
structure RowIn where
  codes : List Nat
  scale : Nat
  perCol : List (List Nat)
deriving DecidableEq, Repr

/-- How far a pass has been fed (R98). -/
inductive PassPhase where
  | rows | checksum | ended
deriving DecidableEq, Repr

/-- An open pass or tap pass of a logical array. -/
structure PassSt where
  entry : Nat
  word : Nat
  /-- The pass of a run (R175) or the tap pass of a tap entry (R210, R221), from 0. -/
  num : Nat := 0
  phase : PassPhase := .rows
  started : Bool := false
  /-- Data rows sent in this pass. -/
  sent : Nat := 0
  rows : List RowIn := []
  /-- The gathered row, kept for a re-run, and the last activation row that each lane has read (R215). -/
  gathered : Option RowIn := none
  lastRows : List (Option Nat) := List.replicate 16 none
  base : List Tally := []
  /-- The check tally of the checksum column, and the 65 row-check units. -/
  chk : Tally := {}
  rowChk : List Tally := []
  rerun : Bool := false
  /-- r[k] of R104 did not fit 96 bits. -/
  rowRange : Bool := false
deriving DecidableEq, Repr

/-- A logical array: the tally bank it keeps, its two stationary registers on the physical array that carries it, the
loads that wait for the back register, and its open pass. -/
structure LogArray where
  tallies : List Tally := List.replicate 64 {}
  win : Option Int := none
  front : Option Block := none
  parity : Bool := false
  back : Option Block := none
  loads : List PendingLoad := []
  pass : Option PassSt := none
deriving DecidableEq, Repr

/-! ### Tiles (R121 to R157) and lists (R168 to R196) -/

/-- A run of rows of activation (0) or partial-sum (1) memory. -/
structure RowRange where
  ps : Bool
  first : Nat
  count : Nat
deriving DecidableEq, Repr

/-- An issued entry that has not completed (R186, R187). -/
structure Flight where
  entry : Nat
  kind : Nat
  word : Nat
  array : Option Nat := none
  reads : List RowRange := []
  writes : List RowRange := []
  spurWait : Bool := false
  sent : Nat := 0
  landed : Nat := 0
deriving DecidableEq, Repr

/-- What a weight fetch asks of the streamer: the fill it gives (none for a speculative one), the HBM address and
rows, the uses, and the tag of a speculative fetch (R192). -/
structure FillReq where
  fill : Option Nat
  addr : Nat
  rows : Nat
  uses : Nat
  tag : Option (Nat × Nat × Nat)
  /-- The read of its expert table met an uncorrectable error (R354). -/
  bad : Bool := false
deriving DecidableEq, Repr

/-- What a weight-ring slot holds besides its token and uses (R130 to R134). -/
structure SlotSt where
  req : Option FillReq := none
  landed : Bool := false
deriving DecidableEq, Repr

/-- Where a fill went: a slot, or the zero block of R193. -/
inductive FillPlace where
  | slot (s : Nat)
  | zero
deriving DecidableEq, Repr

/-- A spur core (R145 to R151): its registers and its call. -/
structure SpurSt where
  x : List DWord := []
  f : List DWord := []
  v : List (BitVec 512) := []
  csrs : List (Nat × DWord) := []
  pc : Nat := 0
  instret : Nat := 0
  /-- The reservation of LR: its address and length. -/
  resv : Option (Nat × Nat) := none
  /-- The entry index of the call in flight. -/
  call : Option Nat := none
  /-- The access region of the call: memory, first row, rows. -/
  region : RowRange := ⟨false, 0, 0⟩
  /-- Whether a call has been made in this step (R148). -/
  called : Bool := false
deriving DecidableEq, Repr

/-- One tile. -/
structure TileSt where
  larr : List LogArray := List.replicate 4 {}
  parr : List PhysArray := List.replicate 4 {}
  /-- Logical arrays that wait for the move of R114, with the physical array that each one leaves. -/
  remap : AMap Nat := []
  slots : List SlotSt := List.replicate 6 {}
  /-- The streamer's read pointer in the list, fetches not yet started, and the number of the next fill. -/
  sptr : Nat := 0
  fillq : List FillReq := []
  nextFill : Nat := 0
  fills : AMap FillPlace := []
  spur : SpurSt := {}
  /-- Rows of each landing queue that have been read and not released: Rd − Rel (R141). -/
  lqRead : AMap Nat := []
  /-- The signature registers (R183, R504), as CRC-64/XZ registers. -/
  sigs : List Nat := List.replicate 16 0xFFFFFFFFFFFFFFFF
  /-- Passes committed lossy or unchecked in the step (R491). -/
  lossy : Nat := 0
  unchecked : Nat := 0
  /-- The array the self-test left to test, and whether a chunk is running, by chunk number (R507, R508). -/
  chunk : Option Nat := none
  doneChunks : List Nat := []
  /-- Fewer than FORCE seconds of the interval remain (R510). -/
  forced : Bool := false
  /-- The last step on the tile aborted by a fault of the tile (TILE_STAT.STATE FAULTED). -/
  faulted : Bool := false
deriving DecidableEq, Repr

/-- One entry list in execution (R189): a tile's, or the Tarn or ingest list of a loop. -/
structure ListSt where
  loop : Nat
  /-- HBM address of the list and its entries. -/
  addr : Nat
  count : Nat
  /-- Index of the entry issued next, and the entries read ahead from there. -/
  next : Nat := 0
  buf : List Nat := []
  bad : Option Nat := none
  flights : List Flight := []
  ended : Bool := false
  /-- Halted by a pre-emption or a stop of the step. -/
  stopped : Bool := false
  /-- Halted by the debug port (R542), and the breakpoint it stopped at. -/
  dbgHalt : Bool := false
  dbgStep : Bool := false
  dbgPassed : Option Nat := none
  /-- Entries cut by a pre-emption, to be issued again first (R296): index and word. -/
  redo : List (Nat × Nat) := []
  /-- An ACQUIRE that waits: the resource record. -/
  waiting : Option Nat := none
  /-- Resources held: number (pools from 1,024) and rank. -/
  held : List (Nat × Nat) := []
  nextMark : Nat := 0
  /-- Remaining budget of the segment supervisor in beats (R498). -/
  segment : Option Rat := none
  /-- A budget loaded in the Summit cycle of a sampling (R498). -/
  fresh : Bool := false
deriving DecidableEq, Repr

/-- A row of a stream on its way to a landing queue (R140, R141). -/
structure Transit where
  /-- The sending list key and entry index; none for an engine's or a peer's row. -/
  list : Option Nat
  entry : Nat
  data : List Byte
  srcRidge : Nat
  /-- The source element: a flat tile, 0x100 the Tarn engine, 0x101 the ingest engine, 0x200 + p Col port p; and the row's
  place among all rows sent (R20). -/
  src : Nat
  seq : Nat
deriving DecidableEq, Repr

/-! ### Routes (R158 to R202) -/

/-- A live-memory record (R161). -/
structure LiveRec where
  ltile : Nat
  kind : Nat
  qnum : Nat
  pkind : Nat
  first : Nat
  nrows : Nat
  pltile : Nat
  ppkg : Nat
deriving DecidableEq, Repr

/-- A resource record (R165). -/
structure ResRec where
  kind : Nat
  shared : Bool
  number : Nat
  rank : Nat
deriving DecidableEq, Repr

/-- A table record (R166): address in HBM, length and kind. -/
structure TabRec where
  addr : Nat
  len : Nat
  kind : Nat
deriving DecidableEq, Repr

/-- A loaded route: the header and the directories of its image (R159 to R166). -/
structure Route where
  addr : Nat
  len : Nat
  id : Nat
  grade : Nat
  nridges : Nat
  runAhead : Nat
  flags : Nat
  budget : Nat
  spurBase : Nat
  spurLen : Nat
  spurStack : Nat
  bases : Nat
  npkg : Nat
  spurOff : Nat
  /-- Offset and count of each logical tile's list. -/
  lists : List (Nat × Nat)
  tarnOff : Nat
  tarnCnt : Nat
  ingOff : Nat
  ingCnt : Nat
  live : List LiveRec
  res : List ResRec
  tabs : List TabRec
deriving DecidableEq, Repr

/-- A binding (R199): the handle, the physical ridges of the logical ones, base values, package map and
speculation. -/
structure Binding where
  handle : Nat
  route : Route
  ridges : List Nat
  bases : List Nat
  pmap : List Nat
  spec : Bool
  /-- SAVE_SHORT has been raised for this bind (R301). -/
  saveShort : Bool := false
deriving DecidableEq, Repr

/-! ### Loops, steps and resources (R272 to R304) -/

/-- A command that waits for the end of a loop's step (R201, R312), with the tag of its packet. -/
inductive Deferred where
  | bind (tag : Nat) (b : Binding)
  | unbind (tag : Nat)
  | config (tag : Nat) (payload : List Byte)
deriving DecidableEq, Repr

/-- The state of a step. -/
inductive StepPhase where
  | running
  | saving
  | preempted
  | restoring
deriving DecidableEq, Repr

/-- The tensor or batch bound to a stream for a step (R430, R440): the buffer, and the header row. -/
structure Bound where
  stream : Nat
  buffer : Option Nat := none
  /-- HBM address and rows of the tensor; no address for a tensor of zeros. -/
  addr : Option Nat := none
  rows : Nat := 0
  header : List Byte := []
  /-- The binding waits for a tensor (R432): the completions of the stream when it began to wait. -/
  waitNew : Option Nat := none
  /-- REPLAY: the batch, and the stamp at bind. -/
  batch : Option Nat := none
  stamp : Nat := 0
deriving DecidableEq, Repr

/-- The tile state and list state kept in the save area for a pre-empted step (R300). -/
structure SavedTile where
  tile : Nat
  st : TileSt
  list : Option ListSt
  /-- CFG, SRC, PTR and RD of each queue, its producer's credits, and the rows of an engine that wait for them. -/
  queues : List (Nat × Nat × Nat × Nat)
  credits : List Nat
  outs : List (List (List Byte))
  /-- The fills of R297 with their remaining uses, in fill order. -/
  fills : List (FillReq × Nat)
deriving DecidableEq, Repr

/-- A step of a loop. -/
structure StepSt where
  b : Binding
  phase : StepPhase := .running
  /-- The step supervisor's remaining budget in beats (R496), and whether a sampling of the same cycle is skipped. -/
  budget : Rat
  fresh : Bool := true
  boosted : Bool := false
  boostStart : Nat := 0
  /-- A pre-emption has been called for; the loops that called for it (none: no step). -/
  called : Bool := false
  callers : List Nat := []
  epoch : Option Nat := none
  ctx : Option Nat := none
  batch : List (Option Nat) := []
  bound : List Bound := []
  cairn : Bool := false
  /-- The number of its window, and whether it started after the window closed (R503, R504). -/
  cairnWin : Nat := 0
  lateCairn : Bool := false
  nd0 : Nat := 0
  saved : List SavedTile := []
  /-- Holds of R299 that wait for an answer: package and rows counted. -/
  holds : List (Nat × Option Nat) := []
  /-- Packages that have sent a hold for this step (R299): its sends to them wait. -/
  heldBy : List Nat := []
  /-- Rows of the step placed on the link to a package, and rows received from one (R299). -/
  rowsTo : AMap Nat := []
  rowsFrom : AMap Nat := []
  /-- Credits of queues in other packages, kept while the step is pre-empted. -/
  farCredits : AMap Nat := []
  startUs : Nat := 0
  /-- When the halt was sent (R295), and the tags of the LOOP_PREEMPT commands that wait. -/
  haltUs : Nat := 0
  preemptTags : List Nat := []
deriving DecidableEq, Repr

/-- What a package reports of a spanning loop (R342, R599): whether it has the loop bound, the map, its sends to other
logical packages, its queues with a producer in another one, and its logical tiles with a list. -/
structure PeerReport where
  bound : Bool
  pmap : Nat
  sends : List CrossSend := []
  queues : List CrossQueue := []
  lists : List Nat := []
deriving DecidableEq, Repr

/-- A window opening whose step has not started (R277): its instant in microseconds, whether the step could not start at it,
and its number since CAIRN_EN was set (R503). -/
structure DueWin where
  opened : Nat
  late : Bool
  number : Option Nat
deriving DecidableEq, Repr

/-- One loop. -/
structure LoopSt where
  binding : Option Binding := none
  acct : Nat := 0
  step : Option StepSt := none
  release : Bool := false
  guard : Bool := false
  window : Bool := false
  /-- When the latest window opened, in microseconds of the timebase. -/
  openedUs : Nat := 0
  /-- Window openings whose step has not started, oldest first (R277). -/
  due : List DueWin := []
  /-- The latest release instant or window opening, in microseconds: the next one lies after it (R275, R276). -/
  mark : Nat := 0
  /-- Window openings since CAIRN_EN was set (R503). -/
  winCount : Nat := 0
  /-- The loop was eligible, running or pre-empted at the last decision (R282). -/
  wasActive : Bool := false
  deferred : List Deferred := []
  /-- The CARRY regions are in the save area at this base (R303). -/
  carrySaved : Option Nat := none
  /-- A save (true) or a restore of the CARRY regions is under way, for the step of the loop named. -/
  carryBusy : Option (Bool × Nat) := none
  /-- Reports of R342 received, by package. -/
  reports : AMap PeerReport := []
  mismatchRaised : Bool := false
  /-- Packages that have sent a hold for the loop's next step (R299). -/
  heldBy : List Nat := []
deriving DecidableEq, Repr

/-- A request that waits for a resource (R290). -/
structure Waiter where
  list : Nat
  loop : Nat
  rank : Nat
  shared : Bool
deriving DecidableEq, Repr

/-- A semaphore or a Col credit pool. -/
structure ResSt where
  holder : Option (Nat × Nat) := none
  lastLoop : Option Nat := none
  waiters : List Waiter := []
deriving DecidableEq, Repr

/-- A request at an arbiter (R307): requester, where it comes from, arrival stamp, level, and whether a BULK request has
reached the level from which it is served as PACED (R308). -/
structure ArbReq where
  req : Nat
  origin : ArbOrigin
  stamp : Nat
  level : Nat
  promoted : Bool
deriving DecidableEq, Repr

/-- An arbiter. -/
structure ArbSt where
  arrivals : Nat := 0
  waiting : List ArbReq := []
  owner : Option ArbReq := none
  pointer : Nat := 0
  /-- Requesters that the watchdog removed (R310), each with the loop at the end of whose step it returns; none for a unit
  that returns once the Summit has reset it. -/
  removed : List (Nat × Option Nat) := []
deriving DecidableEq, Repr

/-! ### Tarn (R231 to R271) -/

/-- A namespace record (R233). -/
structure NsRec where
  nl : Nat
  nkv : Nat
  hd : Nat
  kvfmt : Nat
  frameBase : Nat
  nframes : Nat
  descBase : Nat
  ndesc : Nat
  modelTag : Nat
  kvclass : Nat
  share : Bool
  drop : Bool
  rloop : Nat
  rpos : Nat
  /-- The allocator: frames and descriptor runs never handed out start at these; the freed ones are listed. -/
  frameNext : Nat := 0
  frameFree : List Nat := []
  runNext : Nat := 0
  runFree : List Nat := []
deriving DecidableEq, Repr

/-- The appends of a step to one sequence (R250). -/
structure TxSeq where
  slot : Nat
  base : Nat
  /-- Positions appended by layer. -/
  layers : AMap Nat := []
  tokens : Nat := 0
  /-- Blocks the step wrote: block index, node, and the node it replaced. -/
  wrote : List (Nat × Nat × Option Nat) := []
  recomp : Bool := false
deriving DecidableEq, Repr

/-- A Tarn context (R261). -/
structure CtxSt where
  loop : Nat
  inboxes : AMap (List (List Byte)) := []
  tx : List TxSeq := []
deriving DecidableEq, Repr

/-- A queued edit (R251): packet tag, opcode and payload. -/
structure EditRec where
  tag : Nat
  op : Nat
  payload : List Byte
deriving DecidableEq, Repr

/-- The Tarn engine. -/
structure TarnSt where
  ns : AMap NsRec := []
  nodeNext : Nat := 0
  nodeFree : List Nat := []
  /-- Nodes in GRACE, and whether their frames are still held (R244). -/
  grace : AMap Bool := []
  /-- Generation of each slot's latest open (R236). -/
  gens : AMap Nat := []
  openSlots : List Nat := []
  /-- Batch tables as written, by loop. -/
  batches : AMap (List Nat) := []
  edits : List EditRec := []
  ctxs : AMap CtxSt := []
  /-- Sequences posted to the recompute batch of a loop. -/
  posted : AMap (List Nat) := []
  /-- Sequences held INUSE, with the loop whose step holds them. -/
  inuse : AMap Nat := []
  /-- Nodes in GRACE whose namespace has been configured again, with the layers they had (R246; log 47). -/
  orphans : AMap Nat := []
  /-- Prefix buckets written since the engine was enabled; the others are empty (R232, R257; log 78). -/
  buckets : List Nat := []
deriving DecidableEq, Repr

/-! ### Faults (R483 to R488) -/

/-- A fault that has been raised and has not reached the aggregator yet. -/
structure FaultRec where
  cls : Nat
  src : Nat
  code : Nat
  unit : Nat := 0xFFFF
  loop : Nat := 0xFF
  safety : Bool := false
  detail : Nat := 0
deriving DecidableEq, Repr

/-- The timebase (R383): seconds, nanoseconds and the 40-bit fraction. -/
structure TbSt where
  sec : Nat := 0
  ns : Nat := 0
  frac : Nat := 0
deriving DecidableEq, Repr

/-! ### The command interface (R546 to R573) -/

/-- An accepted command packet (R554, R556). -/
structure Packet where
  op : Nat
  tag : Nat
  fence : Bool
  pkg : Nat
  payload : List Byte
  stamp : Nat
deriving DecidableEq, Repr

/-- The SDIO function: the command buffer, the scan of R555, accepted commands in order of acceptance, and the reply
buffer with the bytes of its head already read. -/
structure SdioSt where
  cmd : List Byte := []
  skip : Nat := 0
  scanning : Bool := false
  /-- The stamp of the header at the front of the command buffer, once its HCRC has matched (R555). -/
  hdr : Option Nat := none
  /-- Bytes that came after the last one in the command buffer were discarded (R551). -/
  cut : Bool := false
  outstanding : List Packet := []
  replies : List (List Byte) := []
  taken : Nat := 0
  /-- Replies that wait for room (R556), with the tag of their command when it is not a notification. -/
  waiting : List (List Byte × Option Nat) := []
  /-- Tags and opcodes of deferred commands (R560). -/
  deferred : List (Nat × Nat) := []
  /-- The host's IOE1 bit (R547) and the device's IOR1 bit. -/
  ioe1 : Bool := false
  ior1 : Bool := false
  /-- Commands sent to another package and not answered yet: packet tag and package (R561). -/
  remote : AMap Nat := []
deriving DecidableEq, Repr

/-! ### Flash and check-value units (R359 to R382) -/

/-- A region of the flash array (R375): its kind, range of logical units, seal, and, for LOG, the write pointer in
pages of 4 KiB from its start. -/
structure RegionRec where
  kind : Nat
  first : Nat
  units : Nat
  isSealed : Bool := false
  wptr : Nat := 0
deriving DecidableEq, Repr

/-- A buffered unit (R368): its slot of the write buffer, the logical unit, and the map entry it replaced. -/
structure WbUnit where
  slot : Nat
  unit : Nat
  old : Option Nat
deriving DecidableEq, Repr

/-- The flash subsystem and the NAND array.  The array's data stands in `State.mem` above every address of the map. -/
structure FlashSt where
  formatted : Bool := false
  capacity : Nat := 0
  spare : Nat := 0
  regions : AMap RegionRec := []
  /-- The mapping table: logical unit to physical page address; a unit not listed is unmapped. -/
  map : AMap Nat := []
  wb : List WbUnit := []
  /-- Units whose latest map change is not in a programmed journal page, with the entry before it; the content before it
  is kept beside the array's data (R374). -/
  unjournaled : List (Nat × Option Nat) := []
  /-- Journal records not programmed yet, and journal pages since the last checkpoint. -/
  records : Nat := 0
  pages : Nat := 0
  /-- Which of the two system areas the next checkpoint is written to. -/
  area : Nat := 0
  /-- Blocks that have needed one soft decode, and bad blocks. -/
  soft : List Nat := []
  bad : List Nat := []
  /-- The targets in use (R360), the block that new data goes to with its next page, the blocks written since their last
  erase, and the erase counts of blocks (R364). -/
  geom : List TargetGeom := []
  active : Option (Nat × Nat) := none
  used : List Nat := []
  erases : AMap Nat := []
  /-- 2 GiB regions of HBM whose bytes are held complemented, so that an unmapped map entry is not listed. -/
  flipped : List Nat := []
deriving DecidableEq, Repr

/-- A check-value job (R378, R379): the requester, the CRC, the bytes still to take, and the context. -/
structure CvJob where
  req : Nat
  sel : Nat
  data : List Byte
  value : Nat
  count : Nat
deriving DecidableEq, Repr

/-- The check-value units: the job each serves, and the jobs that wait, oldest first. -/
structure CvSt where
  serving : AMap CvJob := []
  waiting : List CvJob := []
deriving DecidableEq, Repr

/-! ### Sensor ingest (R416 to R444) -/

/-- What a buffer of a stream holds (R429). -/
inductive BufPhase where
  | empty | writing | complete
deriving DecidableEq, Repr

/-- A tensor buffer: its state, capture stamp and number, the steps that pin it, and for REPLAY the epoch of its first
sample and whether a record is REPLACED. -/
structure BufSt where
  phase : BufPhase := .empty
  stamp : Nat := 0
  number : Nat := 0
  /-- Order of completion in the stream. -/
  order : Nat := 0
  wasBound : Bool := false
  pins : List Nat := []
  epoch : Nat := 0
  replaced : Bool := false
  /-- Linear positions of the samples placed, in order of batch position (none: filled with zeros). -/
  placed : List (Option Nat) := []
deriving DecidableEq, Repr

/-- A frame being received (R423, R424): its buffer (none: dropped for want of one), stamp and number; for CSI the lines
received; for NET the length and the chunks. -/
structure FrameSt where
  buf : Option Nat
  stamp : Nat
  stamped : Bool := true
  number : Nat
  lines : Nat := 0
  bad : Bool := false
  total : Nat := 0
  chunks : List (Nat × List Byte) := []
deriving DecidableEq, Repr

/-- A decoded sample (R435 to R438): its identifier and the samples of its planes row by row with their width and
height, or the reason why it is corrupt. -/
structure DecSample where
  id : Nat
  reason : Nat
  w : Nat
  h : Nat
  planes : List (List Nat)
deriving DecidableEq, Repr

/-- One open entry of the stream table. -/
structure StreamSt where
  entry : List Byte
  bufs : List BufSt
  closing : Bool := false
  closeTag : Option Nat := none
  frame : Option FrameSt := none
  /-- Frames received whole whose tensor is not complete yet, oldest first. -/
  ready : List FrameSt := []
  completions : Nat := 0
  /-- REPLAY: the lowest linear position (epoch × LISTLEN + position) not placed or skipped, and the samples finished
from there on: whether each is good, and its content while it waits. -/
  cursor : Nat := 0
  done : AMap (Bool × Option DecSample) := []
  /-- Unordered mode: positions finished and not placed, in order of finishing. -/
  waitq : List Nat := []
  /-- Batches started and bound, the run of corrupt samples for the present position. -/
  batches : Nat := 0
  boundBatches : Nat := 0
  corruptRun : Nat := 0
  /-- Unordered mode, what ordered mode would have given (R441, R442): the entries not compared with a batch yet (none: a
position filled with zeros), the next list position to look at, and the run of corrupt samples before it. -/
  order : List (Option Nat) := []
  ordAt : Nat := 0
  ordRun : Nat := 0
  /-- The complete batches that are bound and not compared yet, oldest first: the consuming loop and the positions. -/
  owing : List (Option Nat × List (Option Nat)) := []
deriving DecidableEq, Repr

/-! ### Col ports (R314 to R347) -/

/-- A message of one channel with bytes that no flit has taken yet: the loop whose step it belongs to (16: no step), those
bytes, and whether a flit has taken some before. -/
structure TxMsg where
  who : Nat
  bytes : List Byte
  started : Bool := false
deriving DecidableEq, Repr

/-- A flit in the replay buffer (R321, R323): sequence number, channel, payload bytes that are valid, and its 256 bytes. -/
structure TxFlit where
  seq : Nat
  vc : Nat
  len : Nat
  bytes : List Byte
deriving DecidableEq, Repr

/-- One Col port: sequence numbers, the replay buffer, messages that wait and bytes received by channel, the flits those came
in, and the running totals of credits. -/
structure PortSt where
  nextSeq : Nat := 0
  ackIn : Nat := 0xFFF
  ackOut : Nat := 0xFFF
  unacked : List TxFlit := []
  /-- How often the oldest flit of the replay buffer has been resent (R324). -/
  resends : Nat := 0
  /-- A NAK has been sent since the latest accepted flit (R322). -/
  nak : Bool := false
  queued : List (List TxMsg) := [[], [], [], []]
  rx : List (List Byte) := [[], [], [], []]
  rxLens : List (List Nat) := [[], [], [], []]
  /-- Received bytes at the front of each channel that came before the present link-up: they return no credit. -/
  old : List Nat := [0, 0, 0, 0]
  returned : List Nat := [128, 128, 192, 32]
  seen : List Nat := [0, 0, 0, 0]
  /-- The channel whose credits the next flit reports (R320). -/
  crvc : Nat := 0
  /-- STREAM goes before REQUEST in the next alternation. -/
  alt : Bool := false
  /-- The latest IDLE or NAK flit sent. -/
  ctl : List Byte := []
  /-- The place of the next flit in its pair of codewords, and whether the codeword in progress is uncorrectable (R315). -/
  cwPhase : Nat := 0
  cwBad : Bool := false
  /-- The identity at link-up (R319), and the port is held in INIT by WIRING (R337). -/
  ident : Nat := 0
  wired : Bool := false
  /-- Messages begun and not wholly acknowledged, in order: channel, loop (16: no step), and bytes not acknowledged. -/
  msgs : List (Nat × Nat × Nat) := []
deriving DecidableEq, Repr

/-- A READ or WRITE that this package has outstanding (R339): port, whether it reads, address, length and the Summit access
that it is a part of. -/
structure RemoteReq where
  port : Nat
  reads : Bool
  addr : Nat
  len : Nat
  acc : Nat
deriving DecidableEq, Repr

/-- A Summit access to another package (R332, R339): whether it reads, its address, its messages that no response has
answered, and its data. -/
structure SummitAcc where
  reads : Bool
  addr : Nat
  left : Nat
  data : List Byte
deriving DecidableEq, Repr

/-- A message of such an access that waits to be sent (R328, R332). -/
structure ColAccess where
  pkg : Nat
  reads : Bool
  cls : Nat
  addr : Nat
  len : Nat
  data : List Byte
  acc : Nat
deriving DecidableEq, Repr

/-- The Col block. -/
structure ColSt where
  ports : AMap PortSt := []
  /-- By Col tag. -/
  outstanding : AMap RemoteReq := []
  nextTag : Nat := 0
  /-- Summit accesses in progress, the number of the next one, their messages that wait, and the status that ended the latest
one. -/
  accs : AMap SummitAcc := []
  nextAcc : Nat := 0
  waiting : List ColAccess := []
  accStatus : Nat := 0
  /-- Bytes of MGMT messages not consumed, by peer package. -/
  mgmt : AMap (List Byte) := []
  /-- Commands taken from a peer's MGMT messages and not answered yet: packet tag and package. -/
  served : List (Nat × Nat) := []
  /-- The stamps of the latest exchange with the lead (R341): sent, received there, answered there, received. -/
  exchange : Option (Nat × Nat × Nat × Nat) := none
  /-- Packages that wait for boot images, and the first image each lacks (R340). -/
  booting : List (Nat × Nat) := []
  /-- The lead has been lost: only a reset returns this package to normal operation (R345). -/
  lost : Bool := false
deriving DecidableEq, Repr

/-! ### Boot and security (R517 to R545) -/

/-- How far the boot of R526 has come: held in reset; HBM training and zero fill; start-up error injection; flash mount;
waiting for images over Col (R528, R340); recovery (R529); Tarinady running; stopped (RETIRED, R535). -/
inductive BootPhase where
  | off | filling | injecting | mounting | colBoot | recovery | running | stopped
deriving DecidableEq, Repr

/-- The one-time fuses of R517, as far as software can meet them. -/
structure FuseSt where
  uid : DWord := 0
  /-- Lifecycle state as R534 encodes; the state that a blown fuse gives applies at the next reset. -/
  lcs : Nat := 1
  hashes : List (List Byte) := List.replicate 4 (List.replicate 48 0)
  present : Nat := 0xB
  revoked : Nat := 0
  svnMin : Nat := 0
  debugCount : Nat := 0
  cert : List Byte := []
  /-- The identity private key, a scalar of the curve of R518, and the device secret: only the engines read them. -/
  identity : Nat := 0
  secret : BitVec 256 := 0
deriving DecidableEq, Repr

/-- An image that has been verified and started: hash of header and body, RELEASE, SVN, and where it lies. -/
structure ImgRec where
  hash : List Byte
  release : Nat
  svn : Nat
  load : Nat
  stop : Nat
deriving DecidableEq, Repr

/-- The boot and security state. -/
structure BootSt where
  phase : BootPhase := .off
  fuses : FuseSt := {}
  slot : Option Nat := none
  stage1 : Option ImgRec := none
  tarinady : Option ImgRec := none
  /-- Chunks of RECOVERY_LOAD accepted so far. -/
  recovery : List Byte := []
  /-- The measurement register (R531). -/
  measure : List Byte := List.replicate 48 0
  /-- The live challenge: nonce, stamp, and when it was issued. -/
  challenge : Option (List Byte × Nat × Nat) := none
deriving DecidableEq, Repr

/-! ### Pace and power (R30 to R33, R582 to R593) -/

/-- What the Summit keeps of a pace monitor: samplings in a row that found it inside the limits, and samplings since its
reading changed. -/
structure PaceSt where
  good : Nat := 0
  same : Nat := 0
deriving DecidableEq, Repr

/-- Power and cooling beside the registers. -/
structure PwrSt where
  /-- PORST_N is low; PWR_FAIL_N has been acted on and not restored; VDD_FAB is on. -/
  porst : Bool := true
  pwrFail : Bool := false
  fabOn : Bool := false
  /-- The cap and BOOST that a change in progress leads to. -/
  change : Option (Nat × Bool) := none
  /-- While the stretch counts as changing (R32): the least and the greatest stretch in force since the change began. -/
  stretching : Option (Nat × Nat) := none
  /-- While the fabric rail moves between listed voltages (R28): the lowest setpoint that it has come from, in mV. -/
  moving : Option Nat := none
  /-- The fabric rail has settled since VDD_FAB began to fall: the next sampling ends the fallback. -/
  settled : Bool := false
  /-- Governor: measurements of 100 µs since the last raise, and in a row below 90 % of the cap; and an episode over the
  cap. -/
  sinceRaise : Nat := 10
  below : Nat := 0
  overEp : Bool := false
  /-- Thermal throttles (R592): of the fabric, with checks in a row at or below its end and checks in a row above 110 °C;
  of HBM, the stacks above 95 °C with their checks in a row at or below 90 °C, and the stacks above 105 °C; and
  THERMTRIP_N. -/
  fabThrottle : Bool := false
  fabCool : Nat := 0
  fabHot : Nat := 0
  hbmHot : AMap Nat := []
  hbmOver : List Nat := []
  tripped : Bool := false
deriving DecidableEq, Repr


/-! ### Timebase and networks (R383 to R415) -/

/-- The servo and the event inputs beside the registers: i of R391 as a binary64 code, the runs of R389, whether FAR has
raised its fault since HOLDOVER was entered, the event inputs whose stamp is unread (bit by input), and the one-shot
compare units that have fired for their present target (bit by unit). -/
structure SyncSt where
  i : Nat := 0
  good : Nat := 0
  wide : Nat := 0
  farRaised : Bool := false
  evtUnread : Nat := 0
  cmpDone : Nat := 0
  /-- When each of TB_CMP_OUT last rose, and TB_PPS_OUT, in ns from the timebase's zero (R396). -/
  cmpRise : AMap Nat := []
  ppsRise : Option Nat := none
deriving DecidableEq, Repr

/-- A frame in a transmit queue: its bytes without the FCS, and its drive template. -/
structure TxFrame where
  bytes : List Byte
  tmpl : Option Nat
deriving DecidableEq, Repr

/-- A gate control list with its cycle (R402): base stamp, cycle in ns, entries of gates and interval. -/
structure GclSet where
  en : Bool := false
  base : Nat := 0
  cycle : Nat := 1000000
  list : List (Nat × Nat) := []
deriving DecidableEq, Repr

/-- A MAC beside its registers: the link of its PHY, the receive ring of Tarinady and the sorted Stardoul frames with
their receive stamps, the transmit queues, the operating gate list and the one that waits with its start in ns, and of
each shaped queue the credit in bits with the time to which it is worked out (R401 to R404). -/
structure MacSt where
  phy : Bool := true
  ring : List (Nat × List Byte) := []
  sorted : List (Nat × List Byte) := []
  queues : List (List TxFrame) := List.replicate 8 []
  oper : GclSet := {}
  pend : Option (GclSet × Nat) := none
  credit : List (Rat × Nat) := List.replicate 8 (0, 0)
  /-- The end of the frame being sent, in ns. -/
  busy : Nat := 0
  /-- The latest frame sent, with its transmit stamp (R398, R400). -/
  sent : Option (Nat × TxFrame) := none
deriving DecidableEq, Repr

/-- A CAN frame in a transmit buffer bound to a drive template (R412). -/
structure CanTxSt where
  frame : CanFrame
  brs : Bool
deriving DecidableEq, Repr

/-- A CAN controller beside its registers: Tarinady's ring with the receive stamps, the bound transmit buffers that hold
a frame, and whether bus-off recovery counts. -/
structure CanSt where
  ring : List (Nat × CanFrame) := []
  tx : AMap CanTxSt := []
  recovering : Bool := false
deriving DecidableEq, Repr

/-! ### The control engine (R445 to R479) -/

/-- A channel: its law and biquad states and outputs as binary32 codes (R458), the sample of the present frame, and the
signals of the frame for the trace (R473). -/
structure ChanSt where
  s1 : List Nat := [0, 0, 0, 0]
  s2 : List Nat := [0, 0, 0, 0]
  i : Nat := 0
  d : Nat := 0
  xdPrev : Nat := 0
  x : List Nat := [0, 0, 0, 0, 0, 0, 0, 0]
  z : Nat := 0
  rPrev : Nat := 0
  /-- The output latched at the latest instant, with its RFLAGS (R472). -/
  out : Nat := 0
  outFlags : Nat := 1
  /-- What the present frame gave: the output, its RFLAGS, STALE and SAT; none before the channel's slot. -/
  next : Option (Nat × Nat × Bool × Bool) := none
  /-- The last fresh SP and FF (R469), and the run of stale frames. -/
  fresh : Option (Nat × Nat) := none
  run : Nat := 0
  /-- Stale in its latest frame, for the channels that follow it (R459). -/
  stale : Bool := false
  /-- The next AUTO evaluation is a transfer (R462). -/
  xfer : Bool := false
  /-- A mode has been requested since the last instant; MAN_OUT has been written since then; MAN_OUT in effect. -/
  reqMode : Bool := false
  manNew : Bool := false
  man : Nat := 0
  /-- The sample: the axis's VALUE with whether it is stale under R470, and the mailbox's SP, FF and staleness. -/
  mraw : Nat := 0
  mstale : Bool := false
  sp : Nat := 0
  ff : Nat := 0
  spStale : Bool := true
  signals : AMap Nat := []
deriving DecidableEq, Repr

/-- The trace (R474 to R476): the next record's ring index, records written since arming, frames until the next one,
records still to write after the trigger, the trigger node's previous value, and FORCE written. -/
structure TraceSt where
  idx : Nat := 0
  since : Nat := 0
  wait : Nat := 0
  post : Nat := 0
  prev : Option Nat := none
  force : Bool := false
deriving DecidableEq, Repr

/-- The control engine beside its registers. -/
structure CeSt where
  chans : AMap ChanSt := []
  /-- The scheduled channels of the active bank in order of their starting slots. -/
  sched : List Nat := []
  /-- j of the next instant, and its frame number. -/
  j : Int := 0
  k : Nat := 0
  /-- A frame is in progress, and the stamp of its instant. -/
  inFrame : Bool := false
  stamp : Nat := 0
  /-- A step of the timebase has come into the frame: the stamp at which its outputs are applied (R450). -/
  apply : Option Nat := none
  /-- EN has been written to 0 (R453). -/
  stopping : Bool := false
  /-- A swap waits: the time of its request in ns, and the tag of its command. -/
  swap : Option (Nat × Option Nat) := none
  /-- The duplicate compare has failed (R514). -/
  dead : Bool := false
  /-- SEQ of each template's next frame. -/
  seq : AMap Nat := []
  trace : TraceSt := {}
  /-- Since the last frame's record: a channel has entered SAFE; a fault of class F1 or above has been raised. -/
  safeSeen : Bool := false
  faultSeen : Bool := false
deriving DecidableEq, Repr

/-! ### Functional safety (R480 to R516) -/

/-- The fault aggregator beside its registers: the fault log oldest first, the F3 records of the last 600 s in ns, the
time of a warm reset that is to come, whether a run of Cairn misses that reached MISS_F2 has not ended with a pass, and
the tiles that have been halted by supervision and those that were then reset (R492). -/
structure SafSt where
  log : List (List Byte) := []
  f3s : List Nat := []
  resetAt : Option Nat := none
  missF2 : Bool := false
  halting : List Nat := []
  wasReset : List Nat := []
  /-- The first and the latest fault record that the watch agent of a tile holds (R26), by tile. -/
  captured : AMap (List Byte × List Byte) := []
  /-- SEQ of the latest record of class F1 or above. -/
  alertSeq : Option Nat := none
deriving DecidableEq, Repr
/-- Everything of the package but its memories and its queue of commands. -/
structure Dev where
  /-- The counter of open values: the model's own field. -/
  free : Nat := 0
  /-- Registers that differ from their value at reset, by byte address. -/
  regs : AMap Word := []
  /-- Values in effect of shadowed fields that a later write has not reached yet (R12 RWS). -/
  eff : AMap Word := []
  /-- Low words held until the high word is written (R15). -/
  held : AMap Word := []
  /-- High words latched by a read of the low word (R10), by agent × 2^48 + the address of the high word. -/
  latch : AMap Word := []
  /-- What the latest access of an agent outside the command interface read, and whether it came flagged (R42, R154). -/
  readData : Nat := 0
  readFlag : Bool := false
  /-- Rows and bursts with an uncorrectable error, with a correctable one, corrected ones waiting for their write-back,
  and HBM bursts that come back from another offset (R153, R154, R352). -/
  ue : List Nat := []
  ce : List Nat := []
  wb : List Nat := []
  off : List Nat := []
  raised : List FaultRec := []
  tb : TbSt := {}
  tiles : AMap TileSt := []
  lists : AMap ListSt := []
  /-- Rows in transit, by 16 × flat tile + queue, and the rows sent so far. -/
  transit : AMap (List Transit) := []
  sentRows : Nat := 0
  /-- Credits of a producer, by (package × 96 + tile) × 16 + queue (R140). -/
  credits : AMap Nat := []
  routes : AMap Route := []
  loops : AMap LoopSt := []
  /-- Semaphores, and Col credit pools from 1,024. -/
  res : AMap ResSt := []
  arbs : AMap ArbSt := []
  tarn : TarnSt := {}
  sdio : SdioSt := {}
  /-- Rows that an engine's list has produced and that wait for credits, by producer key (R140, R262). -/
  outq : AMap (List (List Byte)) := []
  flash : FlashSt := {}
  cv : CvSt := {}
  streams : AMap StreamSt := []
  /-- Keys (stream and identifier) of the decoded-sample cache (R440). -/
  cache : List (Nat × Nat) := []
  col : ColSt := {}
  /-- The Cairn descriptor of the latest successful Cairn-configure (R502). -/
  cairn : Option (List Byte) := none
  /-- Harts halted by the debug module, and the triggers set, by 4 × hart + trigger (R541): harts 0 to 3 the Summit pairs,
  4 + t the spur core of tile t. -/
  harts : List Nat := []
  triggers : AMap DWord := []
  boot : BootSt := {}
  paces : AMap PaceSt := []
  pwr : PwrSt := {}
  /-- Posts of steps that have ended and are not visible yet (R466): the end stamp and the rows, by loop. -/
  posts : AMap (List (Nat × List Byte)) := []
  sync : SyncSt := {}
  macs : AMap MacSt := []
  cans : AMap CanSt := []
  eng : CeSt := {}
  saf : SafSt := {}
deriving DecidableEq, Repr

/-- One package: its memories, its other state, and the commands that wait, first in first out. -/
structure State where
  pending : List Instr := []
  mem : Memory := []
  dev : Dev := {}
deriving DecidableEq, Repr

/-- The machine right after power-on with PORST_N low: every register at its value at reset, every memory zero, no command
waiting.  RESET_RELEASE begins the start-up of R526. -/
def State.reset : State := {}

end Sys2Proof.Machine
end

