-- ==== Sys2Proof/Machine/Ops.lean ====
section
/-!
DEFINITION. The named operations on registers, memories and faults that every meaning is built from.

A meaning runs on a `Mach`: the memory as the command found it, the bytes it has stored (newest first), and the other
state.  `run` writes the stores back through `Memory.writeLog`, so that no command can leave the memory's canonical
form.
-/
namespace Sys2Proof.Machine

/-- The state a meaning works on. -/
structure Mach where
  base : Memory
  log : List Host.Cell
  dev : Dev

/-- The end of a meaning that may store to memory. -/
def run (f : Mach → Mach) (s : State) : Host.Outcome State Fault Refusal :=
  let m := f ⟨s.mem, [], s.dev⟩
  .next { s with mem := Memory.writeLog s.mem m.log, dev := m.dev }

/-- The end of a meaning that stores nothing: it reads the memory and changes the other state. -/
def runDev (f : Memory → Dev → Dev) (s : State) : Host.Outcome State Fault Refusal :=
  .next { s with dev := f s.mem s.dev }

/-- The end of a meaning that first clears part of the memory: the cells that `keep` does not accept. -/
def runKeep (keep : Memory → Dev → Nat → Bool) (f : Mach → Mach) (s : State) : Host.Outcome State Fault Refusal :=
  run f { s with mem := Memory.keepOnly s.mem (keep s.mem s.dev) }

/-! ### The parts of the state -/

def Dev.tile (d : Dev) (t : Nat) : TileSt := AMap.getD d.tiles t {}
def Dev.setTile (d : Dev) (t : Nat) (x : TileSt) : Dev := { d with tiles := AMap.set d.tiles t x }
def Dev.modTile (d : Dev) (t : Nat) (f : TileSt → TileSt) : Dev := d.setTile t (f (d.tile t))
def Dev.loop (d : Dev) (n : Nat) : LoopSt := AMap.getD d.loops n {}
def Dev.setLoop (d : Dev) (n : Nat) (x : LoopSt) : Dev := { d with loops := AMap.set d.loops n x }
def Dev.modLoop (d : Dev) (n : Nat) (f : LoopSt → LoopSt) : Dev := d.setLoop n (f (d.loop n))
def Dev.modStep (d : Dev) (n : Nat) (f : StepSt → StepSt) : Dev :=
  d.modLoop n (fun l => { l with step := l.step.map f })
def Dev.list (d : Dev) (k : Nat) : Option ListSt := AMap.find d.lists k
def Dev.setList (d : Dev) (k : Nat) (x : ListSt) : Dev := { d with lists := AMap.set d.lists k x }
def Dev.modList (d : Dev) (k : Nat) (f : ListSt → ListSt) : Dev :=
  match d.list k with
  | none => d
  | some l => d.setList k (f l)
def Dev.arb (d : Dev) (a : Nat) : ArbSt := AMap.getD d.arbs a {}
def Dev.setArb (d : Dev) (a : Nat) (x : ArbSt) : Dev := { d with arbs := AMap.set d.arbs a x }
def Dev.resOf (d : Dev) (r : Nat) : ResSt := AMap.getD d.res r {}
def Dev.setRes (d : Dev) (r : Nat) (x : ResSt) : Dev := { d with res := AMap.set d.res r x }
def Dev.modTarn (d : Dev) (f : TarnSt → TarnSt) : Dev := { d with tarn := f d.tarn }

def Mach.mod (m : Mach) (f : Dev → Dev) : Mach := { m with dev := f m.dev }

/-- The key of a list: a tile's flat index, 96 + n for the Tarn list of loop n, 112 + n for its ingest list. -/
def listKey : ListId → Nat
  | .tile t => t.val
  | .tarn n => 96 + n.val
  | .ingest n => 112 + n.val

/-- A fresh index of the open values of Config. -/
def Dev.fresh (d : Dev) : Nat × Dev := (d.free, { d with free := d.free + 1 })

/-! ### Registers -/

/-- The value of a register: as last changed, else its value at reset. -/
def Dev.reg (d : Dev) (a : Nat) : Nat :=
  match AMap.find d.regs a with
  | some w => w.toNat
  | none =>
    match regDesc a with
    | some r => r.resetValue.toNat
    | none => 0

def Dev.setReg (d : Dev) (a v : Nat) : Dev := { d with regs := AMap.set d.regs a (BitVec.ofNat 32 v) }

/-- A field of a register. -/
def Dev.rf (d : Dev) (a : Nat) (f : Fd) : Nat := bits (d.reg a) f.hi f.lo

/-- A field of a register set. -/
def Dev.wf (d : Dev) (a : Nat) (f : Fd) (v : Nat) : Dev := d.setReg a (setBits (d.reg a) f.hi f.lo v)

def Dev.rfB (d : Dev) (a : Nat) (f : Fd) : Bool := d.rf a f != 0

/-- A counter after `n` more events; it saturates at the width of its field. -/
def Dev.inc (d : Dev) (a : Nat) (f : Fd) (n : Nat) : Dev := d.wf a f (satAdd (f.hi + 1 - f.lo) (d.rf a f) n)

/-- A 32-bit counter register after `n` more events. -/
def Dev.cnt (d : Dev) (a n : Nat) : Dev := if n = 0 then d else d.setReg a (satAdd 32 (d.reg a) n)

/-- A 64-bit quantity in two consecutive registers, low word first (R10). -/
def Dev.reg64 (d : Dev) (a : Nat) : Nat := d.reg a + 2 ^ 32 * d.reg (a + 4)
def Dev.setReg64 (d : Dev) (a v : Nat) : Dev := (d.setReg a (v % 2 ^ 32)).setReg (a + 4) (v / 2 ^ 32 % 2 ^ 32)

/-- The value in effect of a register with shadowed fields (R12 RWS): the value a later write has not replaced yet. -/
def Dev.effReg (d : Dev) (a : Nat) : Nat :=
  match AMap.find d.eff a with
  | some w => w.toNat
  | none => d.reg a

def Dev.effRf (d : Dev) (a : Nat) (f : Fd) : Nat := bits (d.effReg a) f.hi f.lo

/-- A shadowed register written while the old value must stay in effect until the boundary. -/
def Dev.setShadow (d : Dev) (a v : Nat) : Dev :=
  let d' := match AMap.find d.eff a with
    | some _ => d
    | none => { d with eff := AMap.set d.eff a (BitVec.ofNat 32 (d.reg a)) }
  d'.setReg a v

/-- The boundary of a shadowed register: the value written comes into effect. -/
def Dev.applyShadow (d : Dev) (a : Nat) : Dev := { d with eff := AMap.erase d.eff a }

/-- Registers set to zero: the counters that a CNT_CLR clears. -/
def Dev.clearRegs (d : Dev) (as : List Nat) : Dev := as.foldl (fun d a => d.setReg a 0) d

/-! ### The timebase as the other blocks read it (R386) -/

def Dev.stamp (d : Dev) : Nat := (d.tb.sec % 2 ^ 34) * 2 ^ 30 + d.tb.ns
/-- Whole microseconds from the timebase's zero (R275). -/
def Dev.us (d : Dev) : Nat := d.tb.sec * 1000000 + d.tb.ns / 1000
/-- Nanoseconds from the timebase's zero. -/
def Dev.nsNow (d : Dev) : Nat := d.tb.sec * 1000000000 + d.tb.ns

/-- The signed difference of two stamps in ns (R387). -/
def stampDiff (a b : Nat) : Int :=
  sext 34 (a / 2 ^ 30 + 2 ^ 34 - b / 2 ^ 30) * 1000000000 + ((a % 2 ^ 30 : Nat) : Int) - ((b % 2 ^ 30 : Nat) : Int)

/-- The stamp `ns` nanoseconds after stamp `a`. -/
def stampAdd (a ns : Nat) : Nat :=
  let n := a % 2 ^ 30 + ns
  ((a / 2 ^ 30 + n / 1000000000) % 2 ^ 34) * 2 ^ 30 + n % 1000000000

/-! ### Faults (R483, R597) -/

/-- The sources of R486. -/
def Src.TILE := 1
def Src.RIDGE := 2
def Src.WATCH := 3
def Src.PACE := 4
def Src.SCHED := 5
def Src.ARB := 6
def Src.TARN := 7
def Src.INGEST := 8
def Src.HBM := 9
def Src.FLASH := 10
def Src.COL := 11
def Src.TIMEBASE := 12
def Src.ETH := 13
def Src.CAN := 14
def Src.CE := 15
def Src.SUPERVISOR := 16
def Src.CAIRN := 17
def Src.SELFTEST := 18
def Src.LOCKSTEP := 19
def Src.INJECT := 20
def Src.MONITOR := 21
def Src.SECURITY := 22
def Src.COMMAND := 24
def Src.ACCESS := 25

/-- Whether the route of a loop's step, or its bound route, sets FLAGS.SAFETY. -/
def Dev.loopSafety (d : Dev) (n : Nat) : Bool :=
  let l := d.loop n
  match l.step with
  | some st => bit st.b.route.flags 0
  | none =>
    match l.binding with
    | some b => bit b.route.flags 0
    | none => false

/-- A fault raised with no step concerned. -/
def Dev.raise (d : Dev) (cls src code unit detail : Nat) : Dev :=
  { d with
    raised := d.raised ++ [{ cls := cls, src := src, code := code, unit := unit, detail := detail % 2 ^ 64 }]
    eng := { d.eng with faultSeen := d.eng.faultSeen || decide (cls ≥ 1) } }

/-- A fault raised for a step of loop `n`. -/
def Dev.raiseFor (d : Dev) (n cls src code unit detail : Nat) : Dev :=
  { d with
    raised := d.raised ++ [{ cls := cls, src := src, code := code, unit := unit, loop := n,
                             safety := d.loopSafety n, detail := detail % 2 ^ 64 }]
    eng := { d.eng with faultSeen := d.eng.faultSeen || decide (cls ≥ 1) } }

/-! ### Times that commands reach (R383, R386; log 51) -/

/-- The stamp a signed number of nanoseconds after stamp `a`. -/
def stampMove (a : Nat) (ns : Int) : Nat :=
  let t : Int := ((a / 2 ^ 30 : Nat) : Int) * 1000000000 + ((a % 2 ^ 30 : Nat) : Int) + ns
  (t / 1000000000 % 2 ^ 34).toNat * 2 ^ 30 + (t % 1000000000).toNat

/-- The counter moved by a signed number of nanoseconds. -/
def TbSt.move (t : TbSt) (ns : Int) : TbSt :=
  let x : Int := ((t.sec : Nat) : Int) * 1000000000 + (t.ns : Int) + ns
  { t with sec := (x / 1000000000 % 2 ^ 48).toNat, ns := (x % 1000000000).toNat }

/-- The timebase counts on to a value: TB_PPS_OUT rises at a carry into the seconds (R396). -/
def Dev.countTo (d : Dev) (t : TbSt) : Dev :=
  if t.sec = d.tb.sec then { d with tb := t }
  else { d with
    tb := t
    sync := { d.sync with ppsRise := some (t.sec * 1000000000) } }

/-- An event that falls at a stamp finds the timebase there or later: the timebase has counted on to it (log 51). -/
def Dev.reach (d : Dev) (stamp : Nat) : Dev :=
  let n := stampDiff stamp d.stamp
  if n > 0 then d.countTo { d.tb.move n with frac := 0 } else d

/-- The stamp of a time in nanoseconds from the timebase's zero. -/
def nsStamp (n : Nat) : Nat := (n / 1000000000 % 2 ^ 34) * 2 ^ 30 + n % 1000000000

/-! ### ND_EVENTS (R79 to R83) -/

/-- An event: its cause (1 INGEST, 2 COLLIDE, 3 SEMA), its loop and its detail. -/
structure NdEvent where
  cause : Nat
  loop : Nat
  detail : Nat
deriving DecidableEq, Repr

/-- The counts of one event (R80, R83). -/
def Dev.ndCount (d : Dev) (e : NdEvent) : Dev :=
  let tot := satAdd 64 (d.reg64 Reg.GEN_ND_TOTAL_LO) 1
  let d := d.setReg64 Reg.GEN_ND_TOTAL_LO tot
  let d := d.cnt (match e.cause with
    | 1 => Reg.GEN_ND_INGEST
    | 2 => Reg.GEN_ND_COLLIDE
    | _ => Reg.GEN_ND_SEMA) 1
  d.cnt (Reg.GEN_ND_LOOP_n e.loop) 1

/-- The order of R82: the highest cause, then the lowest loop, then the lowest detail. -/
def NdEvent.before (a b : NdEvent) : Bool :=
  decide (a.cause > b.cause) || (a.cause == b.cause && (decide (a.loop < b.loop)
    || (a.loop == b.loop && decide (a.detail ≤ b.detail))))

/-- The events of one command, which reach the Summit in the same cycle (R82): all are counted, and GEN_ND_LAST records the
first of them in the order of R82. -/
def Dev.ndEvents (d : Dev) (es : List NdEvent) : Dev :=
  let d := es.foldl Dev.ndCount d
  match es.sortLe NdEvent.before with
  | [] => d
  | e :: _ => d.setReg Reg.GEN_ND_LAST (e.cause * 2 ^ 30 + (e.loop % 16) * 2 ^ 24 + e.detail % 2 ^ 16)

/-- One event. -/
def Dev.ndEvent (d : Dev) (cause loop detail : Nat) : Dev := d.ndEvents [⟨cause, loop, detail⟩]

/-! ### The address map (R38 to R43) -/

def hbmSize : Nat := 0x1800000000
def tileBase (t : Nat) : Nat := 0x010000000000 + t * 0x400000
def amAddr (t row : Nat) : Nat := tileBase t + row * 64
def wmAddr (t slot row : Nat) : Nat := tileBase t + 0x200000 + slot * 0x20000 + row * 64
def psAddr (t row : Nat) : Nat := tileBase t + 0x2C0000 + row * 64
def spurAddr (t off : Nat) : Nat := tileBase t + 0x300000 + off
def tarnMem : Nat := 0x020000000000
def ingCache : Nat := 0x021000000000
def summitRam : Nat := 0x030000000000
def ceMem : Nat := 0x031000000000
def regSpace : Nat := 0x040000000000

/-- The regions of the map. -/
inductive Region where
  | hbm
  | tileAm (t : Nat)
  | tileWm (t : Nat)
  | tilePs (t : Nat)
  | tileSpur (t : Nat)
  | tarn
  | ingest
  | summit
  | ce
  | reg
  | unmapped
deriving DecidableEq, Repr

/-- The ridge is enabled (R5). -/
def Dev.ridgeOn (d : Dev) (r : Nat) : Bool := bit (d.reg Reg.GEN_RIDGE_EN) r
def Dev.tileOn (d : Dev) (t : Nat) : Bool := t < 96 && d.ridgeOn (t / 4)
def Dev.tilesOn (d : Dev) : List Nat := (List.range 96).filter d.tileOn

/-- The region of a package-local address; the places of a fused-off ridge and the gap of control-engine memory are
unmapped (R3, R42, R477). -/
def Dev.region (d : Dev) (a : Nat) : Region :=
  if a < hbmSize then .hbm
  else if 0x010000000000 ≤ a && a < 0x010018000000 then
    let t := (a - 0x010000000000) / 0x400000
    let o := (a - 0x010000000000) % 0x400000
    if !d.tileOn t then .unmapped
    else if o < 0x200000 then .tileAm t
    else if o < 0x2C0000 then .tileWm t
    else if o < 0x300000 then .tilePs t
    else if o < 0x340000 then .tileSpur t
    else if o < 0x3F0000 then .unmapped
    else .reg
  else if tarnMem ≤ a && a < tarnMem + 0x1000000 then .tarn
  else if ingCache ≤ a && a < ingCache + 0xC00000 then .ingest
  else if summitRam ≤ a && a < summitRam + 0x200000 then .summit
  else if ceMem ≤ a && a < ceMem + 0x200000 then
    (if ceMem + 0x18C000 ≤ a && a < ceMem + 0x1FC000 then .unmapped else .ce)
  else if regSpace ≤ a && a < regSpace + 0x120000 then .reg
  else if regSpace + 0x200000 ≤ a && a < regSpace + 0x380000 then
    (if d.ridgeOn ((a - regSpace - 0x200000) / 0x10000) then .reg else .unmapped)
  else .unmapped

/-- Whether an address that must name a register names one (a register heading, at a multiple of 4). -/
def isReg (a : Nat) : Bool := a % 4 == 0 && (regDesc a).isSome

/-! ### Reading and storing bytes -/

/-- A byte of a region that the flash subsystem's map has filled with 0xFF is held complemented (R366; log 30). -/
def Dev.held8 (d : Dev) (a : Nat) (b : Byte) : Byte := if d.flash.flipped.contains (a / 2 ^ 31) then ~~~b else b

def Mach.rd (m : Mach) (a : Nat) : Byte :=
  m.dev.held8 a (match m.log.find? (fun c => c.1 == a) with
    | some c => c.2
    | none => Memory.read m.base a)

/-- The byte at an address, as a command that stores nothing reads it. -/
def rdMem (mem : Memory) (d : Dev) (a : Nat) : Byte := d.held8 a (Memory.read mem a)
def rdMemBytes (mem : Memory) (d : Dev) (a n : Nat) : List Byte := (List.range n).map (fun i => rdMem mem d (a + i))

def Mach.rdBytes (m : Mach) (a n : Nat) : List Byte := (List.range n).map (fun i => m.rd (a + i))
def Mach.rdNat (m : Mach) (a n : Nat) : Nat := leNat (m.rdBytes a n)

/-- The units that carry a check code of their own: 32-byte bursts of HBM (R352), 64-byte rows elsewhere (R122). -/
def eccUnit (a : Nat) : Nat := if a < hbmSize then a / 32 * 32 else a / 64 * 64
def eccSize (a : Nat) : Nat := if a < hbmSize then 32 else 64

/-- Whether the unit at `u` meets the range of `n` bytes at `a`. -/
def unitMeets (a n u : Nat) : Bool := n != 0 && decide (u < a + n) && decide (a < u + eccSize u)
/-- Whether the range covers the whole unit. -/
def unitCovered (a n u : Nat) : Bool := decide (a ≤ u) && decide (u + eccSize u ≤ a + n)

/-- Bytes stored; a unit the store covers gets fresh check bits, and one it meets is corrected by the
read-modify-write (R123, R153, R351). -/
def Mach.store (m : Mach) (a : Nat) (bs : List Byte) : Mach :=
  let n := bs.length
  { m with
    log := ((List.range n).zip bs).foldl (fun l p => (a + p.1, m.dev.held8 (a + p.1) p.2) :: l) m.log
    dev := { m.dev with
      ue := m.dev.ue.filter (fun u => !unitCovered a n u)
      off := m.dev.off.filter (fun u => !unitCovered a n u)
      ce := m.dev.ce.filter (fun u => !unitMeets a n u)
      wb := m.dev.wb.filter (fun u => !unitMeets a n u) } }

def Mach.storeNat (m : Mach) (a n v : Nat) : Mach := m.store a (leBytes n v)
def Mach.zero (m : Mach) (a n : Nat) : Mach := m.store a (List.replicate n 0)

/-- One row or burst marked with an error that the environment has made, or a report counted. -/
def Dev.upset (d : Dev) : Upset → Dev
  | .correctable a => let u := eccUnit a
                      if u ∈ d.ce || u ∈ d.ue then d else { d with ce := d.ce ++ [u] }
  | .uncorrectable a _ => let u := eccUnit a
                          if u ∈ d.ue then d else
                            { d with ue := d.ue ++ [u], ce := d.ce.filter (· != u), wb := d.wb.filter (· != u) }
  | .wrongOffset a => let u := eccUnit a
                      if u ∈ d.off then d else { d with off := d.off ++ [u], ue := d.ue.filter (· != u) ++ [u] }
  | .onDie _ => d.cnt (Reg.HBM_CNT_k 3) 1
  | .bankWait _ _ => d

/-- The bits that an uncorrectable error flips in the unit as it is stored: what a debug read shows (R154). -/
def Mach.flipBits (m : Mach) : Upset → Mach
  | .uncorrectable a fs => fs.foldl (fun (m : Mach) f =>
      let b := eccUnit a + f.val / 8 % eccSize a
      { m with log := (b, m.dev.held8 b (m.rd b ^^^ (1#8 <<< (f.val % 8)))) :: m.log }) m
  | _ => m

/-- The memory errors that the environment has made by the time the command runs. -/
def Mach.upsets (m : Mach) (us : List Upset) : Mach := us.foldl (fun m u => (m.flipBits u).mod (fun d => d.upset u)) m

/-- The same for a command whose accesses come from inside tile `t`: their waits for its banks are counted (R124). -/
def Mach.tileUpsets (m : Mach) (t : Nat) (us : List Upset) : Mach :=
  us.foldl (fun m u => match u with
    | .bankWait b n => m.mod (fun d =>
        d.cnt (if b.val < 16 then Reg.TILE_AM_CONF_b t b.val else Reg.TILE_PS_CONF_b t (b.val - 16)) n)
    | _ => m) (m.upsets us)

/-- The memory (0 AM, 1 WM, 2 PS) and row of a tile-memory address, as TILE_ECC_LAST numbers them. -/
def tileMemRow (a : Nat) : Nat × Nat × Nat :=
  let t := (a - 0x010000000000) / 0x400000
  let o := (a - 0x010000000000) % 0x400000
  if o < 0x200000 then (t, 0, o / 64)
  else if o < 0x2C0000 then (t, 1, (o - 0x200000) / 64)
  else (t, 2, (o - 0x2C0000) / 64)

/-- The pseudo-channel of an HBM address (R349). -/
def pseudoChannel (a : Nat) : Nat :=
  let g := bits a 36 8
  bits g 6 0 ^^^ bits g 13 7 ^^^ bits g 20 14 ^^^ bits g 27 21 ^^^ bits g 28 28

/-- A read of one unit that has a correctable error (R153, R353, R490): it waits for its write-back, and until then every
read corrects it again. -/
def Dev.corrected (d : Dev) (u : Nat) : Dev :=
  let d := { d with wb := if u ∈ d.wb then d.wb else d.wb ++ [u] }
  if u < hbmSize then d.cnt (Reg.HBM_CNT_k 0) 1
  else match d.region u with
    | .summit => d.raise 0 Src.MONITOR 0x000A 0xFFFF (u - summitRam)
    | .ce => d.raise 0 Src.CE 0x0005 0xFFFF (u - ceMem)
    | .tileAm _ | .tileWm _ | .tilePs _ =>
      let (t, mem, row) := tileMemRow u
      (d.cnt (Reg.TILE_ECC_CE_m t mem) 1).setReg (Reg.TILE_ECC_LAST t) (mem * 2 ^ 29 + row % 2 ^ 15)
    | _ => d

/-- A read of one unit that has an uncorrectable error (R154, R354, R490); `req` is the requester of R306. -/
def Dev.uncorrectable (d : Dev) (u req loop : Nat) : Dev :=
  if u < hbmSize then
    let o := decide (u ∈ d.off)
    let pc := pseudoChannel u
    let d := d.cnt (Reg.HBM_CNT_k 1) 1
    let d := if o then d.cnt (Reg.HBM_CNT_k 2) 1 else d
    let d := d.setReg64 Reg.HBM_UE_ADDR_LO u
    let d := d.setReg Reg.HBM_UE_INFO (b2n o * 2 ^ 31 + pc * 2 ^ 8 + req % 256)
    let detail := u + (req % 256) * 2 ^ 48 + b2n o * 2 ^ 63
    if loop < 16 then d.raiseFor loop 1 Src.HBM 0x0001 pc detail else d.raise 1 Src.HBM 0x0001 pc detail
  else match d.region u with
    | .summit => d.raise 3 Src.MONITOR 0x000B 0xFFFF (u - summitRam)
    | .ce => d.raise 3 Src.CE 0x0006 0xFFFF (u - ceMem)
    | .tileAm _ | .tileWm _ | .tilePs _ =>
      let (t, mem, row) := tileMemRow u
      (d.cnt (Reg.TILE_ECC_UE t) 1).setReg (Reg.TILE_ECC_LAST t) (2 ^ 31 + mem * 2 ^ 29 + row % 2 ^ 15)
    | _ => d

/-- A checked read of `n` bytes at `a`: corrected units are counted; the lowest uncorrectable unit, if any, is counted
and named. -/
def Mach.eccRead (m : Mach) (a n req loop : Nat) : Mach × Option Nat :=
  let bad := (m.dev.ue.filter (unitMeets a n)).sortLe (· ≤ ·)
  let hits := m.dev.ce.filter (unitMeets a n)
  match bad with
  | [] => (m.mod (fun d => hits.foldl Dev.corrected d), none)
  | u :: _ =>
    (m.mod (fun d => ((hits.filter (· < u)).foldl Dev.corrected d).uncorrectable u req loop), some u)

/-- The checks of the read-modify-writes that a store of `n` bytes makes: an uncorrectable unit that it covers only in
part refuses the store (R123, R351). -/
def Mach.rmwCheck (m : Mach) (a n req loop : Nat) : Mach × Option Nat :=
  let part := fun u => unitMeets a n u && !unitCovered a n u
  let bad := (m.dev.ue.filter part).sortLe (· ≤ ·)
  let hits := m.dev.ce.filter part
  match bad with
  | [] => (m.mod (fun d => hits.foldl Dev.corrected d), none)
  | u :: _ => (m.mod (fun d => ((hits.filter (· < u)).foldl Dev.corrected d).uncorrectable u req loop), some u)

/-- The row or burst that a write-back of R153 or R353 restores: its error is gone. -/
def Dev.writeBack (d : Dev) (a : Nat) : Dev :=
  let u := eccUnit a
  if u ∈ d.wb then { d with wb := d.wb.filter (· != u), ce := d.ce.filter (· != u) } else d

end Sys2Proof.Machine
end

