-- ==== Sys2Proof/Machine/Mesh.lean ====
section
/-!
DEFINITION. The die mesh (R18, R19, R22): the ridges at which the outside units enter it, and the rows that the crossbars
forward along it.
-/
namespace Sys2Proof.Machine

/-- The ports of the crossbars that a row leaves by on its way from ridge `a` to ridge `b`, in dimension order: first
along the row, then along the column. -/
def meshPath : Nat → Nat → Nat → List (Nat × Nat)
  | 0, _, _ => []
  | k + 1, a, b =>
    if a % 6 < b % 6 then (a, 5) :: meshPath k (a + 1) b
    else if a % 6 > b % 6 then (a, 7) :: meshPath k (a - 1) b
    else if a / 6 < b / 6 then (a, 6) :: meshPath k (a + 6) b
    else if a / 6 > b / 6 then (a, 4) :: meshPath k (a - 6) b
    else []

/-- `n` rows forwarded along the mesh and out of a port of the last ridge. -/
def Dev.meshRows (d : Dev) (a b port n : Nat) : Dev :=
  (meshPath 10 a b ++ [(b, port)]).foldl (fun d x => d.cnt (Reg.RDG_PORT_ROWS_p x.1 x.2) n) d

/-- The ridge at which the controllers of the pseudo-channel of an HBM address enter the mesh (R22): one of the three of its
stack, by the pseudo-channel's place in the stack modulo 3 (DESIGN CHOICE, log 66). -/
def hbmRidge (a : Nat) : Nat :=
  let pc := pseudoChannel a
  [0, 3, 18, 21].getD (pc / 32) 0 + pc % 32 % 3
/-- The ridge of the Summit: firmware, DMA for the command interface, control engine and flash (R22). -/
def summitRidge : Nat := 6

/-- The rows of a run of HBM, by the ridge they enter or leave the mesh at. -/
def hbmRidgeRows (a rows : Nat) : List (Nat × Nat) :=
  let rs := (List.range rows).map (fun i => hbmRidge (a + 64 * i))
  ((List.range 24).map (fun r => (r, (rs.filter (· == r)).length))).filter (fun x => x.2 != 0)

/-- Rows brought from HBM to a tile, and from a tile to HBM. -/
def Dev.fromHbm (d : Dev) (a rows t : Nat) : Dev :=
  (hbmRidgeRows a rows).foldl (fun d x => d.meshRows x.1 (t / 4) (t % 4) x.2) d
def Dev.toHbm (d : Dev) (a rows t : Nat) : Dev :=
  (hbmRidgeRows a rows).foldl (fun d x => d.meshRows (t / 4) x.1 8 x.2) d

/-- The ridge at which a Col port enters the mesh. -/
def colRidge (p : Nat) : Nat := if p < 2 then 5 else if p = 2 then 11 else if p = 3 then 17 else 23
/-- The ridges of the ingest engine and of the Tarn table engine; of the table engine's two, 0 and 23, its rows use ridge 0
(DESIGN CHOICE, log 66). -/
def ingestRidge : Nat := 12
def tarnRidge : Nat := 0

/-- Where a requester of R306 stands on the mesh: its ridge and the port of that ridge. -/
def reqPort (req : Nat) : Nat × Nat :=
  if req < 96 then (req / 4, req % 4)
  else if req < 120 then (req - 96, 8)
  else if req < 122 then (tarnRidge, 8)
  else if req < 186 then (let lane := req - 122; ([0, 3, 18, 21].getD (lane / 16) 0 + lane % 16 % 3, 8))
  else if req = 186 then (ingestRidge, 8)
  else if req < 189 then (summitRidge, 8)
  else (colRidge (req - 189), 8)

/-! ### Frozen arbiters (R305, R311) -/

/-- Positions that are used (R305). -/
def arbUsed (a : Nat) : Bool := decide (a < 256) && a != 134 && a != 135

def Dev.arbFrozen (d : Dev) (a : Nat) : Bool := arbUsed a && bit (d.reg (Reg.ARB_FREEZE_k (a / 32))) (a % 32)

/-- Traffic that a requester originates passes an arbiter: it is not frozen, or the requester's grant is still in progress
(R311). -/
def Dev.arbOpen (d : Dev) (a req : Nat) : Bool :=
  !d.arbFrozen a || (d.arb a).owner.any (fun r => (if a < 136 then r.req else r.origin.requester.val) == req)

/-- The mesh egress arbiters from ridge `a` to ridge `b`, and to its edge port when `port` is 8, let a requester's rows
pass. -/
def Dev.meshOpen (d : Dev) (a b port req : Nat) : Bool :=
  ((meshPath 10 a b) ++ [(b, port)]).all (fun x => decide (x.2 < 4) || d.arbOpen (136 + 5 * x.1 + (x.2 - 4)) req)

/-- The pseudo-channels of `n` bytes of HBM at `a` let a requester's accesses pass. -/
def Dev.hbmOpen (d : Dev) (a n req : Nat) : Bool :=
  (List.range (ceilDiv (a % 256 + n) 256)).all (fun i => d.arbOpen (pseudoChannel (a + 256 * i)) req)

/-- Rows that a requester moves between itself and `n` bytes of memory at `a`: towards memory, or back. -/
def Dev.dmaRows (d : Dev) (a n req : Nat) (write : Bool) : Dev :=
  let p := reqPort req
  let rows := ceilDiv (a % 64 + n) 64
  let move := fun (d : Dev) (x : Nat × Nat) (k : Nat) =>
    if write then d.meshRows p.1 x.1 x.2 k else d.meshRows x.1 p.1 p.2 k
  if n = 0 then d
  else match d.region a with
    | .hbm => (hbmRidgeRows (a / 64 * 64) rows).foldl (fun d x => move d (x.1, 8) x.2) d
    | .tileAm t | .tileWm t | .tilePs t | .tileSpur t => move d (t / 4, t % 4) rows
    | .tarn => move d (tarnRidge, 8) rows
    | .ingest => move d (ingestRidge, 8) rows
    | _ => move d (summitRidge, 8) rows

end Sys2Proof.Machine
end

