-- ==== Sys2Proof/Machine/ColCore.lean ====
section
/-!
DEFINITION. The Col ports' shared operations (R314 to R339): which port leads to a peer, messages, flits and credits on
the transmit side.  A DATA flit is sent as soon as its channel has bytes and a credit, and an IDLE flit after it (R320, R328;
log 40).
-/
namespace Sys2Proof.Machine

def PS.DISABLED := 0
def PS.TRAINING := 1
def PS.INIT := 2
def PS.UP := 3
def PS.RECOVERY := 4
def PS.DOWN := 5

def VC.REQUEST := 0
def VC.RESPONSE := 1
def VC.STREAM := 2
def VC.MGMT := 3

/-- Flits of each channel's receive buffer (R326). -/
def vcBuffer : List Nat := [128, 128, 192, 32]

def Dev.pkg (d : Dev) : Nat := d.rf Reg.COL_GRP Fld.COL_GRP.PKG
/-- The group size (R334). -/
def Dev.grp (d : Dev) : Nat := d.rf Reg.COL_GRP Fld.COL_GRP.GRP + 1
def Dev.port (d : Dev) (p : Nat) : PortSt := AMap.getD d.col.ports p {}
def Dev.setPort (d : Dev) (p : Nat) (x : PortSt) : Dev :=
  { d with col := { d.col with ports := AMap.set d.col.ports p x } }
def Dev.modPort (d : Dev) (p : Nat) (f : PortSt → PortSt) : Dev := d.setPort p (f (d.port p))
def Dev.portState (d : Dev) (p : Nat) : Nat := d.rf (Reg.COL_Pp_STAT p) Fld.COL_Pp_STAT.STATE
def Dev.setPortState (d : Dev) (p v : Nat) : Dev := d.wf (Reg.COL_Pp_STAT p) Fld.COL_Pp_STAT.STATE v

/-- The package that a port leads to, and the port at its other end (R335). -/
def Dev.peerOf (d : Dev) (p : Nat) : Nat := d.pkg ^^^ (p / 2 + 1)
def peerPort (p : Nat) : Nat := p
/-- The pair of ports that leads to a package. -/
def Dev.pairTo (d : Dev) (k : Nat) : Nat := (d.pkg ^^^ k) - 1

/-- A package is reachable (R338). -/
def Dev.reachable (d : Dev) (k : Nat) : Bool :=
  k == d.pkg || (d.portState (2 * d.pairTo k) == PS.UP) || (d.portState (2 * d.pairTo k + 1) == PS.UP)

/-- The port that messages to package `k` at position `s` use (R333); none when both are down. -/
def Dev.portFor (d : Dev) (k s : Nat) : Option Nat :=
  let p := 2 * d.pairTo k + s
  let o := 2 * d.pairTo k + (1 - s)
  let ok := fun q => d.portState q == PS.UP || d.portState q == PS.RECOVERY
  if ok p then some p else if ok o then some o else none

/-- Transmit credits of a channel, as COL_Pp_CRED holds them. -/
def credFld (vc : Nat) : Fd := ⟨8 * vc + 7, 8 * vc⟩
def Dev.colCredits (d : Dev) (p vc : Nat) : Nat := d.rf (Reg.COL_Pp_CRED p) (credFld vc)

/-- A message (R330). -/
def mkMsg (op cls src dst tag len status addr : Nat) (payload : List Byte) : List Byte :=
  leBytes 1 op ++ leBytes 1 (cls % 4 + 4 * (src % 4) + 16 * (dst % 4)) ++ leBytes 2 tag ++ leBytes 2 len
    ++ leBytes 2 status ++ leBytes 8 addr ++ payload

/-- The lane that carries symbol `i` of a codeword of 544 symbols (R315). -/
def fecLane (i : Nat) : Nat := i % 8

/-- The 256 bytes of a flit (R317, R318); payload bytes past LEN are zero (log 40). -/
def mkFlit (type vc seq ack crvc crcnt len : Nat) (payload : List Byte) : List Byte :=
  let h := type * 2 ^ 62 + vc * 2 ^ 60 + seq * 2 ^ 48 + ack * 2 ^ 36 + crvc * 2 ^ 34 + crcnt * 2 ^ 26 + len * 2 ^ 18
  let b := leBytes 8 h ++ payload ++ List.replicate (244 - payload.length) 0
  b ++ leBytes 4 (crc32c b)

/-- The next flit of a port: a flit that reports credits reports those of the four channels in turn (R318, R320); none are
granted before the link is UP (R337). -/
def Dev.nextFlit (d : Dev) (p type vc : Nat) (payload : List Byte) : Dev × List Byte :=
  let x := d.port p
  let crcnt := if d.portState p = PS.UP then x.returned.getD x.crvc 0 else 0
  (d.setPort p { x with crvc := (x.crvc + 1) % 4 },
    mkFlit type vc x.nextSeq x.ackOut x.crvc (crcnt % 256) (if type = 1 then payload.length else 0) payload)

/-- An IDLE flit carries the identity of this port (R319, R320). -/
def Dev.sendIdle (d : Dev) (p : Nat) : Dev :=
  if d.portState p ≠ PS.UP && d.portState p ≠ PS.INIT then d
  else
    let (d, f) := d.nextFlit p 0 0 (leBytes 1 d.pkg ++ leBytes 1 p ++ leBytes 1 d.grp ++ [1])
    d.modPort p (fun x => { x with ctl := f })

/-- One NAK at the first failure after an accepted flit (R322). -/
def Dev.sendNak (d : Dev) (p : Nat) : Dev :=
  if (d.port p).nak then d
  else
    let (d, f) := d.nextFlit p 2 0 []
    d.modPort p (fun x => { x with ctl := f, nak := true })

/-- The loop whose step holds the credit pool of a channel (R289, R329). -/
def Dev.poolLoop (d : Dev) (p vc : Nat) : Option Nat := ((d.resOf (1024 + 4 * p + vc)).holder).map (·.2)

/-- Traffic of the step of loop `n` (16: of no step) may use a channel: no other step holds its pool. -/
def Dev.poolOpen (d : Dev) (p vc n : Nat) : Bool :=
  match d.poolLoop p vc with
  | none => true
  | some k => k == n || n == 16

/-- The port's arbiter lets a message begin: it is not frozen, or a grant is in progress (R311). -/
def Dev.colOpen (d : Dev) (p : Nat) : Bool := !d.arbFrozen (128 + p) || (d.arb (128 + p)).owner.isSome

/-- The message of a channel that gives the next bytes: the one that is begun, else the first that may begin. -/
def Dev.txIdx (d : Dev) (p vc : Nat) : Option Nat :=
  let q := (d.port p).queued.getD vc []
  match q.findIdx? (·.started) with
  | some i => some i
  | none => if d.colOpen p then q.findIdx? (fun x => d.poolOpen p vc x.who) else none

/-- Up to `room` payload bytes of a channel's messages, one after another (R330). -/
def Dev.fillFlit (d : Dev) (p vc : Nat) : Nat → Nat → Dev × List Byte
  | 0, _ => (d, [])
  | fuel + 1, room =>
    match if room = 0 then none else d.txIdx p vc with
    | none => (d, [])
    | some i =>
      let q := (d.port p).queued.getD vc []
      let x := q.getD i ⟨16, [], false⟩
      let rest := x.bytes.drop room
      let q := if rest.isEmpty then q.eraseIdx i else modAt q i (fun x => { x with bytes := rest, started := true })
      let d := d.modPort p (fun y => { y with
        queued := modAt y.queued vc (fun _ => q)
        msgs := if x.started then y.msgs else y.msgs ++ [(vc, x.who, x.bytes.length)] })
      let (d, bs) := d.fillFlit p vc fuel (room - x.bytes.length)
      (d, x.bytes.take room ++ bs)

/-- The channel that sends in the next flit slot (R328). -/
def Dev.txChannel (d : Dev) (p : Nat) : Option Nat :=
  let x := d.port p
  let ok := fun vc => (d.txIdx p vc).isSome && decide (d.colCredits p vc > 0)
  if ok VC.MGMT then some VC.MGMT
  else if ok VC.RESPONSE then some VC.RESPONSE
  else if x.alt then (if ok VC.STREAM then some VC.STREAM else if ok VC.REQUEST then some VC.REQUEST else none)
  else if ok VC.REQUEST then some VC.REQUEST else if ok VC.STREAM then some VC.STREAM else none

/-- One DATA flit sent: it uses a credit and stands in the replay buffer (R321, R327). -/
def Dev.sendData1 (d : Dev) (p vc : Nat) : Dev :=
  let (d, bs) := d.fillFlit p vc 17 244
  let (d, f) := d.nextFlit p 1 vc bs
  let d := d.modPort p (fun x => { x with
    unacked := x.unacked ++ [⟨x.nextSeq, vc, bs.length, f⟩]
    nextSeq := (x.nextSeq + 1) % 4096
    alt := if vc = VC.REQUEST then true else if vc = VC.STREAM then false else x.alt })
  (d.wf (Reg.COL_Pp_CRED p) (credFld vc) (d.colCredits p vc - 1)).cnt (Reg.COL_Pp_CNT_k p 0) 1

/-- DATA flits sent while a channel has bytes and a credit and fewer than 512 are unacknowledged (R321, R327, R328), and an
IDLE flit in the slot that has none to send (R320). -/
def Dev.colKick (d : Dev) (p : Nat) : Nat → Dev
  | 0 => d
  | fuel + 1 =>
    if d.portState p ≠ PS.UP || (d.port p).unacked.length ≥ 512 then d.sendIdle p
    else match d.txChannel p with
      | none => d.sendIdle p
      | some vc => (d.sendData1 p vc).colKick p fuel

/-- A message handed to a port's channel, for the step of a loop or (16) for none. -/
def Dev.colSend (d : Dev) (p vc who : Nat) (msg : List Byte) : Dev :=
  (d.modPort p (fun x => { x with queued := modAt x.queued vc (· ++ [{ who := who, bytes := msg }]) })).colKick p 1024

/-- Bytes sent to the Summit of package `k` in MGMT messages of up to 4,096 bytes (R331, R333); lost when both ports of
the pair are down. -/
def Dev.toPeer (d : Dev) (k : Nat) (bs : List Byte) : Nat → Dev
  | 0 => d
  | fuel + 1 =>
    if bs.isEmpty then d
    else match d.portFor k 0 with
      | none => d
      | some p =>
        (d.colSend p VC.MGMT 16 (mkMsg 0x30 0 d.pkg k 0 (min 4096 bs.length) 0 0 (bs.take 4096))).toPeer k (bs.drop 4096) fuel

end Sys2Proof.Machine
end

