-- ==== Sys2Proof/Machine/Float.lean ====
section
/-!
DEFINITION. Floating point by exact dyadic numbers: the operand formats of R44 to R47, rounding to nearest with
ties to even (R62, R68, R69, R70), and the binary32 and binary64 operations that the engines use.
A float is kept as its encoding, a natural number.
-/
namespace Sys2Proof

/-- A binary format: exponent bits, mantissa bits, bias, and the greatest finite code without its sign. -/
structure FFmt where
  eb : Nat
  mb : Nat
  bias : Nat
  maxCode : Nat
  /-- Whether codes above the exponent range spell infinities (E4M3 has none). -/
  hasInf : Bool
deriving DecidableEq, Repr

def FFmt.f32 : FFmt := ⟨8, 23, 127, 0x7F7FFFFF, true⟩
def FFmt.f64 : FFmt := ⟨11, 52, 1023, 0x7FEFFFFFFFFFFFFF, true⟩
def FFmt.bf16 : FFmt := ⟨8, 7, 127, 0x7F7F, true⟩
def FFmt.e4m3 : FFmt := ⟨4, 3, 7, 0x7E, false⟩
def FFmt.e5m2 : FFmt := ⟨5, 2, 15, 0x7B, true⟩
def FFmt.e2m1 : FFmt := ⟨2, 1, 1, 0x7, false⟩

/-- What a code stands for: not a number, an infinity, or `m * 2 ^ e` with its sign (R45 to R47). -/
inductive FVal where
  | nan
  | inf (neg : Bool)
  | fin (neg : Bool) (mag : Nat) (e : Int)
deriving DecidableEq, Repr

def FFmt.width (f : FFmt) : Nat := 1 + f.eb + f.mb
def FFmt.signBit (f : FFmt) : Nat := 2 ^ (f.eb + f.mb)

/-- The value of a code (R45, R46). -/
def FFmt.decode (f : FFmt) (code : Nat) : FVal :=
  let c := code % 2 ^ f.width
  let neg := c ≥ f.signBit
  let u := c % f.signBit
  let ex := u / 2 ^ f.mb
  let m := u % 2 ^ f.mb
  if u > f.maxCode then
    (if f.hasInf && m == 0 then .inf neg else .nan)
  else if ex = 0 then .fin neg m (1 - (f.bias : Int) - f.mb)
  else .fin neg (2 ^ f.mb + m) ((ex : Int) - f.bias - f.mb)

/-- `mag * 2 ^ e` divided down by `2 ^ s` and rounded to nearest, ties to even. -/
def rneShift (mag s : Nat) : Nat :=
  let q := mag / 2 ^ s
  let r := mag % 2 ^ s
  if 2 * r > 2 ^ s || (2 * r == 2 ^ s && q % 2 == 1) then q + 1 else q

/-- The code, without a sign, of `mag * 2 ^ e` rounded to nearest with ties to even with an unbounded exponent
above: the result exceeds `maxCode` exactly when the value overflows (R63). -/
def FFmt.encodeMag (f : FFmt) (mag : Nat) (e : Int) : Nat :=
  if mag = 0 then 0 else
    let top : Int := (Nat.log2 mag : Int) + e
    let minE : Int := 1 - (f.bias : Int)
    let ex := max top minE
    let q := ex - f.mb
    let sig := if e ≥ q then mag * 2 ^ (e - q).toNat else rneShift mag (q - e).toNat
    (ex - minE).toNat * 2 ^ f.mb + sig

/-- The code of infinity. -/
def FFmt.infCode (f : FFmt) : Nat := (2 ^ f.eb - 1) * 2 ^ f.mb

/-- The canonical NaN (R63, R69): 0x7FC0_0000 and 0x7FF8_0000_0000_0000 for binary32 and binary64. -/
def FFmt.nanCode (f : FFmt) : Nat :=
  if f.hasInf then f.infCode + 2 ^ (f.mb - 1) else f.signBit - 1

/-- A finite value rounded into an IEEE format: overflow gives infinity. -/
def FFmt.round (f : FFmt) (neg : Bool) (mag : Nat) (e : Int) : Nat :=
  let c := f.encodeMag mag e
  b2n neg * f.signBit + (if c > f.maxCode then f.infCode else c)

/-- A decoded value encoded in an IEEE format. -/
def FFmt.encode (f : FFmt) : FVal → Nat
  | .nan => f.nanCode
  | .inf neg => b2n neg * f.signBit + f.infCode
  | .fin neg mag e => f.round neg mag e

/-- The exact sum of two dyadic integers `m * 2 ^ e`. -/
def dyAdd (a : Int) (ea : Int) (b : Int) (eb : Int) : Int × Int :=
  if ea ≤ eb then (a + b * 2 ^ (eb - ea).toNat, ea) else (a * 2 ^ (ea - eb).toNat + b, eb)

def signed (neg : Bool) (mag : Nat) : Int := if neg then -(mag : Int) else mag

/-- IEEE addition of two decoded values. -/
def FFmt.addV (f : FFmt) (x y : FVal) : Nat :=
  match x, y with
  | .nan, _ => f.nanCode
  | _, .nan => f.nanCode
  | .inf a, .inf b => if a = b then f.encode (.inf a) else f.nanCode
  | .inf a, _ => f.encode (.inf a)
  | _, .inf b => f.encode (.inf b)
  | .fin na ma ea, .fin nb mb eb =>
    let (m, e) := dyAdd (signed na ma) ea (signed nb mb) eb
    if m = 0 then b2n (na && nb) * f.signBit
    else f.round (m < 0) m.natAbs e

/-- The exact product of two decoded values. -/
def mulV (x y : FVal) : FVal :=
  match x, y with
  | .nan, _ => .nan
  | _, .nan => .nan
  | .inf a, .inf b => .inf (a != b)
  | .inf a, .fin b m _ => if m = 0 then .nan else .inf (a != b)
  | .fin a m _, .inf b => if m = 0 then .nan else .inf (a != b)
  | .fin na ma ea, .fin nb mb eb => .fin (na != nb) (ma * mb) (ea + eb)

def FFmt.add (f : FFmt) (a b : Nat) : Nat := f.addV (f.decode a) (f.decode b)
def FFmt.neg (f : FFmt) (a : Nat) : Nat := if a ≥ f.signBit then a - f.signBit else a + f.signBit
def FFmt.sub (f : FFmt) (a b : Nat) : Nat :=
  match f.decode b with
  | .nan => f.nanCode
  | _ => f.add a (f.neg b)
def FFmt.mul (f : FFmt) (a b : Nat) : Nat := f.encode (mulV (f.decode a) (f.decode b))

/-- Fused multiply-add, rounded once: `a * b + c`. -/
def FFmt.fma (f : FFmt) (a b c : Nat) : Nat := f.addV (mulV (f.decode a) (f.decode b)) (f.decode c)

/-- IEEE division, rounded once. -/
def FFmt.div (f : FFmt) (a b : Nat) : Nat :=
  match f.decode a, f.decode b with
  | .nan, _ => f.nanCode
  | _, .nan => f.nanCode
  | .inf _, .inf _ => f.nanCode
  | .inf x, .fin y _ _ => f.encode (.inf (x != y))
  | .fin x _ _, .inf y => b2n (x != y) * f.signBit
  | .fin x mx ex, .fin y my ey =>
    if my = 0 then (if mx = 0 then f.nanCode else f.encode (.inf (x != y)))
    else
      -- enough quotient bits for a correct rounding, with the remainder folded into the last bit
      let k := 2 * f.mb + 8 + Nat.log2 my
      let q := mx * 2 ^ k / my
      let r := mx * 2 ^ k % my
      f.round (x != y) (2 * q + b2n (r != 0)) (ex - ey - k - 1)

/-- Floored square root. -/
def isqrtAux : Nat → Nat → Nat → Nat
  | 0, _, x => x
  | n + 1, v, x => let y := (x + v / x) / 2
                   if y < x then isqrtAux n v y else x
def isqrt (v : Nat) : Nat := if v = 0 then 0 else isqrtAux (Nat.log2 v + 2) v (2 ^ (Nat.log2 v / 2 + 1))

def FFmt.isNan (f : FFmt) (a : Nat) : Bool := f.decode a == .nan

/-- Whether a code is neither a NaN nor an infinity. -/
def FFmt.isFinite (f : FFmt) (a : Nat) : Bool :=
  match f.decode a with
  | .fin _ _ _ => true
  | _ => false

/-- Order of two codes: less, when neither is a NaN. -/
def FFmt.lt (f : FFmt) (a b : Nat) : Bool :=
  match f.decode a, f.decode b with
  | .nan, _ => false
  | _, .nan => false
  | .inf x, .inf y => x && !y
  | .inf x, _ => x
  | _, .inf y => !y
  | .fin nx mx ex, .fin ny my ey =>
    let (m, _) := dyAdd (signed nx mx) ex (-(signed ny my)) ey
    m < 0

/-- The greater of two codes; a NaN when either is one (R269). -/
def FFmt.maxN (f : FFmt) (a b : Nat) : Nat :=
  if f.isNan a || f.isNan b then f.nanCode else if f.lt a b then b else a

/-- An integer times a power of two, rounded into the format. -/
def FFmt.ofDyadic (f : FFmt) (m : Int) (e : Int) : Nat := f.round (m < 0) m.natAbs e

/-- A rational number rounded into the format, to nearest with ties to even. -/
def FFmt.ofRat (f : FFmt) (num : Int) (den : Nat) : Nat :=
  if num = 0 then 0 else
    let k := 2 * f.mb + 80 + Nat.log2 den
    let q := num.natAbs * 2 ^ k / den
    let r := num.natAbs * 2 ^ k % den
    f.round (num < 0) (2 * q + b2n (r != 0)) (-(k : Int) - 1)

/-- Conversion between two formats, with IEEE results. -/
def FFmt.convert (src dst : FFmt) (a : Nat) : Nat := dst.encode (src.decode a)

/-- The greatest integer at or below a finite value. -/
def floorDy (m : Int) (e : Int) : Int := if e ≥ 0 then m * 2 ^ e.toNat else m / 2 ^ (-e).toNat

end Sys2Proof
end

