-- ==== Sys2Proof/Machine/Operands.lean ====
section
/-!
DEFINITION. Every operand form: the fields of the route entries (R168 to R185), the rows an entry reads and writes
(R186), the layouts of stationary blocks and of array rows (R129, R174), and the fields of command packets.
An entry is its 128-bit word as a natural number.
-/
namespace Sys2Proof.Machine

/-! ### Entry fields -/

def Ent.kind (e : Nat) : Nat := bits e 127 123
def Ent.array (e : Nat) : Nat := bits e 122 121

/-- The kinds of R169. -/
def K.SLOAD := 0x01
def K.PASS := 0x02
def K.DRAIN := 0x03
def K.CTAP := 0x04
def K.DTAP := 0x05
def K.ARGMAX := 0x06
def K.SEND := 0x07
def K.RECV := 0x08
def K.WFETCH := 0x09
def K.SPUR := 0x0A
def K.TARN := 0x0B
def K.CHECK := 0x0C
def K.END := 0x1F

/-- Stationary load (R171). -/
def Sload.src (e : Nat) : Bool := bit e 120
def Sload.fref (e : Nat) : Nat := bits e 119 117
def Sload.row (e : Nat) : Nat := bits e 116 102
def Sload.sfmt (e : Nat) : Nat := bits e 101 99
def Sload.sscale (e : Nat) : Bool := bit e 98
def Sload.dual (e : Nat) : Bool := bit e 97

/-- Pass (R173); the convolution entries keep PAR, ACC and RFMT in the same places (R179). -/
def Pass.par (e : Nat) : Bool := bit e 120
def Pass.acc (e : Nat) : Bool := bit e 119
def Pass.rfmt (e : Nat) : Nat := bits e 118 116
def Pass.rscale (e : Nat) : Bool := bit e 115
def Pass.run (e : Nat) : Nat := bits e 104 98
def Pass.rsrc (e : Nat) : Bool := bit e 97
def Pass.rrow (e : Nat) : Nat := bits e 96 82
def Pass.queue (e : Nat) : Nat := bits e 85 82
def Pass.nrows (e : Nat) : Nat := bits e 81 66
def Pass.srow (e : Nat) : Nat := bits e 65 51
def Pass.koff (e : Nat) : Nat := bits e 50 45
/-- The window exponent: bits 114:105 of a pass, 115:106 of a tap entry. -/
def Pass.win (e : Nat) : Int := if Ent.kind e = K.PASS then sext 10 (bits e 114 105) else sext 10 (bits e 115 106)
/-- Whether rows carry scales; a tap entry has its scales off (R179). -/
def Pass.scaled (e : Nat) : Bool := Ent.kind e == K.PASS && Pass.rscale e

/-- Tap entries (R179). -/
def Tap.table (e : Nat) : Nat := bits e 105 98
def Tap.tap (e : Nat) : Nat := bits e 97 82
def Tap.nrows (e : Nat) : Nat := bits e 81 66
def Tap.brow (e : Nat) : Nat := bits e 65 51
def Tap.ch (e : Nat) : Nat := bits e 50 35

/-- Drain (R177). -/
def Drain.ofmt (e : Nat) : Nat := bits e 120 118
def Drain.oshift (e : Nat) : Int := sext 8 (bits e 117 110)
def Drain.ps (e : Nat) : Bool := bit e 109
def Drain.acc (e : Nat) : Bool := bit e 108
def Drain.drow (e : Nat) : Nat := bits e 107 93
def Drain.sten (e : Nat) : Bool := bit e 92
def Drain.strow (e : Nat) : Nat := bits e 91 77

/-- Argmax (R180). -/
def Argmax.ifmt (e : Nat) : Nat := bits e 122 120
def Argmax.srow (e : Nat) : Nat := bits e 119 105
def Argmax.nch (e : Nat) : Nat := bits e 104 89
def Argmax.npix (e : Nat) : Nat := bits e 88 73
def Argmax.drow (e : Nat) : Nat := bits e 72 58

/-- Stream send, stream receive and Tarn call (R181). -/
def Send.dpkg (e : Nat) : Nat := bits e 122 121
def Send.dtile (e : Nat) : Nat := bits e 120 114
def Send.dq (e : Nat) : Nat := bits e 113 110
def Send.ps (e : Nat) : Bool := bit e 109
def Send.srow (e : Nat) : Nat := bits e 108 94
def Send.nrows (e : Nat) : Nat := bits e 93 78
def Send.trow (e : Nat) : Nat := bits e 77 62
def Recv.queue (e : Nat) : Nat := bits e 122 119
def Recv.drow (e : Nat) : Nat := bits e 118 104
def Recv.nrows (e : Nat) : Nat := bits e 103 88
def Tarn.op (e : Nat) : Nat := bits e 122 115
def Tarn.chan (e : Nat) : Nat := bits e 114 111
def Tarn.dtile (e : Nat) : Nat := bits e 110 104
def Tarn.dq (e : Nat) : Nat := bits e 103 100
def Tarn.dpkg (e : Nat) : Nat := bits e 99 98
def Tarn.srow (e : Nat) : Nat := bits e 97 83
def Tarn.nrows (e : Nat) : Nat := bits e 82 67
def Tarn.param (e : Nat) : Nat := bits e 66 51

/-- Spur call (R182). -/
def Spur.wait (e : Nat) : Bool := bit e 122
def Spur.code (e : Nat) : Nat := bits e 121 104
def Spur.ps (e : Nat) : Bool := bit e 103
def Spur.arow (e : Nat) : Nat := bits e 102 88
def Spur.anrows (e : Nat) : Nat := bits e 87 72

/-- Check point (R183). -/
def Chk.op (e : Nat) : Nat := bits e 122 120
def Chk.markid (e : Nat) : Nat := bits e 119 104
def Chk.budget (e : Nat) : Nat := bits e 103 72
def Chk.res (e : Nat) : Nat := bits e 119 110
def Chk.srow (e : Nat) : Nat := bits e 119 105
def Chk.nrows (e : Nat) : Nat := bits e 104 89
def Chk.sig (e : Nat) : Nat := bits e 88 85

/-- Weight fetch (R185). -/
def Wf.mode (e : Nat) : Nat := bits e 122 121
def Wf.base (e : Nat) : Nat := bits e 120 118
def Wf.offset (e : Nat) : Nat := bits e 117 78
def Wf.len (e : Nat) : Nat := bits e 77 66 + 1
def Wf.uses (e : Nat) : Nat := bits e 65 50
def Wf.xtab (e : Nat) : Nat := bits e 120 113
def Wf.xrow (e : Nat) : Nat := bits e 112 98
def Wf.nx (e : Nat) : Nat := bits e 97 95
def Wf.chunk (e : Nat) : Nat := bits e 94 79
def Wf.xlen (e : Nat) : Nat := bits e 78 67 + 1
def Wf.xuses (e : Nat) : Nat := bits e 66 51
/-- Whether the fetch waits for the sequencer: RESOLVE always does (R185). -/
def Wf.anchored (e : Nat) : Bool := Wf.mode e == 2 || (Wf.mode e == 1 && bit e 50)

/-! ### Formats -/

/-- The operand formats of R170. -/
inductive OpFmt where
  | int4 | int8 | uint8 | fp4 | e4m3 | e5m2 | bf16 | invalid
deriving DecidableEq, Repr

def opFmt : Nat → OpFmt
  | 0 => .int4
  | 1 => .int8
  | 2 => .uint8
  | 3 => .fp4
  | 4 => .e4m3
  | 5 => .e5m2
  | 6 => .bf16
  | _ => .invalid

/-- Width in bits of an operand. -/
def fmtWidth (f : Nat) : Nat := if f = 0 || f = 3 then 4 else if f = 6 then 16 else 8

/-- Rows of 512 bits of a stationary block, without and with its scale row (R129). -/
def blockOperandRows (sfmt : Nat) (dual : Bool) : Nat :=
  if sfmt = 6 then 32 else if fmtWidth sfmt = 4 && !dual then 8 else 16
def blockRows (sfmt : Nat) (scaled dual : Bool) : Nat := blockOperandRows sfmt dual + b2n scaled

/-- The operand of lane `k` and column `j` of a block whose rows are `bs` (R129). -/
def blockOperand (bs : List Byte) (sfmt : Nat) (dual : Bool) (k j : Nat) : Nat :=
  if sfmt = 6 then field bs (128 * k + 2 * j) 2
  else if fmtWidth sfmt = 4 then
    if dual then
      let b := field bs (64 * (k / 2) + j) 1
      if k % 2 = 0 then b % 16 else b / 16
    else
      let b := field bs (64 * (k / 2) + 32 * (k % 2) + j / 2) 1
      if j % 2 = 0 then b % 16 else b / 16
  else field bs (64 * k + j) 1

/-- Array rows packed in one activation row (R174). -/
def rowsPer (rfmt : Nat) : Nat := if rfmt = 6 then 2 else 4

/-- The elements of array row `i` of a pass, from the activation row `bs` that holds it (R174). -/
def rowElements (bs : List Byte) (rfmt lanes i : Nat) : List Nat :=
  let w := if rfmt = 6 then 32 else 16
  let r := slice bs (w * (i % rowsPer rfmt)) w
  (List.range lanes).map (fun k =>
    if rfmt = 6 then field r (2 * k) 2
    else if fmtWidth rfmt = 4 then
      let b := field r (k / 2) 1
      if k % 2 = 0 then b % 16 else b / 16
    else field r k 1)

/-! ### Tap tables (R216, R217) -/

/-- The header of a CONV_TAP or DW_TAP table. -/
structure TapTable where
  tih : Nat
  iw : Nat
  oh : Nat
  ow : Nat
  oy0 : Nat
  ohb : Nat
  kh : Nat
  kw : Nat
  sy : Nat
  sx : Nat
  dy : Nat
  dx : Nat
  mode : Nat
  flags : Nat
  const : Nat
  rp : Nat
  pp : Nat
  orp : Nat
  opp : Nat
  orow : Nat
  ofmt : Nat
  oshift : Int
  ntap : Nat
  ly : Nat
  lx : Nat
  mapy : Nat
  mapx : Nat
  tapOff : Nat
  nc : Nat
deriving DecidableEq, Repr

def parseTapTable (h : List Byte) : TapTable where
  tih := field h 0x00 2
  iw := field h 0x02 2
  oh := field h 0x04 2
  ow := field h 0x06 2
  oy0 := field h 0x08 2
  ohb := field h 0x0A 2
  kh := field h 0x0C 1
  kw := field h 0x0D 1
  sy := field h 0x0E 1
  sx := field h 0x0F 1
  dy := field h 0x10 1
  dx := field h 0x11 1
  mode := field h 0x12 1
  flags := field h 0x13 1
  const := field h 0x14 2
  rp := field h 0x16 2
  pp := field h 0x18 2
  orp := field h 0x1A 2
  opp := field h 0x1C 2
  orow := field h 0x1E 2
  ofmt := field h 0x20 1
  oshift := sext 8 (field h 0x21 1)
  ntap := field h 0x22 2
  ly := field h 0x24 2
  lx := field h 0x26 2
  mapy := field h 0x28 4
  mapx := field h 0x2C 4
  tapOff := field h 0x30 4
  nc := field h 0x34 2

/-- A tap record (R217). -/
structure TapRec where
  ky : Nat
  kx : Nat
  first : Bool
  last : Bool
  none : Bool
  lanes : Nat
  q0 : Nat
  psrow : Nat
  och : Nat
  outn : Nat
deriving DecidableEq, Repr

def parseTapRec (r : List Byte) : TapRec :=
  let c := field r 2 1
  ⟨field r 0 1, field r 1 1, bit c 0, bit c 1, bit c 2, field r 3 1, field r 4 4, field r 8 2, field r 0xA 2,
   field r 0xC 1⟩

def tapTable (m : Mach) (tr : TabRec) : TapTable := parseTapTable (m.rdBytes tr.addr 64)
def tapRec (m : Mach) (tr : TabRec) (t : TapTable) (i : Nat) : TapRec :=
  parseTapRec (m.rdBytes (tr.addr + t.tapOff + 16 * i) 16)

/-- A table is tally-width (PSFMT). -/
def TapTable.tally (t : TapTable) : Bool := bit t.flags 0
def TapTable.z (t : TapTable) : Nat := if t.tally then 16 else 4
def elemBytes (rfmt : Nat) : Nat := if rfmt = 6 then 2 else 1
/-- Bytes of an output element: FP32 4, BF16 2, 8-bit 1, TALLY 16 (R178). -/
def outBytes (ofmt : Nat) : Nat := match ofmt with
  | 0 => 4
  | 1 => 2
  | 5 => 16
  | _ => 1

/-! ### The rows an entry reads and writes (R186) -/

/-- The rows of planes: `n` planes of `h` rows of pitch `rp` from row `first`, at pitch `pp`. -/
def planeRanges (first n pp h rp w b : Nat) : List RowRange :=
  (List.range n).map (fun i => ⟨false, first + i * pp, if h = 0 then 0 else (h - 1) * rp + ceilDiv (w * b) 64⟩)

/-- What a tap entry reads and writes, by its table. -/
def tapRanges (m : Mach) (rt : Route) (e : Nat) : List RowRange × List RowRange :=
  match rt.tabs[Tap.table e]? with
  | none => ([], [])
  | some tr =>
    let t := tapTable m tr
    let r := tapRec m tr t (Tap.tap e)
    let b := elemBytes (Pass.rfmt e)
    let ct := Ent.kind e == K.CTAP
    -- a DTAP reads and writes nothing for a channel at or beyond NC (R222, R223)
    let chans := min 4 (t.nc - Tap.ch e)
    let inp := if ct then planeRanges (Tap.brow e) r.lanes t.pp t.tih t.rp t.iw b
               else planeRanges (Tap.brow e + Tap.ch e * t.pp) chans t.pp t.tih t.rp t.iw b
    let np := Tap.nrows e * t.z
    let ps : RowRange := ⟨true, r.psrow, np⟩
    let outp := if r.last then
        (if ct then planeRanges (t.orow + r.och * t.opp) r.outn t.opp t.ohb t.orp t.ow (outBytes t.ofmt)
         else planeRanges (t.orow + Tap.ch e * t.opp) chans t.opp t.ohb t.orp t.ow (outBytes t.ofmt))
      else []
    if Tap.nrows e = 0 then ([], []) else (inp ++ [ps], ps :: outp)

/-- What an entry of a tile list reads and writes. -/
def entryRanges (m : Mach) (rt : Route) (e : Nat) : List RowRange × List RowRange :=
  let k := Ent.kind e
  if k = K.SLOAD then
    ((if Sload.src e then [⟨false, Sload.row e, blockRows (Sload.sfmt e) (Sload.sscale e) (Sload.dual e)⟩] else []), [])
  else if k = K.PASS then
    let n := Pass.run e + 1
    let rows : List RowRange :=
      if Pass.rsrc e then [] else [⟨false, Pass.rrow e, n * ceilDiv (Pass.nrows e) (rowsPer (Pass.rfmt e))⟩]
    let scs : List RowRange :=
      if Pass.rscale e then [⟨false, Pass.srow e, n * ceilDiv (Pass.nrows e) 64⟩] else []
    (rows ++ scs, [])
  else if k = K.DRAIN then
    let d : RowRange := ⟨Drain.ps e, Drain.drow e, outBytes (Drain.ofmt e)⟩
    let st : List RowRange := if Drain.sten e then [⟨false, Drain.strow e, 1⟩] else []
    (if Drain.acc e then [d] else [], d :: st)
  else if k = K.CTAP || k = K.DTAP then tapRanges m rt e
  else if k = K.ARGMAX then
    let b := outBytes (Argmax.ifmt e)
    ([⟨false, Argmax.srow e, Argmax.nch e * ceilDiv (Argmax.npix e * b) 64⟩],
     [⟨false, Argmax.drow e, ceilDiv (Argmax.npix e) 32⟩])
  else if k = K.SEND then ([⟨Send.ps e, Send.srow e, Send.nrows e⟩], [])
  else if k = K.RECV then ([], [⟨false, Recv.drow e, Recv.nrows e⟩])
  else if k = K.SPUR then
    let r : RowRange := ⟨Spur.ps e, Spur.arow e, Spur.anrows e⟩
    ([r], [r])
  else if k = K.TARN then ([⟨false, Tarn.srow e, Tarn.nrows e⟩], [])
  else if k = K.CHECK && Chk.op e = 3 then ([⟨false, Chk.srow e, Chk.nrows e⟩], [])
  else if k = K.WFETCH && Wf.mode e ≠ 0 then ([⟨false, Wf.xrow e, 1⟩], [])
  else ([], [])

/-- Whether two runs of rows share a row. -/
def RowRange.meets (a b : RowRange) : Bool :=
  a.ps == b.ps && decide (a.first < b.first + b.count) && decide (b.first < a.first + a.count)

def anyMeets (xs ys : List RowRange) : Bool := xs.any (fun x => ys.any x.meets)

/-! ### Packets (R552): the fields of a payload -/

def pay8 (p : List Byte) (o : Nat) : Nat := field p o 1
def pay16 (p : List Byte) (o : Nat) : Nat := field p o 2
def pay32 (p : List Byte) (o : Nat) : Nat := field p o 4
def pay64 (p : List Byte) (o : Nat) : Nat := field p o 8

end Sys2Proof.Machine
end

