-- ==== Sys2Proof/Machine/Flags.lean ====
section
/-!
DEFINITION. Every flag and status computation of the arrays: products and tallies (R44 to R59), the checks of a pass
(R71 to R73, R91, R92, R104, R105), output conversion and its status bits (R62 to R65), partial-sum entries (R66 to
R68), and the ordering of R227.
-/
namespace Sys2Proof.Machine

/-- The value of an operand code in a format of R170 (R44 to R47). -/
def opValue (f code : Nat) : FVal :=
  match opFmt f with
  | .int4 => let v := sext 4 code; .fin (v < 0) v.natAbs 0
  | .int8 => let v := sext 8 code; .fin (v < 0) v.natAbs 0
  | .uint8 => .fin false (code % 256) 0
  | .fp4 => FFmt.e2m1.decode code
  | .e4m3 => FFmt.e4m3.decode code
  | .e5m2 => FFmt.e5m2.decode code
  | .bf16 => FFmt.bf16.decode code
  | .invalid => .nan

/-- A scaled operand: the scale byte 0xFF is NaN, another x is 2^(x - 127) (R48). -/
def withScale (v : FVal) (scale : Nat) : FVal :=
  if scale = 0xFF then .nan
  else match v with
    | .fin n m e => .fin n m (e + (scale : Int) - 127)
    | x => x

/-- The integer floor(P / 2^w) of a dyadic product and whether it was floored (R55). -/
def toWindow (m : Int) (e w : Int) : Int × Bool :=
  if e ≥ w then (m * 2 ^ (e - w).toNat, false)
  else
    let s : Int := 2 ^ (w - e).toNat
    (m / s, m % s != 0)

/-- An integer added to a tally's 128 bits (R56). -/
def addT (v : BitVec 128) (t : Int) : BitVec 128 := v + BitVec.ofInt 128 t

/-- COUNT after one more product: 33 bits, saturating (R53). -/
def countUp (n : Nat) : Nat := min (n + 1) (2 ^ 33 - 1)

/-- A tally after one product of a data row (R51, R52, R55 to R57); `flip` is a faulty bit of the converted integer. -/
def Tally.add (y : Tally) (p : FVal) (w : Int) (flip : Option Nat) : Tally :=
  match p with
  | .nan => { y with nan := true, count := countUp y.count }
  | .inf n => { y with pinf := y.pinf || !n, ninf := y.ninf || n, count := countUp y.count }
  | .fin n mag e =>
    let (t0, l) := toWindow (signed n mag) e w
    let t := match flip with
      | none => t0
      | some b => (BitVec.ofInt 128 t0 ^^^ (1#128 <<< b)).toInt
    { y with value := addT y.value t, count := countUp y.count, loss := y.loss || l,
             ovf := y.ovf || decide (t < -(2 ^ 95)) || decide (t ≥ 2 ^ 95) }

/-- OVF as a drain sees it (R57): set in the tally, the 128 bits are not the sign extension of bit 95, or COUNT exceeds
2^32. -/
def Tally.ovfAt (y : Tally) : Bool :=
  y.ovf || decide (y.value.toInt < -(2 ^ 95)) || decide (y.value.toInt ≥ 2 ^ 95) || decide (y.count > 2 ^ 32)

/-- VALUE as a signed 96-bit integer. -/
def Tally.val96 (y : Tally) : Int := (y.value.truncate 96).toInt

def Tally.special (y : Tally) : Bool := y.nan || y.pinf || y.ninf

/-- The sum of a lane's operands (R91, R104) as an integer and an exponent: the exponent is the least exponent of the
non-zero operands. -/
def sumExact (vs : List FVal) : LaneCheck :=
  let e : Option Int := vs.foldl (fun a v => match v with
    | .fin _ m x => if m = 0 then a else match a with
        | none => some x
        | some y => some (min x y)
    | _ => a) none
  let e := e.getD 0
  vs.foldl (fun c v => match v with
    | .nan => { c with nan := true }
    | .inf n => { c with pinf := c.pinf || !n, ninf := c.ninf || n }
    | .fin n m x => if m = 0 then c else { c with m := c.m + signed n m * 2 ^ (x - e).toNat }) { e := e }

/-- A lane check value does not fit `w` bits (R92, R104). -/
def LaneCheck.wide (c : LaneCheck) (w : Nat) : Bool := decide (c.m < -(2 ^ (w - 1))) || decide (c.m ≥ 2 ^ (w - 1))
def LaneCheck.special (c : LaneCheck) : Bool := c.nan || c.pinf || c.ninf

/-- A check value as an operand. -/
def LaneCheck.value (c : LaneCheck) : FVal :=
  if c.nan || (c.pinf && c.ninf) then .nan
  else if c.pinf then .inf false
  else if c.ninf then .inf true
  else .fin (c.m < 0) c.m.natAbs c.e

/-- One operand of a stationary block with its scale (R90: no scale acts as s = 0). -/
def Block.operand (b : Block) (k j : Nat) : FVal :=
  let v := opValue b.sfmt ((b.lanes.getD k []).getD j 0)
  if b.scaled then withScale v (b.scales.getD j 0) else v

/-- Products one row gives one column (R87). -/
def Block.lanesN (b : Block) : Nat := b.lanes.length

/-- The check values of a block (R91, R92). -/
def formChecks (b : Block) : Block :=
  let cs := (List.range b.lanesN).map (fun k => sumExact ((List.range 64).map (b.operand k)))
  { b with checks := cs, checkRange := cs.any (fun c => c.wide 72) }

/-- A row's element in lane `k` as column `j` sees it, with the row's scale (R90, R222). -/
def RowIn.value (r : RowIn) (rfmt : Nat) (rscale : Bool) (k j : Nat) : FVal :=
  let c := if r.perCol.isEmpty then r.codes.getD k 0 else (r.perCol.getD j []).getD k 0
  let v := opValue rfmt c
  if rscale then withScale v r.scale else v

/-- Products one row gives one column (R87): 32 when both formats are 4 bits wide, else 16. -/
def passLanes (rfmt sfmt : Nat) : Nat := if fmtWidth rfmt = 4 && fmtWidth sfmt = 4 then 32 else 16

/-- A block as a pass with its stationary scales off uses it (R90): s = 0 for every column, in the operands and in the check
values (R49; log 60). -/
def Block.scalesOff (b : Block) : Block := if b.scaled then formChecks { b with scaled := false } else b

/-- A block whose DUAL bit does not suit the mode of a pass (R87): the manual gives its operands in no lane of that mode, so
that they are open values, from index `i` on (DESIGN CHOICE, log 59). -/
def Block.openLanes (b : Block) (n i : Nat) : Block :=
  formChecks { b with
    lanes := (List.range n).map (fun k => (List.range 64).map (fun j =>
      Config.freeNat (i + 64 * k + j) % 2 ^ fmtWidth b.sfmt)) }

/-- The block as its cells hold it while stored operands are upset; the check values do not change (R91). -/
def Block.upset (b : Block) (fs : List Flip) : Block :=
  fs.foldl (fun (b : Block) f =>
    if f.stored then { b with lanes := modAt b.lanes f.lane.val (fun l => modAt l f.col.val (fun c => Nat.xor c (2 ^ f.bit.val))) }
    else b) b

/-- The data tallies after one data row (R56). -/
def rowIntoTallies (ts : List Tally) (b : Block) (r : RowIn) (rfmt : Nat) (rscale : Bool) (w : Int)
    (flips : List Flip) : List Tally :=
  ((List.range 64).zip ts).map (fun p =>
    (List.range b.lanesN).foldl (fun y k =>
      let fl := flips.find? (fun f => !f.stored && f.lane.val == k && f.col.val == p.1)
      y.add (mulV (r.value rfmt rscale k p.1) (b.operand k p.1)) w (fl.map (fun f => f.bit.val))) p.2)

/-- The checksum column after one data row: its cells hold the check values (R91). -/
def rowIntoCheck (c : Tally) (b : Block) (r : RowIn) (rfmt : Nat) (rscale : Bool) (w : Int) : Tally :=
  (List.range b.lanesN).foldl (fun y k =>
    y.add (mulV (r.value rfmt rscale k 0) ((b.checks.getD k {}).value)) w none) c

/-- The tally of row-check unit `j` (R85, R104): the checksum row against the stored operands of column `j`, with its own
sums for a depthwise tap pass (R224); unit 64 has the check values of the checksum column, and R71 and R72 compare its tally
with nothing. -/
def rowCheckOf (b : Block) (rows : List RowIn) (rfmt : Nat) (rscale : Bool) (w : Int) (j : Nat) : Tally × Bool :=
  (List.range b.lanesN).foldl (fun p k =>
    let r := sumExact (rows.map (fun x => x.value rfmt rscale k j))
    let x := if j < 64 then b.operand k j else (b.checks.getD k {}).value
    (p.1.add (mulV r.value x) w none, p.2 || r.wide 96)) ({}, false)

/-- How a pass ends at its comparison (R71 to R73, R92, R104, R105). -/
inductive Verdict where
  | exact
  | lossy
  | unchecked
  | failed
deriving DecidableEq, Repr

/-- The comparison of a pass: `dw` says that no column check is made (R224).  A DTAP pass on a check-range block is checked
by its rows alone: R92 has every pass on the block commit unchecked, R224 counts a DTAP pass whose row checks pass as
checked, and the model follows R224 (DESIGN CHOICE, log 61). -/
def compare (dw : Bool) (b : Block) (base data : List Tally) (c : Tally) (rowChk : List (Tally × Bool)) (nvalid : Nat) :
    Verdict :=
  let l : Int := b.lanesN
  let n : Int := l * nvalid
  let t := (data.zip base).map (fun p => p.1.value - p.2.value)
  let s := t.foldl (· + ·) 0
  let anySpecial := data.any Tally.special || (!dw && c.special)
  let anyLoss := data.any Tally.loss || (!dw && c.loss)
  if anySpecial || (!dw && b.checkRange) || rowChk.any (·.2) then .unchecked
  else
    let d := (c.value - s).toInt
    let dj := (rowChk.zip t).map (fun p => (p.1.1.value - p.2).toInt)
    if anyLoss then
      (if (dw || (decide (-n < d) && decide (d < 64 * n)) || (n == 0 && d == 0))
          && dj.all (fun x => (decide (-l < x) && decide (x < n)) || (n == 0 && x == 0)) then .lossy else .failed)
    else if (dw || d == 0) && dj.all (· == 0) then .exact else .failed

/-! ### Output conversion (R62 to R65) -/

/-- The five status bits of R65, as the status byte of R110 holds them. -/
structure ColStatus where
  loss : Bool := false
  ovf : Bool := false
  sat : Bool := false
  nan : Bool := false
  inf : Bool := false
deriving DecidableEq, Repr

def ColStatus.byte (s : ColStatus) : Nat :=
  16 * b2n s.loss + 8 * b2n s.ovf + 4 * b2n s.sat + 2 * b2n s.nan + b2n s.inf

/-- The float format of an output code, if it is one. -/
def outFmt : Nat → Option FFmt
  | 0 => some .f32
  | 1 => some .bf16
  | 2 => some .e4m3
  | 3 => some .e5m2
  | _ => none

/-- The rows of R63 for NaN, +Inf and -Inf: the code and whether SAT is set. -/
def specialOut (ofmt : Nat) (nan pinf : Bool) : Nat × Bool :=
  match ofmt with
  | 0 => (if nan then 0x7FC00000 else if pinf then 0x7F800000 else 0xFF800000, false)
  | 1 => (if nan then 0x7FC0 else if pinf then 0x7F80 else 0xFF80, false)
  | 2 => (if nan then 0x7F else if pinf then 0x7E else 0xFE, !nan)
  | 3 => (if nan then 0x7F else if pinf then 0x7C else 0xFC, false)
  | _ => (if nan then 0x00 else if pinf then 0x7F else 0x80, !nan)

/-- An integer divided by a power of two, rounded to nearest with ties to even. -/
def roundInt (m : Int) (e : Int) : Int :=
  if e ≥ 0 then m * 2 ^ e.toNat
  else
    let r := rneShift m.natAbs (-e).toNat
    if m < 0 then -(r : Int) else r

/-- A finite value m × 2^e converted to an output format (R63, R64): the code and SAT. -/
def finiteOut (ofmt : Nat) (m : Int) (e : Int) : Nat × Bool :=
  match outFmt ofmt with
  | some f =>
    let c := f.encodeMag m.natAbs e
    let sgn := b2n (m < 0) * f.signBit
    if c > f.maxCode then
      (sgn + (if ofmt = 0 || ofmt = 1 then f.infCode else f.maxCode), true)
    else (sgn + c, false)
  | none =>
    let v := roundInt m e
    if v < -128 then (0x80, true) else if v > 127 then (0x7F, true) else (wrap 8 v, false)

/-- A value with its special state converted to an output format. -/
def convertOut (ofmt : Nat) (v : FVal) : Nat × ColStatus :=
  match v with
  | .nan => let (c, s) := specialOut ofmt true false; (c, { sat := s, nan := true })
  | .inf n => let (c, s) := specialOut ofmt false (!n); (c, { sat := s, inf := true })
  | .fin n m e => let (c, s) := finiteOut ofmt (signed n m) e; (c, { sat := s })

/-- A column as a drain converts it (R62 to R65), from VALUE, its window plus the output shift, and its flags. -/
def drainColumn (ofmt : Nat) (val : Int) (e : Int) (loss ovf nan pinf ninf : Bool) : Nat × ColStatus :=
  let isNan := nan || (pinf && ninf)
  let v : FVal := if isNan then .nan else if pinf then .inf false else if ninf then .inf true
    else .fin (val < 0) val.natAbs e
  let (c, s) := convertOut ofmt v
  (c, { s with loss := loss, ovf := ovf, nan := isNan, inf := pinf || ninf })

def Tally.drain (y : Tally) (ofmt : Nat) (e : Int) : Nat × ColStatus :=
  drainColumn ofmt y.val96 e y.loss y.ovfAt y.nan y.pinf y.ninf

/-! ### Partial-sum entries (R66 to R68) -/

/-- The tally-width entry of a tally with window `w` (R66): bits 111:96 extend the tally's 96 bits, since EXT never leaves
the array (R53). -/
def psEntry (y : Tally) (w : Int) : Nat :=
  wrap 10 w * 2 ^ 118 + b2n y.ninf * 2 ^ 117 + b2n y.pinf * 2 ^ 116 + b2n y.nan * 2 ^ 115 + b2n y.ovfAt * 2 ^ 114
    + b2n y.loss * 2 ^ 113 + wrap 112 y.val96

/-- A column as a drain-buffer slot holds it (R62 to R66, R108, R110): its code, or its tally-width entry, and its status
byte. -/
def Tally.result (y : Tally) (ofmt : Nat) (win shift : Int) : Nat × Nat :=
  if ofmt = 5 then (psEntry y win, { (y.drain 5 win).2 with sat := false : ColStatus }.byte)
  else
    let (c, s) := y.drain ofmt (win + shift)
    (c, s.byte)

def psWin (x : Nat) : Int := sext 10 (bits x 127 118)

/-- A tally-width entry `y` accumulated into an entry whose WIN equals its own (R67): the values added, the flags of both,
and OVF when the sum leaves 96 bits. -/
def psAccumulate (x y : Nat) : Nat :=
  let v := (bits x 111 0 + bits y 111 0) % 2 ^ 112
  let big := decide (sext 112 v < -(2 ^ 95)) || decide (sext 112 v ≥ 2 ^ 95)
  bits x 127 118 * 2 ^ 118 + b2n (bit x 117 || bit y 117) * 2 ^ 117 + b2n (bit x 116 || bit y 116) * 2 ^ 116
    + b2n (bit x 115 || bit y 115) * 2 ^ 115 + b2n (bit x 114 || bit y 114 || big) * 2 ^ 114
    + b2n (bit x 113 || bit y 113) * 2 ^ 113 + v

/-- A tally-width entry converted by R62 and R63 with e = WIN and shift `k` (R213). -/
def psConvert (x ofmt : Nat) (k : Int) : Nat × ColStatus :=
  drainColumn ofmt (sext 96 (bits x 95 0)) (psWin x + k) (bit x 113) (bit x 114) (bit x 115) (bit x 116) (bit x 117)

/-- An FP32 entry converted to an output format with shift `k` (R213); an entry of minus zero has the value zero and
gives +0 (R64; log 20). -/
def fp32Convert (x ofmt : Nat) (k : Int) : Nat × ColStatus :=
  match FFmt.f32.decode x with
  | .fin n m e => convertOut ofmt (.fin n m (e + k))
  | v => convertOut ofmt v

/-! ### The ordering of R227 -/

/-- The value of an ARGMAX input of format `ifmt`, an output code. -/
def argValue (ifmt code : Nat) : FVal :=
  match outFmt ifmt with
  | some f => f.decode code
  | none => let v := sext 8 code; .fin (v < 0) v.natAbs 0

/-- Whether `b` ranks above `a`. -/
def ranksAbove (a b : FVal) : Bool :=
  match a, b with
  | .nan, _ => false
  | _, .nan => true
  | .inf x, .inf y => x && !y
  | .inf x, .fin _ _ _ => x
  | .fin _ _ _, .inf y => !y
  | .fin na ma ea, .fin nb mb eb => decide ((dyAdd (signed na ma) ea (-(signed nb mb)) eb).1 < 0)

/-- The channel that wins and whether its value is NaN: the lowest channel of greatest value. -/
def argmaxOf (vs : List FVal) : Nat × Bool :=
  match vs with
  | [] => (0, false)
  | v :: r =>
    let w := r.foldl (fun (p : Nat × FVal × Nat) x => if ranksAbove p.2.1 x then (p.2.2, x, p.2.2 + 1) else (p.1, p.2.1, p.2.2 + 1))
      (0, v, 1)
    (w.1, w.2.1 == .nan)

end Sys2Proof.Machine
end

