-- ==== Sys2Proof/Machine/Replies.lean ====
section
/-!
DEFINITION. Status codes (R16), reply packets (R552, R553), the reply buffer (R550, R556) and notifications (R560).
-/
namespace Sys2Proof.Machine

def ST.OK := 0x0000
def ST.BUSY := 0x0001
def ST.DEFERRED := 0x0002
def ST.BAD_OPCODE := 0x0010
def ST.BAD_PARAM := 0x0011
def ST.BAD_LENGTH := 0x0012
def ST.BAD_CHECK := 0x0013
def ST.TABLE_FULL := 0x0020
def ST.NOT_FOUND := 0x0021
def ST.LOCKED_WRITE := 0x0022
def ST.STATE := 0x0023
def ST.AUTH_FAIL := 0x0030
def ST.SIGNATURE := 0x0031
def ST.TIMEOUT := 0x0040
def ST.FAULT := 0x0041
def ST.LINK_DOWN := 0x0042

/-- A packet (R552, R553). -/
def mkPacket (op tag flags pkg status : Nat) (payload : List Byte) : List Byte :=
  let h := leBytes 1 0x5A ++ leBytes 1 0x01 ++ leBytes 2 op ++ leBytes 2 tag ++ leBytes 1 flags ++ leBytes 1 pkg
    ++ leBytes 4 payload.length ++ leBytes 2 status
  h ++ leBytes 2 (crc16 h) ++ (if payload.isEmpty then [] else payload ++ leBytes 4 (crc32c payload))

/-- Bytes in the reply buffer. -/
def SdioSt.replyBytes (s : SdioSt) : Nat := (s.replies.foldl (fun n r => n + r.length) 0) - s.taken

/-- Replies that wait move into the 64 KiB buffer while there is room; a command whose reply is placed is no longer
outstanding (R556). -/
def SdioSt.settle (s : SdioSt) : List (List Byte × Option Nat) → SdioSt
  | [] => { s with waiting := [] }
  | (r, t) :: rest =>
    if s.replyBytes + r.length ≤ 65536 then
      SdioSt.settle { s with
        replies := s.replies ++ [r]
        outstanding := match t with
          | none => s.outstanding
          | some tag => s.outstanding.filter (fun p => p.tag != tag) } rest
    else { s with waiting := (r, t) :: rest }

/-- The queue of R557 that an opcode joins: registers and memory share one. -/
def opQueue (op : Nat) : Nat := if op / 256 = 3 then 2 else op / 256

/-- The command has been executed and only its reply waits for room (R556). -/
def SdioSt.executed (s : SdioSt) (tag : Nat) : Bool := s.waiting.any (fun w => w.2 == some tag)

/-- An accepted command may start: it is the oldest of its queue that has not been executed, and with FENCE every
command accepted before it has its reply in the buffer (R557, R558). -/
def SdioSt.mayStart (s : SdioSt) (p : Packet) : Bool :=
  let before := s.outstanding.takeWhile (fun x => x.tag != p.tag)
  !s.executed p.tag
    && (if p.fence then before.isEmpty
        else before.all (fun x => x.pkg != p.pkg || opQueue x.op != opQueue p.op || s.executed x.tag))

/-- The header's bytes of a command as the lead carries it to its package (R561). -/
def Packet.bytes (p : Packet) : List Byte := mkPacket p.op p.tag (2 * b2n p.fence) p.pkg 0 p.payload

/-- A packet handed to the reply buffer: REPLIES counts when it is placed. -/
def Dev.putReply (d : Dev) (r : List Byte) (tag : Option Nat) : Dev :=
  let before := d.sdio.replies.length
  let s := SdioSt.settle d.sdio (d.sdio.waiting ++ [(r, tag)])
  { d with sdio := s }.cnt (Reg.SDIO_CNT_k 1) (s.replies.length - before)

/-- Commands for another package that may start are sent to it over the management channel; one for a package that is not
reachable ends with ST_LINK_DOWN (R338, R561). -/
def Dev.pumpRemote (d : Dev) : Dev :=
  d.sdio.outstanding.foldl (fun d p =>
    if p.pkg ≠ d.pkg && (AMap.find d.sdio.remote p.tag).isNone && d.sdio.mayStart p
        && !(d.col.served.any (fun x => x.1 == p.tag)) then
      if d.reachable p.pkg then
        ({ d with sdio := { d.sdio with remote := AMap.set d.sdio.remote p.tag p.pkg } }).toPeer p.pkg p.bytes 10
      else (d.cnt (Reg.SDIO_CNT_k 7) 1).putReply (mkPacket p.op p.tag 0x01 p.pkg ST.LINK_DOWN []) (some p.tag)
    else d) d

/-- A reply or notification placed, and the commands that may then start elsewhere. -/
def Dev.place (d : Dev) (r : List Byte) (tag : Option Nat) : Dev := (d.putReply r tag).pumpRemote

/-- The package that a command in execution came from, when a peer's lead carried it here. -/
def Dev.servedFor (d : Dev) (tag : Nat) : Option Nat := (d.col.served.find? (fun x => x.1 == tag)).map (·.2)
def Dev.unserve (d : Dev) (tag : Nat) : Dev :=
  { d with col := { d.col with served := d.col.served.filter (fun x => x.1 != tag) } }

/-- The reply to an outstanding command (R556, R559, R564); the reply of a command that the lead carried here goes back
to it (R561). -/
def Dev.reply (d : Dev) (p : Packet) (status : Nat) (payload : List Byte) : Dev :=
  let d := if status = ST.OK || status = ST.DEFERRED then d else d.cnt (Reg.SDIO_CNT_k 7) 1
  let d := if status = ST.DEFERRED then
      { d with sdio := { d.sdio with deferred := d.sdio.deferred ++ [(p.tag, p.op)] } } else d
  let r := mkPacket p.op p.tag 0x01 p.pkg status payload
  match d.servedFor p.tag with
  | some k =>
    let d := { d with sdio := { d.sdio with outstanding := d.sdio.outstanding.filter (fun x => x.tag != p.tag) } }
    (if status = ST.DEFERRED then d else d.unserve p.tag).toPeer k r 10
  | none => d.place r (some p.tag)

/-- The notification of a deferred command (R560): DONE and REPLY are set, and the tag is free again. -/
def Dev.notify (d : Dev) (tag status : Nat) (payload : List Byte) : Dev :=
  match d.sdio.deferred.find? (fun x => x.1 == tag) with
  | none => d
  | some (_, op) =>
    let ok := status = ST.OK || status = ST.DEFERRED
    let d := { d with sdio := { d.sdio with deferred := d.sdio.deferred.filter (fun x => x.1 != tag) } }
    let d := if ok then d else d.cnt (Reg.SDIO_CNT_k 7) 1
    let r := mkPacket op tag 0x05 d.pkg status (if ok then payload else [])
    match d.servedFor tag with
    | some k => (d.unserve tag).toPeer k r 10
    | none => d.place r none

/-- The opcodes that recovery answers (R529, R563). -/
def recoveryOps : List Nat := [0x0101, 0x0508, 0x0902, 0x0903, 0x0904, 0x0907]

/-- The code that answers commands may not run this one: in recovery only the opcodes of R529, and RECOVERY_LOAD only
there. -/
def Dev.opRefused (d : Dev) (op : Nat) : Bool :=
  if d.boot.phase == .recovery then !recoveryOps.contains op else op == 0x0907

/-- An opcode command of the table: the accepted packet with that tag and opcode is executed when it may start
(R557, R559).  While the debug module halts a Summit hart, Tarinady executes none (R541). -/
def Mach.cmd (m : Mach) (op tag : Nat) (f : Mach → Packet → Mach) : Mach :=
  match m.dev.sdio.outstanding.find? (fun p => p.tag == tag && p.op == op && p.pkg == m.dev.pkg) with
  | none => m
  | some p =>
    if m.dev.harts.any (· < 4) || !m.dev.sdio.mayStart p then m
    else if m.dev.opRefused op then m.mod (fun d => d.reply p ST.STATE [])
    else f m p

/-- The end of a command: its reply. -/
def Mach.answer (m : Mach) (p : Packet) (status : Nat) (payload : List Byte) : Mach :=
  m.mod (fun d => d.reply p status payload)
def Mach.ok (m : Mach) (p : Packet) (payload : List Byte) : Mach := m.answer p ST.OK payload
def Mach.fail (m : Mach) (p : Packet) (status : Nat) : Mach := m.answer p status []

end Sys2Proof.Machine
end

