-- ==== Sys2Proof/Machine/FlashCore.lean ====
section
/-!
DEFINITION. The flash subsystem's shared operations (R359 to R376): the mapping table, the write buffer, the journal,
blocks and regions.  The array's data stands at `flashMem`, one 16 KiB run for each logical unit (log 30): which
physical page holds a unit affects time only (R364), and the page address a map entry holds is an open value.
-/
namespace Sys2Proof.Machine

/-- The array's data, and the content of a unit before a change that the journal does not hold yet. -/
def flashMem : Nat := 2 ^ 60
def flashOld : Nat := 2 ^ 61
def unitSize : Nat := 16384

def FL.OFF := 0
def FL.MOUNTING := 1
def FL.READY := 2
def FL.CLOSING := 3
def FL.CLOSED := 4
def FL.READONLY := 5
def FL.BLANK := 6
def FL.FAILED := 7

def Dev.flState (d : Dev) : Nat := d.rf Reg.FL_STAT Fld.FL_STAT.STATE
def Dev.setFlState (d : Dev) (v : Nat) : Dev := d.wf Reg.FL_STAT Fld.FL_STAT.STATE v
def Dev.modFlash (d : Dev) (f : FlashSt → FlashSt) : Dev := { d with flash := f d.flash }
def Dev.flEnabled (d : Dev) : Bool := d.rfB Reg.FL_CTRL Fld.FL_CTRL.EN

def Dev.mapBase (d : Dev) : Nat := (d.rf Reg.FL_MAP_BASE Fld.FL_MAP_BASE.BASE % 64) * 2 ^ 31
def Dev.wbBase (d : Dev) : Nat := d.rf Reg.FL_WB_BASE Fld.FL_WB_BASE.BASE * 2 ^ 26
def Dev.wbLimit (d : Dev) : Nat :=
  let v := d.rf Reg.FL_WB_LIMIT Fld.FL_WB_LIMIT.LIMIT
  if v = 0 then 1 else if v > 4096 then 4096 else v

/-- A target that R359 supports. -/
def targetOk (g : TargetGeom) : Bool :=
  decide (1 ≤ g.luns) && decide (g.luns ≤ 2) && decide (1 ≤ g.planes) && decide (g.planes ≤ 4) && decide (1 ≤ g.blocks)
    && decide (g.blocks ≤ 4096) && decide (1 ≤ g.pages) && decide (g.pages ≤ 4096) && g.data == 16384
    && decide (2048 ≤ g.spare)
def targetBytes (g : TargetGeom) : Nat := g.luns * g.planes * g.blocks * g.pages * 16384
def targetUnit (g : TargetGeom) : Nat := 4 * g.chan.val + g.target.val

/-- The block of a page address (R366), and the unit of a fault that names a target. -/
def pageBlock (p : Nat) : Nat := p / 4096

/-- The block that never holds data (R366): the address of its last page is that of an unmapped entry. -/
def systemBlock : Nat := 2 ^ 20 - 1

/-- The blocks of a target, by their place in a page address, and the pages of a block. -/
def targetBlocks (g : TargetGeom) : List Nat :=
  (List.range g.luns).flatMap (fun l => (List.range g.planes).flatMap (fun p => (List.range g.blocks).map (fun b =>
    targetUnit g * 2 ^ 15 + l * 2 ^ 14 + p * 2 ^ 12 + b)))
def FlashSt.pagesOf (f : FlashSt) (b : Nat) : Nat := match f.geom.find? (fun g => targetUnit g == b / 2 ^ 15) with
  | some g => g.pages
  | none => 0

/-- The erase count of a block. -/
def FlashSt.erased (f : FlashSt) (b : Nat) : Nat := AMap.getD f.erases b 0

/-- The free blocks with the lowest erase count (R364). -/
def FlashSt.leastErased (f : FlashSt) : List Nat :=
  let bs := (f.geom.flatMap targetBlocks).filter (fun b =>
    b != systemBlock && !f.bad.contains b && !f.used.contains b)
  match bs.map f.erased with
  | [] => []
  | c :: cs => let least := cs.foldl min c
               bs.filter (fun b => f.erased b == least)

/-- A physical page for new data (R364, R366): the next page of the block that is being written, else the first page of a
free block with the lowest erase count.  Which of several such blocks, and the page where no block is free, is open; it
never lies in the block that holds no data (log 35). -/
def Dev.freshPage (d : Dev) : Nat × Dev :=
  let next := match d.flash.active with
    | some (b, k) => if k < d.flash.pagesOf b then some (b, k) else none
    | none => none
  match next, d.flash.leastErased with
  | some (b, k), _ => (b * 4096 + k, d.modFlash (fun f => { f with active := some (b, k + 1) }))
  | none, [] =>
    let (i, d) := d.fresh
    (Config.freeNat i % (systemBlock * 4096), d)
  | none, b0 :: bs =>
    let (i, d) := d.fresh
    let b := (b0 :: bs).getD (Config.freeNat i % (bs.length + 1)) b0
    (b * 4096, d.modFlash (fun f => { f with active := some (b, 1), used := f.used ++ [b] }))

def blockTarget (b : Nat) : Nat := 4 * bits b 19 17 + bits b 16 15
def blockDetail (b : Nat) : Nat := bits b 11 0 + bits b 13 12 * 2 ^ 12 + bits b 14 14 * 2 ^ 14

/-- The 4 KiB of map entries around an HBM address rebuilt from checkpoint and journal (R370). -/
def Mach.mapRebuild (m : Mach) (a : Nat) : Mach :=
  let b := a / 4096 * 4096
  let u0 := (b - m.dev.mapBase) / 4
  let m := m.store b ((List.range 1024).flatMap (fun i => leBytes 4 ((AMap.find m.dev.flash.map (u0 + i)).getD 0xFFFFFFFF)))
  m.mod (fun d => d.raise 1 Src.FLASH 0x0006 0xFFFF b)

/-- One change of the map (R366, R369): the entry in the table and in HBM, and a journal record.  The entry's write is a part
of a burst, whose read may meet an uncorrectable error (R351). -/
def Mach.setMap (m : Mach) (u : Nat) (e : Option Nat) : Mach :=
  let old := AMap.find m.dev.flash.map u
  let m := if m.dev.flash.unjournaled.any (fun x => x.1 == u) then m
    else (m.store (flashOld + u * unitSize) (m.rdBytes (flashMem + u * unitSize) unitSize)).mod (fun d =>
      d.modFlash (fun f => { f with unjournaled := f.unjournaled ++ [(u, old)] }))
  let m := m.mod (fun d => d.modFlash (fun f =>
    { f with
      map := match e with
        | some p => AMap.set f.map u p
        | none => AMap.erase f.map u
      records := f.records + 1 }))
  let a := m.dev.mapBase + 4 * u
  match m.rmwCheck a 4 188 0xFF with
  | (m, none) => m.storeNat a 4 (e.getD 0xFFFFFFFF)
  | (m, some _) => m.mapRebuild a

/-- The map entry of a unit read from HBM (R370): an uncorrectable error rebuilds its 4 KiB of entries. -/
def Mach.mapLookup (m : Mach) (u : Nat) : Mach :=
  let a := m.dev.mapBase + 4 * u
  let (m, bad) := m.eccRead a 4 188 0xFF
  match bad with
  | none => m
  | some _ => m.mapRebuild a

/-- A buffered unit lost to an uncorrectable error (R368): it reverts to its previous content. -/
def Mach.wbLost (m : Mach) (w : WbUnit) : Mach :=
  let m := m.mod (fun d => d.modFlash (fun f => { f with wb := f.wb.erase w }))
  let m := m.setMap w.unit w.old
  m.mod (fun d => (d.cnt (Reg.FL_CNT_k 7) 1).raise 1 Src.FLASH 0x0005 0xFFFF w.unit)

/-- The content of a unit (R366 to R368). -/
def Mach.unitBytes (m : Mach) (u : Nat) : Mach × List Byte :=
  let m := m.mapLookup u
  match m.dev.flash.wb.find? (fun w => w.unit == u) with
  | some w =>
    let a := m.dev.wbBase + w.slot * unitSize
    let (m, bad) := m.eccRead a unitSize 188 0xFF
    match bad with
    | some _ => let m := m.wbLost w; (m, m.rdBytes (flashMem + u * unitSize) unitSize)
    | none => (m, m.rdBytes a unitSize)
  | none => (m, m.rdBytes (flashMem + u * unitSize) unitSize)

/-- The oldest buffered unit programmed (R368). -/
def Mach.programOldest (m : Mach) : Mach :=
  match m.dev.flash.wb with
  | [] => m
  | w :: _ =>
    let (m, bs) := m.unitBytes w.unit
    if m.dev.flash.wb.contains w then
      (m.store (flashMem + w.unit * unitSize) bs).mod (fun d => d.modFlash (fun f => { f with wb := f.wb.erase w }))
    else m

/-- Programming frees room while the buffer holds FL_WB_LIMIT units (R368). -/
def Mach.wbRoom (m : Mach) : Nat → Mach
  | 0 => m
  | k + 1 => if m.dev.flash.wb.length ≥ m.dev.wbLimit then Mach.wbRoom m.programOldest k else m

/-- A unit's new content accepted into the write buffer (R367, R368). -/
def Mach.writeUnit (m : Mach) (u : Nat) (bs : List Byte) : Mach :=
  let m := m.mapLookup u
  match m.dev.flash.wb.find? (fun w => w.unit == u) with
  | some w =>
    let (p, d) := m.dev.freshPage
    let m := { m with dev := d }
    (m.store (m.dev.wbBase + w.slot * unitSize) bs).setMap u (some p)
  | none =>
    let m := m.wbRoom 4097
    let used := m.dev.flash.wb.map (·.slot)
    let slot := ((List.range 4096).find? (fun s => !used.contains s)).getD 0
    let old := AMap.find m.dev.flash.map u
    let (p, d) := m.dev.freshPage
    let m := { m with dev := d.modFlash (fun f => { f with wb := f.wb ++ [WbUnit.mk slot u old] }) }
    (m.store (m.dev.wbBase + slot * unitSize) bs).setMap u (some p)

/-- A unit trimmed: it is unmapped and reads as zeros (R366). -/
def Mach.trimUnit (m : Mach) (u : Nat) : Mach :=
  if (AMap.find m.dev.flash.map u).isNone then m
  else
    let m := m.setMap u none
    let m := m.mod (fun d => d.modFlash (fun f => { f with wb := f.wb.filter (fun w => w.unit != u) }))
    m.zero (flashMem + u * unitSize) unitSize

/-- Bytes of a region from a byte offset (R376). -/
def Mach.regionBytes (m : Mach) (r : RegionRec) (off len : Nat) : Mach × List Byte :=
  let u0 := r.first + off / unitSize
  let n := ceilDiv (off % unitSize + len) unitSize
  let (m, bs) := (List.range n).foldl (fun (p : Mach × List Byte) i =>
    let (m, b) := p.1.unitBytes (u0 + i)
    (m, p.2 ++ b)) (m, [])
  (m, (bs.drop (off % unitSize)).take len)

/-- Data written to a region at a byte offset: each unit is read, modified and rewritten (R376). -/
def Mach.regionStore (m : Mach) (r : RegionRec) (off : Nat) (data : List Byte) : Mach :=
  let u0 := r.first + off / unitSize
  let o := off % unitSize
  let n := ceilDiv (o + data.length) unitSize
  (List.range n).foldl (fun m i =>
    let lo := i * unitSize
    let (m, old) := m.unitBytes (u0 + i)
    let new := (List.range unitSize).map (fun j =>
      if lo + j < o || lo + j ≥ o + data.length then old.getD j 0 else data.getD (lo + j - o) 0)
    m.writeUnit (u0 + i) new) m

/-- A range of a region trimmed: whole units are unmapped, a part of a unit is rewritten as zeros (log 31). -/
def Mach.regionTrim (m : Mach) (r : RegionRec) (off len : Nat) : Mach :=
  let u0 := r.first + off / unitSize
  let n := ceilDiv (off % unitSize + len) unitSize
  (List.range n).foldl (fun m i =>
    let lo := (off / unitSize + i) * unitSize
    if off ≤ lo && lo + unitSize ≤ off + len then m.trimUnit (u0 + i)
    else if (AMap.find m.dev.flash.map (u0 + i)).isNone then m
    else
      let a := max off lo
      let e := min (off + len) (lo + unitSize)
      m.regionStore r a (List.replicate (e - a) 0)) m

/-- The lowest run of free logical units (R376). -/
def FlashSt.freeRun (f : FlashSt) (units : Nat) : Option Nat :=
  let starts := 0 :: f.regions.map (fun p => p.2.first + p.2.units)
  let ok := starts.filter (fun s => decide (s + units ≤ f.capacity)
    && f.regions.all (fun p => decide (s + units ≤ p.2.first) || decide (p.2.first + p.2.units ≤ s)))
  (ok.sortLe (· ≤ ·)).head?

/-- A change of a region drops the cached samples of the streams that read it (R440). -/
def Dev.dropCached (d : Dev) (region : Nat) : Dev :=
  let ss := (d.streams.filter (fun p => field p.2.entry 0 1 == 2 && field p.2.entry 0x3E 1 == region)).map (·.1)
  { d with cache := d.cache.filter (fun k => !ss.contains k.1) }

/-- The page of each unit of `us` moved to a new one (R364, R365): content stands, the map and journal change. -/
def Mach.moveUnits (m : Mach) (us : List Nat) : Mach :=
  us.foldl (fun m u =>
    let (p, d) := m.dev.freshPage
    { m with dev := d }.setMap u (some p)) m

/-- The units that a block holds. -/
def FlashSt.inBlock (f : FlashSt) (b : Nat) : List Nat := (f.map.filter (fun p => pageBlock p.2 == b)).map (·.1)

/-- A block becomes bad (R363): its data moves to a spare block; the spare warning; READONLY. -/
def Mach.growBad (m : Mach) (b : Nat) : Mach :=
  if m.dev.flash.bad.contains b then m else
  let us := m.dev.flash.inBlock b
  let m := m.mod (fun d => d.modFlash (fun f =>
    { f with
      bad := f.bad ++ [b]
      active := f.active.filter (fun a => a.1 != b) }))
  let m := m.moveUnits us
  m.mod (fun d =>
    let before := d.flash.spare
    let after := before - 1
    let warn := d.rf Reg.FL_POLICY Fld.FL_POLICY.SPARE_WARN
    let d := d.modFlash (fun f => { f with spare := after })
    let d := (d.cnt (Reg.FL_CNT_k 2) 1).raise 0 Src.FLASH 0x0003 (blockTarget b) (blockDetail b)
    let d := if after < warn && before ≥ warn then d.raise 1 Src.FLASH 0x0004 0xFFFF after else d
    if after = 0 && d.flState = FL.READY then d.setFlState FL.READONLY else d)

/-- How a read of unit `u` from block `b` ended (R362, R363): whether data came out. -/
def Mach.nandRead (m : Mach) (u b : Nat) : NandOutcome → Mach × Bool
  | .ok => (m, true)
  | .retried => (m.mod (fun d => d.cnt (Reg.FL_CNT_k 0) 1), true)
  | .softDecoded =>
    let m := m.mod (fun d => d.cnt (Reg.FL_CNT_k 0) 1)
    if m.dev.flash.soft.contains b then (m.growBad b, true)
    else (m.mod (fun d => d.modFlash (fun f => { f with soft := f.soft ++ [b] })), true)
  | .failed =>
    (m.mod (fun d => ((d.cnt (Reg.FL_CNT_k 0) 1).cnt (Reg.FL_CNT_k 1) 1).raise 1 Src.FLASH 0x0002 (blockTarget b) u),
      false)

/-- The reads of units, in order, as far as the first that fails. -/
def Mach.nandReads (m : Mach) : List Nat → List NandOutcome → Mach × Bool
  | [], _ => (m, true)
  | u :: us, os =>
    match m.nandRead u (pageBlock (AMap.getD m.dev.flash.map u 0)) (os.headD .ok) with
    | (m, false) => (m, false)
    | (m, true) => m.nandReads us os.tail

/-- A block erased (R364): free again, with one erase more. -/
def Dev.eraseBlock (d : Dev) (b : Nat) : Dev :=
  d.modFlash (fun f =>
    { f with
      used := f.used.filter (· != b)
      active := f.active.filter (fun a => a.1 != b)
      erases := AMap.set f.erases b (f.erased b + 1) })

/-- The block that holds a unit; 0 when it is unmapped. -/
def FlashSt.blockOf (f : FlashSt) (u : Nat) : Nat := pageBlock (AMap.getD f.map u 0)

end Sys2Proof.Machine
end

