-- ==== Sys2Proof/Machine/Jpeg.lean ====
section
/-!
DEFINITION. The JPEG decoder of the replay path (R436, R437): baseline sequential, with the inverse transform in
binary64 exactly as R437 fixes it.  An error is a reason of R443: 5 DIMS, 6 JPEG, 7 TRUNC.
-/
namespace Sys2Proof.Machine

/-- cos(k pi / 16) for k = 0 to 8, correctly rounded to binary64. -/
def cosTable : List Nat :=
  [0x3FF0000000000000, 0x3FEF6297CFF75CB0, 0x3FED906BCF328D46, 0x3FEA9B66290EA1A3, 0x3FE6A09E667F3BCD,
   0x3FE1C73B39AE68C8, 0x3FD87DE2A6AEA963, 0x3FC8F8B83C69A60B, 0]

/-- cos(k pi / 16) for any k, by its symmetries. -/
def cos16 (k : Nat) : Nat :=
  let r := k % 32
  let r := if r > 16 then 32 - r else r
  if r ≤ 8 then cosTable.getD r 0 else FFmt.f64.neg (cosTable.getD (16 - r) 0)

/-- C(u) of R437. -/
def idctC (u : Nat) : Nat := if u = 0 then 0x3FE6A09E667F3BCD else 0x3FF0000000000000

/-- Sample (x, y) of a block of dequantised coefficients in row order (v outer, u inner). -/
def idctSample (f : List Int) (x y : Nat) : Nat :=
  let s := (List.range 64).foldl (fun s i =>
    let v := i / 8
    let u := i % 8
    let c := FFmt.f64.mul (idctC u) (idctC v)
    let t := FFmt.f64.mul c (FFmt.f64.ofDyadic (f.getD i 0) 0)
    let t := FFmt.f64.mul t (cos16 ((2 * x + 1) * u))
    FFmt.f64.add s (FFmt.f64.mul t (cos16 ((2 * y + 1) * v)))) 0
  match FFmt.f64.decode (FFmt.f64.mul 0x3FD0000000000000 s) with
  | .fin n m e =>
    let r : Int := (if e ≥ 0 then ((m * 2 ^ e.toNat : Nat) : Int) else ((rneShift m (-e).toNat : Nat) : Int))
    let r := (if n then -r else r) + 128
    if r < 0 then 0 else if r > 255 then 255 else r.toNat
  | _ => 0

def idctBlock (f : List Int) : List Nat :=
  (List.range 64).map (fun i => idctSample f (i % 8) (i / 8))

/-- Position in row order of coefficient `i` of the zigzag order. -/
def zigzag : List Nat :=
  [0, 1, 8, 16, 9, 2, 3, 10, 17, 24, 32, 25, 18, 11, 4, 5, 12, 19, 26, 33, 40, 48, 41, 34, 27, 20, 13, 6, 7, 14, 21, 28,
   35, 42, 49, 56, 57, 50, 43, 36, 29, 22, 15, 23, 30, 37, 44, 51, 58, 59, 52, 45, 38, 31, 39, 46, 53, 60, 61, 54, 47,
   55, 62, 63]

/-- A Huffman table: the codes of each length from 1 to 16, and the symbols in order. -/
structure HuffTab where
  counts : List Nat
  symbols : List Nat
deriving DecidableEq, Repr

/-- The entropy-coded segment being read: bytes not taken yet and the bits left of the last byte taken. -/
structure BitSrc where
  bytes : List Nat
  cur : Nat := 0
  n : Nat := 0
deriving DecidableEq, Repr

/-- The next bit: an RST marker inside an interval is out of sequence, another marker or the end is truncation. -/
def BitSrc.bit (b : BitSrc) : Except Nat (Nat × BitSrc) :=
  if b.n > 0 then .ok (b.cur / 2 ^ (b.n - 1) % 2, { b with n := b.n - 1 })
  else match b.bytes with
    | 0xFF :: 0 :: r => .ok (1, { bytes := r, cur := 0xFF, n := 7 })
    | 0xFF :: m :: _ => .error (if 0xD0 ≤ m && m ≤ 0xD7 then 6 else 7)
    | [0xFF] => .error 7
    | x :: r => .ok (x / 128, { bytes := r, cur := x, n := 7 })
    | [] => .error 7

def BitSrc.bits (b : BitSrc) : Nat → Except Nat (Nat × BitSrc)
  | 0 => .ok (0, b)
  | k + 1 => do
    let (v, b) ← b.bits k
    let (x, b) ← b.bit
    .ok (2 * v + x, b)

/-- A symbol decoded with a canonical table. -/
def HuffTab.decode (h : HuffTab) (b : BitSrc) : Except Nat (Nat × BitSrc) :=
  let rec go (counts : List Nat) (code first index : Nat) (b : BitSrc) : Except Nat (Nat × BitSrc) :=
    match counts with
    | [] => .error 6
    | c :: cs => do
      let (x, b) ← b.bit
      let code := 2 * code + x
      if code < first + c && code ≥ first then .ok (h.symbols.getD (index + (code - first)) 0, b)
      else go cs code (2 * (first + c)) (index + c) b
  go h.counts 0 0 0 b

/-- The value that `s` additional bits spell. -/
def extendBits (v s : Nat) : Int := if s = 0 then 0 else if v < 2 ^ (s - 1) then (v : Int) - (2 ^ s - 1) else v

/-- The AC coefficients of a block, from zigzag index `k`. -/
def acCoeffs (h : HuffTab) (b : BitSrc) (out : AMap Int) (k : Nat) : Nat → Except Nat (AMap Int × BitSrc)
  | 0 => .ok (out, b)
  | fuel + 1 =>
    if k ≥ 64 then .ok (out, b)
    else do
      let (rs, b) ← h.decode b
      let r := rs / 16
      let s := rs % 16
      if s = 0 then
        if r = 15 then acCoeffs h b out (k + 16) fuel else .ok (out, b)
      else
        let k := k + r
        if k ≥ 64 then .error 6
        else
          let (v, b) ← b.bits s
          acCoeffs h b (AMap.set out (zigzag.getD k 0) (extendBits v s)) (k + 1) fuel

/-- One block: its dequantised coefficients in row order, and the new DC predictor. -/
def decodeBlock (dc ac : HuffTab) (q : List Nat) (pred : Int) (b : BitSrc) : Except Nat (List Int × Int × BitSrc) := do
  let (t, b) ← dc.decode b
  if t > 11 then .error 6
  let (v, b) ← b.bits t
  let d := pred + extendBits v t
  let (m, b) ← acCoeffs ac b [(0, d)] 1 64
  let inv := fun i => (zigzag.findIdx? (· == i)).getD 0
  .ok ((List.range 64).map (fun i => AMap.getD m i 0 * (q.getD (inv i) 0 : Nat)), d, b)

/-- A component of the frame. -/
structure JComp where
  id : Nat
  h : Nat
  v : Nat
  tq : Nat
deriving DecidableEq, Repr

/-- The decoder between markers. -/
structure JState where
  qt : AMap (List Nat) := []
  dc : AMap HuffTab := []
  ac : AMap HuffTab := []
  ri : Nat := 0
  w : Nat := 0
  h : Nat := 0
  comps : List JComp := []
  /-- Decoded blocks by component × 2^40 + block row × 2^20 + block column. -/
  blocks : AMap (List Nat) := []
  /-- Components whose scan is done. -/
  done : List Nat := []
deriving DecidableEq, Repr

def be16 (l : List Nat) (i : Nat) : Nat := l.getD i 0 * 256 + l.getD (i + 1) 0

def JState.hmax (s : JState) : Nat := s.comps.foldl (fun m c => max m c.h) 1
def JState.vmax (s : JState) : Nat := s.comps.foldl (fun m c => max m c.v) 1

def parseDqt (s : JState) (p : List Nat) : Nat → Except Nat JState
  | 0 => .error 6
  | fuel + 1 =>
    match p with
    | [] => .ok s
    | t :: r =>
      if t > 3 || r.length < 64 then .error 6
      else parseDqt { s with qt := AMap.set s.qt t (r.take 64) } (r.drop 64) fuel

def parseDht (s : JState) (p : List Nat) : Nat → Except Nat JState
  | 0 => .error 6
  | fuel + 1 =>
    match p with
    | [] => .ok s
    | t :: r =>
      let cs := r.take 16
      let n := cs.foldl (· + ·) 0
      -- the code lengths must fit a prefix code
      let tooMany := (cs.foldl (fun (a : Nat × Bool) c =>
        let a1 := 2 * a.1
        (a1 - c, a.2 || decide (c > a1))) (1, false)).2
      if r.length < 16 + n || n > 256 || tooMany || t % 16 > 1 || t / 16 > 1 then .error 6
      else
        let h : HuffTab := ⟨cs, (r.drop 16).take n⟩
        let s := if t / 16 = 0 then { s with dc := AMap.set s.dc t h } else { s with ac := AMap.set s.ac (t % 16) h }
        parseDht s (r.drop (16 + n)) fuel

/-- SOF0 (R436, R438): the dimension checks come before anything is allocated. -/
def parseSof (s : JState) (p : List Nat) (maxW maxH nplane : Nat) : Except Nat JState :=
  let h := be16 p 1
  let w := be16 p 3
  let n := p.getD 5 0
  if p.length < 6 || p.getD 0 0 ≠ 8 || !s.comps.isEmpty then .error 6
  else if w = 0 || h = 0 || w > maxW || h > maxH then .error 5
  else if n ≠ nplane || (n ≠ 1 && n ≠ 3) || p.length < 6 + 3 * n then .error 6
  else
    let cs := (List.range n).map (fun i =>
      let o := 6 + 3 * i
      (⟨p.getD o 0, p.getD (o + 1) 0 / 16, p.getD (o + 1) 0 % 16, p.getD (o + 2) 0⟩ : JComp))
    let bad := cs.any (fun c => c.tq > 3) ||
      (n == 3 && !(match cs with
        | [y, cb, cr] => ((y.h == 1 && y.v == 1) || (y.h == 2 && y.v == 1) || (y.h == 2 && y.v == 2))
            && cb.h == 1 && cb.v == 1 && cr.h == 1 && cr.v == 1
        | _ => false))
    if bad then .error 6
    else .ok { s with w := w, h := h, comps := if n = 1 then cs.map (fun c => { c with h := 1, v := 1 }) else cs }

/-- What the scan is reading: predictors by component, blocks decoded, the source. -/
structure ScanSt where
  preds : AMap Int := []
  out : AMap (List Nat)
  src : BitSrc
deriving DecidableEq, Repr

/-- The blocks of MCU `m` of a scan over the components `cs` (index, DC and AC table). -/
def mcuBlocks (s : JState) (cs : List (Nat × Nat × Nat)) (m : Nat) : List (Nat × Nat × Nat) :=
  match cs with
  | [(i, _, _)] =>
    let c := s.comps.getD i ⟨0, 1, 1, 0⟩
    let bw := ceilDiv (ceilDiv (s.w * c.h) s.hmax) 8
    [(i, m / bw, m % bw)]
  | _ =>
    let mw := ceilDiv s.w (8 * s.hmax)
    cs.flatMap (fun p =>
      let c := s.comps.getD p.1 ⟨0, 1, 1, 0⟩
      (List.range (c.h * c.v)).map (fun k => (p.1, m / mw * c.v + k / c.h, m % mw * c.h + k % c.h)))

def mcuCount (s : JState) (cs : List (Nat × Nat × Nat)) : Nat :=
  match cs with
  | [(i, _, _)] =>
    let c := s.comps.getD i ⟨0, 1, 1, 0⟩
    ceilDiv (ceilDiv (s.w * c.h) s.hmax) 8 * ceilDiv (ceilDiv (s.h * c.v) s.vmax) 8
  | _ => ceilDiv s.w (8 * s.hmax) * ceilDiv s.h (8 * s.vmax)

/-- The restart marker that must stand between two intervals (R438). -/
def takeRestart (b : BitSrc) (n : Nat) : Except Nat BitSrc :=
  match b.bytes with
  | 0xFF :: r =>
    match r.dropWhile (· == 0xFF) with
    | m :: r =>
      if m = 0xD0 + n % 8 then .ok { bytes := r }
      else .error (if 0xD0 ≤ m && m ≤ 0xD7 then 6 else 7)
    | [] => .error 7
  | [] => .error 7
  | _ => .error 6

def scanMcus (s : JState) (cs : List (Nat × Nat × Nat)) (total : Nat) (m : Nat) (t : ScanSt) :
    Nat → Except Nat ScanSt
  | 0 => .ok t
  | fuel + 1 =>
    if m ≥ total then .ok t
    else do
      let t ← if s.ri > 0 && m > 0 && m % s.ri = 0 then do
          let b ← takeRestart t.src (m / s.ri - 1)
          .ok { t with preds := [], src := b }
        else .ok t
      let t ← (mcuBlocks s cs m).foldlM (fun (t : ScanSt) blk => do
        let (i, by_, bx) := blk
        let tabs := (cs.find? (fun c => c.1 == i)).getD (0, 0, 0)
        match AMap.find s.dc tabs.2.1, AMap.find s.ac tabs.2.2, AMap.find s.qt ((s.comps.getD i ⟨0, 1, 1, 0⟩).tq) with
        | some dc, some ac, some q => do
          let (f, d, b) ← decodeBlock dc ac q (AMap.getD t.preds i 0) t.src
          .ok { t with preds := AMap.set t.preds i d, src := b
                       out := AMap.set t.out (i * 2 ^ 40 + by_ * 2 ^ 20 + bx) (idctBlock f) }
        | _, _, _ => .error 6) t
      scanMcus s cs total (m + 1) t fuel

/-- One scan, and the bytes that follow its entropy-coded data. -/
def parseSos (s : JState) (p rest : List Nat) : Except Nat (JState × List Nat) :=
  let n := p.getD 0 0
  let cs := (List.range n).map (fun i =>
    ((s.comps.findIdx? (fun c => c.id == p.getD (1 + 2 * i) 0)), p.getD (2 + 2 * i) 0 / 16, p.getD (2 + 2 * i) 0 % 16))
  if n = 0 || n > 3 || p.length < 4 + 2 * n || s.comps.isEmpty || cs.any (fun c => c.1.isNone || c.2.1 > 1 || c.2.2 > 1)
      || p.getD (1 + 2 * n) 0 ≠ 0 || p.getD (2 + 2 * n) 0 ≠ 63 || p.getD (3 + 2 * n) 0 ≠ 0 then .error 6
  else
    let cs := cs.map (fun c => (c.1.getD 0, c.2.1, c.2.2))
    let total := mcuCount s cs
    do
      let t ← scanMcus s cs total 0 { out := s.blocks, src := { bytes := rest } } (total + 1)
      .ok ({ s with blocks := t.out, done := s.done ++ cs.map (·.1) }, t.src.bytes)

/-- The markers of the image, from after SOI, until every component is decoded. -/
def jpegMarkers (maxW maxH nplane : Nat) (s : JState) (p : List Nat) : Nat → Except Nat JState
  | 0 => .error 6
  | fuel + 1 =>
    if !s.comps.isEmpty && (List.range s.comps.length).all s.done.contains then .ok s
    else match p with
      | 0xFF :: 0xFF :: r => jpegMarkers maxW maxH nplane s (0xFF :: r) fuel
      | 0xFF :: m :: r =>
        let len := be16 r 0
        let body := (r.drop 2).take (len - 2)
        let rest := r.drop len
        if m = 0xD9 then .error 7
        else if len < 2 || r.length < len then .error 7
        else if m = 0xDB then do jpegMarkers maxW maxH nplane (← parseDqt s body 8) rest fuel
        else if m = 0xC4 then do jpegMarkers maxW maxH nplane (← parseDht s body 8) rest fuel
        else if m = 0xC0 then do jpegMarkers maxW maxH nplane (← parseSof s body maxW maxH nplane) rest fuel
        else if m = 0xDD then jpegMarkers maxW maxH nplane { s with ri := be16 body 0 } rest fuel
        else if m = 0xDA then do
          let (s, rest) ← parseSos s body rest
          jpegMarkers maxW maxH nplane s rest fuel
        else if (0xE0 ≤ m && m ≤ 0xEF) || m = 0xFE then jpegMarkers maxW maxH nplane s rest fuel
        else .error 6
      | [] => .error 7
      | _ => .error 6

/-- The planes of a decoded image, chroma expanded by repetition (R437). -/
def jpegPlanes (s : JState) : List (List Nat) :=
  ((List.range s.comps.length).zip s.comps).map (fun p =>
    (List.range (s.w * s.h)).map (fun i =>
      let x := i % s.w * p.2.h / s.hmax
      let y := i / s.w * p.2.v / s.vmax
      (AMap.getD s.blocks (p.1 * 2 ^ 40 + y / 8 * 2 ^ 20 + x / 8) []).getD (8 * (y % 8) + x % 8) 0))

/-- A JPEG payload decoded: width, height and planes, or the reason of R443. -/
def jpegDecode (bytes : List Nat) (maxW maxH nplane : Nat) : Except Nat (Nat × Nat × List (List Nat)) :=
  match bytes with
  | 0xFF :: 0xD8 :: r => do
    let s ← jpegMarkers maxW maxH nplane {} r (bytes.length + 2)
    .ok (s.w, s.h, jpegPlanes s)
  | [] => .error 7
  | _ => .error 6

end Sys2Proof.Machine
end

