-- ==== Sys2Proof/Machine/Route.lean ====
section
/-!
DEFINITION. Route images: parsing (R158 to R167) and the validation of R198, reason by reason in the order of its table.
-/
namespace Sys2Proof.Machine

/-! ### Parsing -/

def parseLive (r : List Byte) : LiveRec :=
  ⟨field r 0 1, field r 1 1, field r 2 1, field r 3 1, field r 4 2, field r 6 2, field r 8 1, field r 9 1⟩

def parseRes (r : List Byte) : ResRec := ⟨field r 0 1, bit (field r 1 1) 0, field r 2 2, field r 4 2⟩

/-- The header and the directories of the image at `a`. -/
def parseRoute (m : Mach) (a : Nat) : Route :=
  let h := m.rdBytes a 128
  let nr := min (field h 0x19 1) 24
  let tdir := field h 0x38 8
  let liveOff := field h 0x58 8
  let resOff := field h 0x68 8
  let tabOff := field h 0x70 8
  { addr := a, len := field h 0x08 8, id := field h 0x14 4, grade := field h 0x18 1, nridges := field h 0x19 1,
    runAhead := field h 0x1A 1, flags := field h 0x1B 1, budget := field h 0x1C 4, spurBase := field h 0x20 4,
    spurLen := field h 0x24 4, spurStack := field h 0x28 4, bases := field h 0x2C 1, npkg := field h 0x2D 1,
    spurOff := field h 0x30 8,
    lists := (List.range (4 * nr)).map (fun i =>
      let r := m.rdBytes (a + tdir + 16 * i) 16
      (field r 0 8, field r 8 4)),
    tarnOff := field h 0x40 8, tarnCnt := field h 0x48 4, ingCnt := field h 0x4C 4, ingOff := field h 0x50 8,
    live := (List.range (min (field h 0x60 4) (field h 0x08 8 / 16))).map (fun i => parseLive (m.rdBytes (a + liveOff + 16 * i) 16)),
    res := (List.range (min (field h 0x64 4) 1024)).map (fun i => parseRes (m.rdBytes (a + resOff + 8 * i) 8)),
    tabs := (List.range (min (field h 0x78 4) 256)).map (fun i =>
      let r := m.rdBytes (a + tabOff + 16 * i) 16
      ⟨a + field r 0 8, field r 8 4, field r 12 1⟩) }

def Route.safety (r : Route) : Bool := bit r.flags 0
def Route.hasSpec (r : Route) : Bool := bit r.flags 1
def Route.hasTarn (r : Route) : Bool := bit r.flags 2
def Route.hasIngest (r : Route) : Bool := bit r.flags 3
def Route.hasCol (r : Route) : Bool := bit r.flags 4

/-- The entries of a list, each with its index; the argument word of a spur call is not an entry of its own. -/
def entriesFrom : List Nat → Nat → List (Nat × Nat)
  | [], _ => []
  | [e], i => [(i, e)]
  | e :: a :: r, i => if Ent.kind e = K.SPUR then (i, e) :: entriesFrom r (i + 2) else (i, e) :: entriesFrom (a :: r) (i + 1)

def rawList (m : Mach) (a cnt : Nat) : List Nat := (List.range cnt).map (fun i => m.rdNat (a + 16 * i) 16)

/-- The lists of a route with their numbers of SCH_RT_VERR: logical tiles, 0x7E the Tarn list, 0x7F the ingest list. -/
def routeLists (m : Mach) (r : Route) : List (Nat × List (Nat × Nat)) :=
  let tiles := ((List.range r.lists.length).zip r.lists).map (fun p =>
    (p.1, entriesFrom (rawList m (r.addr + p.2.1) p.2.2) 0))
  tiles ++ [(0x7E, entriesFrom (rawList m (r.addr + r.tarnOff) r.tarnCnt) 0),
            (0x7F, entriesFrom (rawList m (r.addr + r.ingOff) r.ingCnt) 0)]

/-- Where a check failed: logical tile and entry, as SCH_RT_VERR records them. -/
abbrev Fail := Option (Nat × Nat)
def hdrFail (b : Bool) : Fail := if b then some (0x7D, 0) else none

/-- The first failure of a check made entry by entry over every list. -/
def firstEntry (ls : List (Nat × List (Nat × Nat))) (f : Nat → Nat → Nat → Bool) : Fail :=
  ls.findSome? (fun l => l.2.findSome? (fun e => if f l.1 e.1 e.2 then some (l.1, e.1) else none))

/-- The first failure of a check made list by list. -/
def firstList (ls : List (Nat × List (Nat × Nat))) (f : Nat → List (Nat × Nat) → Option Nat) : Fail :=
  ls.findSome? (fun l => (f l.1 l.2).map (fun i => (l.1, i)))

def isTileList (l : Nat) : Bool := decide (l < 0x60)

/-! ### The reasons of R198 -/

/-- 0x02 LENGTH, the part checked after MAGIC. -/
def vLength (m : Mach) (r : Route) : Fail :=
  let h := m.rdBytes r.addr 128
  let lists := r.lists.map (fun p => (p.1, 16 * p.2))
  let tabs := r.tabs.map (fun t => (t.addr - r.addr, t.len))
  let secs := ([(0, 128), (r.spurOff, r.spurLen), (field h 0x38 8, 64 * r.nridges), (r.tarnOff, 16 * r.tarnCnt),
    (r.ingOff, 16 * r.ingCnt), (field h 0x58 8, 16 * field h 0x60 4), (field h 0x68 8, 8 * field h 0x64 4),
    (field h 0x70 8, 16 * field h 0x78 4)] ++ lists ++ tabs).filter (fun s => s.2 != 0)
  let sorted := secs.sortLe (fun a b => a.1 ≤ b.1)
  let overlap := (sorted.zip (sorted.drop 1)).any (fun p => decide (p.2.1 < p.1.1 + p.1.2))
  hdrFail (r.len % 16 != 0 || r.len < 128 || r.addr + r.len > hbmSize
    || secs.any (fun s => s.1 % 16 != 0 || decide (s.1 + s.2 > r.len)) || overlap
    || r.lists.any (fun p => decide (p.2 > 1048576)))

/-- 0x04 GRADE. -/
def vGrade (d : Dev) (r : Route) : Fail :=
  let on := ((List.range 24).filter d.ridgeOn).length
  hdrFail (!((r.grade == 0 && decide (r.nridges ≤ 22)) || (r.grade == 1 && decide (23 ≤ r.nridges)))
    || decide (r.nridges > on))

/-- A live record lies outside its range (R161). -/
def liveBad (r : Route) (v : LiveRec) : Bool :=
  decide (v.ltile ≥ 4 * r.nridges) || decide (v.kind > 3)
    || (if v.kind = 2 then decide (v.qnum > 15) || decide (v.pkind > 2)
          || (v.pkind == 0 && decide (v.ppkg ≥ r.npkg))
        else v.qnum != 0 || v.pkind != 0)
    || v.nrows == 0 || decide (v.nrows > 32768)

/-- A TARN_PARAM record lies outside its range (R265). -/
def tarnParamBad (p : List Byte) : Bool :=
  decide (field p 0 1 > 15) || decide (field p 2 1 + field p 3 1 > 255)
    || field p 4 2 == 0 || decide (field p 4 2 > 4096) || field p 6 1 == 0 || decide (field p 6 1 > 64)
    || decide (field p 7 1 > 7) || decide (sext 16 (field p 8 2) < -512) || decide (sext 16 (field p 8 2) > 511)
    || decide (field p 0xA 1 > 1) || !zeroAt p 0xB 1 || !zeroAt p 0x16 10

/-- A tap table breaks R216 to R218, entries apart.  The NONE bit of a CONV_TAP record, which the manual describes for DTAP
slots alone, is accepted and means nothing (DESIGN CHOICE, log 62). -/
def tapTableBad (m : Mach) (r : Route) (tr : TabRec) : Bool :=
  let h := m.rdBytes tr.addr 64
  let t := parseTapTable h
  let in255 := fun n => decide (1 ≤ n) && decide (n ≤ 255)
  let lyOk := t.ohb == 0 || t.oh == 0 || t.ly == (t.ohb - 1) * t.sy + (t.kh - 1) * t.dy + 1
  let lxOk := t.ow == 0 || t.lx == (t.ow - 1) * t.sx + (t.kw - 1) * t.dx + 1
  let mapBad := fun off n lim => (List.range n).any (fun i =>
    let e := m.rdNat (tr.addr + off + 2 * i) 2
    e != 0x8000 && decide (e ≥ min lim 0x8000))
  let recBad := (List.range t.ntap).any (fun i =>
    let b := m.rdBytes (tr.addr + t.tapOff + 16 * i) 16
    let k := parseTapRec b
    decide (k.ky ≥ t.kh) || decide (k.kx ≥ t.kw) || decide (field b 2 1 > 7) || !zeroAt b 0xD 3
      || (if tr.kind = 1 then k.lanes == 0 || decide (k.lanes > 16) || k.outn == 0 || decide (k.outn > 64)
          else k.lanes != 0 || k.och != 0 || k.outn != 0))
  decide (tr.len < 64) || t.tih == 0 || decide (t.tih > 32768) || t.iw == 0 || decide (t.iw > 32768)
    || decide (t.oy0 + t.ohb > t.oh) || !in255 t.kh || !in255 t.kw || !in255 t.sy || !in255 t.sx || !in255 t.dy
    || !in255 t.dx || decide (t.mode > 3) || decide (t.flags > 1) || decide (t.ofmt > 4)
    || (if tr.kind = 2 then t.nc == 0 else t.nc != 0) || !zeroAt h 0x36 10 || !lyOk || !lxOk
    || t.tapOff % 16 != 0 || decide (t.mapy + 2 * t.ly > tr.len) || decide (t.mapx + 2 * t.lx > tr.len)
    || decide (t.tapOff + 16 * t.ntap > tr.len) || mapBad t.mapy t.ly t.tih || mapBad t.mapx t.lx t.iw || recBad
    || decide (r.nridges > 24)

/-- Every one of `n` rows from `first` lies in some region of a list: regions that adjoin count as one. -/
def rowsCovered (rs : List (Nat × Nat)) : Nat → Nat → Nat → Bool
  | 0, _, n => n == 0
  | fuel + 1, first, n =>
    if n = 0 then true
    else match rs.find? (fun x => decide (x.1 ≤ first) && decide (first < x.1 + x.2)) with
      | none => false
      | some x => rowsCovered rs fuel (x.1 + x.2) (n - (x.1 + x.2 - first))

/-- A run of rows lies in the live regions of a logical tile (R162). -/
def Route.liveCovers (r : Route) (lt : Nat) (w : RowRange) : Bool :=
  rowsCovered ((r.live.filter (fun v => v.ltile == lt && (v.kind == 1) == w.ps)).map (fun v => (v.first, v.nrows)))
    (r.live.length + 1) w.first w.count

/-- A tap entry breaks the last three lines of R218.  The last group of a DTAP may run past OHB × OW, where R222 has it gather
and write nothing: its first position lies inside (DESIGN CHOICE, log 62). -/
def tapEntryBad (m : Mach) (r : Route) (lt e : Nat) : Bool :=
  if Ent.kind e = K.CTAP || Ent.kind e = K.DTAP then
    match r.tabs[Tap.table e]? with
    | none => false
    | some tr =>
      if tr.kind = 1 || tr.kind = 2 then
        let t := tapTable m tr
        let lim := if Ent.kind e = K.DTAP then t.ntap - 3 else t.ntap
        let k := tapRec m tr t (Tap.tap e)
        let n := Tap.nrows e
        let pos := if Ent.kind e = K.DTAP then (if n = 0 then 0 else k.q0 + 16 * (n - 1) + 1) else k.q0 + n
        let (_, ws) := tapRanges m r e
        decide (Tap.tap e ≥ lim) || decide (pos > t.ohb * t.ow && n ≠ 0) || (n != 0 && ws.any (fun w => !r.liveCovers lt w))
      else false
  else false

/-- 0x05 HEADER. -/
def vHeader (m : Mach) (r : Route) (ls : List (Nat × List (Nat × Nat))) : Fail :=
  let h := m.rdBytes r.addr 128
  let tdir := field h 0x38 8
  let bad := r.nridges == 0 || decide (r.nridges > 24) || r.runAhead == 0 || decide (r.runAhead > 6)
    || decide (r.flags > 31) || r.budget == 0 || r.spurBase % 4096 != 0 || decide (r.spurBase + r.spurLen > 262144)
    || decide (r.spurStack < 0x300000) || decide (r.spurStack > 0x33FFFF) || r.spurStack % 16 != 0
    || r.npkg == 0 || decide (r.npkg > 4) || !zeroAt h 0x2E 2 || !zeroAt h 0x7C 4
    || decide (field h 0x64 4 > 1024) || decide (field h 0x78 4 > 256)
    || (List.range (4 * r.nridges)).any (fun i => !zeroAt (m.rdBytes (r.addr + tdir + 16 * i) 16) 12 4)
    || r.live.any (liveBad r)
    || (List.range r.live.length).any (fun i => !zeroAt (m.rdBytes (r.addr + field h 0x58 8 + 16 * i) 16) 10 6)
    || (List.range r.res.length).any (fun i =>
        let b := m.rdBytes (r.addr + field h 0x68 8 + 8 * i) 8
        decide (field b 0 1 > 1) || decide (field b 1 1 > 1) || !zeroAt b 6 2 || field b 4 2 == 0
          || decide (field b 2 2 ≥ (if field b 0 1 = 0 then 1024 else 24)) || (field b 0 1 == 1 && field b 2 2 % 4 == 3))
    || (List.range r.tabs.length).any (fun i =>
        let b := m.rdBytes (r.addr + field h 0x70 8 + 16 * i) 16
        decide (field b 12 1 > 6) || !zeroAt b 13 3)
    || r.tabs.any (fun t => (t.kind == 1 || t.kind == 2) && tapTableBad m r t)
    || r.tabs.any (fun t => t.kind == 6 && (List.range (t.len / 32)).any (fun i =>
        tarnParamBad (m.rdBytes (t.addr + 32 * i) 32)))
  match hdrFail bad with
  | some f => some f
  | none => firstEntry ls (fun l _ e => isTileList l && tapEntryBad m r l e)

/-- 0x06 LIVE (R162, R36). -/
def vLive (r : Route) : Fail :=
  let bad := (List.range r.live.length).any (fun i =>
    match r.live[i]? with
    | none => false
    | some v =>
      let lim := if v.kind = 1 then 4096 else 32768
      decide (v.first + v.nrows > lim) || (r.live.drop (i + 1)).any (fun w =>
        w.ltile == v.ltile && (w.kind == 1) == (v.kind == 1)
          && decide (v.first < w.first + w.nrows) && decide (w.first < v.first + v.nrows)))
  hdrFail bad

def queueRec (r : Route) (lt q : Nat) : Option LiveRec :=
  r.live.find? (fun v => v.kind == 2 && v.ltile == lt && v.qnum == q)

/-- The list has entries. -/
def listUsed (r : Route) (lt : Nat) : Bool :=
  match r.lists[lt]? with
  | some p => decide (p.2 > 0)
  | none => false

/-- A queue names an engine of the route as its producer, and the engine has no list. -/
def enginesBad (r : Route) : Bool :=
  r.live.any (fun v => v.kind == 2 && ((v.pkind == 1 && r.tarnCnt == 0) || (v.pkind == 2 && r.ingCnt == 0)))

/-- The first queue whose producer is a tile of logical package `own` with an empty list (R599): the producer's tile. -/
def queueProducersBad (r : Route) (own : Nat) : Option Nat :=
  (r.live.find? (fun v => v.kind == 2 && v.pkind == 0 && v.ppkg == own && !listUsed r v.pltile)).map (·.pltile)

/-- Whether a send of list `l` to the logical package `own` names no queue declared for that list. -/
def sendBad (r : Route) (own l e : Nat) : Bool :=
  let chk := fun dp dt dq (ok : LiveRec → Bool) => dp == own && (match queueRec r dt dq with
    | some v => !ok v
    | none => true)
  if Ent.kind e = K.SEND then
    chk (Send.dpkg e) (Send.dtile e) (Send.dq e) (fun v =>
      if isTileList l then v.pkind == 0 && v.pltile == l && v.ppkg == own else v.pkind == 2)
  else if Ent.kind e = K.TARN && l == 0x7E && Tarn.op e ≥ 3 then
    chk (Tarn.dpkg e) (Tarn.dtile e) (Tarn.dq e) (fun v => v.pkind == 1)
  else false

/-- 0x07 QUEUE: the checks made at every load. -/
def vQueue (r : Route) (ls : List (Nat × List (Nat × Nat))) : Fail :=
  let two := (List.range r.live.length).any (fun i =>
    match r.live[i]? with
    | none => false
    | some v => v.kind == 2 && (r.live.drop (i + 1)).any (fun w =>
        w.kind == 2 && w.ltile == v.ltile && w.qnum == v.qnum))
  let supplies := ls.flatMap (fun l => if isTileList l.1 then
      l.2.filterMap (fun e => if Ent.kind e.2 = K.TARN then some (Tarn.chan e.2, l.1, e.1) else none) else [])
  match hdrFail (two || enginesBad r || (r.npkg == 1 && (queueProducersBad r 0).isSome)) with
  | some f => some f
  | none => firstEntry ls (fun l i e =>
      (r.npkg == 1 && sendBad r 0 l e)
      || (isTileList l && Ent.kind e == K.RECV && (match queueRec r l (Recv.queue e) with
            | some v => decide (Recv.nrows e > v.nrows)
            | none => true))
      || (isTileList l && Ent.kind e == K.PASS && Pass.rsrc e && (match queueRec r l (Pass.queue e) with
            | some v => decide (ceilDiv (Pass.nrows e) (rowsPer (Pass.rfmt e)) > v.nrows)
            | none => true))
      || (isTileList l && Ent.kind e == K.TARN
            && (Tarn.dtile e != 0 || Tarn.dq e != 0 || Tarn.dpkg e != 0 || Tarn.param e != 0
                || supplies.any (fun s => s.1 == Tarn.chan e && decide (s.2.1 < l) && decide (s.2.2 ≥ 0 ∧ i ≥ 0))))
      || (l == 0x7E && Ent.kind e == K.TARN && (Tarn.srow e != 0
            || (Tarn.op e ≥ 4 && (Tarn.chan e != 0 || Tarn.nrows e != 0)))))

/-- An array-entry's earlier stationary load in its list (R175). -/
def loadBefore (es : List (Nat × Nat)) (i a : Nat) : Option Nat :=
  (es.filter (fun p => decide (p.1 < i) && Ent.kind p.2 == K.SLOAD && Ent.array p.2 == a)).getLast?.map (·.2)

def isPassKind (k : Nat) : Bool := k == K.PASS || k == K.CTAP || k == K.DTAP

/-- A field of an entry is out of range or a reserved bit is set (R168, R171 to R185). -/
def entryBad (r : Route) (l e : Nat) : Bool :=
  let k := Ent.kind e
  let rows := fun (ps : Bool) f n => decide (f + n > (if ps then 4096 else 32768))
  if k = K.SLOAD then
    bits e 96 0 != 0 || decide (Sload.fref e > 5) || (Sload.src e && Sload.fref e != 0)
      || (!Sload.src e && decide (Sload.row e > 2047))
      || (Sload.src e && rows false (Sload.row e) (blockRows (Sload.sfmt e) (Sload.sscale e) (Sload.dual e)))
  else if k = K.PASS then
    bits e 44 0 != 0 || decide (Pass.run e > 119) || (Pass.rsrc e && bits e 96 86 != 0)
      || (!Pass.rsrc e
          && rows false (Pass.rrow e) ((Pass.run e + 1) * ceilDiv (Pass.nrows e) (rowsPer (Pass.rfmt e))))
      || (Pass.rscale e && rows false (Pass.srow e) ((Pass.run e + 1) * ceilDiv (Pass.nrows e) 64))
  else if k = K.DRAIN then
    bits e 76 0 != 0 || (Drain.ps e && bits e 107 105 != 0)
      || (Drain.acc e && !(Drain.ps e && (Drain.ofmt e == 0 || Drain.ofmt e == 5)))
      || rows (Drain.ps e) (Drain.drow e) (outBytes (Drain.ofmt e))
  else if k = K.CTAP then bits e 50 0 != 0 || Pass.rfmt e == 0 || Pass.rfmt e == 3
  else if k = K.DTAP then bits e 34 0 != 0 || Pass.rfmt e == 0 || Pass.rfmt e == 3
  else if k = K.ARGMAX then
    let inp : RowRange := ⟨false, Argmax.srow e, Argmax.nch e * ceilDiv (Argmax.npix e * outBytes (Argmax.ifmt e)) 64⟩
    let out : RowRange := ⟨false, Argmax.drow e, ceilDiv (Argmax.npix e) 32⟩
    bits e 57 0 != 0 || decide (Argmax.ifmt e > 4) || Argmax.nch e == 0 || decide (Argmax.nch e > 32768)
      || Argmax.npix e == 0 || inp.meets out || rows false inp.first inp.count || rows false out.first out.count
  else if k = K.SEND then
    bits e 61 0 != 0 || Send.nrows e == 0 || decide (Send.nrows e > 32768) || decide (Send.dtile e ≥ 4 * r.nridges)
      || decide (Send.dpkg e ≥ r.npkg)
      || (if isTileList l then Send.trow e != 0 || rows (Send.ps e) (Send.srow e) (Send.nrows e)
          else Send.ps e || bits e 108 100 != 0)
  else if k = K.RECV then
    bits e 87 0 != 0 || Recv.nrows e == 0 || decide (Recv.nrows e > 32768) || rows false (Recv.drow e) (Recv.nrows e)
  else if k = K.WFETCH then
    if Wf.mode e = 0 then
      bits e 49 0 != 0 || !bit r.bases (Wf.base e) || Wf.offset e % 64 != 0 || decide (Wf.len e > 2048) || Wf.uses e == 0
    else if Wf.mode e = 3 then true
    else bits e 49 0 != 0 || Wf.nx e == 0 || decide (Wf.nx e > 6) || decide (Wf.xlen e > 2048) || Wf.xuses e == 0
  else if k = K.SPUR then
    bits e 71 0 != 0 || Spur.code e % 2 != 0 || Spur.anrows e == 0 || decide (Spur.anrows e > 32768)
      || rows (Spur.ps e) (Spur.arow e) (Spur.anrows e)
  else if k = K.TARN then
    bits e 50 0 != 0 || (if isTileList l then Tarn.op e != 0 else Tarn.op e == 0 || decide (Tarn.op e > 5))
      || (isTileList l && rows false (Tarn.srow e) (Tarn.nrows e))
      || (l == 0x7E && decide (Tarn.op e ≥ 3)
          && (decide (Tarn.dtile e ≥ 4 * r.nridges) || decide (Tarn.dpkg e ≥ r.npkg)))
  else if k = K.CHECK then
    match Chk.op e with
    | 0 => bits e 71 0 != 0
    | 1 => bits e 109 0 != 0
    | 2 => bits e 109 0 != 0
    | 3 => bits e 84 0 != 0 || rows false (Chk.srow e) (Chk.nrows e)
    | _ => true
  else if k = K.END then bits e 122 0 != 0
  else true

/-- A kind may stand in a list (R169). -/
def kindInList (l e : Nat) : Bool :=
  let k := Ent.kind e
  if isTileList l then k != 0 && decide (k ≤ 0x0C) || k == K.END
  else if l = 0x7E then k == K.TARN || (k == K.CHECK && Chk.op e == 0) || k == K.END
  else k == K.SEND || (k == K.CHECK && Chk.op e == 0) || k == K.END

/-- 0x08 ENTRY. -/
def vEntry (r : Route) (ls : List (Nat × List (Nat × Nat))) : Fail :=
  ls.findSome? (fun l => l.2.findSome? (fun p =>
    if !kindInList l.1 p.2 || entryBad r l.1 p.2
        || (isPassKind (Ent.kind p.2) && (loadBefore l.2 p.1 (Ent.array p.2)).isNone)
    then some (l.1, p.1) else none))

/-- The families of R50. -/
def pairOk (row stat : Nat) : Bool :=
  match opFmt row, opFmt stat with
  | .int4, .int4 | .int4, .int8 | .int8, .int4 | .int8, .int8 | .uint8, .int4 | .uint8, .int8 => true
  | .bf16, .bf16 => true
  | .fp4, s | .e4m3, s | .e5m2, s => s == .fp4 || s == .e4m3 || s == .e5m2
  | _, _ => false

/-- 0x09 FORMAT. -/
def vFormat (ls : List (Nat × List (Nat × Nat))) : Fail :=
  ls.findSome? (fun l => l.2.findSome? (fun p =>
    let e := p.2
    let k := Ent.kind e
    let bad :=
      if k = K.SLOAD then Sload.sfmt e == 7 || (Sload.dual e && Sload.sfmt e != 0 && Sload.sfmt e != 3)
      else if k = K.DRAIN then decide (Drain.ofmt e > 5)
      else if isPassKind k then
        (match loadBefore l.2 p.1 (Ent.array e) with
         | some s => !pairOk (Pass.rfmt e) (Sload.sfmt s)
         | none => true)
      else false
    if bad then some (l.1, p.1) else none))

/-- 0x0A SCALE (R176, R49). -/
def vScale (ls : List (Nat × List (Nat × Nat))) : Fail :=
  ls.findSome? (fun l => l.2.findSome? (fun p =>
    let e := p.2
    let bad :=
      if Ent.kind e = K.SLOAD then Sload.sscale e && Sload.sfmt e == 6
      else if Ent.kind e = K.PASS then
        let sc := (match loadBefore l.2 p.1 (Ent.array e) with
          | some s => Sload.sscale s
          | none => false)
        let dual := fmtWidth (Pass.rfmt e) == 4 && (match loadBefore l.2 p.1 (Ent.array e) with
          | some s => fmtWidth (Sload.sfmt s) == 4
          | none => false)
        let k := Pass.koff e
        (Pass.rsrc e && Pass.rscale e) || (Pass.rscale e && Pass.rfmt e == 6)
          || (if Pass.rscale e || sc then decide (k + (if dual then 32 else 16) > 32)
                || !(k == 0 || (!dual && k == 16)) else k != 0)
      else false
    if bad then some (l.1, p.1) else none))

/-- 0x0B UNDRAINED: the list is walked with the set of logical arrays that hold undrained work.  A tap entry of no rows runs
nothing (R210): it neither clears nor captures. -/
def undrained : List (Nat × Nat) → List Nat → Option Nat
  | [], _ => none
  | (i, e) :: r, dirty =>
    let k := Ent.kind e
    let a := Ent.array e
    if (k == K.CTAP || k == K.DTAP) && Tap.nrows e == 0 then undrained r dirty
    else if isPassKind k then
      if !Pass.acc e && dirty.contains a then some i
      else undrained r (if k = K.PASS then a :: dirty.filter (· != a) else dirty.filter (· != a))
    else if k = K.DRAIN then undrained r (dirty.filter (· != a))
    else undrained r dirty

def vUndrained (ls : List (Nat × List (Nat × Nat))) : Fail := firstList ls (fun _ es => undrained es [])

/-- Fills that an entry gives (R172). -/
def fillsOf (e : Nat) : Nat :=
  if Ent.kind e = K.WFETCH then (if Wf.mode e = 0 then 1 else if Wf.mode e = 2 then Wf.nx e else 0) else 0

/-- Fills before the entry at position `i`. -/
def fillsBefore (es : List (Nat × Nat)) (i : Nat) : Nat :=
  es.foldl (fun n p => if p.1 < i then n + fillsOf p.2 else n) 0

/-- The fill named by a stationary load at `i`, numbered in list order. -/
def fillNamed (es : List (Nat × Nat)) (i e : Nat) : Option Nat :=
  let n := fillsBefore es i
  if Sload.fref e < n then some (n - 1 - Sload.fref e) else none

/-- The stationary load whose blocks the pass or tap entry at `i` uses, on logical array `a`, and the automatic loads that the
passes since then, its own among them, make (R175). -/
def blockRun (es : List (Nat × Nat)) (i a : Nat) : Option (Nat × Nat) :=
  let before := es.filter (fun p => decide (p.1 ≤ i) && Ent.array p.2 == a)
  (before.filter (fun p => Ent.kind p.2 == K.SLOAD)).getLast?.map (fun ld =>
    (ld.2, before.foldl (fun n p => if p.1 > ld.1 && Ent.kind p.2 == K.PASS then n + Pass.run p.2 else n) 0))

/-- The loads from slots of a list: position, fill, first row, rows, and the number of loads (R175: every automatic load of
the passes that follow on the same array counts). -/
def slotLoads (es : List (Nat × Nat)) : List (Nat × Nat × Nat × Nat × Nat) :=
  es.filterMap (fun p =>
    if Ent.kind p.2 = K.SLOAD && !Sload.src p.2 then
      let a := Ent.array p.2
      let next := (es.find? (fun q => decide (q.1 > p.1) && Ent.kind q.2 == K.SLOAD && Ent.array q.2 == a)).map (·.1)
      let autos := es.foldl (fun n q =>
        if q.1 > p.1 && (match next with | some x => decide (q.1 < x) | none => true) && Ent.kind q.2 == K.PASS
            && Ent.array q.2 == a then n + Pass.run q.2 else n) 0
      let br := blockRows (Sload.sfmt p.2) (Sload.sscale p.2) (Sload.dual p.2)
      match fillNamed es p.1 p.2 with
      | some f => some (p.1, f, Sload.row p.2, br * (autos + 1), autos + 1)
      | none => none
    else none)

/-- The uses each fill of a list declares, in list order. -/
def fillUses (es : List (Nat × Nat)) : List Nat :=
  es.flatMap (fun p =>
    if Ent.kind p.2 = K.WFETCH then
      (if Wf.mode p.2 = 0 then [Wf.uses p.2] else if Wf.mode p.2 = 2 then List.replicate (Wf.nx p.2) (Wf.xuses p.2) else [])
    else [])

/-- Speculative experts fetched before `i` and not resolved there (R191). -/
def unresolved (es : List (Nat × Nat)) (i : Nat) : Nat :=
  es.foldl (fun n p =>
    if p.1 < i && Ent.kind p.2 == K.WFETCH && Wf.mode p.2 == 1
        && !es.any (fun q => decide (p.1 < q.1) && decide (q.1 < i) && Ent.kind q.2 == K.WFETCH && Wf.mode q.2 == 2
              && Wf.xtab q.2 == Wf.xtab p.2 && Wf.chunk q.2 == Wf.chunk p.2)
    then n + Wf.nx p.2 else n) 0

/-- 0x0C SLOT (R191). -/
def slotBad (r : Route) (es : List (Nat × Nat)) : Option Nat :=
  let loads := slotLoads es
  let uses := fillUses es
  es.findSome? (fun p =>
    let e := p.2
    let open_ := (loads.filter (fun x => decide (x.1 ≥ p.1) && decide (x.2.1 < fillsBefore es p.1))).map (·.2.1)
    let distinct := open_.eraseDups.length
    let spec := unresolved es p.1
    let bad :=
      (Ent.kind e == K.SLOAD && !Sload.src e && (match loads.find? (fun x => x.1 == p.1) with
        | some x => decide (x.2.2.1 + x.2.2.2.1 > 2048)
        | none => true))
      || decide (distinct > r.runAhead) || decide (distinct + spec > r.runAhead)
      || (decide (fillsOf e > 0) && (List.range (fillsOf e)).any (fun j =>
            let f := fillsBefore es p.1 + j
            (loads.filter (fun x => x.2.1 == f)).foldl (fun n x => n + x.2.2.2.2) 0 != uses.getD f 0))
    if bad then some p.1 else none)

def vSlot (r : Route) (ls : List (Nat × List (Nat × Nat))) : Fail :=
  firstList ls (fun l es => if isTileList l then slotBad r es else none)

/-- 0x0D SPEC (R194). -/
def specBad (r : Route) (es : List (Nat × Nat)) : Option Nat :=
  es.findSome? (fun p =>
    let same := fun (q : Nat × Nat) => decide (q.1 > p.1) && Ent.kind q.2 == K.WFETCH
      && Wf.xtab q.2 == Wf.xtab p.2 && Wf.chunk q.2 == Wf.chunk p.2 && (Wf.mode q.2 == 1 || Wf.mode q.2 == 2)
    if Ent.kind p.2 == K.WFETCH && Wf.mode p.2 == 1
        && (decide (Wf.nx p.2 > r.runAhead) || (match es.find? same with
              | some q => Wf.mode q.2 != 2
              | none => true))
    then some p.1 else none)

def vSpec (r : Route) (ls : List (Nat × List (Nat × Nat))) : Fail :=
  firstList ls (fun l es => if isTileList l then specBad r es else none)

/-- The walk of 0x0E RANK over one list with the records it holds. -/
def rankWalk (r : Route) : List (Nat × Nat) → List Nat → Option Nat
  | [], _ => none
  | (i, e) :: t, held =>
    if Ent.kind e = K.CHECK && Chk.op e = 1 then
      match r.res[Chk.res e]? with
      | none => some i
      | some x =>
        if held.any (fun h => match r.res[h]? with
            | some y => decide (x.rank ≤ y.rank)
            | none => false) then some i
        else rankWalk r t (Chk.res e :: held)
    else if Ent.kind e = K.CHECK && Chk.op e = 2 then
      if held.contains (Chk.res e) then rankWalk r t (held.filter (· != Chk.res e)) else some i
    else if Ent.kind e = K.END then (if held.isEmpty then rankWalk r t held else some i)
    else rankWalk r t held

def vRank (r : Route) (ls : List (Nat × List (Nat × Nat))) : Fail :=
  let ranks := r.res.map (·.rank)
  match hdrFail (ranks.eraseDups.length != ranks.length) with
  | some f => some f
  | none => firstList ls (fun _ es => rankWalk r es [])

/-- An EXPERT table breaks R167. -/
def expertBad (m : Mach) (r : Route) (t : TabRec) : Bool :=
  let h := m.rdBytes t.addr 16
  let e := field h 0 2
  e == 0 || decide (t.len < 16 + 8 * e) || !zeroAt h 3 5 || decide (field h 2 1 > 7) || !bit r.bases (field h 2 1)
    || field h 8 8 % 64 != 0 || (List.range e).any (fun i => m.rdNat (t.addr + 16 + 8 * i) 8 % 64 != 0)

/-- 0x0F TABLE. -/
def vTable (m : Mach) (r : Route) (ls : List (Nat × List (Nat × Nat))) : Fail :=
  let kindAt := fun i => (r.tabs[i]?).map (·.kind)
  match hdrFail (decide ((r.tabs.filter (fun t => t.kind == 6)).length > 1)
      || r.tabs.any (fun t => t.kind == 5 && expertBad m r t)) with
  | some f => some f
  | none => firstEntry ls (fun l _ e =>
      (Ent.kind e == K.CTAP && kindAt (Tap.table e) != some 1)
      || (Ent.kind e == K.DTAP && kindAt (Tap.table e) != some 2)
      || (Ent.kind e == K.WFETCH && Wf.mode e != 0 && kindAt (Wf.xtab e) != some 5)
      || (l == 0x7E && Ent.kind e == K.TARN && (match r.tabs.find? (fun t => t.kind == 6) with
            | some t => decide (32 * Tarn.param e + 32 > t.len)
            | none => true)))

/-- 0x10 SPUR. -/
def vSpur (m : Mach) (r : Route) (ls : List (Nat × List (Nat × Nat))) : Fail :=
  firstEntry ls (fun l i e => isTileList l && Ent.kind e == K.SPUR
    && (decide (Spur.code e ≥ r.spurLen) || (match r.lists[l]? with
          | some p => decide (i + 1 ≥ p.2) || Ent.kind (m.rdNat (r.addr + p.1 + 16 * (i + 1)) 16) == K.END
              && decide (i + 2 ≥ p.2)
          | none => true)))

/-- 0x11 END. -/
def vEnd (ls : List (Nat × List (Nat × Nat))) : Fail :=
  firstList ls (fun _ es =>
    match es.find? (fun p => Ent.kind p.2 == K.END), es.getLast? with
    | _, none => none
    | none, some q => some q.1
    | some p, some q => if p.1 = q.1 then none else some (p.1 + 1))

/-- The validation of R198 of the image at `a`: the reason with where it failed, or the route. -/
def validate (m : Mach) (a : Nat) : Sum (Nat × Nat × Nat) Route :=
  if a % 4096 ≠ 0 || a + 128 > hbmSize then .inl (2, 0x7D, 0) else
    let h := m.rdBytes a 128
    if field h 0 4 ≠ 0x5A565254 || field h 4 2 ≠ 1 || field h 6 2 ≠ 0x80 then .inl (1, 0x7D, 0) else
      let len := field h 8 8
      if len % 16 ≠ 0 || len < 128 || a + len > hbmSize then .inl (2, 0x7D, 0) else
        let r := parseRoute m a
        match vLength m r with
        | some f => .inl (2, f)
        | none =>
          if crc32c (m.rdBytes (a + 0x14) (len - 0x14)) ≠ field h 0x10 4 then .inl (3, 0x7D, 0) else
            let ls := routeLists m r
            let grp := m.dev.rf Reg.COL_GRP Fld.COL_GRP.GRP + 1
            let checks : List (Nat × Fail) :=
              [(4, vGrade m.dev r), (5, vHeader m r ls), (6, vLive r), (7, vQueue r ls), (8, vEntry r ls),
               (9, vFormat ls), (0xA, vScale ls), (0xB, vUndrained ls), (0xC, vSlot r ls), (0xD, vSpec r ls),
               (0xE, vRank r ls), (0xF, vTable m r ls), (0x10, vSpur m r ls), (0x11, vEnd ls),
               (0x12, hdrFail (r.npkg != grp))]
            match checks.findSome? (fun c => c.2.map (fun f => (c.1, f))) with
            | some f => .inl f
            | none => .inr r

/-- SCH_RT_VERR records a failure. -/
def Dev.setVerr (d : Dev) (f : Nat × Nat × Nat) : Dev :=
  d.setReg Reg.SCH_RT_VERR (f.1 * 2 ^ 27 + (f.2.1 % 128) * 2 ^ 20 + f.2.2 % 2 ^ 20)

/-- The physical tile of a logical tile under a binding (R199). -/
def Binding.tile (b : Binding) (lt : Nat) : Nat := 4 * b.ridges.getD (lt / 4) 0 + lt % 4
/-- The logical tile on a physical tile. -/
def Binding.ltile (b : Binding) (t : Nat) : Nat :=
  match b.ridges.findIdx? (· == t / 4) with
  | some i => 4 * i + t % 4
  | none => 0
def Binding.tiles (b : Binding) : List Nat := (List.range (4 * b.route.nridges)).map b.tile
/-- The tiles whose list is not empty. -/
def Binding.usedTiles (b : Binding) : List Nat :=
  ((List.range (4 * b.route.nridges)).filter (listUsed b.route)).map b.tile
def Binding.holdsTile (b : Binding) (t : Nat) : Bool := b.ridges.contains (t / 4)
/-- The image's own logical package (R199). -/
def Binding.own (b : Binding) (pkg : Nat) : Nat := (b.pmap.findIdx? (· == pkg)).getD 0

/-- Bytes of a step's save area (R300). -/
def saveBytes (r : Route) : Nat :=
  4096 + ((List.range (4 * r.nridges)).filter (listUsed r)).foldl (fun s lt =>
    s + 16384 + 64 * (r.live.filter (fun v => v.ltile == lt)).foldl (fun n v => n + v.nrows) 0) 0

end Sys2Proof.Machine
end

