-- ==== Sys2Proof/Machine/IngestCore.lean ====
section
/-!
DEFINITION. The ingest engine's shared operations (R416 to R444): the stream entry, conversion to tensors, live
buffers, binding and pins, header rows, replay batches and the scree log.
-/
namespace Sys2Proof.Machine

/-! ### The stream entry (R417) -/

def Se.kind (e : List Byte) : Nat := field e 0 1
def Se.fmt (e : List Byte) : Nat := field e 1 1
def Se.port (e : List Byte) : Nat := field e 2 1
def Se.vc (e : List Byte) : Nat := field e 3 1
def Se.src (e : List Byte) : Nat := field e 4 2
def Se.cfa (e : List Byte) : Nat := field e 6 1
def Se.mode (e : List Byte) : Nat := field e 7 1
def Se.w (e : List Byte) : Nat := field e 8 2
def Se.h (e : List Byte) : Nat := field e 0xA 2
def Se.rp (e : List Byte) : Nat := field e 0xC 2
def Se.pp (e : List Byte) : Nat := field e 0xE 2
def Se.stale (e : List Byte) : Nat := field e 0x10 4
def Se.nbuf (e : List Byte) : Nat := field e 0x14 1
def Se.ofmt (e : List Byte) : Nat := field e 0x15 1
def Se.batch (e : List Byte) : Nat := field e 0x16 2
def Se.bufBase (e : List Byte) : Nat := field e 0x18 8
def Se.norm (e : List Byte) : Nat := field e 0x20 8
def Se.aug (e : List Byte) : Nat := field e 0x28 8
def Se.list (e : List Byte) : Nat := field e 0x30 8
def Se.listLen (e : List Byte) : Nat := field e 0x38 4
def Se.nauge (e : List Byte) : Nat := field e 0x3C 2
def Se.region (e : List Byte) : Nat := field e 0x3E 1
def Se.index (e : List Byte) : Nat := field e 0x40 8
def Se.indexLen (e : List Byte) : Nat := field e 0x48 4
def Se.maxW (e : List Byte) : Nat := field e 0x4C 2
def Se.maxH (e : List Byte) : Nat := field e 0x4E 2
def Se.maxBytes (e : List Byte) : Nat := field e 0x50 4
def Se.ordered (e : List Byte) : Bool := bit (Se.mode e) 0
def Se.waitNew (e : List Byte) : Bool := bit (Se.mode e) 1
def Se.raw (e : List Byte) : Bool := decide (Se.fmt e < 4)
/-- Bytes of an output element. -/
def Se.b (e : List Byte) : Nat := if Se.ofmt e = 6 then 2 else 1

/-- Planes per sample (R425); a JPEG stream has those of its NORM table. -/
def Mach.nplane (m : Mach) (e : List Byte) : Nat :=
  match Se.fmt e with
  | 0 => 4
  | 1 => 4
  | 2 => 4
  | 3 => 4
  | 4 => 3
  | 5 => 3
  | 6 => 1
  | _ => m.rdNat (Se.norm e) 1

/-- Wp and Hp of R425. -/
def Se.planeW (e : List Byte) : Nat := if Se.raw e then Se.w e / 2 else Se.w e
def Se.planeH (e : List Byte) : Nat := if Se.raw e then Se.h e / 2 else Se.h e

/-- Manifest rows and tensor rows (R418). -/
def Se.manifest (e : List Byte) : Nat := ceilDiv (Se.batch e) 4
def Se.tr (e : List Byte) (np : Nat) : Nat :=
  if Se.kind e = 2 then 1 + Se.manifest e + Se.batch e * np * Se.pp e else 1 + np * Se.pp e
def Se.bufSize (e : List Byte) (np : Nat) : Nat := ceilDiv (Se.tr e np * 64) 4096 * 4096
def Mach.bufAddr (m : Mach) (e : List Byte) (i : Nat) : Nat := Se.bufBase e + i * Se.bufSize e (m.nplane e)

def Dev.stream (d : Dev) (n : Nat) : Option StreamSt := AMap.find d.streams n
def Dev.setStream (d : Dev) (n : Nat) (s : StreamSt) : Dev := { d with streams := AMap.set d.streams n s }
def Dev.modStream (d : Dev) (n : Nat) (f : StreamSt → StreamSt) : Dev :=
  match d.stream n with
  | some s => d.setStream n (f s)
  | none => d
def StreamSt.modBuf (s : StreamSt) (i : Nat) (f : BufSt → BufSt) : StreamSt := { s with bufs := modAt s.bufs i f }
def StreamSt.buf (s : StreamSt) (i : Nat) : BufSt := s.bufs.getD i {}
/-- A stream that takes input and binds: open, and no close has been accepted (R420). -/
def StreamSt.live (s : StreamSt) : Bool := !s.closing

def ingCount (n k : Nat) : Nat := Reg.ING_Sn_CNT_k n k

/-! ### Source formats (R425) -/

/-- Bytes of a line as CSI-2 packs it. -/
def lineBytes (fmt w : Nat) : Nat :=
  match fmt with
  | 0 => w
  | 1 => ceilDiv (w * 10) 8
  | 2 => ceilDiv (w * 12) 8
  | 3 => 2 * w
  | 4 => 2 * w
  | 5 => 3 * w
  | _ => 0

/-- Sample `x` of component `c` of a packed line (log 32: the packing of CSI-2). -/
def lineSample (fmt : Nat) (l : List Byte) (c x : Nat) : Nat :=
  let by_ := fun i => (l.getD i 0).toNat
  match fmt with
  | 0 => by_ x
  | 1 => by_ (5 * (x / 4) + x % 4) * 4 + bits (by_ (5 * (x / 4) + 4)) (2 * (x % 4) + 1) (2 * (x % 4))
  | 2 => by_ (3 * (x / 2) + x % 2) * 16 + bits (by_ (3 * (x / 2) + 2)) (4 * (x % 2) + 3) (4 * (x % 2))
  | 3 => by_ (2 * x) * 256 + by_ (2 * x + 1)
  | 4 => match c with
    | 0 => by_ (2 * x + 1)
    | 1 => by_ (4 * (x / 2))
    | _ => by_ (4 * (x / 2) + 2)
  | _ => by_ (3 * x + (2 - c))

/-! ### Conversion (R426, R427) -/

/-- The NORM record of plane `c`: BLACK, GAIN and OFFSET. -/
def Mach.normRec (m : Mach) (e : List Byte) (c : Nat) : Int × Nat × Nat :=
  let a := Se.norm e + 16 + 16 * c
  (sext 32 (m.rdNat a 4), m.rdNat (a + 4) 4, m.rdNat (a + 8) 4)

/-- A read of one of the engine's tables (R354): whether data came. -/
def Mach.ingestRead (m : Mach) (a n : Nat) : Mach × Bool :=
  let (m, bad) := m.eccRead a n 186 0xFF
  (m, bad.isNone)

/-- The element of sample `x` (R427), as a code of OFMT. -/
def convElem (ofmt : Nat) (black : Int) (g o x : Nat) : Nat :=
  let t : Int := (x : Int) - black
  let v := FFmt.f32.addV (mulV (.fin (t < 0) t.natAbs 0) (FFmt.f32.decode g)) (FFmt.f32.decode o)
  let val := FFmt.f32.decode v
  let satF := fun (f : FFmt) => match val with
    | .nan => f.nanCode
    | .inf n => b2n n * f.signBit + f.maxCode
    | .fin n mag ex =>
      let c := f.encodeMag mag ex
      b2n n * f.signBit + min c f.maxCode
  let satI := fun (lo hi : Int) => match val with
    | .nan => 0
    | .inf n => wrap 8 (if n then lo else hi)
    | .fin n mag ex =>
      let r := roundInt (signed n mag) ex
      wrap 8 (if r < lo then lo else if r > hi then hi else r)
  match ofmt with
  | 1 => satI (-128) 127
  | 2 => satI 0 255
  | 4 => satF FFmt.e4m3
  | 5 => satF FFmt.e5m2
  | _ => satF FFmt.bf16

/-- A row of plane `c` stored in the tensor at `base`, from its first tensor row `row0`; whether the store was made. -/
def Mach.storePlaneRow (m : Mach) (e : List Byte) (base row0 c y : Nat) (black : Int) (g o : Nat) (xs : List Nat) :
    Mach × Bool :=
  let a := base + 64 * (row0 + c * Se.pp e + y * Se.rp e)
  let bs := xs.flatMap (fun x => leBytes (Se.b e) (convElem (Se.ofmt e) black g o x))
  let (m, bad) := m.rmwCheck a bs.length 186 0xFF
  match bad with
  | some _ => (m, false)
  | none => (m.store a bs, true)

/-- One line of a live image converted into the tensor at `base` (R428). -/
def Mach.convertLine (m : Mach) (e : List Byte) (base y : Nat) (line : List Byte) : Mach × Bool :=
  let one := fun (p : Mach × Bool) (c row : Nat) (xs : List Nat) =>
    let (m, read) := p.1.ingestRead (Se.norm e + 16 + 16 * c) 16
    if read then
      let (bl, g, o) := m.normRec e c
      let (m, ok) := m.storePlaneRow e base 1 c row bl g o xs
      (m, p.2 && ok)
    else (m, false)
  if Se.raw e then
    (List.range 2).foldl (fun p x0 => one p (2 * (y % 2) + x0) (y / 2)
      ((List.range (Se.w e / 2)).map (fun x => lineSample (Se.fmt e) line 0 (2 * x + x0)))) (m, true)
  else
    (List.range 3).foldl (fun p c => one p c y ((List.range (Se.w e)).map (lineSample (Se.fmt e) line c))) (m, true)

/-! ### Live buffers (R429, R431) -/

/-- A tensor is stale at the present time (R429). -/
def Dev.staleAt (d : Dev) (e : List Byte) (stamp : Nat) : Bool :=
  decide (stampDiff d.stamp stamp > (Se.stale e * 1000 : Nat))

/-- The buffer with the newest complete tensor: the latest capture stamp. -/
def StreamSt.newest (s : StreamSt) : Option Nat :=
  (((List.range s.bufs.length).zip s.bufs).foldl (fun (a : Option (Nat × Nat)) p =>
    if p.2.phase != .complete then a
    else match a with
      | none => some (p.1, p.2.stamp)
      | some (i, st) => if stampDiff p.2.stamp st ≥ 0 then some (p.1, p.2.stamp) else some (i, st)) none).map (·.1)

/-- A complete tensor that no binding has used is discarded (R431). -/
def Dev.discardTensor (d : Dev) (n : Nat) (e : List Byte) (b : BufSt) : Dev :=
  if b.phase == .complete && !b.wasBound then
    d.cnt (ingCount n (if d.staleAt e b.stamp then 2 else 3)) 1
  else d

/-- The buffer an arriving frame writes into (R429). -/
def StreamSt.pick (s : StreamSt) : Option Nat :=
  let nw := s.newest
  let ok := ((List.range s.bufs.length).zip s.bufs).filter (fun p =>
    p.2.pins.isEmpty && p.2.phase != .writing && nw != some p.1)
  match ok.find? (fun p => p.2.phase == .empty) with
  | some p => some p.1
  | none => (ok.foldl (fun (a : Option (Nat × Nat)) p => match a with
      | none => some (p.1, p.2.stamp)
      | some (i, st) => if stampDiff p.2.stamp st < 0 then some (p.1, p.2.stamp) else some (i, st)) none).map (·.1)

/-- A buffer taken for an arriving frame, or OVERRUN counted. -/
def Dev.takeBuf (d : Dev) (n : Nat) (s : StreamSt) : Dev × Option Nat :=
  match s.pick with
  | none => (d.cnt (ingCount n 4) 1, none)
  | some i =>
    let d := d.discardTensor n s.entry (s.buf i)
    (d.setStream n (s.modBuf i (fun _ => { phase := .writing })), some i)

/-- The frame in progress is corrupt: its buffer is released (R423, R424). -/
def Dev.dropFrame (d : Dev) (n : Nat) : Dev :=
  match d.stream n with
  | none => d
  | some s =>
    match s.frame with
    | none => d
    | some f =>
      let s := match f.buf with
        | some i => s.modBuf i (fun _ => {})
        | none => s
      (d.setStream n { s with frame := none }).cnt (ingCount n 5) (if f.buf.isSome then 1 else 0)

/-! ### Header rows (R433) -/

def headerRow (stamp number stream status np age tr epoch : Nat) : List Byte :=
  leBytes 8 stamp ++ leBytes 8 number ++ leBytes 1 stream ++ leBytes 1 status ++ leBytes 2 np ++ leBytes 4 age
    ++ leBytes 4 tr ++ leBytes 4 epoch ++ List.replicate 32 0

/-- The age of a tensor at bind in microseconds. -/
def Dev.ageUs (d : Dev) (stamp : Nat) : Nat :=
  let a := stampDiff d.stamp stamp
  if a < 0 then 0 else min (a.toNat / 1000) 0xFFFFFFFF

/-- The header row of a bound batch once it is complete. -/
def Mach.batchHeader (m : Mach) (n : Nat) (s : StreamSt) (stamp : Nat) (b : BufSt) : List Byte :=
  let np := m.nplane s.entry
  headerRow stamp b.number n (2 * b2n b.replaced) np 0 (Se.tr s.entry np) b.epoch

/-- A batch delivered in unordered mode waits for its comparison (R441). -/
def StreamSt.owe (s : StreamSt) (loop : Option Nat) (placed : List (Option Nat)) : StreamSt :=
  if Se.ordered s.entry then s else { s with owing := s.owing ++ [(loop, placed)] }

/-- The list positions that are done, in list order, as ordered mode would have taken them (R441, R442). -/
def StreamSt.expect (s : StreamSt) : Nat → StreamSt
  | 0 => s
  | fuel + 1 =>
    match AMap.find s.done s.ordAt with
    | none => s
    | some (good, _) =>
      let run := if good then 0 else s.ordRun + 1
      StreamSt.expect { s with
        ordAt := s.ordAt + 1
        ordRun := if run ≥ 256 then 0 else run
        order := if good then s.order ++ [some s.ordAt] else if run ≥ 256 then s.order ++ [none] else s.order } fuel

/-- The delivered batches whose ordered content is known are compared with it: the loops whose batch differs (R79, R441). -/
def StreamSt.settle (s : StreamSt) : Nat → StreamSt × List Nat
  | 0 => (s, [])
  | fuel + 1 =>
    match s.owing with
    | [] => (s, [])
    | (loop, ps) :: rest =>
      if s.order.length < ps.length then (s, [])
      else
        let (s', ls) := StreamSt.settle { s with owing := rest, order := s.order.drop ps.length } fuel
        (s', (if ps == s.order.take ps.length then [] else loop.toList) ++ ls)

/-- The INGEST events of every stream that reach the Summit together (R79, R82). -/
def Dev.settleOrders (d : Dev) : Dev :=
  if List.all d.streams (fun (x : Nat × StreamSt) => x.2.owing.isEmpty) then d
  else
    let rs : List (Nat × StreamSt × List Nat) :=
      List.map (fun (x : Nat × StreamSt) => (x.1, x.2.settle x.2.owing.length)) d.streams
    ({ d with streams := rs.map (fun x => (x.1, x.2.1)) } : Dev).ndEvents
      (rs.flatMap (fun x => x.2.2.map (fun l => ⟨1, l, x.1⟩)))

/-! ### Binding at step start (R430 to R434, R441, R503) -/

/-- The tensor in buffer `i` bound and pinned for a step of loop `n`. -/
def Mach.bindBuf (m : Mach) (loop n : Nat) (s : StreamSt) (i : Nat) : Mach × Bound :=
  let np := m.nplane s.entry
  let b := s.buf i
  let a := m.bufAddr s.entry i
  let h := headerRow b.stamp b.number n 0 np (m.dev.ageUs b.stamp) (Se.tr s.entry np) 0
  -- a binding chose a newer tensor than the other complete ones
  let d := ((List.range s.bufs.length).zip s.bufs).foldl (fun d p =>
    if p.1 ≠ i && p.2.phase == .complete && p.2.pins.isEmpty then d.discardTensor n s.entry p.2 else d) m.dev
  let bufs := ((List.range s.bufs.length).zip s.bufs).map (fun p =>
    if p.1 = i then { p.2 with wasBound := true, pins := p.2.pins ++ [loop] }
    else if p.2.phase == .complete && p.2.pins.isEmpty then ({} : BufSt) else p.2)
  let m := { m with dev := (d.setStream n { s with bufs := bufs }).cnt (ingCount n 1) 1 }
  (m.store a h, { stream := n, buffer := some i, addr := some a, rows := Se.tr s.entry np, header := h })

/-- A stream bound for a step of loop `loop` (R430, R432, R441). -/
def Mach.bindStream (m : Mach) (loop n : Nat) : Mach × Bound :=
  match m.dev.stream n with
  | none => (m.mod (fun d => d.cnt (ingCount n 6) 1), { stream := n, header := headerRow 0 0 n 1 0 0 0 0 })
  | some s =>
    let np := m.nplane s.entry
    let missing : Bound := { stream := n, rows := Se.tr s.entry np, header := headerRow 0 0 n 1 np 0 (Se.tr s.entry np) 0 }
    if s.closing then (m.mod (fun d => d.cnt (ingCount n 6) 1), missing)
    else if Se.kind s.entry = 2 then
      let k := s.boundBatches
      let bufs := s.bufs.map (fun b => if b.phase != .empty && b.number == k then { b with pins := b.pins ++ [loop] } else b)
      let s := { s with boundBatches := k + 1, bufs := bufs }
      let s := match bufs.find? (fun b => b.phase == .complete && b.number == k) with
        | some b => s.owe (some loop) b.placed
        | none => s
      (m.mod (fun d => (d.setStream n s).cnt (ingCount n 1) 1),
        { stream := n, batch := some k, rows := Se.tr s.entry np, stamp := m.dev.stamp })
    else
      match s.newest with
      | some i =>
        if m.dev.staleAt s.entry (s.buf i).stamp then
          (if Se.waitNew s.entry then (m, { missing with waitNew := some s.completions })
           else (m.mod (fun d => d.cnt (ingCount n 6) 1), missing))
        else m.bindBuf loop n s i
      | none =>
        if Se.waitNew s.entry then (m, { missing with waitNew := some s.completions })
        else (m.mod (fun d => d.cnt (ingCount n 6) 1), missing)

/-- The streams that a route's ingest list names, in list order. -/
def Mach.ingestStreams (m : Mach) (r : Route) : List Nat :=
  ((rawList m (r.addr + r.ingOff) r.ingCnt).filter (fun e => Ent.kind e == K.SEND)).foldl (fun l e =>
    let n := bits (Send.srow e) 5 0
    if l.contains n then l else l ++ [n]) []

/-- The stream numbers a Cairn descriptor's input records name, with their tensors (R502). -/
def cairnIns (desc : List Byte) : List (Nat × Nat) :=
  (List.range (field desc 1 1)).map (fun i => (field desc (0x10 + 16 * i) 1, field desc (0x18 + 16 * i) 8))

/-- A Cairn step binds the tensor of its input record (R503). -/
def Mach.bindCairn (m : Mach) (desc : List Byte) (n : Nat) : Mach × Bound :=
  let a := ((cairnIns desc).find? (fun p => p.1 == n)).map (·.2)
  let (np, tr) := match m.dev.stream n with
    | some s => (m.nplane s.entry, Se.tr s.entry (m.nplane s.entry))
    | none => (0, 0)
  let h := headerRow 0 0 n 0 np 0 tr 0
  let m := match a with
    | some a => m.store a h
    | none => m
  (m, { stream := n, addr := a, rows := tr, header := h })

/-! ### The end of a step's hold (R434) and closing (R420) -/

/-- A stream whose close waits becomes free once nothing is pinned (R420, R440). -/
def Dev.finishClose (d : Dev) (n : Nat) : Dev :=
  match d.stream n with
  | none => d
  | some s =>
    if s.closing && s.bufs.all (fun b => b.pins.isEmpty) then
      let d := { d with streams := AMap.erase d.streams n, cache := d.cache.filter (fun k => k.1 != n) }
      match s.closeTag with
      | some t => d.notify t ST.OK []
      | none => d
    else d

/-- The pins of a step of loop `loop` end; a batch it used leaves its buffer. -/
def Dev.unpin (d : Dev) (loop : Nat) (bs : List Bound) : Dev :=
  bs.foldl (fun d b =>
    (d.modStream b.stream (fun s => { s with bufs := s.bufs.map (fun x =>
      let y := { x with pins := x.pins.erase loop }
      if x.pins.contains loop && Se.kind s.entry = 2 && y.pins.isEmpty && x.phase == .complete then ({} : BufSt)
      else y) })).finishClose b.stream) d

/-! ### Replay (R435 to R443) -/

/-- Binary search of the episode index for an identifier: OFFSET and LENGTH, or the reason that ends it. -/
def Mach.indexFind (m : Mach) (e : List Byte) (id : Nat) : Nat → Nat → Nat → Mach × Sum Nat (Nat × Nat)
  | 0, _, _ => (m, .inl 1)
  | fuel + 1, lo, hi =>
    if lo ≥ hi then (m, .inl 1)
    else
      let k := (lo + hi) / 2
      let a := Se.index e + 16 * k
      match m.ingestRead a 16 with
      | (m, false) => (m, .inl 8)
      | (m, true) =>
        let x := m.rdNat a 8
        if x = id then (m, .inr (m.rdNat (a + 8) 4, m.rdNat (a + 12) 4))
        else if x < id then m.indexFind e id fuel (k + 1) hi
        else m.indexFind e id fuel lo k

/-- The decoded image of a raw payload: one plane in sensor coordinates, or three planes. -/
def rawImage (fmt w h : Nat) (p : List Byte) : List (List Nat) :=
  let lb := lineBytes fmt w
  let np := if fmt < 4 then 1 else 3
  (List.range np).map (fun c =>
    (List.range h).flatMap (fun y =>
      let l := (p.drop (y * lb)).take lb
      (List.range w).map (lineSample fmt l c)))

/-- A sample read and decoded (R435 to R438), with its reason when it is corrupt. -/
def Mach.decodeSample (m : Mach) (e : List Byte) (pos : Nat) (src : SampleSource) : Mach × DecSample :=
  let (m, read) := m.ingestRead (Se.list e + 8 * pos) 8
  let id := m.rdNat (Se.list e + 8 * pos) 8
  let bad := fun (m : Mach) r => (m, (⟨id, r, 0, 0, []⟩ : DecSample))
  if !read || src = .hbmFailed then bad m 8
  else match m.indexFind e id 26 0 (Se.indexLen e), AMap.find m.dev.flash.regions (Se.region e) with
  | (m, .inl r), _ => bad m r
  | (m, _), none => bad m 2
  | (m, .inr (off, len)), some rg =>
    if src = .flashFailed || off * 4096 + len > rg.units * unitSize then bad m 2
    else if len > Se.maxBytes e then bad m 5
    else
      let (m, bs) := m.regionBytes rg (off * 4096) len
      let w := field bs 8 2
      let h := field bs 0xA 2
      let plen := field bs 0xC 4
      let p := slice bs 32 plen
      if plen > Se.maxBytes e then bad m 5
      else if field bs 0 4 ≠ 0x5A56534D || field bs 4 1 ≠ Se.fmt e then bad m 3
      else if crc32c p ≠ field bs 0x10 4 then bad m 4
      else if w = 0 || h = 0 || w > Se.maxW e || h > Se.maxH e then bad m 5
      else if Se.fmt e = 7 then
        match jpegDecode (p.map (·.toNat)) (Se.maxW e) (Se.maxH e) (m.nplane e) with
        | .error r => bad m r
        | .ok (w, h, planes) => (m, ⟨id, 0, w, h, planes⟩)
      else if plen ≠ h * lineBytes (Se.fmt e) w then bad m 3
      else (m, ⟨id, 0, w, h, rawImage (Se.fmt e) w h p⟩)

/-- The scree record of a skipped sample (R443). -/
def Mach.scree (m : Mach) (n epoch pos batch : Nat) (s : DecSample) : Mach :=
  let base := m.dev.reg64 Reg.ING_SCREE_BASE_LO
  let k := m.dev.reg Reg.ING_SCREE_HEAD
  let r := leBytes 8 s.id ++ leBytes 8 m.dev.stamp ++ leBytes 1 n ++ leBytes 1 s.reason ++ leBytes 2 epoch
    ++ leBytes 4 pos ++ leBytes 4 batch ++ List.replicate 4 0
  (m.store (base + 32 * (k % 4096)) r).mod (fun d => d.setReg Reg.ING_SCREE_HEAD ((k + 1) % 2 ^ 32))

/-- A good sample written into batch position `j` of the tensor at `base`, augmented and converted (R427, R439); whether
every read and write of it was made. -/
def Mach.placeSample (m : Mach) (e : List Byte) (base j epoch pos : Nat) (s : DecSample) : Mach × Bool :=
  let np := m.nplane e
  let ra := Se.aug e + 16 + 16 * ((epoch % Se.nauge e) * Se.listLen e + pos)
  let x0 := sext 16 (m.rdNat ra 2)
  let y0 := sext 16 (m.rdNat (ra + 2) 2)
  let fl := m.rdNat (ra + 4) 1
  let ag := m.rdNat (ra + 8) 4
  let ao := m.rdNat (ra + 12) 4
  let sample := fun (c x y : Nat) =>
    let x' : Nat := if bit fl 0 then Se.w e - 1 - x else x
    let y' : Nat := if bit fl 1 then Se.h e - 1 - y else y
    let xi := x0 + x'
    let yi := y0 + y'
    if xi < 0 || yi < 0 || xi ≥ s.w || yi ≥ s.h then 0
    else (s.planes.getD (if Se.raw e then 0 else c) []).getD (yi.toNat * s.w + xi.toNat) 0
  let p := [(ra, 16), (Se.norm e, 16 + 16 * np)].foldl (fun (p : Mach × Bool) x =>
    if p.2 then p.1.ingestRead x.1 x.2 else p) (m, true)
  if !p.2 then p
  else (List.range np).foldl (fun p c =>
    let (bl, g, o) := m.normRec e c
    let g := FFmt.f32.mul g ag
    let o := FFmt.f32.add o ao
    (List.range (Se.planeH e)).foldl (fun (p : Mach × Bool) y =>
      let xs := (List.range (Se.planeW e)).map (fun x =>
        if Se.raw e then sample 0 (2 * x + c % 2) (2 * y + c / 2) else sample c x y)
      let (m, ok) := p.1.storePlaneRow e base (1 + Se.manifest e + j * np * Se.pp e) c y bl g o xs
      (m, p.2 && ok)) p) p

/-- The loops whose present step has bound batch `k` of stream `n`. -/
def Dev.batchLoops (d : Dev) (n k : Nat) : List Nat :=
  (List.range 16).filter (fun l => match (d.loop l).step with
    | some st => st.bound.any (fun b => b.stream == n && b.batch == some k)
    | none => false)

/-- The buffer in which the present batch is built; a free one is taken when none is (R441). -/
def StreamSt.building (s : StreamSt) (loops : Nat → List Nat) : Option (StreamSt × Nat) :=
  match s.bufs.findIdx? (fun b => b.phase == .writing) with
  | some i => some (s, i)
  | none =>
    match s.bufs.findIdx? (fun b => b.phase == .empty && b.pins.isEmpty) with
    | some i => some ({ s with
        bufs := modAt s.bufs i (fun _ => { phase := .writing, number := s.batches, pins := loops s.batches })
        batches := s.batches + 1 }, i)
    | none => none

/-- One batch position filled: its manifest record, and the batch complete after the last (R442). -/
def Mach.fillPos (m : Mach) (n i : Nat) (q : Option Nat) (id pos epoch flags : Nat) : Mach :=
  match m.dev.stream n with
  | none => m
  | some s =>
    let b := s.buf i
    let j := b.placed.length
    let base := m.bufAddr s.entry i
    let (m, bad) := m.rmwCheck (base + 64 + 16 * j) 16 186 0xFF
    let m := if bad.isSome then m
      else m.store (base + 64 + 16 * j) (leBytes 8 id ++ leBytes 4 pos ++ leBytes 2 epoch ++ leBytes 2 flags)
    let full := decide (j + 1 = Se.batch s.entry)
    let b := { b with
      placed := b.placed ++ [q]
      epoch := if j = 0 then epoch else b.epoch
      replaced := b.replaced || flags != 0
      phase := if full then .complete else .writing
      order := s.completions }
    let bound := decide (b.number < s.boundBatches)
    let s' := { s.modBuf i (fun _ => if full && bound && b.pins.isEmpty then {} else b) with
        corruptRun := 0
        completions := if full then s.completions + 1 else s.completions }
    let s' := if full && bound then s'.owe b.pins.head? b.placed else s'
    let m := m.mod (fun d =>
      let d := d.setStream n s'
      let d := if bit flags 1 then d.cnt (ingCount n 6) 1 else d.cnt (ingCount n 0) 1
      if bit flags 0 then d.cnt (ingCount n 7) 1 else d)
    if full then m.store base (m.batchHeader n s (if bound then m.dev.stamp else 0) b) else m

/-- The corrupt sample at linear position `q` is skipped (R442, R443). -/
def Mach.skipSample (m : Mach) (n i q : Nat) (s : StreamSt) (dec : DecSample) : Mach :=
  let m := m.mod (fun d => (d.modStream n (fun s => { s with
    corruptRun := s.corruptRun + 1
    order := s.order.erase (some q) })).cnt (ingCount n 5) 1)
  m.scree n (q / Se.listLen s.entry) (q % Se.listLen s.entry) (s.buf i).number dec

/-- The finished sample at linear position `q` placed, or skipped as corrupt: one whose place in the tensor or in the manifest
cannot be written is corrupt too (R351, R354). -/
def Mach.takeSample (m : Mach) (n i q : Nat) (dec : DecSample) : Mach :=
  match m.dev.stream n with
  | none => m
  | some s =>
    let epoch := q / Se.listLen s.entry
    let pos := q % Se.listLen s.entry
    if dec.reason ≠ 0 then m.skipSample n i q s dec
    else
      let j := (s.buf i).placed.length
      let base := m.bufAddr s.entry i
      match m.rmwCheck (base + 64 + 16 * j) 16 186 0xFF with
      | (m, some _) => m.skipSample n i q s { dec with reason := 8 }
      | (m, none) =>
        match m.placeSample s.entry base j epoch pos dec with
        | (m, false) => m.skipSample n i q s { dec with reason := 8 }
        | (m, true) => m.fillPos n i (some q) dec.id pos epoch (b2n (s.corruptRun > 0))

/-- The cursor passes the positions that are done (unordered mode). -/
def StreamSt.advance (s : StreamSt) : Nat → StreamSt
  | 0 => s
  | fuel + 1 =>
    match AMap.find s.done s.cursor with
    | some (_, none) => StreamSt.advance { s with done := AMap.erase s.done s.cursor, cursor := s.cursor + 1 } fuel
    | _ => s

/-- Finished samples go into batches while there is a buffer and no position waits to be given up (R441, R442). -/
def Mach.placeReady (m : Mach) (n : Nat) : Nat → Mach
  | 0 => m
  | fuel + 1 =>
    match m.dev.stream n with
    | none => m
    | some s =>
      if s.corruptRun ≥ 256 then m
      else
        let next : Option Nat := if Se.ordered s.entry then some s.cursor else s.waitq.head?
        match next with
        | none => m
        | some q =>
          match AMap.find s.done q with
          | some (good, some dec) =>
            match s.building (m.dev.batchLoops n) with
            | none => m
            | some (s, i) =>
              let s := { s with
                done := if Se.ordered s.entry then AMap.erase s.done q else AMap.set s.done q (good, none)
                cursor := if Se.ordered s.entry then s.cursor + 1 else s.cursor
                waitq := s.waitq.erase q }
              let s := if Se.ordered s.entry then s else s.advance 4096
              let m := m.mod (fun d => d.setStream n s)
              (m.takeSample n i q dec).placeReady n fuel
          | _ => m

/-- The identifier at a list position, and a sample that has finished decoding: it waits for its place (R441). -/
def Mach.sampleId (m : Mach) (n q : Nat) : Nat :=
  match m.dev.stream n with
  | some s => m.rdNat (Se.list s.entry + 8 * (q % Se.listLen s.entry)) 8
  | none => 0
def Mach.sampleDone (m : Mach) (n q : Nat) (dec : DecSample) : Mach :=
  let good := dec.reason == 0
  let m := m.mod (fun d =>
    let d := d.modStream n (fun x =>
      let x := { x with
        done := AMap.set x.done q (good, some dec)
        waitq := if Se.ordered x.entry then x.waitq else x.waitq ++ [q] }
      if Se.ordered x.entry then x else x.expect 64)
    if good && !d.cache.contains (n, dec.id) then { d with cache := d.cache ++ [(n, dec.id)] } else d)
  (m.placeReady n 4096).mod Dev.settleOrders

end Sys2Proof.Machine
end

