-- ==== Sys2Proof/Machine/TarnCore.lean ====
section
/-!
DEFINITION. The Tarn engine's tables and operations (R231 to R260): sequences, blocks, nodes, descriptors, the allocator
and its reclaim, copy on write, the transaction of a step, edits, and the prefix tree.
The sequence table lies in Tarn memory and the node, block, descriptor and bucket tables in the region of R232, all in
the layouts of R238, R241, R242 and R257.
-/
namespace Sys2Proof.Machine

/-! ### Sequences (R236 to R238) -/

def seqAddr (s : Nat) : Nat := tarnMem + 64 * s
/-- A field of a sequence entry, by offset and size. -/
def Mach.sq (m : Mach) (s o n : Nat) : Nat := m.rdNat (seqAddr s + o) n
def Mach.setSq (m : Mach) (s o n v : Nat) : Mach := m.storeNat (seqAddr s + o) n v

def Sq.STATE := 0x00
def Sq.NSID := 0x01
def Sq.FLAGS := 0x02
def Sq.GEN := 0x03
def Sq.LEN := 0x04
def Sq.MAXLEN := 0x08
def Sq.NBLK := 0x0C
def Sq.RESBLK := 0x10
def Sq.RCUR := 0x14
def Sq.LASTUSE := 0x18
def Sq.USER := 0x1C

def Mach.seqOpen (m : Mach) (s : Nat) : Bool := m.sq s Sq.STATE 1 == 1
def Mach.seqFlag (m : Mach) (s i : Nat) : Bool := bit (m.sq s Sq.FLAGS 1) i
def Mach.setSeqFlag (m : Mach) (s i : Nat) (b : Bool) : Mach :=
  m.setSq s Sq.FLAGS 1 (setBits (m.sq s Sq.FLAGS 1) i i (b2n b))
/-- INUSE, NEEDRC and EDITS. -/
def Mach.inuse (m : Mach) (s : Nat) : Bool := m.seqFlag s 0
def Mach.needRc (m : Mach) (s : Nat) : Bool := m.seqFlag s 1

/-- The slot an ID names, when it is open under that generation (R236). -/
def Mach.seqOfId (m : Mach) (id : Nat) : Option Nat :=
  let s := id % 4096
  if id ≠ 0xFFFF && m.seqOpen s && m.sq s Sq.GEN 1 == id / 4096 % 16 then some s else none

/-! ### The region of R232 -/

def Dev.trnBase (d : Dev) : Nat :=
  bits (d.reg Reg.TRN_HBM_BASE_LO) 31 29 * 2 ^ 29 + bits (d.reg Reg.TRN_HBM_BASE_HI) 15 0 * 2 ^ 32

def Mach.nodeAddr (m : Mach) (i : Nat) : Nat := m.dev.trnBase + 256 * i
def Mach.nd (m : Mach) (i o n : Nat) : Nat := m.rdNat (m.nodeAddr i + o) n
def Mach.setNd (m : Mach) (i o n v : Nat) : Mach := m.storeNat (m.nodeAddr i + o) n v

def Nd.HASH := 0x80
def Nd.PARENT := 0x88
def Nd.NEXT := 0x8C
def Nd.DBASE := 0x90
def Nd.REFCNT := 0x94
def Nd.NTOK := 0x96
def Nd.NFLAGS := 0x97
def Nd.EPOCH := 0x98
def Nd.LASTUSE := 0x9C
def Nd.NSID := 0xA0
def noNode : Nat := 0xFFFFFFFF

def Mach.blkAddr (m : Mach) (s i : Nat) : Nat := m.dev.trnBase + 0x10000000 + s * 0x8000 + 4 * i
def Mach.blk (m : Mach) (s i : Nat) : Nat := m.rdNat (m.blkAddr s i) 4
def Mach.setBlk (m : Mach) (s i v : Nat) : Mach := m.storeNat (m.blkAddr s i) 4 v
def Mach.blks (m : Mach) (s : Nat) : List Nat := (List.range (m.sq s Sq.NBLK 4)).map (m.blk s)
def Mach.descAddr (m : Mach) (i : Nat) : Nat := m.dev.trnBase + 0x18000000 + 8 * i
def Mach.desc (m : Mach) (i : Nat) : Nat := m.rdNat (m.descAddr i) 8
def Mach.bucketAddr (m : Mach) (h : Nat) : Nat := m.dev.trnBase + 0x1A000000 + 4 * (h % 2 ^ 21)
/-- The word of a hash's bucket (R257); a bucket not written since the engine was enabled is empty (log 78). -/
def Mach.bucket (m : Mach) (h : Nat) : Nat :=
  if m.dev.tarn.buckets.contains (h % 2 ^ 21) then m.rdNat (m.bucketAddr h) 4 else 0
def Mach.setBucket (m : Mach) (h v : Nat) : Mach :=
  (m.storeNat (m.bucketAddr h) 4 v).mod (fun d => d.modTarn (fun t =>
    { t with buckets := if t.buckets.contains (h % 2 ^ 21) then t.buckets else t.buckets ++ [h % 2 ^ 21] }))

/-- The page states of R244. -/
inductive PageState where
  | free | filling | resident | dropped | recomputing | grace
deriving DecidableEq, Repr

def PageState.code : PageState → Nat
  | .free => 0
  | .filling => 1
  | .resident => 2
  | .dropped => 3
  | .recomputing => 4
  | .grace => 5

def pageState : Nat → PageState
  | 1 => .filling
  | 2 => .resident
  | 3 => .dropped
  | 4 => .recomputing
  | 5 => .grace
  | _ => .free

def Dev.nsRec (d : Dev) (n : Nat) : Option NsRec := AMap.find d.tarn.ns n
def Dev.setNs (d : Dev) (n : Nat) (r : NsRec) : Dev := d.modTarn (fun t => { t with ns := AMap.set t.ns n r })

/-- Bytes per key-value element, per page and per frame (R234). -/
def NsRec.b (r : NsRec) : Nat := if r.kvfmt = 6 then 2 else 1
def NsRec.pb (r : NsRec) : Nat := 64 * r.nkv * r.hd * r.b
def NsRec.frameSize (r : NsRec) : Nat := ceilDiv r.pb 4096 * 4096
def NsRec.freeFrames (r : NsRec) : Nat := r.nframes - r.frameNext + r.frameFree.length
def NsRec.runs (r : NsRec) : Nat := if r.nl = 0 then 0 else r.ndesc / r.nl
def NsRec.freeRuns (r : NsRec) : Nat := r.runs - r.runNext + r.runFree.length

/-- The state that a block's pages share (R244). -/
def Mach.blockState (m : Mach) (i : Nat) : PageState := pageState (bits (m.desc (m.nd i Nd.DBASE 4)) 63 61)

/-- The frame of layer `l` of a block. -/
def Mach.frame (m : Mach) (i l : Nat) : Nat := bits (m.desc (m.nd i Nd.DBASE 4 + l)) 24 0

/-- The address of a page. -/
def Mach.page (m : Mach) (r : NsRec) (i l : Nat) : Nat := r.frameBase + m.frame i l * r.frameSize

/-- The descriptor word of R242. -/
def descWord (st : PageState) (nsid layer node frame : Nat) : Nat :=
  st.code * 2 ^ 61 + nsid * 2 ^ 57 + layer * 2 ^ 49 + node * 2 ^ 29 + frame

/-- The descriptors of a block written: one state for all its pages, with the given frames. -/
def Mach.setBlockDescs (m : Mach) (i nsid : Nat) (st : PageState) (frames : List Nat) : Mach :=
  let b := m.nd i Nd.DBASE 4
  (((List.range frames.length).zip frames).foldl (fun m p =>
    m.storeNat (m.descAddr (b + p.1)) 8 (descWord st nsid p.1 i p.2)) m)

/-- All pages of a block move to a state together (R244), keeping their frames. -/
def Mach.setBlockState (m : Mach) (i : Nat) (st : PageState) : Mach :=
  let nsid := m.nd i Nd.NSID 1
  match m.dev.nsRec nsid with
  | none => m
  | some r => m.setBlockDescs i nsid st ((List.range r.nl).map (m.frame i))

def Mach.inTree (m : Mach) (i : Nat) : Bool := bit (m.nd i Nd.NFLAGS 1) 0

/-! ### The allocator (R243, R254) -/

/-- `n` frames taken from a namespace pool. -/
def NsRec.takeFrames (r : NsRec) : Nat → Option (List Nat × NsRec)
  | 0 => some ([], r)
  | n + 1 =>
    match r.frameFree with
    | f :: rest => (NsRec.takeFrames { r with frameFree := rest } n).map (fun p => (f :: p.1, p.2))
    | [] => if r.frameNext < r.nframes then
        (NsRec.takeFrames { r with frameNext := r.frameNext + 1 } n).map (fun p => (r.frameNext :: p.1, p.2)) else none

def NsRec.takeRun (r : NsRec) : Option (Nat × NsRec) :=
  match r.runFree with
  | x :: rest => some (x, { r with runFree := rest })
  | [] => if r.runNext < r.runs then some (r.runNext, { r with runNext := r.runNext + 1 }) else none

def Dev.takeNode (d : Dev) : Option (Nat × Dev) :=
  match d.tarn.nodeFree with
  | x :: rest => some (x, d.modTarn (fun t => { t with nodeFree := rest }))
  | [] => if d.tarn.nodeNext < 1048576 then
      some (d.tarn.nodeNext, d.modTarn (fun t => { t with nodeNext := t.nodeNext + 1 })) else none

/-- Frames of a block returned to its pool. -/
def Mach.freeFrames (m : Mach) (i : Nat) : Mach :=
  let nsid := m.nd i Nd.NSID 1
  match m.dev.nsRec nsid with
  | none => m
  | some r => m.mod (fun d => d.setNs nsid { r with frameFree := r.frameFree ++ (List.range r.nl).map (m.frame i) })

/-- A block becomes FREE: its node and descriptor run, and its frames when it holds them, return. -/
def Mach.freeBlock (m : Mach) (i : Nat) (frames : Bool) : Mach :=
  let nsid := m.nd i Nd.NSID 1
  match AMap.find m.dev.tarn.orphans i, m.dev.nsRec nsid with
  | some nl, _ =>
    -- the pools it came from are gone with the old configuration; its descriptors are FREE where they are still its own
    let b := m.nd i Nd.DBASE 4
    let m := (List.range nl).foldl (fun m l =>
      let w := m.desc (b + l)
      if bits w 63 61 == PageState.grace.code && bits w 48 29 == i then
        m.storeNat (m.descAddr (b + l)) 8 (descWord .free nsid l i 0) else m) m
    m.mod (fun d => d.modTarn (fun t =>
      { t with
        nodeFree := t.nodeFree ++ [i]
        grace := AMap.erase t.grace i
        orphans := AMap.erase t.orphans i }))
  | none, none => m
  | none, some r =>
    let run := if r.nl = 0 then 0 else (m.nd i Nd.DBASE 4 - r.descBase) / r.nl
    let m := if frames then m.freeFrames i else m
    let m := m.setBlockDescs i nsid .free (List.replicate r.nl 0)
    m.mod (fun d =>
      let d := match d.nsRec nsid with
        | some r' => d.setNs nsid { r' with runFree := r'.runFree ++ [run] }
        | none => d
      d.modTarn (fun t => { t with nodeFree := t.nodeFree ++ [i], grace := AMap.erase t.grace i }))

/-- The present epoch, and one more step or command using the engine (R246). -/
def Dev.epoch (d : Dev) : Nat := d.reg Reg.TRN_EPOCH
def Dev.nextEpoch (d : Dev) : Dev := d.setReg Reg.TRN_EPOCH ((d.epoch + 1) % 2 ^ 32)

/-- `a` is an earlier epoch than `b` (TRN_EPOCH: compared by signed difference). -/
def epochBefore (a b : Nat) : Bool := decide (sext 32 (a + 2 ^ 32 - b) < 0)

/-- A block unlinked from the prefix tree's bucket chain. -/
def Mach.unchain (m : Mach) (i : Nat) : Mach :=
  let h := m.nd i Nd.HASH 8
  let next := m.nd i Nd.NEXT 4
  let w := m.bucket h
  let m := m.setNd i Nd.NFLAGS 1 0
  if bit w 31 && bits w 19 0 == i then
    m.setBucket h (if next = noNode then 0 else 2 ^ 31 + next)
  else
    -- walk to the node before it
    let rec prev (fuel j : Nat) : Option Nat :=
      match fuel with
      | 0 => none
      | fuel + 1 =>
        let n := m.nd j Nd.NEXT 4
        if n = i then some j else if n = noNode then none else prev fuel n
    match (if bit w 31 then prev (m.dev.tarn.nodeNext + 1) (bits w 19 0) else none) with
    | some j => m.setNd j Nd.NEXT 4 next
    | none => m

/-- A block enters GRACE with the present epoch (R245, R246). -/
def Mach.toGrace (m : Mach) (i : Nat) : Mach :=
  let held := m.blockState i != .dropped
  let m := if m.inTree i then m.unchain i else m
  let m := m.setBlockState i .grace
  let m := m.setNd i Nd.EPOCH 4 m.dev.epoch
  m.mod (fun d => d.modTarn (fun t => { t with grace := AMap.set t.grace i held }))

/-- Start epochs of the operations in progress: steps, running or pre-empted (R246). -/
def Dev.openEpochs (d : Dev) : List Nat :=
  (List.range 16).filterMap (fun n => ((d.loop n).step).bind (·.epoch))

/-- A step in progress has replaced a node and would restore it at an abort (R250). -/
def Dev.replaced (d : Dev) (i : Nat) : Bool :=
  List.any d.tarn.ctxs (fun (c : Nat × CtxSt) => c.2.tx.any (fun x =>
    x.wrote.any (fun w => w.2.2 == some i && w.2.1 != i)))

/-- A block in GRACE may become FREE: nothing that started before its EPOCH is still in progress (R246), and no step in
progress would restore it (R250; log 76). -/
def Mach.graceOver (m : Mach) (i : Nat) : Bool :=
  !m.dev.replaced i && m.dev.openEpochs.all (fun e => !epochBefore e (m.nd i Nd.EPOCH 4))

/-- GRACE blocks whose grace is over become FREE. -/
def Mach.sweepGrace (m : Mach) : Mach :=
  m.dev.tarn.grace.foldl (fun m p => if m.graceOver p.1 then m.freeBlock p.1 p.2 else m) m

/-- REFCNT of a node falls by one (R245, R247). -/
def Mach.unref (m : Mach) (i : Nat) : Mach :=
  let c := m.nd i Nd.REFCNT 2 - 1
  let m := m.setNd i Nd.REFCNT 2 c
  if c = 0 then
    match m.blockState i with
    | .resident => if m.inTree i then m else m.toGrace i
    | .dropped => m.toGrace i
    | _ => m
  else m

def Mach.ref (m : Mach) (i : Nat) : Mach := m.setNd i Nd.REFCNT 2 (m.nd i Nd.REFCNT 2 + 1)

/-- The open sequences. -/
def Mach.openSeqs (m : Mach) : List Nat := m.dev.tarn.openSlots
/-- The sequences whose block list names a node. -/
def Mach.seqsOf (m : Mach) (i : Nat) : List Nat := m.openSeqs.filter (fun s => (m.blks s).contains i)

/-- A sequence is posted to a recompute batch (R255). -/
def Mach.posted (m : Mach) (s : Nat) : Bool := List.any m.dev.tarn.posted (fun (p : Nat × List Nat) => p.2.contains s)

/-- A sequence is named in some batch table (R254), the recompute batches of R255 among them (log 75). -/
def Mach.batched (m : Mach) (s : Nat) : Bool :=
  m.posted s || m.dev.tarn.batches.any (fun b => b.2.any (fun id => m.seqOfId id == some s))

/-- Leading RESIDENT blocks of a sequence. -/
def Mach.residentBlocks (m : Mach) (s : Nat) : Nat :=
  ((m.blks s).takeWhile (fun i => m.blockState i == .resident)).length

/-- RESBLK and NEEDRC of a sequence brought up to date. -/
def Mach.refreshSeq (m : Mach) (s : Nat) : Mach :=
  let rb := m.residentBlocks s
  let m := m.setSq s Sq.RESBLK 4 rb
  m.setSeqFlag s 1 ((m.blks s).any (fun i => m.blockState i == .dropped || m.blockState i == .recomputing))

/-- RESBLK and NEEDRC brought up to date in every sequence that shares a block with one whose blocks changed (R238). -/
def Mach.refreshSharers (m : Mach) (s : Nat) : Mach :=
  let bs := m.blks s
  (m.openSeqs.filter (fun q => q == s || (m.blks q).any bs.contains)).foldl Mach.refreshSeq m

/-- The blocks of a sequence that are being recomputed are DROPPED again, their frames released (R245). -/
def Mach.dropRecomputing (m : Mach) (is : List Nat) : Mach :=
  is.foldl (fun m i => if m.blockState i == .recomputing then
    (match m.dev.nsRec (m.nd i Nd.NSID 1) with
     | some r => (m.freeFrames i).setBlockDescs i (m.nd i Nd.NSID 1) .dropped (List.replicate r.nl 0)
     | none => m) else m) m

/-- Sequences leave the recompute batches once none of their blocks is being recomputed (R255). -/
def Mach.unpost (m : Mach) : Mach :=
  let busy := fun s => m.seqOpen s && (m.blks s).any (fun i => m.blockState i == .recomputing)
  m.mod (fun d => d.modTarn (fun t => { t with posted := t.posted.map (fun p => (p.1, p.2.filter busy)) }))

/-- A block may be dropped: it is the last RESIDENT block of every sequence that names it, and none of those is INUSE or
batched (R254). -/
def Mach.droppable (m : Mach) (i : Nat) (held : List Nat) : Bool :=
  let ss := m.seqsOf i
  m.blockState i == .resident && !ss.isEmpty && ss.all (fun s =>
    !m.inuse s && !m.batched s && !held.contains s
      && ((m.blks s).filter (fun j => m.blockState j == .resident)).getLast? == some i)

def Mach.dropBlock (m : Mach) (i : Nat) : Mach :=
  let nsid := m.nd i Nd.NSID 1
  match m.dev.nsRec nsid with
  | none => m
  | some r =>
    let ss := m.seqsOf i
    let m := m.freeFrames i
    let m := m.setBlockDescs i nsid .dropped (List.replicate r.nl 0)
    let m := m.mod (fun d => d.cnt (Reg.TRN_CNT_k 2) 1)
    ss.foldl Mach.refreshSeq m

/-- Nodes of a namespace that may be evicted: RESIDENT, in the tree, unreferenced, with no child in the tree; lowest
LASTUSE first. -/
def Mach.evictable (m : Mach) (nsid : Option Nat) : Option Nat :=
  let tree := (List.range m.dev.tarn.nodeNext).filter m.inTree
  let ok := tree.filter (fun i => (match nsid with | some n => m.nd i Nd.NSID 1 == n | none => true)
    && m.nd i Nd.REFCNT 2 == 0 && m.blockState i == .resident && !tree.any (fun j => m.nd j Nd.PARENT 4 == i))
  (ok.sortLe (fun a b => !epochBefore (m.nd b Nd.LASTUSE 4) (m.nd a Nd.LASTUSE 4))).head?

/-- The next block that reclaim drops in a namespace: coldest sequence first, from its last resident block backward. -/
def Mach.dropNext (m : Mach) (nsid : Nat) (held : List Nat) : Option Nat :=
  let cold := m.openSeqs.filter (fun s => m.sq s Sq.NSID 1 == nsid && !m.inuse s && !m.batched s && !held.contains s)
  let order := cold.sortLe (fun a b => !epochBefore (m.sq b Sq.LASTUSE 4) (m.sq a Sq.LASTUSE 4))
  order.findSome? (fun s =>
    (((m.blks s).filter (fun i => m.blockState i == .resident)).getLast?).bind (fun i =>
      if m.droppable i held then some i else none))

/-- What an allocation needs, and whether it is there. -/
def Mach.enough (m : Mach) (nsid frames nodes : Nat) : Bool :=
  match m.dev.nsRec nsid with
  | none => false
  | some r => decide (frames ≤ r.freeFrames) && decide (nodes ≤ r.freeRuns)
      && decide (nodes ≤ 1048576 - m.dev.tarn.nodeNext + m.dev.tarn.nodeFree.length)

/-- Step 1 of R254: evictions, one at a time, each with the grace it can end at once. -/
def Mach.reclaimEvict (nsid frames nodes : Nat) : Nat → Mach → Mach
  | 0, m => m
  | fuel + 1, m =>
    if m.enough nsid frames nodes then m
    else match m.evictable none with
      | none => m
      | some i =>
        let m := (m.toGrace i).mod (fun d => d.cnt (Reg.TRN_CNT_k 7) 1)
        Mach.reclaimEvict nsid frames nodes fuel m.sweepGrace

/-- Step 2 of R254: drops in the namespace, while frames are short. -/
def Mach.reclaimDrop (nsid frames nodes : Nat) (held : List Nat) : Nat → Mach → Mach
  | 0, m => m
  | fuel + 1, m =>
    if m.enough nsid frames nodes then m
    else match m.dev.nsRec nsid with
      | none => m
      | some r =>
        if !r.drop || frames ≤ r.freeFrames then m
        else match m.dropNext nsid held with
          | none => m
          | some i => Mach.reclaimDrop nsid frames nodes held fuel (m.dropBlock i)

/-- Reclaim until the need is met (R254). -/
def Mach.reclaim (m : Mach) (nsid frames nodes : Nat) (held : List Nat) : Mach :=
  let m := m.sweepGrace
  let m := Mach.reclaimEvict nsid frames nodes (m.dev.tarn.nodeNext + 1) m
  Mach.reclaimDrop nsid frames nodes held (m.dev.tarn.nodeNext + 1) m

/-- A new FILLING block with the given parent (R245); none when the pool is short. -/
def Mach.newBlock (m : Mach) (nsid parent : Nat) : Mach × Option Nat :=
  match m.dev.nsRec nsid with
  | none => (m, none)
  | some r0 =>
    let m := if m.enough nsid r0.nl 1 then m else m.reclaim nsid r0.nl 1 []
    match m.dev.nsRec nsid with
    | none => (m, none)
    | some r =>
      match r.takeFrames r.nl with
      | none => (m, none)
      | some (fs, r) =>
        match r.takeRun with
        | none => (m, none)
        | some (run, r) =>
          match (m.dev.setNs nsid r).takeNode with
          | none => (m, none)
          | some (i, d) =>
            let m := { m with dev := d }
            let m := m.zero (m.nodeAddr i) 256
            let m := m.setNd i Nd.PARENT 4 parent
            let m := m.setNd i Nd.NEXT 4 noNode
            let m := m.setNd i Nd.DBASE 4 (r.descBase + run * r.nl)
            let m := m.setNd i Nd.REFCNT 2 1
            let m := m.setNd i Nd.NSID 1 nsid
            let m := m.setNd i Nd.LASTUSE 4 m.dev.epoch
            (m.setBlockDescs i nsid .filling fs, some i)

/-! ### Appends (R247 to R250) -/

/-- The first `j` positions of every page and the first `j` tokens copied to a new block (R248). -/
def Mach.copyBlock (m : Mach) (r : NsRec) (old new j : Nat) : Mach :=
  let es := r.hd * r.b
  let m := m.store (m.nodeAddr new) (m.rdBytes (m.nodeAddr old) (4 * j))
  let m := m.setNd new Nd.NTOK 1 j
  (List.range r.nl).foldl (fun m l =>
    let src := m.page r old l
    let dst := m.page r new l
    (List.range r.nkv).foldl (fun m g =>
      let o := 32 * g * es
      let m := m.store (dst + o) (m.rdBytes (src + o) (j * es))
      m.store (dst + r.pb / 2 + o) (m.rdBytes (src + r.pb / 2 + o) (j * es))) m) m

/-- The transaction of a context on a sequence. -/
def txFind (ctx : CtxSt) (s : Nat) (recomp : Bool) : Option TxSeq :=
  ctx.tx.find? (fun x => x.slot == s && x.recomp == recomp)
def txSet (ctx : CtxSt) (x : TxSeq) : CtxSt :=
  { ctx with tx := x :: ctx.tx.filter (fun y => !(y.slot == x.slot && y.recomp == x.recomp)) }

/-- Why a write of a call did not happen: memory is short (R254), a recompute write leaves its blocks (R267), or a read or
a partial write met an uncorrectable error (R354). -/
inductive WriteStop where
  | short | outside | lost
deriving DecidableEq, Repr

/-- The pages of a block read by a requester for a loop, checked and counted on the mesh (R19, R354): whether one had an
uncorrectable error. -/
def Mach.pagesRead (m : Mach) (r : NsRec) (i : Nat) (layers : List Nat) (req loop : Nat) : Mach × Bool :=
  layers.foldl (fun (a : Mach × Bool) l =>
    if a.2 then a
    else
      let ad := a.1.page r i l
      match a.1.eccRead ad r.pb req loop with
      | (m, bad) => (m.mod (fun d => d.dmaRows ad r.pb req false), bad.isSome)) (m, false)

/-- The node that a write of position `pos` of a sequence goes to: the step's own block, a new block, a copy, or the
block in place (R245, R248). -/
def Mach.writeNode (m : Mach) (loop : Nat) (x : TxSeq) (pos : Nat) : Mach × (WriteStop ⊕ (Nat × TxSeq)) :=
  let bi := pos / 32
  let j := pos % 32
  let nsid := m.sq x.slot Sq.NSID 1
  if x.recomp then
    let i := m.blk x.slot bi
    if bi < m.sq x.slot Sq.NBLK 4 && m.blockState i == .recomputing then (m, .inr (i, x)) else (m, .inl .outside)
  else match x.wrote.find? (fun w => w.1 == bi) with
    | some w => (m, .inr (w.2.1, x))
    | none =>
      let nblk := m.sq x.slot Sq.NBLK 4
      if bi ≥ nblk then
        let parent := if bi = 0 then noNode else m.blk x.slot (bi - 1)
        match m.newBlock nsid parent with
        | (m, none) => (m, .inl .short)
        | (m, some i) =>
          let m := m.setBlk x.slot bi i
          let m := m.setSq x.slot Sq.NBLK 4 (bi + 1)
          (m, .inr (i, { x with wrote := x.wrote ++ [(bi, i, none)] }))
      else
        let old := m.blk x.slot bi
        if m.nd old Nd.REFCNT 2 > 1 || m.inTree old || m.nd old Nd.NTOK 1 > j then
          match m.newBlock nsid (m.nd old Nd.PARENT 4), m.dev.nsRec nsid with
          | (m, some i), some r =>
            match (if j = 0 then (m, false) else m.pagesRead r old (List.range r.nl) 121 loop) with
            | (m, true) => (m.freeBlock i true, .inl .lost)
            | (m, false) =>
              let m := m.copyBlock r old i j
              let m := m.setBlk x.slot bi i
              let m := (m.unref old).refreshSeq x.slot
              (m.mod (fun d => d.cnt (Reg.TRN_CNT_k 1) 1), .inr (i, { x with wrote := x.wrote ++ [(bi, i, some old)] }))
          | (m, _), _ => (m, .inl .short)
        else (m, .inr (old, { x with wrote := x.wrote ++ [(bi, old, some old)] }))

/-- A block of the step was newly allocated, not written in place. -/
def wroteNew (w : Nat × Nat × Option Nat) : Bool := w.2.2 != some w.2.1

/-- The step's positions on a sequence are discarded (R250): its FILLING blocks are freed, the replaced nodes return. -/
def Mach.txDiscard (m : Mach) (x : TxSeq) : Mach :=
  if x.recomp then
    -- a recompute step that aborts leaves its blocks DROPPED, frames released (R245)
    m.dropRecomputing (m.blks x.slot)
  else
    let m := x.wrote.foldl (fun m w => match w.2.2 with
      | none => m.freeBlock w.2.1 true
      | some old => if old = w.2.1 then m else
          let m := m.freeBlock w.2.1 true
          -- the node that left for GRACE meanwhile comes back with its count
          let m := if (AMap.find m.dev.tarn.grace old).isSome then
              (m.mod (fun d => d.modTarn (fun t => { t with grace := AMap.erase t.grace old }))).setBlockState old .resident
            else m
          (m.ref old).setBlk x.slot w.1 old) m
    (m.setSq x.slot Sq.NBLK 4 (ceilDiv x.base 32)).refreshSeq x.slot

/-- Positions a transaction appended, when every layer received the same count (R250). -/
def TxSeq.count (x : TxSeq) (nl : Nat) : Option Nat :=
  let n := AMap.getD x.layers 0 0
  if (List.range nl).all (fun l => AMap.getD x.layers l 0 == n) then some n else none

/-! ### The prefix tree (R257 to R260) -/

/-- The parent hash of a sequence's first block. -/
def rootHash (r : NsRec) (nsid : Nat) : Nat := (r.modelTag * 2 ^ 32 + r.kvclass * 2 ^ 16 + nsid) % 2 ^ 64

def blockHash (parent : Nat) (tokens : List Byte) : Nat := crc64 (leBytes 8 parent ++ tokens)

/-- The walk of a bucket chain (R258): the matching node, and the collisions met. -/
def Mach.chainWalk (m : Mach) (h nsid parent : Nat) (tokens : List Byte) : Nat → Nat → Nat → Option Nat × Nat
  | 0, _, col => (none, col)
  | fuel + 1, i, col =>
    if i = noNode then (none, col)
    else if m.nd i Nd.HASH 8 = h then
      if m.nd i Nd.NSID 1 == nsid && m.nd i Nd.PARENT 4 == parent && m.rdBytes (m.nodeAddr i) 128 == tokens then
        (some i, col)
      else Mach.chainWalk m h nsid parent tokens fuel (m.nd i Nd.NEXT 4) (col + 1)
    else Mach.chainWalk m h nsid parent tokens fuel (m.nd i Nd.NEXT 4) col

/-- A lookup of a full block: the node, and HASH_COLLIDE counted. -/
def Mach.lookup (m : Mach) (h nsid parent : Nat) (tokens : List Byte) : Mach × Option Nat :=
  let w := m.bucket h
  if bit w 31 then
    let (r, c) := m.chainWalk h nsid parent tokens (m.dev.tarn.nodeNext + 1) (bits w 19 0) 0
    (m.mod (fun d => d.cnt (Reg.TRN_CNT_k 6) c), r)
  else (m, none)

/-- A block that became full enters the tree under the conditions of R260. -/
def Mach.prefixInsert (m : Mach) (s bi : Nat) : Mach :=
  let nsid := m.sq s Sq.NSID 1
  match m.dev.nsRec nsid with
  | none => m
  | some r =>
    let i := m.blk s bi
    let parent := if bi = 0 then noNode else m.blk s (bi - 1)
    if !r.share || m.inTree i || (bi ≠ 0 && !m.inTree parent) then m
    else
      let toks := m.rdBytes (m.nodeAddr i) 128
      let h := blockHash (if bi = 0 then rootHash r nsid else m.nd parent Nd.HASH 8) toks
      let (m, hit) := m.lookup h nsid parent toks
      match hit with
      | some _ => m
      | none =>
        let w := m.bucket h
        let m := m.setNd i Nd.HASH 8 h
        let m := m.setNd i Nd.PARENT 4 parent
        let m := m.setNd i Nd.NFLAGS 1 1
        let m := m.setNd i Nd.NEXT 4 (if bit w 31 then bits w 19 0 else noNode)
        m.setBucket h (2 ^ 31 + i)

/-- The commit of a transaction (R250): FILLING blocks become RESIDENT, LEN advances, full blocks enter the tree. -/
def Mach.txCommit (m : Mach) (x : TxSeq) (n : Nat) : Mach :=
  if x.recomp then
    -- a step advances by up to RPOS positions (R255)
    let len := m.sq x.slot Sq.LEN 4
    let step := match m.dev.nsRec (m.sq x.slot Sq.NSID 1) with
      | some r => min n r.rpos
      | none => n
    let rc := min (x.base + step) len
    let m := m.setSq x.slot Sq.RCUR 4 rc
    -- the block is RESIDENT again once every committed position of it is rewritten
    let m := ((List.range (m.sq x.slot Sq.NBLK 4)).zip (m.blks x.slot)).foldl (fun m p =>
      if m.blockState p.2 == .recomputing && decide (rc ≥ min (32 * (p.1 + 1)) len) then
        (m.setBlockState p.2 .resident).mod (fun d => d.cnt (Reg.TRN_CNT_k 3) 1)
      else m) m
    m.refreshSharers x.slot
  else
    let len := x.base + n
    let m := x.wrote.foldl (fun m w =>
      let m := m.setNd w.2.1 Nd.NTOK 1 (min 32 (len - 32 * w.1))
      let m := m.setNd w.2.1 Nd.LASTUSE 4 m.dev.epoch
      if m.blockState w.2.1 == .filling then m.setBlockState w.2.1 .resident else m) m
    let m := m.setSq x.slot Sq.LEN 4 len
    let m := m.mod (fun d => d.cnt (Reg.TRN_CNT_k 0) n)
    let m := m.refreshSeq x.slot
    (x.wrote.sortLe (fun a b => a.1 ≤ b.1)).foldl (fun m w =>
      if 32 * (w.1 + 1) ≤ len then m.prefixInsert x.slot w.1 else m) m

/-! ### Edits (R251 to R254) -/

def seqIdOf (m : Mach) (s : Nat) : Nat := m.sq s Sq.GEN 1 * 4096 + s

/-- The lowest free slot. -/
def Mach.freeSlot (m : Mach) : Option Nat := (List.range 4096).find? (fun s => !m.openSeqs.contains s)

/-- The generation of a slot's next open (R236). -/
def Mach.nextGen (m : Mach) (s : Nat) : Nat :=
  let g := (AMap.getD m.dev.tarn.gens s 0 + 1) % 16
  if s = 4095 && g = 15 then 0 else g

/-- A slot opened with an entry of R238. -/
def Mach.openSlot (m : Mach) (s nsid maxlen user : Nat) : Mach :=
  let g := m.nextGen s
  let m := m.zero (seqAddr s) 64
  let m := m.setSq s Sq.STATE 1 1
  let m := m.setSq s Sq.NSID 1 nsid
  let m := m.setSq s Sq.GEN 1 g
  let m := m.setSq s Sq.MAXLEN 4 maxlen
  let m := m.setSq s Sq.USER 4 user
  m.mod (fun d => d.modTarn (fun t =>
    { t with gens := AMap.set t.gens s g, openSlots := t.openSlots ++ [s] }))

/-- A close (R247, R251); the blocks that were being recomputed for the sequence are DROPPED first (log 75). -/
def Mach.editClose (m : Mach) (s : Nat) : Mach × Nat :=
  let m := if m.posted s then m.dropRecomputing (m.blks s) else m
  let m := (m.blks s).foldl Mach.unref m
  let m := m.setSq s Sq.STATE 1 0
  ((m.mod (fun d => d.modTarn (fun t => { t with openSlots := t.openSlots.filter (· != s) }))).unpost, ST.OK)

/-- A fork (R247): the new slot shares every block. -/
def Mach.editFork (m : Mach) (s : Nat) : Mach × Nat × Nat :=
  let bs := m.blks s
  if bs.any (fun i => m.nd i Nd.REFCNT 2 ≥ 65535) then (m, ST.TABLE_FULL, 0)
  else match m.freeSlot with
    | none => (m, ST.TABLE_FULL, 0)
    | some f =>
      let m := m.openSlot f (m.sq s Sq.NSID 1) (m.sq s Sq.MAXLEN 4) (m.sq s Sq.USER 4)
      let m := ((List.range bs.length).zip bs).foldl (fun m p => (m.setBlk f p.1 p.2).ref p.2) m
      let m := m.setSq f Sq.LEN 4 (m.sq s Sq.LEN 4)
      let m := m.setSq f Sq.NBLK 4 bs.length
      let m := m.setSq f Sq.LASTUSE 4 (m.sq s Sq.LASTUSE 4)
      (m.refreshSeq f, ST.OK, seqIdOf (m.refreshSeq f) f)

/-- A truncate to length `p` (R253). -/
def Mach.editTruncate (m : Mach) (s p : Nat) : Mach × Nat :=
  if p ≥ m.sq s Sq.LEN 4 then (m, ST.BAD_PARAM)
  else
    let keep := ceilDiv p 32
    let m := if m.posted s then m.dropRecomputing ((m.blks s).drop keep) else m
    let m := ((m.blks s).drop keep).foldl Mach.unref m
    let m := m.setSq s Sq.NBLK 4 keep
    let m := m.setSq s Sq.LEN 4 p
    ((m.refreshSeq s).unpost, ST.OK)

/-- A drop of a sequence's blocks as step 2 of R254 permits. -/
def Mach.editDrop (m : Mach) (s : Nat) : Mach × Nat :=
  match m.dev.nsRec (m.sq s Sq.NSID 1) with
  | none => (m, ST.BAD_PARAM)
  | some r =>
    if !r.drop then (m, ST.BAD_PARAM)
    else
      ((m.blks s).reverse.foldl (fun m i => if m.droppable i [] then m.dropBlock i else m) m, ST.OK)

/-- An edit applied, by its opcode: its status and reply payload. -/
def Mach.applyEdit (m : Mach) (op : Nat) (payload : List Byte) : Mach × Nat × List Byte :=
  match m.seqOfId (pay16 payload 0) with
  | none => (m, ST.NOT_FOUND, [])
  | some s =>
    match op with
    | 0x0409 => let (m, st) := m.editClose s; (m, st, [])
    | 0x040A => let (m, st, id) := m.editFork s; (m, st, leBytes 2 id ++ [0, 0])
    | 0x040B => let (m, st) := m.editTruncate s (pay32 payload 4); (m, st, [])
    | _ => let (m, st) := m.editDrop s; (m, st, [])

/-- Whether a queued edit names a sequence that is still held INUSE by another step. -/
def Mach.editHeld (m : Mach) (e : EditRec) : Bool :=
  match m.seqOfId (pay16 e.payload 0) with
  | none => false
  | some s => m.inuse s

/-- The queued edits of sequences that are no longer INUSE are applied in arrival order (R251, R252, R560). -/
def Mach.applyEdits (m : Mach) : Mach :=
  let es := m.dev.tarn.edits
  es.foldl (fun m e =>
    if m.editHeld e then m
    else
      let (m', st, out) := m.applyEdit e.op e.payload
      let m' := m'.mod (fun d => d.modTarn (fun t => { t with edits := t.edits.erase e }))
      let m' := match m'.seqOfId (pay16 e.payload 0) with
        | some s => m'.setSeqFlag s 2 (m'.dev.tarn.edits.any (fun x => m'.seqOfId (pay16 x.payload 0) == some s))
        | none => m'
      m'.mod (fun d =>
        let d := if st = ST.OK then d else d.cnt (Reg.TRN_CNT_k 14) 1
        (d.setReg Reg.TRN_EDIT_LAST (e.tag * 2 ^ 16 + st)).notify e.tag st out)) m

/-! ### Steps and the engine (R239, R246, R250, R255, R261, R264) -/

/-- The sequences of a batch: each position empty or a slot; stale and repeated positions are counted (R239). -/
def Mach.takeBatch (m : Mach) (ids : List Nat) : Mach × List (Option Nat) :=
  ids.foldl (fun (p : Mach × List (Option Nat)) id =>
    match p.1.seqOfId id with
    | none => (p.1.mod (fun d => d.cnt (Reg.TRN_CNT_k 11) 1), p.2 ++ [none])
    | some s => if p.2.contains (some s) then (p.1.mod (fun d => d.cnt (Reg.TRN_CNT_k 12) 1), p.2 ++ [none])
        else (p.1, p.2 ++ [some s])) (m, [])

/-- A free Tarn context. -/
def Dev.freeCtx (d : Dev) : Option Nat := (List.range 4).find? (fun c => (AMap.find d.tarn.ctxs c).isNone)

/-- A loop's batch: the sequences posted to its recompute batch, else its batch table (R239, R255). -/
def Mach.batchIds (m : Mach) (n : Nat) : List Nat :=
  match AMap.getD m.dev.tarn.posted n [] with
  | [] => AMap.getD m.dev.tarn.batches n (List.replicate 256 0xFFFF)
  | ps => (ps.map (seqIdOf m)).take 256 ++ List.replicate (256 - ps.length) 0xFFFF

/-- A step that uses the engine starts: epoch, context, batch and INUSE marks. -/
def Mach.tarnStart (m : Mach) (n : Nat) : Mach × Option Nat × Option Nat × List (Option Nat) :=
  match m.dev.freeCtx with
  | none => (m, none, none, [])
  | some c =>
    let m := m.mod Dev.nextEpoch
    let e := m.dev.epoch
    let (m, b) := m.takeBatch (m.batchIds n)
    let m := b.foldl (fun m o => match o with
      | none => m
      | some s => ((m.setSeqFlag s 0 true).setSq s Sq.LASTUSE 4 e).mod (fun d =>
          d.modTarn (fun t => { t with inuse := AMap.set t.inuse s n }))) m
    (m.mod (fun d => d.modTarn (fun t => { t with ctxs := AMap.set t.ctxs c { loop := n } })), some c, some e, b)

/-- The checks of R250 and R267 at a step's END: the code of the TARN fault, with its detail. -/
def Mach.tarnEndFault (m : Mach) (c : Nat) : Option (Nat × Nat) :=
  match AMap.find m.dev.tarn.ctxs c with
  | none => none
  | some ctx => ctx.tx.findSome? (fun x =>
      match m.dev.nsRec (m.sq x.slot Sq.NSID 1) with
      | none => none
      | some r => match x.count r.nl with
        | none => some (1, seqIdOf m x.slot)
        | some n => if (r.share || r.drop) && !x.recomp && decide (x.tokens < n) then some (5, 0) else none)

/-- The end of a step's use of the engine: commit or discard, inbox rows discarded, context, INUSE marks and edits. -/
def Mach.tarnEnd (m : Mach) (n : Nat) (c : Option Nat) (batch : List (Option Nat)) (commit : Bool) : Mach :=
  match c with
  | none => m
  | some c =>
    match AMap.find m.dev.tarn.ctxs c with
    | none => m
    | some ctx =>
      let m := ctx.tx.reverse.foldl (fun m x =>
        if commit then
          match m.dev.nsRec (m.sq x.slot Sq.NSID 1) with
          | some r => (match x.count r.nl with
            | some k => m.txCommit x k
            | none => m.txDiscard x)
          | none => m
        else m.txDiscard x) m
      -- a recompute step that aborts leaves the blocks of its sequences DROPPED, though it wrote none yet (R245)
      let mine := AMap.getD m.dev.tarn.posted n []
      let m := if commit then m else
        (batch.filterMap id).foldl (fun m s => if mine.contains s then m.dropRecomputing (m.blks s) else m) m
      let m := m.mod (fun d => ctx.inboxes.foldl (fun d p =>
        if p.2.isEmpty then d else
          (d.raiseFor n 0 Src.TARN 0x0004 c (p.1 + p.2.length * 2 ^ 32)).cnt (Reg.TRN_CNT_k 13) p.2.length) d)
      let m := batch.foldl (fun m o => match o with
        | none => m
        | some s => (m.setSeqFlag s 0 false).mod (fun d =>
            d.modTarn (fun t => { t with inuse := AMap.erase t.inuse s }))) m
      (m.mod (fun d => d.modTarn (fun t => { t with ctxs := AMap.erase t.ctxs c }))).unpost.applyEdits

end Sys2Proof.Machine
end

