-- ==== Sys2Proof/Machine/Steps.lean ====
section
/-!
DEFINITION. Steps of loops: accounts and urgency, resources, the save area, starting a step, calling for a pre-emption,
the end and the abort of a step, and what applies at its end (R137, R143, R148, R163, R188, R201, R280 to R304, R491,
R503 to R505).
-/
namespace Sys2Proof.Machine

/-! ### Loop fields in effect (R273, R312) -/

def Dev.loopClass (d : Dev) (n : Nat) : Nat := d.effRf (Reg.SCH_LOOPn_CFG n) Fld.SCH_LOOPn_CFG.CLASS
def Dev.loopEn (d : Dev) (n : Nat) : Bool := d.rfB (Reg.SCH_LOOPn_CFG n) Fld.SCH_LOOPn_CFG.EN
/-- W; 0 acts as 1. -/
def Dev.loopShare (d : Dev) (n : Nat) : Nat := max 1 (d.effRf (Reg.SCH_LOOPn_CFG n) Fld.SCH_LOOPn_CFG.SHARE)
/-- PERIOD in µs; below 10 acts as 10. -/
def Dev.loopPeriod (d : Dev) (n : Nat) : Nat := max 10 (d.effRf (Reg.SCH_LOOPn_PERIOD n) Fld.SCH_LOOPn_PERIOD.PERIOD)
def Dev.loopPhase (d : Dev) (n : Nat) : Nat :=
  d.effRf (Reg.SCH_LOOPn_PHASE n) Fld.SCH_LOOPn_PHASE.PHASE % d.loopPeriod n
def Dev.loopGuard (d : Dev) (n : Nat) : Nat := d.effRf (Reg.SCH_LOOPn_WIN n) Fld.SCH_LOOPn_WIN.GUARD
def Dev.loopLen (d : Dev) (n : Nat) : Nat := d.effRf (Reg.SCH_LOOPn_WIN n) Fld.SCH_LOOPn_WIN.LEN
def Dev.saveBase (d : Dev) (n : Nat) : Nat :=
  d.rf (Reg.SCH_LOOPn_SAVE_LO n) Fld.SCH_LOOPn_SAVE_LO.BASE_LO * 2 ^ 16
    + d.rf (Reg.SCH_LOOPn_SAVE_HI n) Fld.SCH_LOOPn_SAVE_HI.BASE_HI * 2 ^ 32
def Dev.saveSize (d : Dev) (n : Nat) : Nat := d.rf (Reg.SCH_LOOPn_SAVE_SIZE n) Fld.SCH_LOOPn_SAVE_SIZE.SIZE * 65536

def loopRegs (n : Nat) : List Nat :=
  [Reg.SCH_LOOPn_CFG n, Reg.SCH_LOOPn_PERIOD n, Reg.SCH_LOOPn_PHASE n, Reg.SCH_LOOPn_WIN n]

/-- The next instant congruent to PHASE modulo PERIOD after the latest one, in microseconds (R275, R276). -/
def Dev.nextInstant (d : Dev) (n : Nat) : Nat :=
  let p := d.loopPeriod n
  let t := (d.loop n).mark + 1
  t + (d.loopPhase n + p - t % p) % p

/-- An event at a whole microsecond of the timebase. -/
def Dev.reachUs (d : Dev) (us : Nat) : Dev := d.reach (nsStamp (1000 * us))

/-- What decides a loop's instants. -/
def Dev.timing (d : Dev) (n : Nat) : Bool × Nat × Nat × Nat := (d.loopEn n, d.loopClass n, d.loopPeriod n, d.loopPhase n)

/-- A change of a loop's EN, CLASS, PERIOD or PHASE: its next instant is the first congruent one from then on (R275,
R312). -/
def Dev.retime (d old : Dev) (n : Nat) : Dev :=
  if d.timing n = old.timing n then d else d.modLoop n (fun l => { l with mark := d.us })

/-- A loop count of SCH_LOOPn_CNT_k. -/
def Dev.loopCnt (d : Dev) (n k : Nat) : Dev := d.cnt (Reg.SCH_LOOPn_CNT_k n k) 1

/-! ### Steps and ridges (R272) -/

/-- The step of a loop, when it holds its ridges: running, saving or restoring. -/
def Dev.holding (d : Dev) (n : Nat) : Option StepSt :=
  (d.loop n).step.bind (fun s => if s.phase == .preempted then none else some s)

/-- The loop whose step holds ridge `r`. -/
def Dev.ridgeLoop (d : Dev) (r : Nat) : Option Nat :=
  (List.range 16).find? (fun n => match d.holding n with
    | some s => s.b.ridges.contains r
    | none => false)

/-- The loop whose step holds tile `t`. -/
def Dev.tileLoop (d : Dev) (t : Nat) : Option Nat := d.ridgeLoop (t / 4)

/-- A save or a restore of CARRY regions is under way on the ridge (R303). -/
def Dev.carryOn (d : Dev) (r : Nat) : Bool :=
  (List.range 16).any (fun n =>
    let l := d.loop n
    l.carryBusy.isSome && (match l.binding with
      | some b => b.ridges.contains r
      | none => false))

/-- A self-test chunk is running on the ridge (R508, R509). -/
def Dev.chunkOn (d : Dev) (r : Nat) : Bool := (List.range 4).any (fun i => (d.tile (4 * r + i)).chunk.isSome)

def Dev.ridgeFree (d : Dev) (r : Nat) : Bool := (d.ridgeLoop r).isNone && !d.carryOn r && !d.chunkOn r

/-- The keys of the lists of a loop's step. -/
def Dev.stepLists (d : Dev) (n : Nat) : List Nat :=
  (d.lists.filter (fun p => p.2.loop == n)).map (·.1)

/-! ### Accounts (R279 to R283) -/

def Dev.charge (d : Dev) (n beats : Nat) : Dev := d.modLoop n (fun l => { l with acct := satAdd 64 l.acct beats })

/-- An open number of beats charged to a loop: no operand carries the meters (log 21). -/
def Dev.chargeFree (d : Dev) (n : Nat) : Dev :=
  let (i, d) := d.fresh
  d.charge n (Config.freeBeats i)

/-- Loop `a` ranks before loop `b` (R281). -/
def Dev.ranksBefore (d : Dev) (a b : Nat) : Bool :=
  let x := (d.loop a).acct * d.loopShare b
  let y := (d.loop b).acct * d.loopShare a
  decide (x < y) || (x == y && decide (a < b))

/-- The loop of a list that ranks first. -/
def Dev.first (d : Dev) (ls : List Nat) : Option Nat :=
  ls.foldl (fun a n => match a with
    | none => some n
    | some m => if d.ranksBefore n m then some n else some m) none

/-- R283, at each step start. -/
def Dev.renorm (d : Dev) : Dev :=
  let ls := (List.range 16).filter (fun n => (d.loop n).binding.isSome)
  if !ls.isEmpty && ls.all (fun n => decide ((d.loop n).acct ≥ 2 ^ 40 * d.loopShare n)) then
    match d.first ls with
    | none => d
    | some m =>
      let k := (d.loop m).acct / d.loopShare m
      ls.foldl (fun d n => d.modLoop n (fun l => { l with acct := l.acct - k * d.loopShare n })) d
  else d

/-! ### Urgency, semaphores and Col credit pools (R288 to R294) -/

def Dev.ownUrgency (d : Dev) (n : Nat) : Nat := d.loopClass n * 16 + (15 - n)

/-- The urgency of a loop's step (R288); the boost adds the highest step that called for its pre-emption. -/
def Dev.urgency (d : Dev) (n : Nat) : Nat :=
  match (d.loop n).step with
  | none => d.ownUrgency n
  | some s =>
    if !s.boosted then d.ownUrgency n
    else if s.callers.isEmpty then max (d.ownUrgency n) (16 + (15 - n))
    else s.callers.foldl (fun u c => max u (d.ownUrgency c)) (d.ownUrgency n)

/-- The number under which State keeps a resource: semaphores, then Col credit pools from 1,024. -/
def resKey (r : ResRec) : Nat := if r.kind = 0 then r.number else 1024 + r.number

/-- A Col credit pool's port translated through the package map (R329). -/
def Dev.poolKey (d : Dev) (b : Binding) (r : ResRec) : Nat :=
  if r.kind = 0 then r.number
  else
    let port := r.number / 4
    -- the logical peer that the pool's pair leads to from the own logical package
    let own := b.own d.pkg
    let peer := b.pmap.getD (own ^^^ (port / 2 + 1)) 0
    if peer = d.pkg || own ^^^ (port / 2 + 1) ≥ b.route.npkg then 1024 + r.number
    else 1024 + 4 * (2 * d.pairTo peer + port % 2) + r.number % 4

/-- A resource granted to a list: the list's ACQUIRE completes (R290); the event, when it is one (R79). -/
def Dev.grantOne (d : Dev) (key : Nat) (w : Waiter) : Dev × List NdEvent :=
  let r := d.resOf key
  let d := d.setRes key { r with holder := some (w.list, w.loop), waiters := r.waiters.erase w }
  let d := d.modList w.list (fun l => { l with
    waiting := none
    held := l.held ++ [(key, w.rank)]
    flights := l.flights.filter (fun f => !(f.kind == K.CHECK && Chk.op f.word == 1)) })
  (d, match r.lastLoop with
    | some p => if w.shared && decide (key < 1024) && p != w.loop then [⟨3, w.loop, key⟩] else []
    | none => [])

def Dev.grantRes (d : Dev) (key : Nat) (w : Waiter) : Dev :=
  let (d, es) := d.grantOne key w
  d.ndEvents es

/-- The waiting request that a freed resource goes to (R290). -/
def Dev.nextWaiter (d : Dev) (r : ResSt) : Option Waiter :=
  r.waiters.foldl (fun a w => match a with
    | none => some w
    | some x => if d.urgency w.loop > d.urgency x.loop then some w else some x) none

/-- A resource released and granted to the most urgent waiting step (R290). -/
def Dev.releaseOne (d : Dev) (key : Nat) : Dev × List NdEvent :=
  let r := d.resOf key
  match r.holder with
  | none => (d, [])
  | some (list, loop) =>
    let d := d.modList list (fun l => { l with held := l.held.filter (fun h => h.1 != key) })
    let r := { r with holder := none, lastLoop := some loop }
    let d := d.setRes key r
    let (d, es) := match d.nextWaiter r with
      | some w => d.grantOne key w
      | none => (d, [])
    (if key < 1024 then d else d.colKick ((key - 1024) / 4) 1024, es)

def Dev.releaseRes (d : Dev) (key : Nat) : Dev :=
  let (d, es) := d.releaseOne key
  d.ndEvents es

/-- The waiting requests of a step are withdrawn (R294, R296). -/
def Dev.withdraw (d : Dev) (n : Nat) : Dev :=
  { d with res := List.map (fun (p : Nat × ResSt) =>
      (p.1, { p.2 with waiters := p.2.waiters.filter (fun w => w.loop != n) })) d.res }

/-- Every resource that the lists of a step hold or wait for is given up (R294, R296). -/
def Dev.dropResources (d : Dev) (n : Nat) : Dev :=
  let d := d.withdraw n
  let mine := List.filter (fun (p : Nat × ResSt) => match p.2.holder with
    | some h => h.2 == n
    | none => false) d.res
  let (d, es) := mine.foldl (fun (q : Dev × List NdEvent) p =>
    let (d, es) := q.1.releaseOne p.1
    (d, q.2 ++ es)) (d, [])
  d.ndEvents es

/-- The step of a loop holds a semaphore or a Col credit pool. -/
def Dev.holdsAny (d : Dev) (n : Nat) : Bool :=
  List.any d.res (fun (p : Nat × ResSt) => match p.2.holder with
    | some h => h.2 == n
    | none => false)

/-! ### The save area (R300, R303) -/

/-- The rows that a tile's live regions hold, in the order of the live-memory map: region kind, partial-sum memory, and
row. -/
def liveRows (r : Route) (lt : Nat) : List (Nat × Bool × Nat) :=
  (r.live.filter (fun v => v.ltile == lt)).flatMap (fun v =>
    (List.range v.nrows).map (fun i => (v.kind, v.kind == 1, v.first + i)))

/-- Where each live row of a binding stands: region kind, its address in the tile, and its offset in the save area. -/
def Binding.places (b : Binding) : List (Nat × Nat × Nat) :=
  let used := (List.range (4 * b.route.nridges)).filter (listUsed b.route)
  (used.foldl (fun (p : Nat × List (Nat × Nat × Nat)) lt =>
    let rows := liveRows b.route lt
    let t := b.tile lt
    let l := ((List.range rows.length).zip rows).map (fun q =>
      (q.2.1, (if q.2.2.1 then psAddr t q.2.2.2 else amAddr t q.2.2.2), p.1 + 16384 + 64 * q.1))
    (p.1 + 16384 + 64 * rows.length, p.2 ++ l)) (4096, [])).2

/-- The CARRY rows of a binding, on every tile it declares them for. -/
def Binding.carryRows (b : Binding) : List Nat :=
  (b.route.live.filter (fun v => v.kind == 3)).flatMap (fun v =>
    (List.range v.nrows).map (fun i => amAddr (b.tile v.ltile) (v.first + i)))

def Binding.hasCarry (b : Binding) : Bool := b.route.live.any (fun v => v.kind == 3)

/-- The spur section of a binding copied from its image into every tile that runs it (R164). -/
def Mach.copySpur (m : Mach) (b : Binding) : Mach :=
  let sec := m.rdBytes (b.route.addr + b.route.spurOff) b.route.spurLen
  b.usedTiles.foldl (fun m t => m.store (spurAddr t b.route.spurBase) sec) m

/-- Zero written to the CARRY regions of a binding, and its spur section copied into every tile that runs it (R163,
R164). -/
def Mach.freshBinding (m : Mach) (b : Binding) : Mach :=
  (b.carryRows.foldl (fun m a => m.zero a 64) m).copySpur b

/-! ### Cairn (R503 to R505) -/

def Dev.cairnLoop (d : Dev) : Option Nat := d.cairn.map (fun c => field c 0 1)
def Dev.cairnOn (d : Dev) : Bool := d.rfB Reg.SAF_CTRL Fld.SAF_CTRL.CAIRN_EN && d.cairn.isSome

/-- A miss (R505). -/
def Dev.cairnMiss (d : Dev) (n : Nat) : Dev :=
  match d.cairn with
  | none => d
  | some c =>
    let run := satAdd 8 (d.rf Reg.SAF_CAIRN_STAT Fld.SAF_CAIRN_STAT.RUN) 1
    let d := (d.cnt (Reg.SAF_CNT_k 7) 1).setReg Reg.SAF_CAIRN_STAT (2 * 2 ^ 30 + run)
    let d := if run = field c 3 1 then d.raiseFor n 1 Src.CAIRN 0x0001 0xFFFF run else d
    if run = field c 4 1 then
      { d.raiseFor n 2 Src.CAIRN 0x0002 0xFFFF run with saf := { d.saf with missF2 := true } }
    else d

/-- A pass sets the run to zero (R505). -/
def Dev.cairnPass (d : Dev) : Dev :=
  let d := (d.cnt (Reg.SAF_CNT_k 6) 1).setReg Reg.SAF_CAIRN_STAT (1 * 2 ^ 30)
  { d with saf := { d.saf with missF2 := false } }

/-- A void step leaves the miss run as it stands (R504). -/
def Dev.cairnVoid (d : Dev) (n win : Nat) : Dev :=
  ((d.cnt (Reg.SAF_CNT_k 8) 1).wf Reg.SAF_CAIRN_STAT Fld.SAF_CAIRN_STAT.LAST 3).raiseFor n 0 Src.CAIRN 0x0003 0xFFFF win

/-- How a Cairn step that aborted came out (R504): void when the loop's ND_EVENTS rose during it, else a miss (log 81). -/
def Dev.cairnAborted (d : Dev) (n : Nat) (st : StepSt) : Dev :=
  if d.reg (Reg.GEN_ND_LOOP_n n) > st.nd0 then d.cairnVoid n st.cairnWin else d.cairnMiss n

/-- How a Cairn step that ended normally came out (R504). -/
def Dev.cairnCheck (d : Dev) (n : Nat) (st : StepSt) : Dev :=
  match d.cairn with
  | none => d
  | some c =>
    if d.reg (Reg.GEN_ND_LOOP_n n) > st.nd0 then d.cairnVoid n st.cairnWin
    else
      let ok := (List.range (field c 2 1)).all (fun i =>
        let lt := field c (0x50 + 16 * i) 1
        let sg := field c (0x51 + 16 * i) 1
        let v := (d.tile (st.b.tile lt)).sigs.getD sg 0
        (crcParams 3).finish v == field c (0x58 + 16 * i) 8)
      if ok && !st.lateCairn then d.cairnPass else d.cairnMiss n

/-! ### What holds a loop back (R278) -/

/-- The sequences that a step of the loop would take: its batch, empty and stale positions left out. -/
def Mach.batchSlots (m : Mach) (n : Nat) : List Nat :=
  ((m.batchIds n).filterMap m.seqOfId).foldl (fun l s => if l.contains s then l else l ++ [s]) []

/-- A sequence of the batch is INUSE by another step, or needs its blocks recomputed first (R240).  The loop that
recomputes the sequence is not held by it. -/
def Mach.batchHeld (m : Mach) (n : Nat) : Bool :=
  let posted := AMap.getD m.dev.tarn.posted n []
  (m.batchSlots n).any (fun s => m.inuse s || (m.needRc s && !posted.contains s))

/-- The packages of a binding's map other than this one. -/
def Dev.peersOf (d : Dev) (b : Binding) : List Nat := (b.pmap.take b.route.npkg).filter (· != d.pkg)

/-- The map of a binding as a report carries it. -/
def Binding.mapByte (b : Binding) : Nat :=
  ((List.range b.route.npkg).foldl (fun v i => v + b.pmap.getD i 0 * 4 ^ i) 0) % 256

/-- A route's sends to logical packages other than `own`: those of the tiles and of the ingest list, and the deliveries of
the Tarn list (R188, R599). -/
def Mach.crossSends (m : Mach) (r : Route) (own : Nat) : List CrossSend :=
  (routeLists m r).flatMap (fun l => l.2.filterMap (fun e =>
    let out := fun (pkg tile q : Nat) => if pkg = own then none
      else some (⟨Fin.ofNat 128 l.1, Fin.ofNat 4 pkg, Fin.ofNat 96 tile, Fin.ofNat 16 q⟩ : CrossSend)
    if Ent.kind e.2 = K.SEND then out (Send.dpkg e.2) (Send.dtile e.2) (Send.dq e.2)
    else if Ent.kind e.2 = K.TARN && l.1 == 0x7E && Tarn.op e.2 ≥ 3 then out (Tarn.dpkg e.2) (Tarn.dtile e.2) (Tarn.dq e.2)
    else none))

/-- A route's queues whose producer lies in a logical package other than `own`.  Only a tile producer has a package field:
a queue of an engine is fed by the engine of its own package (DESIGN CHOICE, log 69). -/
def Route.crossQueues (r : Route) (own : Nat) : List CrossQueue :=
  (r.live.filter (fun v => v.kind == 2 && v.pkind == 0 && v.ppkg != own)).map (fun v =>
    ⟨Fin.ofNat 4 v.ppkg, Fin.ofNat 96 v.pltile, Fin.ofNat 96 v.ltile, Fin.ofNat 16 v.qnum, Fin.ofNat 32769 v.nrows⟩)

/-- What this package reports of a binding (R342, R599). -/
def Mach.ownReport (m : Mach) (b : Binding) (bound : Bool) : PeerReport :=
  let own := b.own m.dev.pkg
  { bound := bound
    pmap := b.mapByte
    sends := m.crossSends b.route own
    queues := b.route.crossQueues own
    lists := (List.range (4 * b.route.nridges)).filter (listUsed b.route) }

/-- The reports of the packages of a binding's map, by logical package: its own, and of each peer that has bound the loop
with an equal map, that peer's. -/
def Mach.mapReports (m : Mach) (n : Nat) (b : Binding) : List (Nat × PeerReport) :=
  (List.range b.route.npkg).filterMap (fun i =>
    let k := b.pmap.getD i 0
    if k = m.dev.pkg then some (i, m.ownReport b true)
    else match AMap.find (m.dev.loop n).reports k with
      | some r => if r.bound && r.pmap % 4 ^ b.route.npkg == b.mapByte then some (i, r) else none
      | none => none)

/-- A mismatch that a package's report finds among the reports of the map (R599): the logical tile and the queue. -/
def reportMismatch (rs : List (Nat × PeerReport)) (i : Nat) (r : PeerReport) : Option (Nat × Nat) :=
  let send := r.sends.find? (fun s => match AMap.find rs s.pkg.val with
    | none => false
    | some y => !y.queues.any (fun q => q.pkg.val == i && q.producer.val == s.list.val && q.tile == s.tile && q.q == s.q))
  let queue := r.queues.find? (fun q => match AMap.find rs q.pkg.val with
    | none => false
    | some y => !y.lists.contains q.producer.val)
  match send, queue with
  | some s, _ => some (s.tile.val, s.q.val)
  | none, some q => some (q.tile.val, q.q.val)
  | none, none => none

/-- A mismatch among the reports of all packages of the map (R599): the package whose report found it, the logical tile and
the queue. -/
def Mach.crossMismatch (m : Mach) (n : Nat) (b : Binding) : Option (Nat × Nat × Nat) :=
  let rs := m.mapReports n b
  rs.findSome? (fun x => (reportMismatch rs x.1 x.2).map (fun y => (b.pmap.getD x.1 0, y)))

/-- A loop that spans packages waits for equal reports of all of them and for the checks to pass (R342, R599). -/
def Mach.spanReady (m : Mach) (n : Nat) (b : Binding) : Bool :=
  (m.mapReports n b).length == b.route.npkg && (m.crossMismatch n b).isNone

/-- A paced loop with no release pending, or a safety loop with no open window whose step is to come and no late step
(R278). -/
def Dev.unreleased (d : Dev) (n : Nat) : Bool :=
  let l := d.loop n
  (d.loopClass n == 1 && !l.release)
    || (d.loopClass n == 2 && !(l.window && l.due.any (fun w => w.opened == l.openedUs)) && !l.due.any (·.late))

/-- The first unmet condition of R278, as SCH_LOOPn_STAT.WAIT encodes it; 0 when the loop is eligible. -/
def Mach.waitCode (m : Mach) (n : Nat) : Nat :=
  let l := m.dev.loop n
  match l.binding with
  | none => 1
  | some b0 =>
    let b := match l.step with
      | some s => s.b
      | none => b0
    if !m.dev.loopEn n || !m.spanReady n b then 1
    else if m.dev.unreleased n then 2
    else match l.step with
      -- a step holds its Tarn context and its sequences
      | some s => if s.phase != .preempted then 3 else if saveBytes b.route > m.dev.saveSize n then 6 else 0
      | none =>
        if b.route.hasTarn && m.dev.freeCtx.isNone then 4
        else if b.route.hasTarn && m.batchHeld n then 5
        else if saveBytes b.route > m.dev.saveSize n then 6
        else 0

/-- The loop's step may start, or resume: an eligible loop, or a pre-empted step that waits to resume, whatever its loop
still waits for, while EN is 1 (R285, R312). -/
def Mach.mayBegin (m : Mach) (n : Nat) : Bool :=
  match (m.dev.loop n).step with
  | some s => s.phase == .preempted && m.dev.loopEn n && m.spanReady n s.b
  | none => m.waitCode n == 0

/-! ### Starting a step (R285) -/

/-- Key of a queue as its producer knows it. -/
def prodKey (pkg tile q : Nat) : Nat := (pkg * 96 + tile) * 16 + q

/-- The landing queues that a route declares on a logical tile. -/
def Route.queues (r : Route) (lt : Nat) : List LiveRec := r.live.filter (fun v => v.ltile == lt && v.kind == 2)

/-- The queue registers of a tile at a step start (R143, R201). -/
def Dev.startQueues (d : Dev) (b : Binding) (t : Nat) : Dev :=
  let qs := b.route.queues (b.ltile t)
  (List.range 16).foldl (fun d q =>
    let left := d.rf (Reg.TILE_LQn_RD t q) Fld.TILE_LQn_RD.LEFT
    let d := (d.setReg (Reg.TILE_LQn_PTR t q) 0).setReg (Reg.TILE_LQn_RD t q) (left * 2 ^ 31)
    match qs.find? (fun v => v.qnum == q) with
    | none => (d.setReg (Reg.TILE_LQn_CFG t q) 0).setReg (Reg.TILE_LQn_SRC t q) 0
    | some v =>
      let d := d.setReg (Reg.TILE_LQn_CFG t q) (2 ^ 31 + (v.nrows - 1) * 2 ^ 16 + v.first)
      let d := d.setReg (Reg.TILE_LQn_SRC t q) (v.pkind * 2 ^ 30
        + (if v.pkind = 0 then b.pmap.getD v.ppkg 0 * 2 ^ 28 + b.tile v.pltile else 0))
      let k := prodKey d.pkg t q
      { d with credits := AMap.set d.credits k v.nrows
               transit := AMap.erase d.transit (16 * t + q) }) d

/-- A tile at the start of a step: empty stationary registers, ring and signatures (R93, R137, R148, R504). -/
def Dev.startTile (d : Dev) (b : Binding) (t : Nat) : Dev :=
  let d := d.modTile t (fun x => { x with
    larr := List.replicate 4 {}
    slots := List.replicate 6 {}
    sptr := 0
    fillq := []
    nextFill := 0
    fills := []
    lqRead := []
    parr := x.parr.map (fun a => { a with drain := [] })
    spur := { x.spur with call := none, called := false }
    sigs := List.replicate 16 0xFFFFFFFFFFFFFFFF
    lossy := 0
    unchecked := 0
    faulted := false })
  let d := { d with saf := { d.saf with
    halting := d.saf.halting.filter (· != t)
    wasReset := d.saf.wasReset.filter (· != t) } }
  let d := (List.range 6).foldl (fun d s => d.setReg (Reg.TILE_WR_SLOTn t s) 0) d
  let d := d.setReg (Reg.TILE_WR_STAT t) (b.route.runAhead * 2 ^ 23)
  let d := d.applyShadow (Reg.TILE_ARR_CTRL t)
  d.startQueues b t

def startList (n addr count : Nat) : ListSt := { loop := n, addr := addr, count := count }

/-- The lists of a step: its used tiles', the Tarn list and the ingest list. -/
def Dev.startLists (d : Dev) (n : Nat) (b : Binding) : Dev :=
  let r := b.route
  let d := ((List.range (4 * r.nridges)).filter (listUsed r)).foldl (fun d lt =>
    let (off, cnt) := r.lists.getD lt (0, 0)
    d.setList (b.tile lt) (startList n (r.addr + off) cnt)) d
  let d := if r.tarnCnt > 0 then d.setList (96 + n) (startList n (r.addr + r.tarnOff) r.tarnCnt) else d
  if r.ingCnt > 0 then d.setList (112 + n) (startList n (r.addr + r.ingOff) r.ingCnt) else d

/-- A step of loop `n` starts on its ridges (R285, R430, R496, R503, R504); `nowUs` is the time of the decision. -/
def Mach.startStep (m : Mach) (n nowUs : Nat) : Mach :=
  let m := m.mod (fun d => (((Reg.CE_POSTn_CFG n :: loopRegs n).foldl Dev.applyShadow d).retime d n).renorm)
  match (m.dev.loop n).binding with
  | none => m
  | some b =>
    let (m, ctx, epoch, batch) := if b.route.hasTarn then m.tarnStart n else (m, none, none, [])
    let l := m.dev.loop n
    let safety := m.dev.loopClass n == 2
    let win := l.due.head?
    let cairn := safety && m.dev.cairnOn && m.dev.cairnLoop == some n
      && (match m.dev.cairn, win.bind (·.number) with
        | some c, some k => k % field c 8 4 == field c 8 4 - 1
        | _, _ => false)
    let lateBy := match win with
      | some w => if safety then nowUs - w.opened else 0
      | none => 0
    let late := safety && win.any (·.late)
    let lateC := cairn && decide (lateBy ≥ m.dev.loopLen n)
    let m := if late then
        m.mod (fun d => (d.cnt (Reg.SCH_CNT_k 3) 1).raiseFor n 1 Src.SCHED 0x0002 0xFFFF (min lateBy 0xFFFFFFFF))
      else m
    let (m, bound) := if b.route.hasIngest then
        (m.ingestStreams b.route).foldl (fun (p : Mach × List Bound) s =>
          let (m, x) := if cairn then p.1.bindCairn (m.dev.cairn.getD []) s else p.1.bindStream n s
          (m, p.2 ++ [x])) (m, [])
      else (m, [])
    let m := m.mod (fun d => b.ridges.foldl (fun d r =>
      (List.range 4).foldl (fun d i => d.startTile b (4 * r + i)) d) d)
    -- credits for queues of other packages: the lengths that their reports give
    let own := b.own m.dev.pkg
    let far := (m.mapReports n b).flatMap (fun x => (x.2.queues.filter (fun q => q.pkg.val == own)).map (fun q => (x.1, q)))
    let m := m.mod (fun d => far.foldl (fun d x => { d with
      credits := AMap.set d.credits (prodKey (b.pmap.getD x.1 0) (b.tile x.2.tile.val) x.2.q.val) x.2.rows.val }) d)
    let st : StepSt := {
      b := b
      budget := (b.route.budget : Rat)
      epoch := epoch
      ctx := ctx
      batch := batch
      bound := bound
      cairn := cairn
      cairnWin := (win.bind (·.number)).getD 0
      lateCairn := lateC
      heldBy := l.heldBy
      nd0 := m.dev.reg (Reg.GEN_ND_LOOP_n n)
      startUs := nowUs }
    m.mod (fun d => (d.modLoop n (fun l => { l with
      step := some st
      release := false
      due := if safety then l.due.drop 1 else l.due
      heldBy := [] })).startLists n b)

/-! ### Calling for a pre-emption (R286, R293, R295) -/

/-- The end of a boost: BOOST_LAST and BOOST_MAX (R293). -/
def Dev.endBoost (d : Dev) (n : Nat) : Dev :=
  match (d.loop n).step with
  | none => d
  | some st =>
    if !st.boosted then d
    else
      let old := d.rf (Reg.SCH_LOOPn_BOOST_T n) Fld.SCH_LOOPn_BOOST_T.BOOST_MAX
      let b16 := min (d.us - st.boostStart) 65535
      (d.setReg (Reg.SCH_LOOPn_BOOST_T n) (max old b16 * 2 ^ 16 + b16)).modStep n (fun s => { s with boosted := false })

/-- The halt: the step's lists issue no further entry and its waiting requests are withdrawn (R295, R296); with remote
producers the hold goes to each such peer (R299). -/
def Dev.beginSave (d : Dev) (n : Nat) : Dev :=
  match (d.loop n).step with
  | none => d
  | some st =>
    let d := d.withdraw n
    let d := (d.stepLists n).foldl (fun (d : Dev) k => d.modList k (fun l =>
      let wait := l.flights.filter (fun f => l.waiting.isSome && f.kind == K.CHECK && Chk.op f.word == 1)
      { l with
        stopped := true
        waiting := none
        flights := l.flights.filter (fun f => !wait.contains f)
        redo := l.redo ++ wait.map (fun f => (f.entry, f.word)) })) d
    let own := st.b.own d.pkg
    let peers := ((st.b.route.live.filter (fun v => v.kind == 2 && v.pkind == 0 && v.ppkg != own
      && listUsed st.b.route v.ltile)).map (fun v => st.b.pmap.getD v.ppkg 0)).foldl
        (fun l k => if l.contains k then l else l ++ [k]) []
    let d := peers.foldl (fun d k => d.toPeer k [0x48, BitVec.ofNat 8 n] 1) d
    let d := d.endBoost n
    d.modStep n (fun s => { s with
      phase := .saving
      called := true
      haltUs := d.us
      holds := peers.map (fun k => (k, none)) })

/-- A list of the step, or the hart of one of its spur cores, is halted by debug (R543). -/
def Dev.dbgHalted (d : Dev) (n : Nat) : Bool :=
  List.any d.lists (fun (p : Nat × ListSt) => p.2.loop == n && p.2.dbgHalt)
    || (match (d.loop n).step with
        | some st => d.harts.any (fun h => decide (4 ≤ h) && st.b.holdsTile (h - 4))
        | none => false)

/-- Pre-emption of a loop's step called for by the step of `caller`, or by no step (R286, R293, R302). -/
def Dev.callPreempt (d : Dev) (n : Nat) (caller : Option Nat) : Dev :=
  match (d.loop n).step with
  | none => d
  | some st =>
    let add := fun (s : StepSt) => match caller with
      | some c => if s.callers.contains c then s else { s with callers := s.callers ++ [c] }
      | none => s
    match st.phase with
    | .running =>
      let d := d.modStep n (fun s => add { s with called := true })
      if d.dbgHalted n then d
      else if d.holdsAny n then
        if st.boosted then d
        else (d.modStep n (fun s => { s with boosted := true, boostStart := d.us })).cnt (Reg.SCH_CNT_k 1) 1
      else d.beginSave n
    | .restoring =>
      -- the restore stops; its beats go to the loop that called for the pre-emption it was undoing
      let d := d.chargeFree (st.callers.headD n)
      d.modStep n (fun s => { s with phase := .preempted, callers := match caller with
        | some c => [c]
        | none => [] })
    | _ => d

/-- After a RELEASE: the pre-emption that waited for it proceeds once the step holds nothing (R293). -/
def Dev.afterRelease (d : Dev) (n : Nat) : Dev :=
  match (d.loop n).step with
  | none => d
  | some st => if st.phase == .running && st.called && !d.holdsAny n && !d.dbgHalted n then d.beginSave n else d

/-! ### What applies at a step's end (R201, R312) -/

/-- The lead raises one fault for a mismatch that stands (R599). -/
def Mach.checkCross (m : Mach) (n : Nat) : Mach :=
  match (m.dev.loop n).binding with
  | none => m
  | some b =>
    match m.crossMismatch n b with
    | none => m
    | some (k, lt, q) =>
      if m.dev.pkg ≠ 0 || (m.dev.loop n).mismatchRaised then m
      else m.mod (fun d => (d.raiseFor n 1 Src.SCHED 0x0005 k (lt + q * 2 ^ 8)).modLoop n (fun l =>
        { l with mismatchRaised := true }))

/-- The report of a bound loop to its peers, in the form that `Mach.peerReport` reads (R342, R599). -/
def Mach.reportBound (m : Mach) (n : Nat) (b : Binding) (bound : Bool) : Mach :=
  let r := m.ownReport b bound
  let bs := leBytes 1 0x4C ++ leBytes 1 n ++ leBytes 1 (b2n bound) ++ leBytes 1 r.pmap ++ leBytes 2 r.sends.length
    ++ leBytes 2 r.queues.length
    ++ leBytes 12 (r.lists.foldl (fun v i => v + 2 ^ i) 0)
    ++ r.sends.flatMap (fun s => leBytes 1 s.list.val ++ leBytes 1 s.pkg.val ++ leBytes 1 s.tile.val ++ leBytes 1 s.q.val)
    ++ r.queues.flatMap (fun q => leBytes 1 q.pkg.val ++ leBytes 1 q.producer.val ++ leBytes 1 q.tile.val
      ++ leBytes 1 q.q.val ++ leBytes 2 q.rows.val)
  (m.dev.peersOf b).foldl (fun m k => m.mod (fun d => d.toPeer k bs bs.length)) m

/-- A binding takes effect (R201, R313). -/
def Mach.bindNow (m : Mach) (n : Nat) (b : Binding) : Mach :=
  let m := match (m.dev.loop n).binding with
    | some old => m.reportBound n old false
    | none => m
  let m := m.freshBinding b
  m.mod (fun d => d.modLoop n (fun l => { l with
    acct := if l.binding.isNone then 0 else l.acct
    binding := some b
    carrySaved := none
    carryBusy := none
    mismatchRaised := false })) |>.reportBound n b true |>.checkCross n

/-- A loop's route is unbound. -/
def Mach.unbindNow (m : Mach) (n : Nat) : Mach :=
  let m := match (m.dev.loop n).binding with
    | some b => m.reportBound n b false
    | none => m
  m.mod (fun d => d.modLoop n (fun l =>
    { l with binding := none, carrySaved := none, carryBusy := none, mismatchRaised := false, due := [], heldBy := [] }))

/-- The registers that a loop-configure command writes (R312). -/
def Dev.configNow (d : Dev) (p : List Byte) : Dev :=
  let n := pay8 p 0
  let d0 := d
  let d := d.setReg (Reg.SCH_LOOPn_CFG n) (pay8 p 1 * 2 ^ 30 + pay8 p 2 * 2 ^ 29 + pay16 p 4)
  let d := d.setReg (Reg.SCH_LOOPn_PERIOD n) (pay32 p 8 % 2 ^ 24)
  let d := d.setReg (Reg.SCH_LOOPn_PHASE n) (pay32 p 12 % 2 ^ 24)
  let d := d.setReg (Reg.SCH_LOOPn_WIN n) (pay16 p 6 * 2 ^ 16 + pay16 p 16)
  let base := pay64 p 20
  let d := d.setReg (Reg.SCH_LOOPn_SAVE_LO n) (bits base 31 16 * 2 ^ 16)
  let d := d.setReg (Reg.SCH_LOOPn_SAVE_HI n) (bits base 47 32)
  let d := d.setReg (Reg.SCH_LOOPn_SAVE_SIZE n) (pay32 p 28 % 2 ^ 16)
  ((loopRegs n).foldl Dev.applyShadow d).retime d0 n

/-- The deferred commands of a loop in the order of their acceptance (R201, R312). -/
def Mach.applyDeferred (m : Mach) (n : Nat) : Mach :=
  let ds := (m.dev.loop n).deferred
  let m := m.mod (fun d => d.modLoop n (fun l => { l with deferred := [] }))
  ds.foldl (fun m x => match x with
    | .bind tag b => (m.bindNow n b).mod (fun d => d.notify tag ST.OK [])
    | .unbind tag =>
      -- a bind may have been unbound by an earlier deferred command of the list
      if (m.dev.loop n).binding.isSome then (m.unbindNow n).mod (fun d => d.notify tag ST.OK [])
      else m.mod (fun d => d.notify tag ST.STATE [])
    | .config tag p => m.mod (fun d => (d.configNow p).notify tag ST.OK [])) m

/-! ### The end of a step -/

/-- Rows held that were never read are discarded (R143). -/
def Dev.queuesLeft (d : Dev) (n : Nat) (b : Binding) : Dev :=
  b.usedTiles.foldl (fun d t => (b.route.queues (b.ltile t)).foldl (fun d v =>
    let q := v.qnum
    let left := d.rf (Reg.TILE_LQn_RD t q) Fld.TILE_LQn_RD.HELD - AMap.getD (d.tile t).lqRead q 0
    if left = 0 then d
    else
      let d := d.setReg (Reg.TILE_LQn_RD t q) (setBits (setBits (d.reg (Reg.TILE_LQn_RD t q)) 31 31 1) 15 0 0)
      d.raiseFor n 0 Src.TILE 0x0007 t (q + (left % 2 ^ 16) * 2 ^ 32)) d) d

/-- Slots return to EMPTY at step end (R134, R137); SPECULATIVE ones are not squashed under R195. -/
def Dev.endTile (d : Dev) (t : Nat) : Dev :=
  let d := (List.range 6).foldl (fun d s => d.setReg (Reg.TILE_WR_SLOTn t s) 0) d
  let d := d.modTile t (fun x => { x with
    slots := List.replicate 6 {}
    fillq := []
    larr := x.larr.map (fun a => { a with pass := none, loads := [] })
    remap := []
    spur := { x.spur with call := none } })
  d.setReg (Reg.TILE_SPUR_STAT t) (setBits (d.reg (Reg.TILE_SPUR_STAT t)) 31 31 0)

/-- Passes committed lossy or unchecked by a step of a safety route are reported (R491). -/
def Dev.safePassQ (d : Dev) (n : Nat) (b : Binding) : Dev :=
  if !b.route.safety then d
  else b.usedTiles.foldl (fun d t =>
    let x := d.tile t
    let d := if x.lossy = 0 then d
      else (d.raiseFor n 1 Src.TILE 0x0100 t x.lossy).cnt (Reg.SAF_CNT_k 11) x.lossy
    if x.unchecked = 0 then d
    else (d.raiseFor n 1 Src.TILE 0x0101 t x.unchecked).cnt (Reg.SAF_CNT_k 11) x.unchecked) d

/-- Requesters that the arbiter watchdog removed for a step return when it has ended (R310). -/
def Dev.returnRemoved (d : Dev) (n : Nat) : Dev :=
  { d with arbs := List.map (fun (p : Nat × ArbSt) =>
      (p.1, { p.2 with removed := p.2.removed.filter (fun r => r.2 != some n) })) d.arbs }

/-- What the end of a step and its abort share: lists, tiles, queues, engines and pins are let go, the ridges are free,
and the deferred commands apply. -/
def Mach.leaveStep (m : Mach) (n : Nat) (st : StepSt) (commit : Bool) : Mach :=
  let held := st.phase != .preempted
  let m := m.mod (fun d =>
    let d := d.dropResources n
    let d := d.safePassQ n st.b
    let d := if held then d.queuesLeft n st.b else d
    let d := { d with lists := d.lists.filter (fun p => p.2.loop != n) }
    let d := if held then (st.b.ridges.flatMap (fun r => (List.range 4).map (4 * r + ·))).foldl Dev.endTile d else d
    let qs := st.b.usedTiles.flatMap (fun t => (List.range 16).map (16 * t + ·))
    let d := if held then { d with transit := d.transit.filter (fun p => !qs.contains p.1)
                                   outq := d.outq.filter (fun p => !qs.contains (p.1 % 1536)) } else d
    d.returnRemoved n)
  let m := m.tarnEnd n st.ctx st.batch commit
  m.mod (fun d =>
    let d := d.unpin n st.bound
    let d := st.preemptTags.foldl (fun d t => d.notify t ST.STATE []) d
    d.modLoop n (fun l => { l with step := none }))

/-- A step aborts (R294, R304, R491), charged with the beats of its meters, or with an open number of them when no
operand carries them: the caller has raised its fault. -/
def Mach.abortWith (m : Mach) (n : Nat) (beats : Option Nat) : Mach :=
  match (m.dev.loop n).step with
  | none => m
  | some st =>
    let m := m.mod (fun d => if st.phase == .preempted then d
      else match beats with
        | some b => d.charge n b
        | none => d.chargeFree n)
    let m := m.mod (fun d => d.endBoost n)
    -- CARRY regions to zero, and the spur section again from the image
    let m := if st.phase == .preempted then
        let base := m.dev.saveBase n
        let m := (st.b.places.filter (fun p => p.1 == 3)).foldl (fun m p => m.zero (base + p.2.2) 64) m
        (m.copySpur st.b).mod (fun d => if st.b.hasCarry then d.modLoop n (fun l => { l with carrySaved := some base }) else d)
      else m.freshBinding st.b
    let m := m.leaveStep n st false
    let m := m.mod (fun d =>
      let d := d.wf (Reg.SCH_LOOPn_STAT n) Fld.SCH_LOOPn_STAT.ABORTED 1
      let d := d.loopCnt n 3
      if st.cairn then d.cairnAborted n st else d)
    m.applyDeferred n

def Mach.abortStep (m : Mach) (n : Nat) : Mach := m.abortWith n none

/-- A step aborts by a fault of one of its tiles. -/
def Mach.abortTile (m : Mach) (n t : Nat) : Mach :=
  (m.abortStep n).mod (fun d => d.modTile t (fun x => { x with faulted := true }))

/-- The fault of a tile for the step of loop `n`, and the step's abort. -/
def Mach.tileFault (m : Mach) (n t code detail : Nat) : Mach :=
  (m.mod (fun d => d.raiseFor n 1 Src.TILE code t detail)).abortTile n t

/-- The detail of MEM_UE (R597) for a bad unit of tile memory at an entry. -/
def memUeDetail (entry u : Nat) : Nat :=
  let (_, mem, row) := tileMemRow u
  entry % 2 ^ 20 + mem * 2 ^ 32 + (row % 2 ^ 15) * 2 ^ 48

end Sys2Proof.Machine
end

