-- ==== Sys2Proof/Machine/Lists.lean ====
section
/-!
DEFINITION. The entry lists of a step (R168, R183 to R191, R498, R499, R542): reading ahead, issue in list order under
the four cases of R186, debug breakpoints, and the entries END, MARK, ACQUIRE and RELEASE.
-/
namespace Sys2Proof.Machine

/-! ### Issue -/

/-- An entry that is being issued: its list and loop, its index and word, and the step. -/
structure Iss where
  key : Nat
  loop : Nat
  idx : Nat
  word : Nat
  st : StepSt

/-- The number of a list in SCH_RT_VERR and in fault records: the flat tile, 0x7E or 0x7F. -/
def listUnit (key : Nat) : Nat := if key < 96 then key else if key < 112 then 0x7E else 0x7F

/-- The requester under which a list's entries are read (R306). -/
def listReq (key : Nat) : Nat := if key < 96 then key else if key < 112 then 120 else 186

/-- The entry a list issues next: entries cut by a pre-emption first (R296). -/
def ListSt.front (l : ListSt) : Option (Nat × Nat) :=
  match l.redo with
  | x :: _ => some x
  | [] => l.buf.head?.map (fun e => (l.next, e))

/-- A spur call in the list's buffer has its argument word read as well. -/
def ListSt.argReady (l : ListSt) : Bool :=
  match l.redo, l.buf with
  | [], [e] => Ent.kind e != K.SPUR
  | _, _ => true

/-- The list after its next entry has been taken; a spur call's argument word goes with it. -/
def ListSt.take (l : ListSt) : ListSt :=
  let l := { l with dbgPassed := none, dbgStep := false, dbgHalt := l.dbgHalt || l.dbgStep }
  match l.redo, l.buf with
  | _ :: r, _ => { l with redo := r }
  | [], e :: r =>
    if Ent.kind e = K.SPUR then { l with next := l.next + 2, buf := r.drop 1 } else { l with next := l.next + 1, buf := r }
  | [], [] => l

/-- The step of a list, when the list may issue: running, not halted by debug, not stopped, not at its end; a tripped
fabric is halted (R592). -/
def Mach.running (m : Mach) (key : Nat) : Option (ListSt × StepSt) :=
  match m.dev.list key with
  | none => none
  | some l =>
    match (m.dev.loop l.loop).step with
    | none => none
    | some st =>
      if st.phase == .running && !l.stopped && !l.dbgHalt && !l.ended && l.argReady && !m.dev.pwr.tripped then some (l, st)
      else none

/-- An armed breakpoint of the DBG block stands at entry `idx` of a list (R542). -/
def Mach.atBreak (m : Mach) (key : Nat) (l : ListSt) (idx : Nat) : Bool :=
  l.dbgPassed != some idx && (List.range 16).any (fun n =>
    let r := m.dev.reg (Reg.DBG_RT_BPn n)
    bit r 31 && bits r 30 24 == listUnit key && bits r 23 20 == l.loop && bits r 19 0 == idx)

/-- Debug halts a list, and with GROUP every list of its step (R542). -/
def Dev.dbgHaltList (d : Dev) (key : Nat) : Dev :=
  match d.list key with
  | none => d
  | some l =>
    if d.rfB Reg.DBG_RT_CTRL Fld.DBG_RT_CTRL.GROUP then
      (d.stepLists l.loop).foldl (fun (d : Dev) k => d.modList k (fun x => { x with dbgHalt := true, dbgStep := false })) d
    else d.modList key (fun x => { x with dbgHalt := true, dbgStep := false })

/-- The logical array that an entry names. -/
def entArray (e : Nat) : Option Nat :=
  let k := Ent.kind e
  if k = K.SLOAD || k = K.PASS || k = K.DRAIN || k = K.CTAP || k = K.DTAP then some (Ent.array e) else none

/-- The entries of a tile's list with their indices, from the image. -/
def Mach.listEntries (m : Mach) (key : Nat) : List (Nat × Nat) :=
  match m.dev.list key with
  | none => []
  | some l => entriesFrom (rawList m l.addr l.count) 0

/-- The activation rows of the blocks that a pass or tap entry uses, or loads by itself for the passes of its run (R96, R175):
they stay reserved until it has committed. -/
def Mach.blockRanges (m : Mach) (key idx e : Nat) : List RowRange :=
  if isPassKind (Ent.kind e) then
    match blockRun (m.listEntries key) idx (Ent.array e) with
    | some (ld, runs) =>
      if Sload.src ld then
        [⟨false, Sload.row ld, (runs + 1) * blockRows (Sload.sfmt ld) (Sload.sscale ld) (Sload.dual ld)⟩]
      else []
    | none => []
  else []

/-- The rows the entry at `idx` of a list reads and writes in its tile; an engine's list touches no tile memory. -/
def Mach.ranges (m : Mach) (key idx : Nat) (st : StepSt) (e : Nat) : List RowRange × List RowRange :=
  if key < 96 then
    let (r, w) := entryRanges m st.b.route e
    (r ++ m.blockRanges key idx e, w)
  else ([], [])

/-- The flight of an entry. -/
def Mach.flightOf (m : Mach) (i : Iss) : Flight :=
  let (r, w) := m.ranges i.key i.idx i.st i.word
  { entry := i.idx, kind := Ent.kind i.word, word := i.word, array := if i.key < 96 then entArray i.word else none,
    reads := r, writes := w, spurWait := Ent.kind i.word == K.SPUR && Spur.wait i.word }

/-- The entry waits for every earlier one: a RELEASE, an END or an anchored weight fetch (R186). -/
def waitsAll (e : Nat) : Bool :=
  Ent.kind e == K.END || (Ent.kind e == K.CHECK && Chk.op e == 2) || (Ent.kind e == K.WFETCH && Wf.anchored e)

/-- R186: the sequencer holds the entry back.  Behind an ACQUIRE that waits (R290), every entry is: it could not else give
the result it would give had the ACQUIRE completed (log 56). -/
def Mach.heldBack (m : Mach) (key : Nat) (l : ListSt) (st : StepSt) (idx e : Nat) : Bool :=
  let (r, w) := m.ranges key idx st e
  let a := if key < 96 then entArray e else none
  l.waiting.isSome || l.flights.any (fun f =>
    (f.array.isSome && f.array == a) || anyMeets f.writes (r ++ w) || anyMeets f.reads w
      || (f.kind == K.SPUR && (f.spurWait || Ent.kind e == K.SPUR)))
    || (waitsAll e && !l.flights.isEmpty)

/-- A weight fetch that the sequencer passes over: it completes at issue, and the streamer has its own order (R187). -/
def passedOver (e : Nat) : Bool := Ent.kind e == K.WFETCH && !Wf.anchored e

/-- The list has come to an entry that could not be read, or to a spur call whose argument word could not be (R189). -/
def ListSt.atBad (l : ListSt) : Bool :=
  l.redo.isEmpty && ((l.buf.isEmpty && l.bad == some l.next) || (!l.argReady && l.bad == some (l.next + 1)))

/-- The step aborts when its list has come to an entry that could not be read (R189). -/
def Mach.checkBad (m : Mach) (key : Nat) : Mach :=
  match m.dev.list key with
  | none => m
  | some l =>
    if l.atBad then
      (if key < 96 then m.abortTile l.loop key else m.abortStep l.loop)
    else m

/-- The sequencer passes over the weight fetches at the front of its list. -/
def Mach.passFetches (m : Mach) (key : Nat) : Nat → Mach
  | 0 => m
  | fuel + 1 =>
    match m.running key with
    | none => m
    | some (l, _) =>
      match l.front with
      | none => m
      | some (i, e) =>
        if !passedOver e || l.flights.any (fun f => f.spurWait) then m
        else if m.atBreak key l i then m.mod (fun d => d.dbgHaltList key)
        else Mach.passFetches (m.mod (fun d => d.setList key l.take)) key fuel

/-- The next entry of a list is issued when it is one that `want` accepts and nothing holds it back; a breakpoint halts
the list before it. -/
def Mach.issue (m : Mach) (key : Nat) (want : Nat → Bool) (f : Mach → Iss → Mach) : Mach :=
  let m := m.passFetches key 4096
  match m.running key with
  | none => m.checkBad key
  | some (l, st) =>
    match l.front with
    | none => m.checkBad key
    | some (i, e) =>
      if !want e then m
      else if m.atBreak key l i then m.mod (fun d => d.dbgHaltList key)
      else if m.heldBack key l st i e then m
      else (f (m.mod (fun d => d.setList key l.take)) ⟨key, l.loop, i, e, st⟩).checkBad key

/-- An issued entry joins the flights of its list. -/
def Mach.fly (m : Mach) (i : Iss) : Mach :=
  let fl := m.flightOf i
  m.mod (fun d => d.modList i.key (fun l => { l with flights := l.flights ++ [fl] }))

/-- An entry of a list has completed (R187). -/
def Mach.complete (m : Mach) (key entry : Nat) : Mach :=
  m.mod (fun d => d.modList key (fun l => { l with flights := l.flights.filter (fun f => f.entry != entry) }))

/-- A row read by an entry of the step of loop `n` on tile `t`: an uncorrectable error aborts the step (R154). -/
def Mach.tileRead (m : Mach) (n t entry a len : Nat) : Mach × Option (List Byte) :=
  let (m, bad) := m.eccRead a len t n
  match bad with
  | some u => (m.tileFault n t 0x0008 (memUeDetail entry u), none)
  | none => (m, some (m.rdBytes a len))

/-! ### Reading ahead (R189) -/

/-- Up to `n` further entries read, one at a time, while no frozen arbiter holds the read (R311); the first one that cannot
be read is remembered. -/
def Mach.readAhead (m : Mach) (key : Nat) : Nat → Mach
  | 0 => m
  | n + 1 =>
    match m.dev.list key with
    | none => m
    | some l =>
      let i := l.next + l.buf.length
      if i ≥ l.count || l.buf.length ≥ 4096 || l.bad.isSome || !m.dev.hbmOpen (l.addr + 16 * i) 16 (listReq key) then m
      else
        let a := l.addr + 16 * i
        let (m, bad) := m.eccRead a 16 (listReq key) l.loop
        match bad with
        | none => Mach.readAhead (m.mod (fun d => d.setList key { l with buf := l.buf ++ [m.rdNat a 16] })) key n
        | some _ =>
          let m := m.mod (fun d => d.setList key { l with bad := some i })
          if key < 96 then m.mod (fun d => d.raiseFor l.loop 1 Src.TILE 0x0009 key i) else m

/-- LIST_FETCH (R189): the list reads `n` further entries from the image in HBM. -/
def execListFetch (l : ListId) (n : Fin 4097) (upsets : List Upset) (s : State) : Host.Outcome State Fault Refusal :=
  run (fun m =>
    let m := m.upsets upsets
    ((m.readAhead (listKey l) n.val).passFetches (listKey l) 4096).checkBad (listKey l)) s

/-! ### END (R184, R187) -/

/-- END: every earlier entry has completed; the segment supervisor stops (R498). -/
def execEndList (l : ListId) (s : State) : Host.Outcome State Fault Refusal :=
  run (fun m => m.issue (listKey l) (fun e => Ent.kind e == K.END) (fun m i =>
    m.mod (fun d => d.modList i.key (fun x => { x with ended := true, segment := none })))) s

/-! ### Supervision (R499, R500) -/

/-- An expiry or a mark-order fault: the fault, the count, and the step's abort with its tiles halted, charged with the
beats of its meters when an operand carries them. -/
def Mach.superviseAbort (m : Mach) (n code unit detail : Nat) (beats : Option Nat) : Mach :=
  let cls := if m.dev.loopSafety n then 2 else 1
  let ts := match (m.dev.loop n).step with
    | some st => st.b.usedTiles
    | none => []
  (m.mod (fun d =>
    let d := { d with saf := { d.saf with halting := d.saf.halting.filter (fun t => !ts.contains t) ++ ts } }
    (d.raiseFor n cls Src.SUPERVISOR code unit detail).cnt (Reg.SAF_CNT_k 5) 1)).abortWith n beats

/-- MARK (R498, R499). -/
def execMark (l : ListId) (s : State) : Host.Outcome State Fault Refusal :=
  run (fun m => m.issue (listKey l) (fun e => Ent.kind e == K.CHECK && Chk.op e == 0) (fun m i =>
    match m.dev.list i.key with
    | none => m
    | some x =>
      if Chk.markid i.word ≠ x.nextMark then m.superviseAbort i.loop 0x0002 (listUnit i.key) i.idx none
      else m.mod (fun d => d.setList i.key { x with
        nextMark := x.nextMark + 1
        segment := if Chk.budget i.word = 0 then none else some (Chk.budget i.word : Rat)
        fresh := true }))) s

/-! ### ACQUIRE and RELEASE (R290 to R293) -/

/-- The highest rank that any list of a step holds. -/
def Dev.highestRank (d : Dev) (n : Nat) : Nat :=
  (d.stepLists n).foldl (fun r k => match d.list k with
    | some l => l.held.foldl (fun r h => max r h.2) r
    | none => r) 0

/-- ACQUIRE: granted at once when the resource is free, else the request waits; a rank at or below one held aborts the
step. -/
def execAcquire (l : ListId) (s : State) : Host.Outcome State Fault Refusal :=
  run (fun m => m.issue (listKey l) (fun e => Ent.kind e == K.CHECK && Chk.op e == 1) (fun m i =>
    match i.st.b.route.res[Chk.res i.word]? with
    | none => m
    | some r =>
      if r.rank ≤ m.dev.highestRank i.loop then
        (m.mod (fun d => (d.cnt (Reg.SCH_CNT_k 0) 1).raiseFor i.loop 1 Src.SCHED 0x0001 (listUnit i.key)
          (i.idx + Chk.res i.word * 2 ^ 32))).abortStep i.loop
      else
        let key := m.dev.poolKey i.st.b r
        let w : Waiter := ⟨i.key, i.loop, r.rank, r.shared⟩
        let m := m.fly i
        if (m.dev.resOf key).holder.isNone then m.mod (fun d => d.grantRes key w)
        else m.mod (fun d =>
          let x := d.resOf key
          (d.setRes key { x with waiters := x.waiters ++ [w] }).modList i.key (fun y =>
            { y with waiting := some (Chk.res i.word) })))) s

/-- RELEASE: the resource is free, or goes to the waiting step of highest urgency; a boosted step that now holds nothing
is pre-empted. -/
def execRelease (l : ListId) (s : State) : Host.Outcome State Fault Refusal :=
  run (fun m => m.issue (listKey l) (fun e => Ent.kind e == K.CHECK && Chk.op e == 2) (fun m i =>
    match i.st.b.route.res[Chk.res i.word]? with
    | none => m
    | some r => m.mod (fun d => (d.releaseRes (d.poolKey i.st.b r)).afterRelease i.loop))) s

end Sys2Proof.Machine
end

