-- ==== Sys2Proof/Machine/ArrayCore.lean ====
section
/-!
DEFINITION. The matrix arrays' shared operations (R84 to R118, R171 to R176, R204 to R224): the mapping of logical to
physical arrays, retirement, stationary loads, the swap of the two registers, the rows of a pass and of a tap pass, and
what a commit does.  The two stationary registers of a physical array are kept with the logical array that it carries, so
that arrays which share a physical one after a retirement keep their blocks (R114; log 41).
-/
namespace Sys2Proof.Machine

/-! ### Mapping and retirement (R86, R113, R115) -/

/-- The physical array that carries logical array `l`. -/
def Dev.physOf (d : Dev) (t l : Nat) : Nat := bits (d.reg (Reg.TILE_ARR_MAP t)) (2 * l + 1) (2 * l)
def Dev.retired (d : Dev) (t : Nat) : Nat := d.rf (Reg.TILE_ARR_MAP t) Fld.TILE_ARR_MAP.RETIRED
def Dev.isRetired (d : Dev) (t p : Nat) : Bool := bit (d.retired t) p
def Dev.inService (d : Dev) (t : Nat) : List Nat := (List.range 4).filter (fun p => !d.isRetired t p)
def Dev.retiredCount (d : Dev) (t : Nat) : Nat := 4 - (d.inService t).length

/-- A route is bound to the tile. -/
def Dev.tileBound (d : Dev) (t : Nat) : Bool :=
  (List.range 16).any (fun n => match (d.loop n).binding with
    | some b => b.holdsTile t
    | none => false)


/-- The physical array that a logical array is on: until it moves (R114), the one it leaves. -/
def Dev.carrier (d : Dev) (t l : Nat) : Nat := (AMap.find (d.tile t).remap l).getD (d.physOf t l)

def Dev.arrCnt (d : Dev) (t p k n : Nat) : Dev := d.cnt (Reg.TILE_ARRn_CNT_k t p k) n

/-- TILE_ARR_MAP for a set of retired arrays (R86, R113). -/
def arrMap (retired : Nat) : Nat :=
  let q := (List.range 4).filter (fun p => !bit retired p)
  retired * 2 ^ 8 + (List.range 4).foldl (fun v l => v + q.getD (if q.length = 0 then 0 else l % q.length) l * 4 ^ l) 0

/-- A fault for a step when there is one. -/
def Dev.raiseAt (d : Dev) (n cls src code unit detail : Nat) : Dev :=
  if n < 16 then d.raiseFor n cls src code unit detail else d.raise cls src code unit detail

def Dev.modLarr (d : Dev) (t l : Nat) (f : LogArray → LogArray) : Dev :=
  d.modTile t (fun x => { x with larr := modAt x.larr l f })
def Dev.larr (d : Dev) (t l : Nat) : LogArray := (d.tile t).larr.getD l {}
def Dev.modParr (d : Dev) (t p : Nat) (f : PhysArray → PhysArray) : Dev :=
  d.modTile t (fun x => { x with parr := modAt x.parr p f })
def Dev.parr (d : Dev) (t p : Nat) : PhysArray := (d.tile t).parr.getD p {}

/-- A tile with two or more retired arrays loses its SAF_TILE_OK bit (R491). -/
def Dev.dropTileOk (d : Dev) (t : Nat) : Dev :=
  let a := Reg.SAF_TILE_OK_k (t / 32)
  d.setReg a (setBits (d.reg a) (t % 32) (t % 32) 0)

/-- A physical array is retired with a cause (R113, R491): the fault, the mapping, and the logical arrays that move. The
fault of two retired arrays is raised as the second one retires (DEDUCED, log 57); the retirement of the tile's last array
has a fault of its own (R115), with the entry `entry`. -/
def Dev.retire (d : Dev) (n t p cause entry : Nat) : Dev :=
  if d.isRetired t p then d else
  let on := (List.range 4).map (d.carrier t)
  let st := Reg.TILE_ARRn_STAT t p
  let d := d.setReg st (setBits (setBits (d.reg st) 31 31 1) 30 29 cause)
  let d := d.setReg (Reg.TILE_ARR_MAP t) (arrMap (setBits (d.retired t) p p 1))
  let d := d.modTile t (fun x => { x with
    remap := ((List.range 4).zip on).filter (fun q => d.physOf t q.1 != q.2) })
  let d := d.raiseAt n 1 Src.TILE 0x0003 t (p + cause * 2 ^ 8)
  let d := if d.retiredCount t ≥ 3 then d.dropTileOk t
    else if d.retiredCount t = 2 then (d.dropTileOk t).raiseAt n 1 Src.TILE 0x000E t (d.retired t) else d
  if (d.inService t).isEmpty then d.raiseAt n 1 Src.TILE 0x0004 t entry else d

/-- The step on a tile whose last array has been retired aborts (R115). -/
def Mach.noArray (m : Mach) (n t : Nat) : Mach :=
  if n < 16 && (m.dev.inService t).isEmpty then m.abortTile n t else m

/-! ### Repair (R111, R112, R116) -/

/-- A faulty lane row or column of a physical array put on its spare, when the spare is unused or replaces that one
already: false when it cannot be. -/
def Dev.spareRow (d : Dev) (t p k : Nat) : Dev × Bool :=
  let a := Reg.TILE_ARRn_STAT t p
  if d.rf a Fld.TILE_ARRn_STAT.ROW_REP = 0 then
    ((d.wf a Fld.TILE_ARRn_STAT.ROW_REP 1).wf a Fld.TILE_ARRn_STAT.ROW_BAD k, true)
  else (d, d.rf a Fld.TILE_ARRn_STAT.ROW_BAD == k)
def Dev.spareCol (d : Dev) (t p k : Nat) : Dev × Bool :=
  let a := Reg.TILE_ARRn_STAT t p
  if d.rf a Fld.TILE_ARRn_STAT.COL_REP = 0 then
    ((d.wf a Fld.TILE_ARRn_STAT.COL_REP 1).wf a Fld.TILE_ARRn_STAT.COL_BAD k, true)
  else (d, d.rf a Fld.TILE_ARRn_STAT.COL_BAD == k)

/-- The outcome of an array self-test of a tile: the repairs it adds, and the arrays that fail it.  The repair map does not
change while a route is bound to the tile, so that every fault found then is beyond repair (R112; log 64). -/
def Dev.testArrays (d : Dev) (t : Nat) (bound : Bool) (f : ArrayFaults) : Dev × List Nat :=
  let fix := fun (q : Dev × List Nat) (p : Nat) (r : Dev × Bool) => if r.2 then (r.1, q.2) else (q.1, q.2 ++ [p])
  if bound then (d, (f.rows.map (·.1.val) ++ f.cols.map (·.1.val) ++ f.beyond.map (·.val)).eraseDups)
  else
    let q := f.rows.foldl (fun q x => fix q x.1.val (q.1.spareRow t x.1.val x.2.val)) (d, [])
    let q := f.cols.foldl (fun q x => fix q x.1.val (q.1.spareCol t x.1.val x.2.val)) q
    (q.1, (q.2 ++ f.beyond.map (·.val)).eraseDups)

/-! ### Stationary loads (R91 to R94, R129, R132 to R134, R171, R193) -/

/-- Slot tokens (R130). -/
def Tok.EMPTY := 0
def Tok.FILLING := 1
def Tok.FULL := 2
def Tok.SPECULATIVE := 3
def Tok.POISONED := 4

def Dev.token (d : Dev) (t s : Nat) : Nat := d.rf (Reg.TILE_WR_SLOTn t s) Fld.TILE_WR_SLOTn.STATE
def Dev.setToken (d : Dev) (t s v : Nat) : Dev := d.wf (Reg.TILE_WR_SLOTn t s) Fld.TILE_WR_SLOTn.STATE v
def Dev.slotUses (d : Dev) (t s : Nat) : Nat := d.rf (Reg.TILE_WR_SLOTn t s) Fld.TILE_WR_SLOTn.USES

/-- One load of a fill has been issued (R133). -/
def Dev.useFill (d : Dev) (t : Nat) (fill : Option Nat) : Dev :=
  match fill.bind (AMap.find (d.tile t).fills) with
  | some (.slot s) => d.wf (Reg.TILE_WR_SLOTn t s) Fld.TILE_WR_SLOTn.USES (d.slotUses t s - 1)
  | _ => d

/-- A stationary block from the bytes of its rows, with its check values. -/
def mkBlock (ld : PendingLoad) (bs : List Byte) : Block :=
  let n := if ld.dual then 32 else 16
  formChecks {
    fill := ld.fill
    row := ld.row
    nrows := blockRows ld.sfmt ld.scaled ld.dual
    sfmt := ld.sfmt
    scaled := ld.scaled
    dual := ld.dual
    lanes := (List.range n).map (fun k => (List.range 64).map (blockOperand bs ld.sfmt ld.dual k))
    scales := if ld.scaled then (List.range 64).map (fun j => field bs (64 * blockOperandRows ld.sfmt ld.dual + j) 1)
      else [] }

/-- Where a load reads its block: an address, the zero block, or nowhere yet. -/
inductive LoadSrc where
  | rows (a : Nat)
  | zero
  | poisoned (slot : Nat)
  | wait
deriving DecidableEq, Repr

def Dev.loadSrc (d : Dev) (t : Nat) (fill : Option Nat) (row : Nat) : LoadSrc :=
  match fill with
  | none => .rows (amAddr t row)
  | some f =>
    match AMap.find (d.tile t).fills f with
    | none => .wait
    | some .zero => .zero
    | some (.slot s) =>
      if d.token t s = Tok.FULL then .rows (wmAddr t s row)
      else if d.token t s = Tok.POISONED then .poisoned s else .wait

/-- The oldest load of a logical array is made when its source is there and the back register is EMPTY. -/
def Mach.kickLoad (m : Mach) (n t l : Nat) : Mach :=
  let x := m.dev.larr t l
  match x.back, x.loads with
  | none, ld :: rest =>
    let put := fun (m : Mach) (bs : List Byte) =>
      let m := m.mod (fun d => d.modLarr t l (fun y => { y with back := some (mkBlock ld bs), loads := rest }))
      if ld.auto then m else m.complete t ld.entry
    let len := 64 * blockRows ld.sfmt ld.scaled ld.dual
    match m.dev.loadSrc t ld.fill ld.row with
    | .wait => m
    | .zero => put m (List.replicate len 0)
    | .poisoned s => m.tileFault n t 0x0005 (ld.entry + s * 2 ^ 32)
    | .rows a =>
      match m.tileRead n t ld.entry a len with
      | (m, none) => m
      | (m, some bs) => put m bs
  | _, _ => m

/-- The loads of all four logical arrays of a tile, in order, while its step runs. -/
def Mach.kickLoads (m : Mach) (t : Nat) : Mach :=
  (List.range 4).foldl (fun m l => match m.dev.tileLoop t with
    | some n => m.kickLoad n t l
    | none => m) m

/-- A load joins its logical array. -/
def Mach.addLoad (m : Mach) (t l : Nat) (ld : PendingLoad) : Mach :=
  m.mod (fun d => (d.useFill t ld.fill).modLarr t l (fun x => { x with loads := x.loads ++ [ld] }))

/-! ### Order on a shared physical array, and the swap (R93, R95, R114) -/

/-- The parity of the open pass of a logical array. -/
def PassSt.parity (p : PassSt) : Bool := (Pass.par p.word) != (Ent.kind p.word == K.PASS && p.num % 2 == 1)

/-- The entry of the open pass has entered rows: the logical array is not at an entry boundary (R114). -/
def LogArray.begun (x : LogArray) : Bool :=
  match x.pass with
  | some p => p.started || p.num != 0
  | none => false

/-- The physical array on which a logical array may run: none while it has to move (R114), that is from its entry boundary
on, or at once when the array that it leaves is retired. -/
def Dev.runsOn (d : Dev) (t l : Nat) : Option Nat :=
  match AMap.find (d.tile t).remap l with
  | none => some (d.physOf t l)
  | some o => if !d.isRetired t o && (d.larr t l).begun then some o else none

/-- The logical array whose open pass runs on a physical array: the earliest issued of those that may run there. -/
def Mach.turn (m : Mach) (t p : Nat) : Option Nat :=
  match m.dev.list t with
  | none => none
  | some l => (l.flights.findSome? (fun f => match f.array with
      | some a => if isPassKind f.kind && m.dev.runsOn t a == some p then some a else none
      | none => none))

/-- The swap of a logical array's registers, when a row of another parity waits at the input and the back is READY. -/
def LogArray.swapReady (x : LogArray) : Bool :=
  match x.pass, x.back with
  | some p, some _ => !p.started && (x.front.isNone || p.parity != x.parity)
  | _, _ => false

def Mach.swapNow (m : Mach) (n t l : Nat) : Mach :=
  let x := m.dev.larr t l
  match x.pass with
  | none => m
  | some p =>
    if x.swapReady && (m.dev.runsOn t l).isSome then
      (m.mod (fun d => d.modLarr t l (fun x => { x with front := x.back, parity := p.parity, back := none }))).kickLoad n t l
    else m

/-! ### The rows of a pass (R97 to R101, R173 to R176) -/

/-- Position and length of a landing queue: base row, length, release position, held count. -/
def Dev.queue (d : Dev) (t q : Nat) : Nat × Nat × Nat × Nat :=
  (d.rf (Reg.TILE_LQn_CFG t q) Fld.TILE_LQn_CFG.BASE, d.rf (Reg.TILE_LQn_CFG t q) Fld.TILE_LQn_CFG.LENM1 + 1,
   d.rf (Reg.TILE_LQn_PTR t q) Fld.TILE_LQn_PTR.RELPTR, d.rf (Reg.TILE_LQn_RD t q) Fld.TILE_LQn_RD.HELD)

/-- `n` rows of a queue have been read since the release position: Rd is Rel + n (R141). -/
def Dev.setRead (d : Dev) (t q n : Nat) : Dev :=
  let (_, len, rel, _) := d.queue t q
  (d.modTile t (fun x => { x with lqRead := if n = 0 then AMap.erase x.lqRead q else AMap.set x.lqRead q n })).wf
    (Reg.TILE_LQn_RD t q) Fld.TILE_LQn_RD.RDPTR ((rel + n) % len)

/-- The queue that a flight consumes. -/
def Flight.queue (f : Flight) : Option Nat :=
  if f.kind = K.RECV then some (Recv.queue f.word)
  else if f.kind = K.PASS && Pass.rsrc f.word then some (Pass.queue f.word) else none

/-- The entry is the earliest one in flight that consumes its queue. -/
def Mach.queueTurn (m : Mach) (t q entry : Nat) : Bool :=
  match m.dev.list t with
  | none => false
  | some l => (l.flights.find? (fun f => f.queue == some q)).map (·.entry) == some entry

/-- The activation row that the next data row of a pass lies in; none while its queue holds no such row. -/
def Mach.rowSource (m : Mach) (t : Nat) (p : PassSt) : Option Nat :=
  let e := p.word
  let pk := rowsPer (Pass.rfmt e)
  if Pass.rsrc e then
    let (base, len, rel, held) := m.dev.queue t (Pass.queue e)
    let r := p.sent / pk
    if r < held && m.queueTurn t (Pass.queue e) p.entry then some (base + (rel + r) % len) else none
  else some (Pass.rrow e + p.num * ceilDiv (Pass.nrows e) pk + p.sent / pk)

/-- The PAD value of a table (R208).  What a PAD entry supplies in a MIRROR or EDGE table, for which the rule shows none, is
zero (DESIGN CHOICE, log 62). -/
def TapTable.pad (t : TapTable) (rfmt : Nat) : Nat :=
  if t.mode = 1 then (if rfmt = 6 then t.const else t.const % 256) else 0

def tapMap (m : Mach) (tr : TabRec) (off i : Nat) : Nat := m.rdNat (tr.addr + off + 2 * i) 2

/-- The mapped coordinates of a tap at a position: none is PAD (R209, R211). -/
def tapPoint (m : Mach) (tr : TabRec) (t : TapTable) (ky kx q : Nat) : Option (Nat × Nat) :=
  let my := tapMap m tr t.mapy (q / t.ow * t.sy + ky * t.dy)
  let mx := tapMap m tr t.mapx (q % t.ow * t.sx + kx * t.dx)
  if my = 0x8000 || mx = 0x8000 then none else some (my, mx)

/-- An element of a plane: its activation row and byte (R204). -/
def planeElem (base rp y x b : Nat) : Nat × Nat := (base + y * rp + x * b / 64, x * b % 64)

/-- Elements read from activation memory: each is a row and a byte, or a value that needs no read. -/
def Mach.gatherElems (m : Mach) (n t entry b : Nat) (xs : List (Sum (Nat × Nat) Nat)) : Mach × Option (List Nat) :=
  xs.foldl (fun (p : Mach × Option (List Nat)) x =>
    match p.2 with
    | none => p
    | some vs =>
      match x with
      | .inr v => (p.1, some (vs ++ [v]))
      | .inl (row, byte) =>
        match p.1.tileRead n t entry (amAddr t row) 64 with
        | (m, none) => (m, none)
        | (m, some bs) => (m, some (vs ++ [field bs byte b]))) (m, some [])

/-- The cells of a CTAP's tap pass (R211), by lane: where each element lies, or its value.  When the position maps to PAD,
all 16 lanes carry the PAD value, those at LANES and above too (DEDUCED, log 63). -/
def Mach.cellsC (m : Mach) (p : PassSt) (tr : TabRec) : List (Sum (Nat × Nat) Nat) :=
  let tb := tapTable m tr
  let r := tapRec m tr tb (Tap.tap p.word)
  let rf := Pass.rfmt p.word
  match tapPoint m tr tb r.ky r.kx (r.q0 + p.num) with
  | none => List.replicate 16 (.inr (tb.pad rf))
  | some (my, mx) => (List.range 16).map (fun k =>
      if k < r.lanes then .inl (planeElem (Tap.brow p.word + k * tb.pp) tb.rp my mx (elemBytes rf)) else .inr 0)

/-- The window of a DTAP's tap pass (R221, R222), column by column: what lane `k` delivers to column `j`. -/
def Mach.cellsD (m : Mach) (p : PassSt) (tr : TabRec) : List (List (Sum (Nat × Nat) Nat)) :=
  let tb := tapTable m tr
  let rf := Pass.rfmt p.word
  let q0 := (tapRec m tr tb (Tap.tap p.word)).q0 + 16 * p.num
  let recs := (List.range 4).map (fun s => tapRec m tr tb (Tap.tap p.word + s))
  (List.range 64).map (fun j => (List.range 16).map (fun k =>
    let g := k / 4
    let c := Tap.ch p.word + g
    let q := q0 + j % 16
    let r := recs.getD (k % 4) (parseTapRec [])
    if g ≠ j / 16 || r.none || c ≥ tb.nc || q ≥ tb.ohb * tb.ow then (Sum.inr 0 : Sum (Nat × Nat) Nat)
    else match tapPoint m tr tb r.ky r.kx q with
      | none => .inr (tb.pad rf)
      | some (my, mx) => .inl (planeElem (Tap.brow p.word + c * tb.pp) tb.rp my mx (elemBytes rf))))

/-- The activation rows that a lane reads, in order, when it keeps the last row it has read: the new ones, and the row it
then keeps (R215). -/
def laneRows : Option Nat → List (Sum (Nat × Nat) Nat) → List Nat × Option Nat
  | last, [] => ([], last)
  | last, .inr _ :: xs => laneRows last xs
  | last, .inl (row, _) :: xs =>
    let (rows, z) := laneRows (some row) xs
    (if last = some row then rows else row :: rows, z)

/-- The beats of a gather (R215): the largest number of new rows in one of the 16 banks; and the rows the lanes keep. -/
def gatherBeats (last : List (Option Nat)) (lanes : List (List (Sum (Nat × Nat) Nat))) : Nat × List (Option Nat) :=
  let xs := ((List.range 16).zip lanes).map (fun x => laneRows (last.getD x.1 none) x.2)
  let rows := (xs.flatMap (·.1)).eraseDups
  ((List.range 16).foldl (fun n b => max n (rows.filter (fun r => r % 16 == b)).length) 0, xs.map (·.2))

/-- The gathered row of a tap pass, and the gather's beats with the rows that the lanes keep. -/
def Mach.gather (m : Mach) (n t : Nat) (p : PassSt) (tr : TabRec) : Mach × Option (RowIn × Nat × List (Option Nat)) :=
  let b := elemBytes (Pass.rfmt p.word)
  if Ent.kind p.word = K.CTAP then
    let xs := m.cellsC p tr
    match m.gatherElems n t p.entry b xs with
    | (m, some vs) => (m, some (⟨vs, 0, []⟩, gatherBeats p.lastRows (xs.map (fun x => [x]))))
    | (m, none) => (m, none)
  else
    let cells := m.cellsD p tr
    let lanes := (List.range 16).map (fun k => cells.map (fun c => c.getD k (.inr 0)))
    match m.gatherElems n t p.entry b cells.flatten with
    | (m, none) => (m, none)
    | (m, some vs) =>
      (m, some (⟨[], 0, (List.range 64).map (fun j => (vs.drop (16 * j)).take 16)⟩, gatherBeats p.lastRows lanes))

/-- Whether a CTAP's tap pass is all PAD (R211). -/
def Mach.padRow (m : Mach) (p : PassSt) (tr : TabRec) : Bool :=
  let tb := tapTable m tr
  let r := tapRec m tr tb (Tap.tap p.word)
  (tapPoint m tr tb r.ky r.kx (r.q0 + p.num)).isNone

/-- Data rows of a pass: one for a tap pass (R210). -/
def PassSt.rowsOf (p : PassSt) : Nat := if Ent.kind p.word = K.PASS then Pass.nrows p.word else 1

/-- The row of a tap pass (R210, R215): gathered once and kept; every beat of the gather beyond one counts.  The rows that
its lanes keep go into the open pass. -/
def Mach.tapRow (m : Mach) (n t l : Nat) (st : StepSt) (p : PassSt) : Mach × Option (Option RowIn) :=
  match p.gathered, st.b.route.tabs[Tap.table p.word]? with
  | some r, _ => (m, some (some r))
  | none, none => (m, some none)
  | none, some tr =>
    match m.gather n t p tr with
    | (m, none) => (m, none)
    | (m, some (r, beats, keep)) =>
      (m.mod (fun d => (d.cnt (Reg.TILE_CONV_CNT_k t 2) (beats - 1)).modLarr t l (fun x => { x with
        pass := x.pass.map (fun q => { q with gathered := some r, lastRows := keep }) })), some (some r))

/-- The next data row of the open pass; none in the second place when there is no row to send, none in the first when
the read aborted the step. -/
def Mach.nextRow (m : Mach) (n t l : Nat) (st : StepSt) (p : PassSt) : Mach × Option (Option RowIn) :=
  let e := p.word
  if Ent.kind e ≠ K.PASS then m.tapRow n t l st p
  else
    match m.rowSource t p with
    | none => (m, some none)
    | some row =>
      match m.tileRead n t p.entry (amAddr t row) 64 with
      | (m, none) => (m, none)
      | (m, some bs) =>
        let lanes := match (m.dev.larr t l).front with
          | some b => passLanes (Pass.rfmt e) b.sfmt
          | none => 16
        let codes := rowElements bs (Pass.rfmt e) lanes p.sent
        if Pass.rscale e then
          let sr := Pass.srow e + p.num * ceilDiv (Pass.nrows e) 64 + p.sent / 64
          match m.tileRead n t p.entry (amAddr t sr) 64 with
          | (m, none) => (m, none)
          | (m, some ss) => (m, some (some ⟨codes, field ss (p.sent % 64) 1, []⟩))
        else (m, some (some ⟨codes, 0, []⟩))

/-- The front block of a logical array in the mode of a pass that begins (R87). -/
def Dev.fitFront (d : Dev) (t l e : Nat) : Dev :=
  match (d.larr t l).front with
  | none => d
  | some b =>
    let n := passLanes (Pass.rfmt e) b.sfmt
    if b.lanesN = n then d
    else
      let i := d.free
      { d with free := i + 64 * n }.modLarr t l (fun x => { x with front := some (b.openLanes n i) })

/-- The pass's first row slot enters: tallies are cleared or continue, the base is recorded (R99, R100, R175, R210); a
run's next block is called for (R175). -/
def Mach.beginPass (m : Mach) (t l : Nat) (p : PassSt) : Mach :=
  let x := m.dev.larr t l
  let e := p.word
  let clear := if Ent.kind e = K.PASS then p.num == 0 && !Pass.acc e else p.num != 0 || !Pass.acc e
  let ts := if clear then List.replicate 64 {} else x.tallies
  let win := if clear || x.win.isNone then some (Pass.win e) else x.win
  let m := m.mod (fun d => (d.modLarr t l (fun x => { x with
    tallies := ts
    win := win
    pass := some { p with started := true, base := ts } })).fitFront t l e)
  match x.front with
  | some b =>
    if Ent.kind e = K.PASS && p.num < Pass.run e then
      m.addLoad t l ⟨p.entry, true, b.fill, b.row + b.nrows, b.sfmt, b.scaled, b.dual⟩
    else m
  | none => m

/-- Whether the next row slot of the open pass of logical array `l` may enter: its turn on an awake physical array, the
front block of its parity in place. -/
def Mach.mayEnter (m : Mach) (t l : Nat) (p : PassSt) : Bool :=
  let x := m.dev.larr t l
  match m.dev.runsOn t l with
  | none => false
  | some ph => x.front.isSome && x.parity == p.parity && m.turn t ph == some l && (m.dev.parr t ph).awake == 8

/-- One row slot of the open pass (R97, R98, R104): a bubble, a data row, the checksum row, or the end token. -/
def Mach.rowSlot (m : Mach) (n t l : Nat) (st : StepSt) (bubble : Bool) (flips : List Flip) : Mach :=
  match (m.dev.larr t l).pass with
  | none => m
  | some p0 =>
    if !m.mayEnter t l p0 then m else
    let m := if p0.started then m else m.beginPass t l p0
    let m := m.kickLoad n t l
    match (m.dev.larr t l).pass, (m.dev.larr t l).front with
    | some p, some f =>
      let e := p.word
      let b := if Ent.kind e = K.PASS then f else f.scalesOff
      let w := ((m.dev.larr t l).win).getD 0
      let rs := Pass.scaled e
      let put := fun (m : Mach) (q : PassSt) => m.mod (fun d => d.modLarr t l (fun x => { x with pass := some q }))
      match p.phase with
      | .ended => m
      | .checksum => put m { p with phase := .ended }
      | .rows =>
        if p.sent ≥ p.rowsOf then
          let rc := (List.range 65).map (rowCheckOf (b.upset flips) p.rows (Pass.rfmt e) rs w)
          put m { p with phase := .checksum, rowChk := rc.map (·.1), rowRange := rc.any (·.2) }
        else
          let bub := fun (m : Mach) => m.mod (fun d => d.arrCnt t (d.carrier t l) 2 1)
          if bubble then bub m
          else
            match m.nextRow n t l st p with
            | (m, none) => m
            | (m, some none) => bub m
            | (m, some (some r)) =>
              let m := m.mod (fun d => d.modLarr t l (fun x => { x with
                tallies := rowIntoTallies x.tallies (b.upset flips) r (Pass.rfmt e) rs w flips
                pass := x.pass.map (fun q => { q with
                  sent := p.sent + 1
                  rows := p.rows ++ [r]
                  chk := if Ent.kind e = K.DTAP then p.chk else rowIntoCheck p.chk b r (Pass.rfmt e) rs w }) }))
              if Ent.kind e = K.PASS && Pass.rsrc e then
                m.mod (fun d => d.setRead t (Pass.queue e) (p.sent / rowsPer (Pass.rfmt e) + 1))
              else m
    | _, _ => m

/-! ### Commit, re-run and retirement (R105 to R107, R113, R212, R213, R223) -/

/-- The pass goes back to its base and is sent again from its first row. -/
def Mach.restartPass (m : Mach) (t l : Nat) (p : PassSt) (again : Bool) : Mach :=
  let m := m.mod (fun d => d.modLarr t l (fun x => { x with
    tallies := p.base
    pass := some { p with
      phase := .rows
      sent := 0
      rows := []
      chk := {}
      rowChk := []
      rowRange := false
      rerun := again } }))
  if Ent.kind p.word = K.PASS && Pass.rsrc p.word then m.mod (fun d => d.setRead t (Pass.queue p.word) 0) else m

/-- The committed tallies of a logical array captured into a free slot of its physical array's drain buffer (R108); the
slot's results leave it when they have been written. -/
def Dev.capture (d : Dev) (t p : Nat) (cols : List (Nat × Nat)) : Dev :=
  d.modParr t p (fun x => { x with drain := x.drain ++ [cols] })
def Dev.freeSlot (d : Dev) (t p : Nat) : Dev := d.modParr t p (fun x => { x with drain := x.drain.drop 1 })

/-- The entries of `z` bytes that partial-sum memory holds at the places of some runs of results; none when a read aborted
the step. -/
def Mach.psOld (m : Mach) (n t entry z : Nat) (runs : List (Nat × List Nat)) : Mach × Option (List (List Nat)) :=
  runs.foldl (fun (q : Mach × Option (List (List Nat))) r =>
    match q.2 with
    | none => q
    | some xs =>
      match q.1.tileRead n t entry (psAddr t 0 + r.1) (z * r.2.length) with
      | (m, none) => (m, none)
      | (m, some bs) => (m, some (xs ++ [(List.range r.2.length).map (fun i => field bs (z * i) z)]))) (m, some [])

/-- Partial-sum entries of `z` bytes written or accumulated (R66 to R68, R212): runs of entries, each with its offset in
partial-sum memory.  All are read, and every WIN is compared, before any is written; false when the step aborted. -/
def Mach.psWrite (m : Mach) (n t entry z : Nat) (acc : Bool) (win : Int) (runs : List (Nat × List Nat)) : Mach × Bool :=
  let put := fun (m : Mach) (rs : List (Nat × List Nat)) =>
    rs.foldl (fun (m : Mach) r => m.store (psAddr t 0 + r.1) (r.2.flatMap (leBytes z))) m
  if !acc then (put m runs, true)
  else
    match m.psOld n t entry z runs with
    | (m, none) => (m, false)
    | (m, some olds) =>
      let at_ := ((runs.zip olds).flatMap (fun r => ((List.range r.2.length).zip r.2).map (fun x => (r.1.1 + z * x.1, x.2))))
      match (if z = 16 then at_.find? (fun x => psWin x.2 != win) else none) with
      | some x => (m.tileFault n t 0x000A (entry + (x.1 / 64) * 2 ^ 32), false)
      | none => (put m ((runs.zip olds).map (fun r => (r.1.1, (r.2.zip r.1.2).map (fun x =>
          if z = 16 then psAccumulate x.1 x.2 else FFmt.f32.add x.1 x.2)))), true)

/-- One element written into an activation row, a read-modify-write of the row (R213, R215); none in the second place
when the step aborted. -/
def Mach.amElem (m : Mach) (n t entry row byte b v : Nat) : Mach × Bool :=
  let a := amAddr t row + byte
  match m.rmwCheck a b t n with
  | (m, some u) => (m.tileFault n t 0x0008 (memUeDetail entry u), false)
  | (m, none) => (m.store a (leBytes b v), true)

/-- The capture of a tap pass (R212, R213, R223): false when the step aborted. -/
def Mach.tapCapture (m : Mach) (n t l : Nat) (p : PassSt) (tr : TabRec) : Mach × Bool :=
  let x := m.dev.larr t l
  let e := p.word
  let tb := tapTable m tr
  let r := tapRec m tr tb (Tap.tap e)
  let win := x.win.getD 0
  let ct := Ent.kind e == K.CTAP
  -- byte offset of column j's entry
  let off := fun (j : Nat) =>
    if ct then 64 * r.psrow + p.num * 64 * tb.z + j * tb.z
    else 64 * r.psrow + tb.z * (j / 16 * 16 * Tap.nrows e + 16 * p.num + j % 16)
  let runs := if ct then [(0, 64)] else [(0, 16), (16, 16), (32, 16), (48, 16)]
  let ph := m.dev.carrier t l
  let cols := x.tallies.map (fun y => y.result (if tb.tally then 5 else 0) win 0)
  let m := m.mod (fun d => d.capture t ph cols)
  let codes := cols.map (·.1)
  let (m, ok) := m.psWrite n t p.entry tb.z (!r.first) win (runs.map (fun c => (off c.1, (codes.drop c.1).take c.2)))
  let m := m.mod (fun d => d.freeSlot t ph)
  if !ok then (m, false)
  else if !r.last then (m, true)
  else
    let b := outBytes tb.ofmt
    let js := if ct then List.range r.outn else (List.range 64).filter (fun j =>
      decide (Tap.ch e + j / 16 < tb.nc) && decide (r.q0 + 16 * p.num + j % 16 < tb.ohb * tb.ow))
    js.foldl (fun (q : Mach × Bool) j =>
      if !q.2 then q
      else
        let m := q.1
        let v := m.rdNat (psAddr t 0 + off j) tb.z
        let (c, s) := if tb.tally then psConvert v tb.ofmt tb.oshift else fp32Convert v tb.ofmt tb.oshift
        let pos := if ct then r.q0 + p.num else r.q0 + 16 * p.num + j % 16
        let pl := if ct then r.och + j else Tap.ch e + j / 16
        let (row, byte) := planeElem (tb.orow + pl * tb.opp) tb.orp (pos / tb.ow) (pos % tb.ow) b
        let m := m.mod (fun d =>
          let a := Reg.TILE_CONV_STAT t
          let f := Fld.TILE_CONV_STAT.OFLAGS
          d.wf a f (d.rf a f ||| s.byte))
        m.amElem n t p.entry row byte b c) (m, true)

/-- Rows of a landing queue released to their producer as credits (R142). -/
def Dev.releaseRows (d : Dev) (t q rows : Nat) : Dev :=
  let (_, len, rel, held) := d.queue t q
  let d := d.wf (Reg.TILE_LQn_PTR t q) Fld.TILE_LQn_PTR.RELPTR ((rel + rows) % len)
  let d := d.setRead t q 0
  let d := d.wf (Reg.TILE_LQn_RD t q) Fld.TILE_LQn_RD.HELD (held - rows)
  let src := d.reg (Reg.TILE_LQn_SRC t q)
  let pkg := bits src 29 28
  if bits src 31 30 = 0 && pkg ≠ d.pkg then
    match d.tileLoop t with
    | none => d
    | some n =>
      -- a producer in another package takes its credits from a QCREDIT message (R331 to R333)
      match d.portFor pkg ((t + bits src 6 0) % 2) with
      | none => d
      | some p => d.colSend p VC.RESPONSE n (mkMsg 0x21 (d.loopClass n) d.pkg pkg 0 0 0
          (t + q * 2 ^ 7 + n * 2 ^ 11 + rows * 2 ^ 15) [])
  else
    let k := prodKey d.pkg t q
    { d with credits := AMap.set d.credits k (AMap.getD d.credits k 0 + rows) }

/-- A committed pass leaves its array: the next pass of the entry, or the entry's completion. -/
def Mach.leavePass (m : Mach) (n t l : Nat) (p : PassSt) : Mach :=
  let more := if Ent.kind p.word = K.PASS then decide (p.num < Pass.run p.word) else decide (p.num + 1 < Tap.nrows p.word)
  let nx : Option PassSt :=
    if more then some { entry := p.entry, word := p.word, num := p.num + 1, lastRows := p.lastRows } else none
  let m := m.mod (fun d => d.modLarr t l (fun x => { x with pass := nx }))
  let m := if more then m else m.complete t p.entry
  m.kickLoad n t l

/-- A pass commits (R105, R212, R224).  A re-run that commits without checks, because only it met special values, counts
under RETRY_OK and under UNCHECKED both (DESIGN CHOICE, log 65). -/
def Mach.commitPass (m : Mach) (n t l : Nat) (st : StepSt) (p : PassSt) (v : Verdict) : Mach :=
  let ph := m.dev.carrier t l
  let tap := Ent.kind p.word != K.PASS
  let tr := if tap then st.b.route.tabs[Tap.table p.word]? else none
  let pad := match tr with
    | some r => Ent.kind p.word == K.CTAP && m.padRow p r
    | none => false
  let m := m.mod (fun d =>
    let d := ((d.arrCnt t ph 0 1).arrCnt t ph 1 p.sent).arrCnt t ph 5 (b2n p.rerun)
    let d := match v with
      | .unchecked => (d.arrCnt t ph 6 1).modTile t (fun x => { x with unchecked := x.unchecked + 1 })
      | .lossy => (d.arrCnt t ph 7 1).modTile t (fun x => { x with lossy := x.lossy + 1 })
      | _ => d
    let d := if tap then (d.cnt (Reg.TILE_CONV_CNT_k t 0) 1).cnt (Reg.TILE_CONV_CNT_k t 1) (b2n pad) else d
    if !tap && Pass.rsrc p.word then
      d.releaseRows t (Pass.queue p.word) (ceilDiv (Pass.nrows p.word) (rowsPer (Pass.rfmt p.word)))
    else d)
  match tr with
  | none => m.leavePass n t l p
  | some r =>
    match m.tapCapture n t l p r with
    | (m, false) => m
    | (m, true) => m.leavePass n t l p

/-- An earlier tap entry of the list has captures to come: a later one's wait for them (R214). -/
def Mach.tapsBefore (m : Mach) (t : Nat) (p : PassSt) : Bool :=
  Ent.kind p.word != K.PASS && (match m.dev.list t with
    | none => false
    | some l => (l.flights.takeWhile (fun f => f.entry != p.entry)).any (fun f => f.kind == K.CTAP || f.kind == K.DTAP))

/-- The comparison beat (R105 to R107). -/
def Mach.comparePass (m : Mach) (n t l : Nat) (st : StepSt) : Mach :=
  let x := m.dev.larr t l
  match x.pass, x.front with
  | some p, some f =>
    if p.phase != .ended || (m.dev.runsOn t l).isNone || m.tapsBefore t p then m else
    let ph := m.dev.carrier t l
    let b := if Ent.kind p.word = K.PASS then f else f.scalesOff
    let dw := Ent.kind p.word == K.DTAP
    match compare dw b p.base x.tallies p.chk (p.rowChk.map (fun y => (y, p.rowRange))) p.sent with
    | .failed =>
      if !p.rerun then
        let m := m.mod (fun d => (d.raiseFor n 0 Src.TILE 0x0002 t (p.entry + l * 2 ^ 32 + ph * 2 ^ 34)).arrCnt t ph 4 1)
        m.restartPass t l p true
      else
        ((m.mod (fun d => d.retire n t ph 1 p.entry)).restartPass t l p false).noArray n t
    | v => m.commitPass n t l st p v
  | _, _ => m

/-! ### The activity ramp (R117, R118) -/

/-- A pass arrives: an array that is not awake starts to wake. -/
def PhysArray.wake (p : PhysArray) : PhysArray :=
  match p.ramp with
  | .idle | .down => { p with ramp := .up }
  | _ => p

def PhysArray.rampStep (p : PhysArray) : PhysArray :=
  match p.ramp with
  | .up => if p.awake ≥ 7 then { ramp := .active, awake := 8 } else { p with awake := p.awake + 1 }
  | .down => if p.awake ≤ 1 then { ramp := .idle, awake := 0 } else { p with awake := p.awake - 1 }
  | _ => p

end Sys2Proof.Machine
end

