-- ==== Sys2Proof/Machine/Arrays.lean ====
section
/-!
DEFINITION. The commands of the matrix arrays and of the post-processing unit (R94 to R120, R171 to R180, R210 to R230).
-/
namespace Sys2Proof.Machine

def isKind (k : Nat) (e : Nat) : Bool := Ent.kind e == k

/-- The fill that a stationary load names, numbered in list order (R172). -/
def Mach.loadFill (m : Mach) (i : Iss) : Option Nat :=
  if Sload.src i.word then none else some ((fillNamed (m.listEntries i.key) i.idx i.word).getD 0)

/-- SLOAD (R171, R94, R132): the load waits for its fill and for the back register. -/
def execSload (t : Fin 96) (wait stall : Nat) (upsets : List Upset) (s : State) : Host.Outcome State Fault Refusal :=
  run (fun m => (m.tileUpsets t.val upsets).issue t.val (isKind K.SLOAD) (fun m i =>
    let l := Ent.array i.word
    let fill := m.loadFill i
    let m := m.mod (fun d => (d.cnt (Reg.TILE_WR_CNT_k t.val 2) wait).arrCnt t.val (d.carrier t.val l) 3 stall)
    ((m.fly i).addLoad t.val l ⟨i.idx, false, fill, Sload.row i.word, Sload.sfmt i.word, Sload.sscale i.word,
      Sload.dual i.word⟩).kickLoad i.loop t.val l)) s

/-- A pass or a tap entry opens on its logical array (R99, R117, R175, R210, R219). -/
def Mach.openPass (m : Mach) (i : Iss) : Mach :=
  let t := i.key
  let e := i.word
  let l := Ent.array e
  let x := m.dev.larr t l
  let tap := Ent.kind e != K.PASS
  if tap && Tap.nrows e == 0 then
    match i.st.b.route.tabs[Tap.table e]? with
    | none => m
    | some tr =>
      let tb := tapTable m tr
      if tb.oh = 0 || tb.ow = 0 then
        m.mod (fun d => (d.wf (Reg.TILE_CONV_STAT t) Fld.TILE_CONV_STAT.EMPTY 1).wf (Reg.TILE_CONV_STAT t)
          Fld.TILE_CONV_STAT.ETABLE (Tap.table e))
      else m
  else if Pass.acc e && x.win.isSome && x.win != some (Pass.win e) then
    m.tileFault i.loop t 0x0001 (i.idx + l * 2 ^ 32)
  else
    (m.fly i).mod (fun d =>
      (d.modLarr t l (fun x => { x with pass := some { entry := i.idx, word := e } })).modParr t (d.carrier t l) PhysArray.wake)

/-- PASS (R173). -/
def execPass (t : Fin 96) (s : State) : Host.Outcome State Fault Refusal :=
  run (fun m => m.issue t.val (isKind K.PASS) Mach.openPass) s

/-- CTAP (R210). -/
def execCtap (t : Fin 96) (s : State) : Host.Outcome State Fault Refusal :=
  run (fun m => m.issue t.val (isKind K.CTAP) Mach.openPass) s

/-- DTAP (R221). -/
def execDtap (t : Fin 96) (s : State) : Host.Outcome State Fault Refusal :=
  run (fun m => m.issue t.val (isKind K.DTAP) Mach.openPass) s

/-- The running step on a tile: its loop and state. -/
def Dev.stepOn (d : Dev) (t : Nat) : Option (Nat × StepSt) :=
  match d.tileLoop t with
  | none => none
  | some n => (d.loop n).step.bind (fun st => if st.phase == .running then some (n, st) else none)

/-- ARRAY_ROW (R97 to R101, R104, R211, R222). -/
def execArrayRow (t : Fin 96) (l : Fin 4) (bubble : Bool) (stall : Nat) (flips : List Flip)
    (upsets : List Upset) (s : State) : Host.Outcome State Fault Refusal :=
  run (fun m =>
    let m := m.tileUpsets t.val upsets
    match m.dev.stepOn t.val with
    | none => m
    | some (n, st) =>
      match (m.dev.larr t.val l.val).pass with
      | none => m
      | some p =>
        if !m.mayEnter t.val l.val p then m else
        let m := m.mod (fun d => d.arrCnt t.val (d.carrier t.val l.val) 3 stall)
        m.rowSlot n t.val l.val st bubble flips) s

/-- SWAP_FRONT_BACK (R93, R95). -/
def execSwapFrontBack (t : Fin 96) (p : Fin 4) (s : State) : Host.Outcome State Fault Refusal :=
  run (fun m =>
    match m.dev.stepOn t.val, m.turn t.val p.val with
    | some (n, _), some l => m.swapNow n t.val l
    | _, _ => m) s

/-- PASS_COMPARE (R105 to R107). -/
def execPassCompare (t : Fin 96) (l : Fin 4) (upsets : List Upset) (s : State) : Host.Outcome State Fault Refusal :=
  run (fun m =>
    let m := m.tileUpsets t.val upsets
    match m.dev.stepOn t.val with
    | none => m
    | some (n, st) => m.comparePass n t.val l.val st) s

/-- A block read again from its source, when the source still holds it (R96, R114). -/
def Mach.reload (m : Mach) (n t entry : Nat) (b : Block) : Mach × Option Block :=
  match m.dev.loadSrc t b.fill b.row with
  | .rows a =>
    (match m.tileRead n t entry a (64 * b.nrows) with
     | (m, none) => (m, none)
     | (m, some bs) => (m, some (mkBlock ⟨entry, false, b.fill, b.row, b.sfmt, b.scaled, b.dual⟩ bs)))
  | _ => (m, some b)

/-- One logical array arrives on its new physical array: its stationary blocks are read again from their reserved
sources; its tallies, which State keeps with it, come along. -/
def Mach.moveLarr (m : Mach) (n t l : Nat) : Mach :=
  let x := m.dev.larr t l
  let entry := match x.pass with
    | some p => p.entry
    | none => 0
  let one := fun (p : Mach × Bool) (b : Option Block) (put : Block → LogArray → LogArray) =>
    if !p.2 then p
    else match b with
      | none => p
      | some b =>
        match p.1.reload n t entry b with
        | (m, none) => (m, false)
        | (m, some b) => (m.mod (fun d => d.modLarr t l (put b)), true)
  let p := one (m, true) x.front (fun b y => { y with front := some b })
  let p := one p x.back (fun b y => { y with back := some b })
  if p.2 then p.1.mod (fun d =>
    (d.modTile t (fun y => { y with remap := AMap.erase y.remap l })).modParr t (d.physOf t l)
      (fun a => if x.pass.isSome then a.wake else a))
  else p.1

/-- ARRAY_REMAP (R114): a logical array that moves does so at its entry boundary, or at once from a retired array, after the
entries already issued on its new physical array. -/
def execArrayRemap (t : Fin 96) (s : State) : Host.Outcome State Fault Refusal :=
  run (fun m =>
    let x := m.dev.tile t.val
    match m.dev.stepOn t.val with
    | none => m.mod (fun d => d.modTile t.val (fun y => { y with remap := [] }))
    | some (n, _) => x.remap.foldl (fun m (l : Nat × Nat) =>
        let p := m.dev.physOf t.val l.1
        let busy := (List.range 4).any (fun k => k != l.1 && m.dev.runsOn t.val k == some p && (m.dev.larr t.val k).pass.isSome)
        if busy || (m.dev.runsOn t.val l.1).isSome || m.dev.tileLoop t.val != some n then m
        else m.moveLarr n t.val l.1) m) s

/-- The results of a drain in memory order: the stored code and the status byte of each column (R62 to R66, R110). -/
def drainCols (x : LogArray) (e : Nat) : List (Nat × Nat) :=
  x.tallies.map (fun y => y.result (Drain.ofmt e) (x.win.getD 0) (Drain.oshift e))

/-- The codes of a drain-buffer slot written, or accumulated into partial-sum memory: false when the step aborted. -/
def Mach.drainWrite (m : Mach) (i : Iss) (codes : List Nat) : Mach × Bool :=
  let t := i.key
  let e := i.word
  let z := outBytes (Drain.ofmt e)
  if Drain.acc e then
    m.psWrite i.loop t i.idx z true ((m.dev.larr t (Ent.array e)).win.getD 0) [(64 * Drain.drow e, codes)]
  else
    (m.store (if Drain.ps e then psAddr t (Drain.drow e) else amAddr t (Drain.drow e)) (codes.flatMap (leBytes z)), true)

/-- DRAIN (R108 to R110): the tallies are captured into a slot of the drain buffer, which is written out and free again when
the command ends. -/
def execDrain (t : Fin 96) (stall : Nat) (upsets : List Upset) (s : State) : Host.Outcome State Fault Refusal :=
  run (fun m => (m.tileUpsets t.val upsets).issue t.val (isKind K.DRAIN) (fun m i =>
    let p := m.dev.carrier t.val (Ent.array i.word)
    let cols := drainCols (m.dev.larr t.val (Ent.array i.word)) i.word
    let m := m.mod (fun d => (d.arrCnt t.val p 3 stall).capture t.val p cols)
    match m.drainWrite i (cols.map (·.1)) with
    | (m, false) => m
    | (m, true) =>
      let m := m.mod (fun d => d.freeSlot t.val p)
      let m := if Drain.sten i.word then
          m.store (amAddr t.val (Drain.strow i.word)) (cols.map (fun c => BitVec.ofNat 8 c.2)) else m
      m.mod (fun d =>
        let a := Reg.TILE_ARRn_STAT t.val p
        let f := Fld.TILE_ARRn_STAT.DFLAGS
        d.wf a f (cols.foldl (fun v c => v ||| c.2) (d.rf a f))))) s

/-- ARRAY_RAMP_STEP (R117, R118). -/
def execArrayRampStep (t : Fin 96) (p : Fin 4) (s : State) : Host.Outcome State Fault Refusal :=
  runDev (fun _ d => d.modParr t.val p.val PhysArray.rampStep) s

/-- A pass is open on a physical array. -/
def Dev.passOn (d : Dev) (t p : Nat) : Bool :=
  (List.range 4).any (fun l => d.carrier t l == p && (d.larr t l).pass.isSome)

/-- ARRAY_IDLE (R118): with no pass open, the array begins to ramp down. -/
def execArrayIdle (t : Fin 96) (p : Fin 4) (s : State) : Host.Outcome State Fault Refusal :=
  runDev (fun _ d =>
    if d.passOn t.val p.val then d
    else d.modParr t.val p.val (fun x => match x.ramp with
      | .active | .up => if x.awake = 0 then { x with ramp := .idle } else { x with ramp := .down }
      | _ => x)) s

def arrCounters (t : Nat) : List Nat :=
  (List.range 4).flatMap (fun n => (List.range 8).map (Reg.TILE_ARRn_CNT_k t n))
def convCounters (t : Nat) : List Nat := (List.range 4).map (Reg.TILE_CONV_CNT_k t)

/-- ARR_CNT_CLR (R120). -/
def execArrCntClr (t : Fin 96) (s : State) : Host.Outcome State Fault Refusal :=
  runDev (fun _ d => d.clearRegs (arrCounters t.val)) s

/-- CONV_CNT_CLR (R230). -/
def execConvCntClr (t : Fin 96) (s : State) : Host.Outcome State Fault Refusal :=
  runDev (fun _ d => d.clearRegs (convCounters t.val)) s

/-- ARGMAX (R226 to R228). -/
def execArgmax (t : Fin 96) (upsets : List Upset) (s : State) : Host.Outcome State Fault Refusal :=
  run (fun m => (m.tileUpsets t.val upsets).issue t.val (isKind K.ARGMAX) (fun m i =>
    let e := i.word
    let b := outBytes (Argmax.ifmt e)
    let pr := ceilDiv (Argmax.npix e * b) 64
    match m.tileRead i.loop t.val i.idx (amAddr t.val (Argmax.srow e)) (64 * pr * Argmax.nch e) with
    | (m, none) => m
    | (m, some bs) =>
      let words := (List.range (Argmax.npix e)).map (fun px =>
        let (c, nan) := argmaxOf ((List.range (Argmax.nch e)).map (fun c =>
          argValue (Argmax.ifmt e) (field bs (64 * pr * c + px * b) b)))
        c + b2n nan * 2 ^ 15)
      let out := words.flatMap (leBytes 2)
      let rows := ceilDiv (Argmax.npix e) 32
      (m.store (amAddr t.val (Argmax.drow e)) (slice out 0 (64 * rows))).mod (fun d =>
        d.cnt (Reg.TILE_CONV_CNT_k t.val 3) (Argmax.npix e)))) s

/-- SIGN (R183): the rows folded, in row order, into a signature register. -/
def execSign (t : Fin 96) (upsets : List Upset) (s : State) : Host.Outcome State Fault Refusal :=
  run (fun m => (m.tileUpsets t.val upsets).issue t.val (fun e => Ent.kind e == K.CHECK && Chk.op e == 3) (fun m i =>
    match m.tileRead i.loop t.val i.idx (amAddr t.val (Chk.srow i.word)) (64 * Chk.nrows i.word) with
    | (m, none) => m
    | (m, some bs) => m.mod (fun d => d.modTile t.val (fun x => { x with
        sigs := modAt x.sigs (Chk.sig i.word) (fun v => (crcParams 3).run v bs) })))) s

end Sys2Proof.Machine
end

