-- ==== Sys2Proof/Machine/Ring.lean ====
section
/-!
DEFINITION. The weight streamer and the weight ring (R130 to R137, R185, R190 to R196).  The streamer takes weight
fetches from the entries that have been read ahead, in entry order; a fetch it has taken waits in `fillq` for the slot at
the fill pointer.
-/
namespace Sys2Proof.Machine

/-! ### The streamer's place in the list (R136, R189, R190) -/

/-- The weight fetch that the streamer takes next, with its index. -/
def Mach.streamerHead (m : Mach) (t : Nat) : Option (Nat × Nat) :=
  match m.dev.list t with
  | none => none
  | some l => (m.listEntries t).find? (fun p =>
      decide (p.1 ≥ (m.dev.tile t).sptr) && decide (p.1 < l.next + l.buf.length) && Ent.kind p.2 == K.WFETCH)

/-- The running step of the list on a tile, whose streamer may work. -/
def Mach.streamerStep (m : Mach) (t : Nat) : Option (Nat × StepSt) :=
  match m.dev.list t with
  | none => none
  | some l => if l.stopped then none else m.dev.stepOn t

def Dev.skipTo (d : Dev) (t idx : Nat) : Dev := d.modTile t (fun x => { x with sptr := idx + 1 })
def Dev.pushFill (d : Dev) (t : Nat) (r : FillReq) : Dev := d.modTile t (fun x => { x with fillq := x.fillq ++ [r] })
def Dev.specCnt (d : Dev) (t k n : Nat) : Dev := d.cnt (Reg.TILE_SPEC_CNT_k t k) n

/-- WFETCH_PLAIN (R136, R185): one fill, from the base value of the binding and the entry's offset. -/
def execWfetchPlain (t : Fin 96) (s : State) : Host.Outcome State Fault Refusal :=
  runDev (fun mem d =>
    let m : Mach := ⟨mem, [], d⟩
    match m.streamerStep t.val, m.streamerHead t.val with
    | some (_, st), some (i, e) =>
      if Wf.mode e ≠ 0 then d
      else
        let f := (d.tile t.val).nextFill
        let d := (d.skipTo t.val i).modTile t.val (fun x => { x with nextFill := f + 1 })
        d.pushFill t.val ⟨some f, st.b.bases.getD (Wf.base e) 0 + Wf.offset e, Wf.len e, Wf.uses e, none, false⟩
    | _, _ => d) s

/-! ### Slots (R130 to R134, R137) -/

/-- Loads of a fill that have been issued and not made yet. -/
def TileSt.pendingLoads (x : TileSt) (f : Nat) : Nat :=
  x.larr.foldl (fun n a => n + (a.loads.filter (fun ld => ld.fill == some f)).length) 0

/-- Read transactions in flight, at most 512 (R136): every row that has not landed, since how many reads are in flight at once
is time (DESIGN CHOICE, log 68). -/
def Dev.setOutstanding (d : Dev) (t : Nat) : Dev :=
  let n := (d.tile t).slots.foldl (fun n s => match s.req with
    | some r => if s.landed then n else n + r.rows
    | none => n) 0
  d.wf (Reg.TILE_WR_STAT t) Fld.TILE_WR_STAT.OUTSTANDING (min n 512)

/-- Slots between fill and release. -/
def Dev.slotsInUse (d : Dev) (t : Nat) : Nat := ((List.range 6).filter (fun s => d.token t s != Tok.EMPTY)).length

def Dev.emptySlot (d : Dev) (t s : Nat) : Dev :=
  let d := d.setReg (Reg.TILE_WR_SLOTn t s) 0
  let d := d.modTile t (fun x => { x with
    slots := modAt x.slots s (fun _ => {})
    fills := List.filter (fun (p : Nat × FillPlace) => p.2 != FillPlace.slot s) x.fills })
  d.setOutstanding t

/-- STREAMER_FILL_START (R131, R136): the oldest fetch starts in the slot at the fill pointer, when it is EMPTY and the
run-ahead depth allows. -/
def execStreamerFillStart (t : Fin 96) (wait : Nat) (s : State) : Host.Outcome State Fault Refusal :=
  runDev (fun mem d =>
    let m : Mach := ⟨mem, [], d⟩
    match m.streamerStep t.val, (d.tile t.val).fillq with
    | some _, r :: rest =>
      let a := Reg.TILE_WR_STAT t.val
      let sl := d.rf a Fld.TILE_WR_STAT.FILL_PTR
      if d.token t.val sl ≠ Tok.EMPTY || d.slotsInUse t.val ≥ d.rf a Fld.TILE_WR_STAT.DEPTH then d
      else
        let uses := match r.fill with
          | some f => r.uses - (d.tile t.val).pendingLoads f
          | none => 0
        let tok := if r.fill.isSome then Tok.FILLING else Tok.SPECULATIVE
        let d := d.setReg (Reg.TILE_WR_SLOTn t.val sl) (tok * 2 ^ 29 + uses)
        let d := d.modTile t.val (fun x => { x with
          fillq := rest
          slots := modAt x.slots sl (fun _ => { req := some r })
          fills := match r.fill with
            | some f => AMap.set x.fills f (.slot sl)
            | none => x.fills })
        let d := d.wf a Fld.TILE_WR_STAT.FILL_PTR ((sl + 1) % 6)
        let d := (d.cnt (Reg.TILE_WR_CNT_k t.val 1) wait).specCnt t.val 0 (b2n r.tag.isSome)
        d.setOutstanding t.val
    | _, _ => d) s

/-- No frozen arbiter on its way holds a fetch (R311). -/
def Dev.fetchGoes (d : Dev) (t : Nat) (r : FillReq) : Bool :=
  d.hbmOpen r.addr (64 * r.rows) t && (hbmRidgeRows r.addr r.rows).all (fun x => d.meshOpen x.1 (t / 4) (t % 4) t)

/-- FETCH_LANDED (R132, R134, R354). -/
def execFetchLanded (t : Fin 96) (slot : Fin 6) (upsets : List Upset) (s : State) : Host.Outcome State Fault Refusal :=
  run (fun m =>
    let m := m.upsets upsets
    let x := (m.dev.tile t.val).slots.getD slot.val {}
    match m.dev.tileLoop t.val, x.req with
    | some n, some r =>
      if x.landed || !m.dev.fetchGoes t.val r then m
      else
        let (m, bad) := if r.bad then (m, some r.addr) else m.eccRead r.addr (64 * r.rows) t.val n
        let land := fun (d : Dev) => (d.modTile t.val (fun y => { y with
          slots := modAt y.slots slot.val (fun z => { z with landed := true }) })).setOutstanding t.val
        match bad with
        | some _ => (m.mod (fun d => ((land d).setToken t.val slot.val Tok.POISONED).cnt (Reg.TILE_WR_CNT_k t.val 3) 1)).kickLoads
            t.val
        | none =>
          let m := m.store (wmAddr t.val slot.val 0) (m.rdBytes r.addr (64 * r.rows))
          let m := m.mod (fun d =>
            let d := ((land d).cnt (Reg.TILE_WR_CNT_k t.val 0) 1).fromHbm r.addr r.rows t.val
            if d.token t.val slot.val = Tok.FILLING then d.setToken t.val slot.val Tok.FULL else d)
          m.kickLoads t.val
    | _, _ => m) s

/-- The front block of a logical array has a pass still to come: its open pass, or the next pass of the list on the same
parity (R96). -/
def Mach.frontNeeded (m : Mach) (t l : Nat) : Bool :=
  let x := m.dev.larr t l
  match x.pass with
  | some p => p.parity == x.parity || p.started
  | none =>
    match m.dev.list t with
    | none => false
    | some ls =>
      let later := ls.redo ++ (m.listEntries t).filter (fun p => decide (p.1 ≥ ls.next))
      match later.find? (fun p => isPassKind (Ent.kind p.2) && Ent.array p.2 == l) with
      | some p => Pass.par p.2 == x.parity
      | none => false

/-- A block of the fill is still to be loaded or used (R96, R133). -/
def Mach.fillBusy (m : Mach) (t f : Nat) : Bool :=
  (List.range 4).any (fun l =>
    let x := m.dev.larr t l
    x.loads.any (fun ld => ld.fill == some f)
      || (match x.back with | some b => b.fill == some f | none => false)
      || (match x.front with | some b => b.fill == some f && m.frontNeeded t l | none => false))

/-- The fill in a slot. -/
def TileSt.fillIn (x : TileSt) (s : Nat) : Option Nat :=
  ((List.filter (fun (p : Nat × FillPlace) => p.2 == FillPlace.slot s) x.fills).head?).map (·.1)

/-- SLOT_RELEASE (R133). -/
def execSlotRelease (t : Fin 96) (slot : Fin 6) (s : State) : Host.Outcome State Fault Refusal :=
  runDev (fun mem d =>
    let m : Mach := ⟨mem, [], d⟩
    match (d.tile t.val).fillIn slot.val with
    | none => d
    | some f =>
      if d.token t.val slot.val = Tok.FULL && d.slotUses t.val slot.val = 0 && !m.fillBusy t.val f then
        d.emptySlot t.val slot.val
      else d) s

/-! ### Speculative fetches (R192 to R195) -/

/-- The expert numbers of a row: number i at bytes 2i and 2i + 1. -/
def expertNumbers (bs : List Byte) (nx : Nat) : List Nat := (List.range nx).map (fun i => field bs (2 * i) 2)

/-- E and the address of chunk `c` of expert `x` (R167). -/
def Mach.experts (m : Mach) (tr : TabRec) : Nat := m.rdNat tr.addr 2

/-- The header of an expert table as the streamer reads it: E, and whether the read failed.  With no header every number counts
as an expert, and its slot will be POISONED (R354; DESIGN CHOICE, log 74). -/
def Mach.expertHeader (m : Mach) (n t : Nat) (tr : TabRec) : Mach × Nat × Bool :=
  match m.eccRead tr.addr 16 t n with
  | (m, none) => (m, m.experts tr, false)
  | (m, some _) => (m, 65536, true)
def Mach.chunkAddr (m : Mach) (b : Binding) (tr : TabRec) (x c : Nat) : Nat :=
  b.bases.getD (m.rdNat (tr.addr + 2) 1) 0 + m.rdNat (tr.addr + 16 + 8 * x) 8 + c * m.rdNat (tr.addr + 8) 8

/-- A fetch of chunk `c` of expert `x` joins those that wait; a failed read of the table poisons its slot (R354). -/
def Mach.chunkFill (m : Mach) (n t : Nat) (b : Binding) (tr : TabRec) (x c : Nat) (r : FillReq) : Mach :=
  let (m, bad) := if r.bad then (m, none) else m.eccRead (tr.addr + 16 + 8 * x) 8 t n
  m.mod (fun d => d.pushFill t { r with
    addr := m.chunkAddr b tr x c
    bad := r.bad || bad.isSome })

/-- The predictions that are taken, in row order (R192). -/
def takenExperts (e : Nat) : List Nat → List Nat → List Nat
  | [], _ => []
  | x :: xs, seen =>
    if x = 0xFFFF || x ≥ e || seen.contains x then takenExperts e xs (x :: seen) else x :: takenExperts e xs (x :: seen)

/-- A SPEC fetch that the streamer takes (R192, R195). -/
def Mach.takeSpec (m : Mach) (n t idx e : Nat) (st : StepSt) : Mach :=
  let m := m.mod (fun d => d.skipTo t idx)
  if !st.b.spec then m.mod (fun d => d.specCnt t 4 (Wf.nx e))
  else
    match st.b.route.tabs[Wf.xtab e]? with
    | none => m
    | some tr =>
      match m.tileRead n t idx (amAddr t (Wf.xrow e)) 64 with
      | (m, none) => m
      | (m, some bs) =>
        let (m, ne, bad) := m.expertHeader n t tr
        let xs := takenExperts ne (expertNumbers bs (Wf.nx e)) []
        let m := m.mod (fun d => d.specCnt t 4 (Wf.nx e - xs.length))
        xs.foldl (fun m x => m.chunkFill n t st.b tr x (Wf.chunk e)
          ⟨none, 0, Wf.xlen e, Wf.xuses e, some (Wf.xtab e, x, Wf.chunk e), bad⟩) m

/-- WFETCH_SPEC (R190, R192): an anchored one is taken when the sequencer issues it. -/
def execWfetchSpec (t : Fin 96) (upsets : List Upset) (s : State) : Host.Outcome State Fault Refusal :=
  run (fun m =>
    let m := m.tileUpsets t.val upsets
    match m.streamerStep t.val, m.streamerHead t.val with
    | some (n, st), some (i, e) =>
      if Wf.mode e ≠ 1 then m
      else if Wf.anchored e then
        m.issue t.val (fun w => w == e && Wf.mode w == 1) (fun m j =>
          if j.idx = i then m.takeSpec n t.val i e st else m)
      else m.takeSpec n t.val i e st
    | _, _ => m) s

/-- The decision numbers are invalid: one other than 0xFFFF is E or above or repeats an earlier one (R193). -/
def badDecision (e : Nat) : List Nat → List Nat → Bool
  | [], _ => false
  | x :: xs, seen => (x != 0xFFFF && (decide (x ≥ e) || seen.contains x)) || badDecision e xs (x :: seen)

/-- The SPECULATIVE slot whose tag matches. -/
def Dev.specSlot (d : Dev) (t : Nat) (tag : Nat × Nat × Nat) : Option Nat :=
  (List.range 6).find? (fun s => d.token t s == Tok.SPECULATIVE
    && ((((d.tile t).slots.getD s {}).req).bind (·.tag)) == some tag)

/-- The four steps of R193 for the decision numbers `ds`. -/
def Mach.resolve (m : Mach) (n t e : Nat) (st : StepSt) (tr : TabRec) (hbad : Bool) (ds : List Nat) : Mach :=
  let f0 := (m.dev.tile t).nextFill
  let xt := Wf.xtab e
  let c := Wf.chunk e
  let pos := (List.range ds.length).zip ds
    -- 1: confirmations
  let (d, left) := pos.foldl (fun (p : Dev × List (Nat × Nat)) x =>
      if x.2 = 0xFFFF then p
      else match p.1.specSlot t (xt, x.2, c) with
        | none => (p.1, p.2 ++ [x])
        | some s =>
          let landed := ((p.1.tile t).slots.getD s {}).landed
          let d := p.1.setReg (Reg.TILE_WR_SLOTn t s) ((if landed then Tok.FULL else Tok.FILLING) * 2 ^ 29 + Wf.xuses e)
          let d := d.modTile t (fun y => { y with
            slots := modAt y.slots s (fun z => { z with req := z.req.map (fun r =>
              { r with fill := some (f0 + x.1), uses := Wf.xuses e, tag := none }) })
            fills := AMap.set y.fills (f0 + x.1) (.slot s) })
          (d.specCnt t 1 1, p.2)) (m.dev, [])
    -- 2: squashes
  let d := (List.range 6).foldl (fun d s =>
      let tag := (((d.tile t).slots.getD s {}).req).bind (·.tag)
      if d.token t s == Tok.SPECULATIVE && (match tag with | some g => g.1 == xt && g.2.2 == c | none => false) then
        (d.emptySlot t s).specCnt t 2 1 else d) d
    -- 3: misses
  let m := left.foldl (fun (m : Mach) x => (m.chunkFill n t st.b tr x.2 c
      ⟨some (f0 + x.1), 0, Wf.xlen e, Wf.xuses e, none, hbad⟩).mod (fun d => d.specCnt t 3 1)) { m with dev := d }
    -- 4: positions with no expert
  m.mod (fun d =>
    let d := pos.foldl (fun d x => if x.2 = 0xFFFF then d.modTile t (fun y =>
      { y with fills := AMap.set y.fills (f0 + x.1) .zero }) else d) d
    d.modTile t (fun y => { y with nextFill := f0 + ds.length }))

/-- WFETCH_RESOLVE (R190, R193, R195): the sequencer issues the entry, and every earlier fetch has started. -/
def execWfetchResolve (t : Fin 96) (upsets : List Upset) (s : State) : Host.Outcome State Fault Refusal :=
  run (fun m =>
    let m := m.tileUpsets t.val upsets
    match m.streamerStep t.val, m.streamerHead t.val with
    | some (n, st), some (i, e) =>
      if Wf.mode e ≠ 2 || !(m.dev.tile t.val).fillq.isEmpty then m
      else m.issue t.val (fun w => w == e) (fun m j =>
        match st.b.route.tabs[Wf.xtab e]? with
        | none => m
        | some tr =>
          match m.tileRead n t.val j.idx (amAddr t.val (Wf.xrow e)) 64 with
          | (m, none) => m
          | (m, some bs) =>
            let ds := expertNumbers bs (Wf.nx e)
            let m := m.mod (fun d => d.skipTo t.val i)
            let (m, ne, bad) := m.expertHeader n t.val tr
            if badDecision ne ds [] then m.tileFault n t.val 0x0006 j.idx
            else (m.resolve n t.val e st tr bad ds).kickLoads t.val)
    | _, _ => m) s

def specCounters (t : Nat) : List Nat := (List.range 5).map (Reg.TILE_SPEC_CNT_k t)

/-- SPEC_CNT_CLR (R203). -/
def execSpecCntClr (t : Fin 96) (s : State) : Host.Outcome State Fault Refusal :=
  runDev (fun _ d => d.clearRegs (specCounters t.val)) s

end Sys2Proof.Machine
end

