-- ==== Sys2Proof/Machine/RvFloat.lean ====
section
/-!
DEFINITION. The floating-point arithmetic of the spur cores (R69): IEEE 754 binary32 and binary64 with the rounding modes and
the exception flags of the RISC-V F, D and V extensions, subnormals kept, NaN results canonical, fused multiply-add rounded
once.
-/
namespace Sys2Proof

/-- The rounding modes of frm, and the rounding to odd of vfncvt.rod. -/
inductive Rm where
  | rne | rtz | rdn | rup | rmm | rod
deriving DecidableEq, Repr

/-- The mode that an encoding of frm names. -/
def Rm.of : Nat → Option Rm
  | 0 => some .rne
  | 1 => some .rtz
  | 2 => some .rdn
  | 3 => some .rup
  | 4 => some .rmm
  | _ => none

/-! The exception flags of fflags. -/
def Fl.NX : Nat := 1
def Fl.UF : Nat := 2
def Fl.OF : Nat := 4
def Fl.DZ : Nat := 8
def Fl.NV : Nat := 16

/-- A result: its code, and the flags that it raises. -/
structure FRes where
  code : Nat
  flags : Nat := 0
deriving DecidableEq, Repr

/-- Two sets of flags together. -/
def orFlags (a b : Nat) : Nat := Nat.lor a b
def FRes.raise (r : FRes) (on : Bool) (fl : Nat) : FRes := if on then { r with flags := orFlags r.flags fl } else r

/-- `mag / 2^s` rounded to an integer; `neg` is the sign of the number. -/
def Rm.shift (rm : Rm) (neg : Bool) (mag s : Nat) : Nat :=
  let q := mag / 2 ^ s
  let r := mag % 2 ^ s
  let up := match rm with
    | .rne => 2 * r > 2 ^ s || (2 * r == 2 ^ s && q % 2 == 1)
    | .rtz => false
    | .rdn => neg && r != 0
    | .rup => !neg && r != 0
    | .rmm => 2 * r ≥ 2 ^ s
    | .rod => r != 0 && q % 2 == 0
  if up then q + 1 else q

/-- `mag * 2^e` in units of `2^q`, rounded, and whether that is exact. -/
def Rm.quantum (rm : Rm) (neg : Bool) (mag : Nat) (e q : Int) : Nat × Bool :=
  if e ≥ q then (mag * 2 ^ (e - q).toNat, true)
  else (rm.shift neg mag (q - e).toNat, mag % 2 ^ (q - e).toNat == 0)

/-- An overflow gives infinity, or the greatest finite number where the mode rounds toward zero there. -/
def FFmt.overflowTo (f : FFmt) (rm : Rm) (neg : Bool) : Nat :=
  let inf := match rm with
    | .rne => true
    | .rmm => true
    | .rtz => false
    | .rod => false
    | .rdn => neg
    | .rup => !neg
  b2n neg * f.signBit + (if inf then f.infCode else f.maxCode)

/-- `mag * 2^e` rounded into a format; tininess is detected after rounding. -/
def FFmt.roundRm (f : FFmt) (rm : Rm) (neg : Bool) (mag : Nat) (e : Int) : FRes :=
  if mag = 0 then ⟨b2n neg * f.signBit, 0⟩
  else
    let minE : Int := 1 - (f.bias : Int)
    let top : Int := (Nat.log2 mag : Int) + e
    let ex := max top minE
    let (sig, exact) := rm.quantum neg mag e (ex - f.mb)
    let code := (ex - minE).toNat * 2 ^ f.mb + sig
    let tiny := decide (top < minE)
      && !(top == minE - 1 && (rm.quantum neg mag e (top - f.mb)).1 == 2 ^ (f.mb + 1))
    if code > f.maxCode then ⟨f.overflowTo rm neg, Fl.OF + Fl.NX⟩
    else ⟨b2n neg * f.signBit + code, if exact then 0 else if tiny then Fl.UF + Fl.NX else Fl.NX⟩

/-- A signalling NaN. -/
def FFmt.isSnan (f : FFmt) (a : Nat) : Bool := f.isNan a && !bit a (f.mb - 1)
def FFmt.isZero (f : FFmt) (a : Nat) : Bool := a % f.signBit == 0
def FFmt.isNeg (f : FFmt) (a : Nat) : Bool := bit a (f.eb + f.mb)
/-- The canonical NaN, with the invalid flag. -/
def FFmt.invalid (f : FFmt) : FRes := ⟨f.nanCode, Fl.NV⟩

/-- The sum of two values, neither a NaN result in hiding. -/
def FFmt.sumV (f : FFmt) (rm : Rm) (x y : FVal) : FRes :=
  match x, y with
  | .nan, _ => ⟨f.nanCode, 0⟩
  | _, .nan => ⟨f.nanCode, 0⟩
  | .inf a, .inf b => if a = b then ⟨f.encode (.inf a), 0⟩ else f.invalid
  | .inf a, _ => ⟨f.encode (.inf a), 0⟩
  | _, .inf b => ⟨f.encode (.inf b), 0⟩
  | .fin na ma ea, .fin nb mb eb =>
    let (m, e) := dyAdd (signed na ma) ea (signed nb mb) eb
    if m = 0 then ⟨b2n (if na = nb then na else rm == .rdn) * f.signBit, 0⟩
    else f.roundRm rm (m < 0) m.natAbs e

def FFmt.addRm (f : FFmt) (rm : Rm) (a b : Nat) : FRes :=
  (f.sumV rm (f.decode a) (f.decode b)).raise (f.isSnan a || f.isSnan b) Fl.NV
/-- The sign bit changed, whatever the code stands for. -/
def FFmt.flip (f : FFmt) (a : Nat) : Nat := if f.isNeg a then a - f.signBit else a + f.signBit
def FFmt.subRm (f : FFmt) (rm : Rm) (a b : Nat) : FRes := f.addRm rm a (f.flip b)

/-- The product of two codes is invalid: infinity times zero. -/
def FFmt.mulBad (f : FFmt) (a b : Nat) : Bool :=
  !f.isNan a && !f.isNan b && mulV (f.decode a) (f.decode b) == .nan

def FFmt.mulRm (f : FFmt) (rm : Rm) (a b : Nat) : FRes :=
  (match mulV (f.decode a) (f.decode b) with
    | .nan => (⟨f.nanCode, 0⟩ : FRes)
    | .inf n => ⟨f.encode (.inf n), 0⟩
    | .fin n m e => f.roundRm rm n m e).raise (f.isSnan a || f.isSnan b || f.mulBad a b) Fl.NV

/-- `a * b + c`, rounded once. -/
def FFmt.fmaRm (f : FFmt) (rm : Rm) (a b c : Nat) : FRes :=
  (f.sumV rm (mulV (f.decode a) (f.decode b)) (f.decode c)).raise
    (f.isSnan a || f.isSnan b || f.isSnan c || f.mulBad a b) Fl.NV

def FFmt.divRm (f : FFmt) (rm : Rm) (a b : Nat) : FRes :=
  (match f.decode a, f.decode b with
    | .nan, _ => (⟨f.nanCode, 0⟩ : FRes)
    | _, .nan => ⟨f.nanCode, 0⟩
    | .inf _, .inf _ => f.invalid
    | .inf x, .fin y _ _ => ⟨f.encode (.inf (x != y)), 0⟩
    | .fin x _ _, .inf y => ⟨b2n (x != y) * f.signBit, 0⟩
    | .fin x mx ex, .fin y my ey =>
      if my = 0 then (if mx = 0 then f.invalid else ⟨f.encode (.inf (x != y)), Fl.DZ⟩)
      else
        let k := 2 * f.mb + 8 + Nat.log2 my
        let q := mx * 2 ^ k / my
        f.roundRm rm (x != y) (2 * q + b2n (mx * 2 ^ k % my != 0)) (ex - ey - k - 1)).raise
    (f.isSnan a || f.isSnan b) Fl.NV

def FFmt.sqrtRm (f : FFmt) (rm : Rm) (a : Nat) : FRes :=
  match f.decode a with
  | .nan => (⟨f.nanCode, 0⟩ : FRes).raise (f.isSnan a) Fl.NV
  | .inf n => if n then f.invalid else ⟨a, 0⟩
  | .fin n m e =>
    if m = 0 then ⟨a, 0⟩
    else if n then f.invalid
    else
      let (m, e) := if e % 2 = 0 then (m, e) else (2 * m, e - 1)
      let k := f.mb + 4
      let v := m * 2 ^ (2 * k)
      let r := isqrt v
      f.roundRm rm false (2 * r + b2n (r * r != v)) (e / 2 - k - 1)

/-- The lesser, or with `big` the greater: a NaN gives way to a number, and zeros differ by sign. -/
def FFmt.minRm (f : FFmt) (big : Bool) (a b : Nat) : FRes :=
  let v :=
    if f.isNan a && f.isNan b then f.nanCode
    else if f.isNan a then b
    else if f.isNan b then a
    else if f.lt a b then (if big then b else a)
    else if f.lt b a then (if big then a else b)
    else if f.isNeg a == big then b else a
  (⟨v, 0⟩ : FRes).raise (f.isSnan a || f.isSnan b) Fl.NV

def FFmt.eqRm (f : FFmt) (a b : Nat) : Bool × Nat :=
  (!f.isNan a && !f.isNan b && !f.lt a b && !f.lt b a, if f.isSnan a || f.isSnan b then Fl.NV else 0)
def FFmt.ltRm (f : FFmt) (a b : Nat) : Bool × Nat := (f.lt a b, if f.isNan a || f.isNan b then Fl.NV else 0)
def FFmt.leRm (f : FFmt) (a b : Nat) : Bool × Nat :=
  (!f.isNan a && !f.isNan b && !f.lt b a, if f.isNan a || f.isNan b then Fl.NV else 0)

/-- The sign of `a` injected: 0 that of `b`, 1 its opposite, 2 the two together. -/
def FFmt.sgnj (f : FFmt) (k a b : Nat) : Nat :=
  let s := match k with
    | 0 => f.isNeg b
    | 1 => !f.isNeg b
    | _ => f.isNeg a != f.isNeg b
  a % f.signBit + b2n s * f.signBit

/-- A code as an integer of `w` bits, saturating. -/
def FFmt.toInt (f : FFmt) (rm : Rm) (signedTo : Bool) (w a : Nat) : FRes :=
  let least : Int := if signedTo then -(2 ^ (w - 1)) else 0
  let most : Int := if signedTo then 2 ^ (w - 1) - 1 else 2 ^ w - 1
  match f.decode a with
  | .nan => ⟨wrap w most, Fl.NV⟩
  | .inf n => ⟨wrap w (if n then least else most), Fl.NV⟩
  | .fin n m e =>
    let (r, exact) := rm.quantum n m e 0
    let v := signed n r
    if v < least then ⟨wrap w least, Fl.NV⟩
    else if v > most then ⟨wrap w most, Fl.NV⟩
    else ⟨wrap w v, if exact then 0 else Fl.NX⟩

/-- An integer in a format. -/
def FFmt.ofInt (f : FFmt) (rm : Rm) (v : Int) : FRes := f.roundRm rm (v < 0) v.natAbs 0

/-- A code of one format in another. -/
def FFmt.castRm (src dst : FFmt) (rm : Rm) (a : Nat) : FRes :=
  match src.decode a with
  | .nan => (⟨dst.nanCode, 0⟩ : FRes).raise (src.isSnan a) Fl.NV
  | .inf n => ⟨dst.encode (.inf n), 0⟩
  | .fin n m e => dst.roundRm rm n m e

/-- The class of a code, as fclass gives it. -/
def FFmt.classOf (f : FFmt) (a : Nat) : Nat :=
  let n := f.isNeg a
  match f.decode a with
  | .nan => if f.isSnan a then 2 ^ 8 else 2 ^ 9
  | .inf _ => if n then 1 else 2 ^ 7
  | .fin _ m _ =>
    if m = 0 then (if n then 2 ^ 3 else 2 ^ 4)
    else if m < 2 ^ f.mb then (if n then 2 ^ 2 else 2 ^ 5)
    else if n then 2 else 2 ^ 6

/-! ### The seven-bit estimates (vfrec7, vfrsqrt7) -/

def rec7Lo : List Nat :=
  [127, 125, 123, 121, 119, 117, 116, 114, 112, 110, 109, 107, 105, 104, 102, 100, 99, 97, 96, 94, 93, 91, 90, 88, 87, 85, 84,
   83, 81, 80, 79, 77, 76, 75, 74, 72, 71, 70, 69, 68, 66, 65, 64, 63, 62, 61, 60, 59, 58, 57, 56, 55, 54, 53, 52, 51, 50, 49,
   48, 47, 46, 45, 44, 43]
def rec7Hi : List Nat :=
  [42, 41, 40, 40, 39, 38, 37, 36, 35, 35, 34, 33, 32, 31, 31, 30, 29, 28, 28, 27, 26, 25, 25, 24, 23, 23, 22, 21, 21, 20, 19,
   19, 18, 17, 17, 16, 15, 15, 14, 14, 13, 12, 12, 11, 11, 10, 9, 9, 8, 8, 7, 7, 6, 5, 5, 4, 4, 3, 3, 2, 2, 1, 1, 0]
/-- The table of vfrec7: seven bits of the significand to seven of the result. -/
def rec7Table : List Nat := rec7Lo ++ rec7Hi

def rsqrt7Lo : List Nat :=
  [52, 51, 50, 48, 47, 46, 44, 43, 42, 41, 40, 39, 38, 36, 35, 34, 33, 32, 31, 30, 30, 29, 28, 27, 26, 25, 24, 23, 23, 22, 21,
   20, 19, 19, 18, 17, 16, 16, 15, 14, 14, 13, 12, 12, 11, 10, 10, 9, 9, 8, 7, 7, 6, 6, 5, 4, 4, 3, 3, 2, 2, 1, 1, 0]
def rsqrt7Hi : List Nat :=
  [127, 125, 123, 121, 119, 118, 116, 114, 113, 111, 109, 108, 106, 105, 103, 102, 100, 99, 97, 96, 95, 93, 92, 91, 90, 88, 87,
   86, 85, 84, 83, 82, 80, 79, 78, 77, 76, 75, 74, 73, 72, 71, 70, 70, 69, 68, 67, 66, 65, 64, 63, 63, 62, 61, 60, 59, 59, 58,
   57, 56, 56, 55, 54, 53]
/-- The table of vfrsqrt7: the exponent's low bit and six bits of the significand to seven bits of the result. -/
def rsqrt7Table : List Nat := rsqrt7Lo ++ rsqrt7Hi

/-- The exponent and the fraction of a nonzero finite code, a subnormal one shifted until its leading one has left the
fraction. -/
def FFmt.normParts (f : FFmt) (a : Nat) : Int × Nat :=
  let u := a % f.signBit
  let ex := u / 2 ^ f.mb
  let m := u % 2 ^ f.mb
  if ex > 0 then ((ex : Int), m)
  else
    let lz := f.mb - 1 - Nat.log2 m
    (-(lz : Int), m * 2 ^ (lz + 1) % 2 ^ f.mb)

/-- vfrec7 of a code. -/
def FFmt.rec7 (f : FFmt) (rm : Rm) (a : Nat) : FRes :=
  let n := f.isNeg a
  match f.decode a with
  | .nan => (⟨f.nanCode, 0⟩ : FRes).raise (f.isSnan a) Fl.NV
  | .inf _ => ⟨b2n n * f.signBit, 0⟩
  | .fin _ m _ =>
    if m = 0 then ⟨b2n n * f.signBit + f.infCode, Fl.DZ⟩
    else
      let (ex, frac) := f.normParts a
      if ex < -1 then ⟨f.overflowTo rm n, Fl.OF + Fl.NX⟩
      else
        let sig := rec7Table.getD (frac / 2 ^ (f.mb - 7)) 0 * 2 ^ (f.mb - 7)
        let out : Int := 2 * f.bias - 1 - ex
        let half := sig / 2 + 2 ^ (f.mb - 1)
        let u := if out = 0 then half else if out < 0 then half / 2 else out.toNat * 2 ^ f.mb + sig
        ⟨b2n n * f.signBit + u, 0⟩

/-- vfrsqrt7 of a code. -/
def FFmt.rsqrt7 (f : FFmt) (a : Nat) : FRes :=
  let n := f.isNeg a
  match f.decode a with
  | .nan => (⟨f.nanCode, 0⟩ : FRes).raise (f.isSnan a) Fl.NV
  | .inf _ => if n then f.invalid else ⟨0, 0⟩
  | .fin _ m _ =>
    if m = 0 then ⟨b2n n * f.signBit + f.infCode, Fl.DZ⟩
    else if n then f.invalid
    else
      let (ex, frac) := f.normParts a
      let sig := rsqrt7Table.getD ((ex % 2).toNat * 64 + frac / 2 ^ (f.mb - 6)) 0 * 2 ^ (f.mb - 7)
      let out : Int := (3 * f.bias - 1 - ex) / 2
      ⟨out.toNat * 2 ^ f.mb + sig, 0⟩

end Sys2Proof
end

