-- ==== Sys2Proof/Machine/Streams.lean ====
section
/-!
DEFINITION. Streams of rows (R19, R20, R138 to R144, R181, R331 to R333, R434): sends, landing, receives and credits, the
write-back of corrected rows, and the counters of the tile memories and of the ridges.
-/
namespace Sys2Proof.Machine

def Dev.fenced (d : Dev) (t : Nat) : Bool := d.rfB (Reg.TILE_STAT t) Fld.TILE_STAT.FENCED

/-! ### Sending one row (R140, R333) -/

/-- Where the rows of a send go: physical package and tile, and queue. -/
structure Dest where
  pkg : Nat
  tile : Nat
  q : Nat

def Dest.key (x : Dest) : Nat := prodKey x.pkg x.tile x.q

/-- The destination that an entry names, translated by the binding (R188, R199). -/
def Binding.dest (b : Binding) (dpkg dtile dq : Nat) : Dest := ⟨b.pmap.getD dpkg 0, b.tile dtile, dq⟩

def Dev.credit (d : Dev) (x : Dest) : Nat := AMap.getD d.credits x.key 0

/-- A row on its way to a queue of this package: the last of all rows sent (R20). -/
def Dev.putRow (d : Dev) (tile q : Nat) (tr : Transit) : Dev :=
  let k := 16 * tile + q
  { d with transit := AMap.set d.transit k (AMap.getD d.transit k [] ++ [{ tr with seq := d.sentRows }])
           sentRows := d.sentRows + 1 }

/-- One row leaves for its queue and uses one credit: onto the mesh, or in a STREAM message to another package. -/
def Dev.sendRow (d : Dev) (n : Nat) (x : Dest) (srcRidge pos : Nat) (tr : Transit) : Dev :=
  let d := { d with credits := AMap.set d.credits x.key (d.credit x - 1) }
  if x.pkg = d.pkg then d.putRow x.tile x.q tr
  else
    match d.portFor x.pkg pos with
    | none => d
    | some p =>
      let d := d.modStep n (fun st => { st with rowsTo := AMap.set st.rowsTo x.pkg (AMap.getD st.rowsTo x.pkg 0 + 1) })
      (d.meshRows srcRidge (colRidge p) 8 1).colSend p VC.STREAM n (mkMsg 0x20 (d.loopClass n) d.pkg x.pkg 0 64 0
        (x.tile + x.q * 2 ^ 7 + n * 2 ^ 11) tr.data)

/-- The requester of R306 for the source of a row (see Transit.src). -/
def srcReq (src : Nat) : Nat :=
  if src < 96 then src else if src = 0x100 then 120 else if src = 0x101 then 186 else 189 + (src - 0x200)

/-- A send may put a row on its way: a credit is there, no hold of R299 stops the step's sends to that package, no other
step holds the credit pool of its channel (R289), and no frozen arbiter keeps it from the Col port (R311). -/
def Dev.maySend (d : Dev) (n : Nat) (x : Dest) (pos src srcRidge : Nat) : Bool :=
  decide (d.credit x > 0) && (match (d.loop n).step with
    | some st => !st.heldBy.contains x.pkg
    | none => false)
    && (x.pkg == d.pkg || (match d.portFor x.pkg pos with
        | some p => d.poolOpen p VC.STREAM n && d.colOpen p && d.meshOpen srcRidge (colRidge p) 8 (srcReq src)
        | none => false))

/-- The row is addressed to a fenced tile: the destination crossbar rejects it, and the sending step aborts (R144). -/
def Mach.fencedDest (m : Mach) (n key entry dest : Nat) : Mach :=
  let m := m.mod (fun d => d.raiseFor n 1 Src.TILE 0x000D (listUnit key) (entry + dest * 2 ^ 32))
  if key < 96 then m.abortTile n key else m.abortStep n

/-! ### The rows of an ingest send (R430 to R434, R441) -/

/-- The tensor a step's SENDs of a stream read, once it is there: address (none: zeros), rows and header row. -/
def Mach.boundTensor (m : Mach) (b : Bound) : Option (Option Nat × Nat × List Byte) :=
  if b.waitNew.isSome then none
  else match b.batch with
    | none => some (b.addr, b.rows, b.header)
    | some k =>
      match m.dev.stream b.stream with
      | none => some (none, b.rows, b.header)
      | some s =>
        match s.bufs.findIdx? (fun x => x.phase == .complete && x.number == k) with
        | none => none
        | some i => some (some (m.bufAddr s.entry i), b.rows, m.batchHeader b.stream s b.stamp (s.buf i))

/-- One row of a bound tensor; none when a frozen arbiter holds its read (R311) or the read aborted the step. -/
def Mach.tensorRow (m : Mach) (n stream : Nat) (t : Option Nat × Nat × List Byte) (r : Nat) : Mach × Option (List Byte) :=
  if r = 0 then (m, some (slice t.2.2 0 64))
  else match t.1 with
    | none => (m, some (List.replicate 64 0))
    | some a =>
      if !m.dev.hbmOpen (a + 64 * r) 64 186 then (m, none)
      else match m.eccRead (a + 64 * r) 64 186 n with
      | (m, none) => (m, some (m.rdBytes (a + 64 * r) 64))
      | (m, some _) => ((m.mod (fun d => d.cnt (ingCount stream 5) 1)).abortStep n, none)

/-! ### SEND -/

/-- The next row of a send that is in flight: none when its source is not there yet or its read aborted the step. -/
def Mach.sendData (m : Mach) (n key : Nat) (st : StepSt) (f : Flight) : Mach × Option (List Byte) :=
  let e := f.word
  if key < 96 then
    let a := if Send.ps e then psAddr key (Send.srow e + f.sent) else amAddr key (Send.srow e + f.sent)
    m.tileRead n key f.entry a 64
  else
    let s := bits (Send.srow e) 5 0
    match st.bound.find? (fun b => b.stream == s) with
    | none => (m, none)
    | some b =>
      match m.boundTensor b with
      | none => (m, none)
      | some t => m.tensorRow n s t (Send.trow e + f.sent)

def Mach.modFlight (m : Mach) (key entry : Nat) (g : Flight → Flight) : Mach :=
  m.mod (fun d => d.modList key (fun l => { l with flights := l.flights.map (fun f => if f.entry = entry then g f else f) }))

/-- The rows of one send that its credits allow. -/
def Mach.sendRows (m : Mach) (n key entry : Nat) (st : StepSt) : Nat → Mach
  | 0 => m
  | fuel + 1 =>
    match (m.dev.list key).bind (fun l => l.flights.find? (fun f => f.entry == entry)) with
    | none => m
    | some f =>
      let x := st.b.dest (Send.dpkg f.word) (Send.dtile f.word) (Send.dq f.word)
      if f.sent ≥ Send.nrows f.word then m
      else if x.pkg == m.dev.pkg && m.dev.fenced x.tile then m.fencedDest n key entry x.tile
      else
        let pos := if key < 96 then (key + x.tile) % 2 else x.tile % 2
        let src := if key < 96 then key else 0x101
        let ridge := if key < 96 then key / 4 else ingestRidge
        if !m.dev.maySend n x pos src ridge then m
        else match m.sendData n key st f with
        | (m, none) => m
        | (m, some bs) =>
          let m := m.mod (fun d => d.sendRow n x ridge pos ⟨some key, entry, bs, ridge, src, 0⟩)
          Mach.sendRows (m.modFlight key entry (fun g => { g with sent := g.sent + 1 })) n key entry st fuel

/-- Every send of a list that is in flight, in order; a later send to the same queue waits for the earlier one. -/
def Mach.sendAll (m : Mach) (key : Nat) : Mach :=
  match m.dev.list key with
  | none => m
  | some l =>
    match (m.dev.loop l.loop).step with
    | none => m
    | some st =>
      if st.phase != .running then m
      else (l.flights.filter (fun f => f.kind == K.SEND)).foldl (fun m f =>
        let before := (l.flights.takeWhile (fun g => g.entry != f.entry)).any (fun g => g.kind == K.SEND
          && Send.dpkg g.word == Send.dpkg f.word && Send.dtile g.word == Send.dtile f.word
          && Send.dq g.word == Send.dq f.word
          && ((m.dev.list key).bind (fun l => l.flights.find? (fun h => h.entry == g.entry))).any (fun h =>
            decide (h.sent < Send.nrows h.word)))
        if before then m else m.sendRows l.loop key f.entry st 32769) m

/-- SEND (R140, R144, R188, R434): the entry is issued, and sends in flight go on while they have credits. -/
def execSend (l : ListId) (upsets : List Upset) (s : State) : Host.Outcome State Fault Refusal :=
  run (fun m =>
    let key := listKey l
    let m := (if key < 96 then m.tileUpsets key upsets else m.upsets upsets).issue key (isKind K.SEND) (fun m i =>
      if key < 96 then m.fly i
      else
        let sn := bits (Send.srow i.word) 5 0
        match i.st.bound.find? (fun b => b.stream == sn) with
        | none => m.fly i
        | some b =>
          let isOpen := (m.dev.stream sn).isSome || b.addr.isSome
          if isOpen && decide (Send.trow i.word + Send.nrows i.word > b.rows) then
            (m.mod (fun d => d.raiseFor i.loop 1 Src.INGEST 0x0001 sn i.idx)).abortStep i.loop
          else m.fly i)
    m.sendAll key) s

/-! ### Landing (R141) -/

/-- A row lands in a queue at its write position. -/
def Mach.landRow (m : Mach) (t q : Nat) (bs : List Byte) : Mach :=
  let (base, len, _, held) := m.dev.queue t q
  let w := m.dev.rf (Reg.TILE_LQn_PTR t q) Fld.TILE_LQn_PTR.WPTR
  (m.store (amAddr t (base + w)) bs).mod (fun d =>
    (d.wf (Reg.TILE_LQn_PTR t q) Fld.TILE_LQn_PTR.WPTR ((w + 1) % len)).wf (Reg.TILE_LQn_RD t q) Fld.TILE_LQn_RD.HELD (held + 1))

/-- A row that the same source sent earlier to a queue of the same tile has not landed yet (R20). -/
def Dev.behind (d : Dev) (t : Nat) (r : Transit) : Bool :=
  (List.range 16).any (fun q => (AMap.getD d.transit (16 * t + q) []).head?.any (fun x =>
    x.src == r.src && decide (x.seq < r.seq)))

/-- One row of a send has landed; the send completes with its last row (R187). -/
def Mach.landed (m : Mach) (key entry : Nat) : Mach :=
  let m := m.modFlight key entry (fun f => { f with landed := f.landed + 1 })
  match (m.dev.list key).bind (fun l => l.flights.find? (fun f => f.entry == entry)) with
  | some f => if f.landed ≥ Send.nrows f.word then m.complete key entry else m
  | none => m

/-- The package that a row of Col port source `src` came from is told that it has landed, or that a fenced tile has rejected
it (R144, R187; log 67). -/
def Dev.tellSource (d : Dev) (op src t q : Nat) : Dev :=
  match d.tileLoop t with
  | none => d
  | some n => if src < 0x200 then d
    else d.toPeer (d.peerOf (src - 0x200)) [BitVec.ofNat 8 op, BitVec.ofNat 8 n, BitVec.ofNat 8 t, BitVec.ofNat 8 q] 1

/-- LANDING_ROW: the oldest row on its way to the queue lands, when its source has sent none to the tile before it and no
frozen arbiter on its way holds it (R20, R311). -/
def execLandingRow (t : Fin 96) (q : Fin 16) (upsets : List Upset) (s : State) : Host.Outcome State Fault Refusal :=
  run (fun m =>
    let m := m.tileUpsets t.val upsets
    let k := 16 * t.val + q.val
    match AMap.getD m.dev.transit k [] with
    | [] => m
    | r :: rest =>
      if m.dev.behind t.val r || !m.dev.meshOpen r.srcRidge (t.val / 4) (t.val % 4) (srcReq r.src) then m
      else
        let m := (m.landRow t.val q.val r.data).mod (fun d =>
          (({ d with transit := AMap.set d.transit k rest }).meshRows r.srcRidge (t.val / 4) (t.val % 4) 1).tellSource 0x4E
            r.src t.val q.val)
        match r.list with
        | none => m
        | some key => m.landed key r.entry) s

/-! ### RECV (R142) -/

/-- The rows of a receive that have landed, read in order; after the last one they are copied and released, so that a receive
cut before then leaves no effect (R296). -/
def Mach.recvRows (m : Mach) (n t entry : Nat) : Nat → Mach
  | 0 => m
  | fuel + 1 =>
    match (m.dev.list t).bind (fun l => l.flights.find? (fun f => f.entry == entry)) with
    | none => m
    | some f =>
      let q := Recv.queue f.word
      let (base, len, rel, held) := m.dev.queue t q
      if f.sent ≥ Recv.nrows f.word then
        let m := (List.range (Recv.nrows f.word)).foldl (fun m i =>
          m.store (amAddr t (Recv.drow f.word + i)) (m.rdBytes (amAddr t (base + (rel + i) % len)) 64)) m
        (m.mod (fun d => d.releaseRows t q (Recv.nrows f.word))).complete t entry
      else if f.sent ≥ held || !m.queueTurn t q entry then m
      else
        match m.tileRead n t entry (amAddr t (base + (rel + f.sent) % len)) 64 with
        | (m, none) => m
        | (m, some _) =>
          let m := m.mod (fun d => d.setRead t q (f.sent + 1))
          Mach.recvRows (m.modFlight t entry (fun g => { g with sent := g.sent + 1 })) n t entry fuel

/-- The receives of a tile that are in flight go on in order, while its step runs (R296). -/
def Mach.recvAll (m : Mach) (t : Nat) : Mach :=
  match m.dev.list t with
  | none => m
  | some l =>
    if l.stopped then m
    else (l.flights.filter (fun f => f.kind == K.RECV)).foldl (fun m f => m.recvRows l.loop t f.entry 32770) m

/-- RECV: the entry is issued, and receives in flight copy the rows that have landed. -/
def execRecv (t : Fin 96) (upsets : List Upset) (s : State) : Host.Outcome State Fault Refusal :=
  run (fun m => ((m.tileUpsets t.val upsets).issue t.val (isKind K.RECV) Mach.fly).recvAll t.val) s

/-! ### Write-back and counters (R153, R157) -/

/-- ECC_WRITE_BACK: the bank's next free beat. -/
def execEccWriteBack (addr : BitVec 48) (s : State) : Host.Outcome State Fault Refusal :=
  runDev (fun _ d => d.writeBack addr.toNat) s

def memCounters (t : Nat) : List Nat :=
  (List.range 16).map (Reg.TILE_AM_CONF_b t) ++ (List.range 4).map (Reg.TILE_PS_CONF_b t)
    ++ (List.range 3).map (Reg.TILE_ECC_CE_m t) ++ [Reg.TILE_ECC_UE t, Reg.TILE_COLLIDE t]
    ++ (List.range 4).map (Reg.TILE_WR_CNT_k t) ++ [Reg.TILE_SPUR_CALLS t]
def rdgCounters (r : Nat) : List Nat := (List.range 9).map (Reg.RDG_PORT_ROWS_p r)

/-- MEM_CNT_CLR (R157). -/
def execMemCntClr (t : Fin 96) (s : State) : Host.Outcome State Fault Refusal :=
  runDev (fun _ d => d.clearRegs (memCounters t.val)) s

/-- RDG_CNT_CLR (R157). -/
def execRdgCntClr (r : Fin 24) (s : State) : Host.Outcome State Fault Refusal :=
  runDev (fun _ d => d.clearRegs (rdgCounters r.val)) s

end Sys2Proof.Machine
end

