-- ==== Sys2Proof/Machine/RvCore.lean ====
section
/-!
DEFINITION. The registers and the memory of a spur core (R123, R135, R145 to R149, R154), and the helpers that its
instructions share.  R145 names the instruction set by the RISC-V specifications, which the sources follow (PRESUMED, log 82).
-/
namespace Sys2Proof.Machine

/-! ### Registers -/

/-- Register `i` of a file that may be shorter than 32: absent registers are zero. -/
def setX (x : List DWord) (i : Nat) (v : Nat) : List DWord :=
  modAt (x ++ List.replicate (32 - x.length) 0) i (fun _ => BitVec.ofNat 64 v)

/-- An integer register; x0 reads zero. -/
def SpurSt.xr (c : SpurSt) (i : Nat) : DWord := if i = 0 then 0 else c.x.getD i 0
/-- An integer register written; x0 discards it. -/
def SpurSt.setXr (c : SpurSt) (i : Nat) (v : DWord) : SpurSt :=
  if i = 0 then c else { c with x := setX c.x i v.toNat }

/-- A floating-point register, as a code of `w` bits: a binary32 that is not NaN-boxed reads as the canonical NaN. -/
def SpurSt.fr (c : SpurSt) (w i : Nat) : Nat :=
  let v := (c.f.getD i 0).toNat
  if w = 64 then v
  else if v / 2 ^ 32 = 2 ^ 32 - 1 then v % 2 ^ 32 else FFmt.f32.nanCode
/-- A code of `w` bits written, NaN-boxed. -/
def SpurSt.setFr (c : SpurSt) (w i v : Nat) : SpurSt :=
  { c with f := setX c.f i (if w = 64 then v % 2 ^ 64 else (2 ^ 32 - 1) * 2 ^ 32 + v % 2 ^ 32) }

/-- The format of a floating-point operand of `w` bits. -/
def fmtOf (w : Nat) : FFmt := if w = 64 then FFmt.f64 else FFmt.f32

/-! CSRs that the core keeps: fcsr, vstart, vcsr, vl, vtype (vill set until the first vset). -/
def Csr.FCSR : Nat := 0x003
def Csr.VSTART : Nat := 0x008
def Csr.VCSR : Nat := 0x00F
def Csr.VL : Nat := 0xC20
def Csr.VTYPE : Nat := 0xC21

def SpurSt.csr (c : SpurSt) (k : Nat) : Nat :=
  match AMap.find c.csrs k with
  | some v => v.toNat
  | none => if k = Csr.VTYPE then 2 ^ 63 else 0
def SpurSt.setCsr (c : SpurSt) (k v : Nat) : SpurSt := { c with csrs := AMap.set c.csrs k (BitVec.ofNat 64 v) }

/-- Exception flags added to fflags. -/
def SpurSt.orFflags (c : SpurSt) (fl : Nat) : SpurSt :=
  if fl = 0 then c else c.setCsr Csr.FCSR (orFlags (c.csr Csr.FCSR) fl)
/-- frm. -/
def SpurSt.frm (c : SpurSt) : Nat := bits (c.csr Csr.FCSR) 7 5
/-- The rounding mode that an instruction's rm field selects: dynamic is frm (R69). -/
def SpurSt.rm (c : SpurSt) (field : Nat) : Option Rm := Rm.of (if field = 7 then c.frm else field)

/-- The pc and an integer register after a jump. -/
def SpurSt.jump (c : SpurSt) (a : Int) : SpurSt := { c with pc := wrap 64 a }

/-! ### Outcomes -/

/-- The core after an instruction, and the trap that the instruction took (mcause), if any. -/
structure RvOut where
  c : SpurSt
  trap : Option Nat := none
deriving DecidableEq, Repr

def rvOk (c : SpurSt) : RvOut := { c := c }
def rvTrap (c : SpurSt) (cause : Nat) : RvOut := { c := c, trap := some cause }
/-- An illegal instruction (mcause 2). -/
def rvIllegal (c : SpurSt) : RvOut := rvTrap c 2
/-- An instruction that is illegal when it has no outcome. -/
def rvOpt (c : SpurSt) (o : Option SpurSt) : RvOut := match o with
  | some c' => rvOk c'
  | none => rvIllegal c

/-! ### Memory (R146, R149) -/

/-- A window offset that spur code may load and store during a call: its local memory and the access region (R149). -/
def spurMay (g : RowRange) (o : Nat) : Bool :=
  (decide (0x300000 ≤ o) && decide (o < 0x340000))
    || (let b := (if g.ps then 0x2C0000 else 0) + 64 * g.first
        decide (b ≤ o) && decide (o < b + 64 * g.count))

/-- Every byte of an access may be reached. -/
def spurMayAll (g : RowRange) (o n : Nat) : Bool := (List.range n).all (fun i => spurMay g (o + i))

/-- How many bytes of an access lie below the local memory, where rows carry check bits (R122). -/
def rowBytes (o n : Nat) : Nat := min n (0x300000 - o)

/-- A read of `n` bytes at a window offset: none when it raises an access fault (R146, R149, R154). -/
def Mach.rvLoad (m : Mach) (n t : Nat) (g : RowRange) (o k : Nat) : Mach × Option (List Byte) :=
  if !spurMayAll g o k then (m, none)
  else match m.eccRead (tileBase t + o) (rowBytes o k) t n with
    | (m, some _) => (m, none)
    | (m, none) => (m, some (m.rdBytes (tileBase t + o) k))

/-- A store at a window offset: false when it raises an access fault (R123, R146, R149); a store to weight memory is
discarded and logged (R135). -/
def Mach.rvStore (m : Mach) (n t : Nat) (g : RowRange) (o : Nat) (bs : List Byte) : Mach × Bool :=
  if !spurMayAll g o bs.length then
    (if 0x200000 ≤ o && o < 0x2C0000 then
      m.mod (fun d => d.raiseFor n 0 Src.ACCESS 0x0003 t (tileBase t + o)) else m, false)
  else match m.rmwCheck (tileBase t + o) (rowBytes o bs.length) t n with
    | (m, some _) => (m, false)
    | (m, none) => (m.store (tileBase t + o) bs, true)

/-! ### Fields of an instruction word -/

def rvRd (w : Nat) : Nat := bits w 11 7
def rvF3 (w : Nat) : Nat := bits w 14 12
def rvRs1 (w : Nat) : Nat := bits w 19 15
def rvRs2 (w : Nat) : Nat := bits w 24 20
def rvF7 (w : Nat) : Nat := bits w 31 25
def rvImmI (w : Nat) : Int := sext 12 (bits w 31 20)
def rvImmS (w : Nat) : Int := sext 12 (bits w 31 25 * 32 + bits w 11 7)
def rvImmB (w : Nat) : Int :=
  sext 13 (bits w 31 31 * 2 ^ 12 + bits w 7 7 * 2 ^ 11 + bits w 30 25 * 2 ^ 5 + bits w 11 8 * 2)
def rvImmU (w : Nat) : Int := sext 32 (bits w 31 12 * 2 ^ 12)
def rvImmJ (w : Nat) : Int :=
  sext 21 (bits w 31 31 * 2 ^ 20 + bits w 19 12 * 2 ^ 12 + bits w 20 20 * 2 ^ 11 + bits w 30 21 * 2)

/-- An address from a base register and an offset. -/
def rvAddr (b : DWord) (i : Int) : Nat := wrap 64 ((b.toNat : Int) + i)

end Sys2Proof.Machine
end

