-- ==== Sys2Proof/Machine/RvScalar.lean ====
section
/-!
DEFINITION. The scalar instructions of a spur core (R145): RV64I, M, A, F, D, Zicsr and Zifencei.
-/
namespace Sys2Proof.Machine

/-! ### Integer arithmetic (I, M) -/

/-- A 32-bit result, sign-extended. -/
def sx32 (v : Nat) : DWord := (BitVec.ofNat 32 v).signExtend 64

/-- The base operations of OP and OP-IMM: `alt` selects SUB and SRA. -/
def rvBase (f3 : Nat) (alt : Bool) (a b : DWord) : DWord :=
  match f3 with
  | 0 => if alt then a - b else a + b
  | 1 => a <<< (b.toNat % 64)
  | 2 => if BitVec.slt a b then 1 else 0
  | 3 => if BitVec.ult a b then 1 else 0
  | 4 => a ^^^ b
  | 5 => if alt then a.sshiftRight (b.toNat % 64) else a >>> (b.toNat % 64)
  | 6 => a ||| b
  | _ => a &&& b

/-- The operations of M. -/
def rvMul (f3 : Nat) (a b : DWord) : DWord :=
  match f3 with
  | 0 => a * b
  | 1 => BitVec.ofInt 64 (a.toInt * b.toInt / 2 ^ 64)
  | 2 => BitVec.ofInt 64 (a.toInt * (b.toNat : Int) / 2 ^ 64)
  | 3 => BitVec.ofNat 64 (a.toNat * b.toNat / 2 ^ 64)
  | 4 => if b = 0 then BitVec.allOnes 64 else BitVec.sdiv a b
  | 5 => if b = 0 then BitVec.allOnes 64 else BitVec.udiv a b
  | 6 => if b = 0 then a else BitVec.srem a b
  | _ => if b = 0 then a else BitVec.umod a b

/-- OP; none when the encoding is not one of I and M. -/
def rvOp (f3 f7 : Nat) (a b : DWord) : Option DWord :=
  if f7 = 1 then some (rvMul f3 a b)
  else if f7 = 0 || (f7 = 0x20 && (f3 = 0 || f3 = 5)) then some (rvBase f3 (f7 = 0x20) a b)
  else none

/-- The word operations of OP-32 and OP-IMM-32. -/
def rvBase32 (f3 : Nat) (alt : Bool) (a b : DWord) : Option DWord :=
  let x : BitVec 32 := a.setWidth 32
  let y : BitVec 32 := b.setWidth 32
  match f3 with
  | 0 => some ((if alt then x - y else x + y).signExtend 64)
  | 1 => if alt then none else some ((x <<< (y.toNat % 32)).signExtend 64)
  | 5 => some ((if alt then x.sshiftRight (y.toNat % 32) else x >>> (y.toNat % 32)).signExtend 64)
  | _ => none

def rvMul32 (f3 : Nat) (a b : DWord) : Option DWord :=
  let x : BitVec 32 := a.setWidth 32
  let y : BitVec 32 := b.setWidth 32
  match f3 with
  | 0 => some ((x * y).signExtend 64)
  | 4 => some ((if y = 0 then BitVec.allOnes 32 else BitVec.sdiv x y).signExtend 64)
  | 5 => some ((if y = 0 then BitVec.allOnes 32 else BitVec.udiv x y).signExtend 64)
  | 6 => some ((if y = 0 then x else BitVec.srem x y).signExtend 64)
  | 7 => some ((if y = 0 then x else BitVec.umod x y).signExtend 64)
  | _ => none

def rvOp32 (f3 f7 : Nat) (a b : DWord) : Option DWord :=
  if f7 = 1 then rvMul32 f3 a b
  else if f7 = 0 || f7 = 0x20 then rvBase32 f3 (f7 = 0x20) a b
  else none

/-- OP-IMM: shifts take six bits and a fixed upper part. -/
def rvOpImm (w : Nat) (a : DWord) : Option DWord :=
  let f3 := rvF3 w
  let imm := BitVec.ofInt 64 (rvImmI w)
  let up := bits w 31 26
  if f3 = 1 then (if up = 0 then some (a <<< bits w 25 20) else none)
  else if f3 = 5 then
    (if up = 0 then some (a >>> bits w 25 20) else if up = 0x10 then some (a.sshiftRight (bits w 25 20)) else none)
  else some (rvBase f3 false a imm)

/-- OP-IMM-32. -/
def rvOpImm32 (w : Nat) (a : DWord) : Option DWord :=
  let f3 := rvF3 w
  let sh := BitVec.ofNat 64 (rvRs2 w)
  if f3 = 0 then rvBase32 0 false a (BitVec.ofInt 64 (rvImmI w))
  else if f3 = 1 then (if rvF7 w = 0 then rvBase32 1 false a sh else none)
  else if f3 = 5 then (if rvF7 w = 0 || rvF7 w = 0x20 then rvBase32 5 (rvF7 w = 0x20) a sh else none)
  else none

/-- Whether a branch is taken. -/
def rvBranch (f3 : Nat) (a b : DWord) : Option Bool :=
  match f3 with
  | 0 => some (a == b)
  | 1 => some (a != b)
  | 4 => some (BitVec.slt a b)
  | 5 => some (!BitVec.slt a b)
  | 6 => some (BitVec.ult a b)
  | 7 => some (!BitVec.ult a b)
  | _ => none

/-! ### CSRs (Zicsr, R69, R145) -/

/-- A CSR as spur code reads it; none for one that it has not, among them cycle and time. -/
def SpurSt.csrRead (c : SpurSt) (k : Nat) : Option Nat :=
  match k with
  | 0x001 => some (bits (c.csr Csr.FCSR) 4 0)
  | 0x002 => some (bits (c.csr Csr.FCSR) 7 5)
  | 0x003 => some (c.csr Csr.FCSR)
  | 0x008 => some (c.csr Csr.VSTART)
  | 0x009 => some (bits (c.csr Csr.VCSR) 0 0)
  | 0x00A => some (bits (c.csr Csr.VCSR) 2 1)
  | 0x00F => some (c.csr Csr.VCSR)
  | 0xC02 => some (c.instret % 2 ^ 64)
  | 0xC20 => some (c.csr Csr.VL)
  | 0xC21 => some (c.csr Csr.VTYPE)
  | 0xC22 => some 64
  | _ => none

/-- A CSR written; none for one that is read-only or absent. -/
def SpurSt.csrWrite (c : SpurSt) (k v : Nat) : Option SpurSt :=
  match k with
  | 0x001 => some (c.setCsr Csr.FCSR (setBits (c.csr Csr.FCSR) 4 0 v))
  | 0x002 => some (c.setCsr Csr.FCSR (setBits (c.csr Csr.FCSR) 7 5 v))
  | 0x003 => some (c.setCsr Csr.FCSR (v % 2 ^ 8))
  | 0x008 => some (c.setCsr Csr.VSTART (v % 2 ^ 9))
  | 0x009 => some (c.setCsr Csr.VCSR (setBits (c.csr Csr.VCSR) 0 0 v))
  | 0x00A => some (c.setCsr Csr.VCSR (setBits (c.csr Csr.VCSR) 2 1 v))
  | 0x00F => some (c.setCsr Csr.VCSR (v % 2 ^ 3))
  | _ => none

/-- A CSR instruction: the write is left out where CSRRS and CSRRC name no bits by register x0 or by zero. -/
def SpurSt.csrOp (c : SpurSt) (w : Nat) : Option SpurSt :=
  let f3 := rvF3 w
  let k := bits w 31 20
  let src := if f3 ≥ 4 then rvRs1 w else (c.xr (rvRs1 w)).toNat
  match c.csrRead k with
  | none => none
  | some old =>
    let new := match f3 % 4 with
      | 1 => src
      | 2 => Nat.lor old src
      | _ => Nat.land old (2 ^ 64 - 1 - src)
    let written := if f3 % 4 ≠ 1 && rvRs1 w = 0 then some c else c.csrWrite k new
    written.map (fun c => c.setXr (rvRd w) (BitVec.ofNat 64 old))

/-! ### Instructions that reach no memory -/

/-- Integer, control-flow and system instructions; `c.pc` is the instruction's address and `len` its length. -/
def SpurSt.rvPlain (c : SpurSt) (w len : Nat) : RvOut :=
  let a := c.xr (rvRs1 w)
  let b := c.xr (rvRs2 w)
  let next : SpurSt := { c with pc := (c.pc + len) % 2 ^ 64 }
  let put := fun (v : Option DWord) => rvOpt c (v.map (next.setXr (rvRd w)))
  match bits w 6 0 with
  | 0x37 => put (some (BitVec.ofInt 64 (rvImmU w)))
  | 0x17 => put (some (BitVec.ofInt 64 ((c.pc : Int) + rvImmU w)))
  | 0x13 => put (rvOpImm w a)
  | 0x1B => put (rvOpImm32 w a)
  | 0x33 => put (rvOp (rvF3 w) (rvF7 w) a b)
  | 0x3B => put (rvOp32 (rvF3 w) (rvF7 w) a b)
  | 0x6F => rvOk ((next.setXr (rvRd w) (BitVec.ofNat 64 next.pc)).jump ((c.pc : Int) + rvImmJ w))
  | 0x67 =>
    if rvF3 w ≠ 0 then rvIllegal c
    else rvOk ((next.setXr (rvRd w) (BitVec.ofNat 64 next.pc)).jump ((rvAddr a (rvImmI w) / 2 * 2 : Nat) : Int))
  | 0x63 => (match rvBranch (rvF3 w) a b with
    | none => rvIllegal c
    | some t => rvOk (if t then c.jump ((c.pc : Int) + rvImmB w) else next))
  | 0x0F => if rvF3 w ≤ 1 then rvOk next else rvIllegal c
  | 0x73 =>
    if w = 0x00000073 then rvTrap c 8
    else if w = 0x00100073 then rvTrap c 3
    else if rvF3 w = 0 || rvF3 w = 4 then rvIllegal c
    else rvOpt c (next.csrOp w)
  | _ => rvIllegal c

/-! ### Floating point (F, D) -/

/-- A result written with its flags. -/
def SpurSt.putF (c : SpurSt) (w i : Nat) (r : FRes) : SpurSt := (c.setFr w i r.code).orFflags r.flags
def SpurSt.putI (c : SpurSt) (i : Nat) (v flags : Nat) : SpurSt := (c.setXr i (BitVec.ofNat 64 v)).orFflags flags

/-- An integer of `w` bits as FCVT and FMV leave it in a register: words are sign-extended. -/
def intoX (w v : Nat) : Nat := if w = 32 then (sx32 v).toNat else v

/-- The integer operand of FCVT: kinds 0 W, 1 WU, 2 L, 3 LU. -/
def fromX (k : Nat) (v : DWord) : Int :=
  match k with
  | 0 => sext 32 v.toNat
  | 1 => ((v.toNat % 2 ^ 32 : Nat) : Int)
  | 2 => v.toInt
  | _ => (v.toNat : Int)

/-- FMADD, FMSUB, FNMSUB and FNMADD: the product's and the addend's signs. -/
def SpurSt.rvFma (c : SpurSt) (w : Nat) : Option SpurSt :=
  let fw := if bits w 26 25 = 1 then 64 else 32
  let f := fmtOf fw
  match c.rm (rvF3 w) with
  | none => none
  | some rm =>
    if bits w 26 25 > 1 then none
    else
      let op := bits w 3 2
      let a := c.fr fw (rvRs1 w)
      let a := if op ≥ 2 then f.flip a else a
      let z := c.fr fw (bits w 31 27)
      let z := if op = 1 || op = 3 then f.flip z else z
      some (c.putF fw (rvRd w) (f.fmaRm rm a (c.fr fw (rvRs2 w)) z))

/-- OP-FP. -/
def SpurSt.rvFp (c : SpurSt) (w : Nat) : Option SpurSt :=
  let fw := if bits w 26 25 = 1 then 64 else 32
  let f := fmtOf fw
  let rd := rvRd w
  let a := c.fr fw (rvRs1 w)
  let b := c.fr fw (rvRs2 w)
  let f3 := rvF3 w
  let rounded := fun (g : Rm → FRes) => (c.rm f3).map (fun rm => c.putF fw rd (g rm))
  if bits w 26 25 > 1 then none
  else match bits w 31 27 with
    | 0x00 => rounded (fun rm => f.addRm rm a b)
    | 0x01 => rounded (fun rm => f.subRm rm a b)
    | 0x02 => rounded (fun rm => f.mulRm rm a b)
    | 0x03 => rounded (fun rm => f.divRm rm a b)
    | 0x0B => if rvRs2 w = 0 then rounded (fun rm => f.sqrtRm rm a) else none
    | 0x04 => if f3 ≤ 2 then some (c.setFr fw rd (f.sgnj f3 a b)) else none
    | 0x05 => if f3 ≤ 1 then some (c.putF fw rd (f.minRm (f3 = 1) a b)) else none
    | 0x08 =>
      -- FCVT.S.D and FCVT.D.S
      let sw := 96 - fw
      if rvRs2 w = (if fw = 32 then 1 else 0) then rounded (fun rm => (fmtOf sw).castRm f rm (c.fr sw (rvRs1 w))) else none
    | 0x14 =>
      (match f3 with
      | 0 => some (let r := f.leRm a b; c.putI rd (b2n r.1) r.2)
      | 1 => some (let r := f.ltRm a b; c.putI rd (b2n r.1) r.2)
      | 2 => some (let r := f.eqRm a b; c.putI rd (b2n r.1) r.2)
      | _ => none)
    | 0x18 =>
      let k := rvRs2 w
      let iw := if k < 2 then 32 else 64
      if k > 3 then none
      else (c.rm f3).map (fun rm => let r := f.toInt rm (k % 2 = 0) iw a; c.putI rd (intoX iw r.code) r.flags)
    | 0x1A => if rvRs2 w > 3 then none else rounded (fun rm => f.ofInt rm (fromX (rvRs2 w) (c.xr (rvRs1 w))))
    | 0x1C =>
      if rvRs2 w ≠ 0 then none
      else if f3 = 0 then some (c.putI rd (intoX fw ((c.f.getD (rvRs1 w) 0).toNat % 2 ^ fw)) 0)
      else if f3 = 1 then some (c.putI rd (f.classOf a) 0)
      else none
    | 0x1E => if rvRs2 w = 0 && f3 = 0 then some (c.setFr fw rd ((c.xr (rvRs1 w)).toNat % 2 ^ fw)) else none
    | _ => none

/-! ### Loads, stores and atomics (I, F, D, A) -/

/-- A loaded integer of `k` bytes, by funct3: 0 to 3 sign-extended, 4 to 6 not. -/
def loadValue (f3 : Nat) (bs : List Byte) : DWord :=
  if f3 ≥ 4 then BitVec.ofNat 64 (leNat bs) else BitVec.ofInt 64 (sext (8 * bs.length) (leNat bs))

/-- LOAD and LOAD-FP: `put` takes the bytes. -/
def Mach.rvLoadTo (m : Mach) (n t : Nat) (c : SpurSt) (o k : Nat) (put : List Byte → SpurSt) : Mach × RvOut :=
  match m.rvLoad n t c.region o k with
  | (m, none) => (m, rvTrap c 5)
  | (m, some bs) => (m, rvOk (put bs))

def Mach.rvStoreAt (m : Mach) (n t : Nat) (c next : SpurSt) (o : Nat) (bs : List Byte) : Mach × RvOut :=
  match m.rvStore n t c.region o bs with
  | (m, false) => (m, rvTrap c 7)
  | (m, true) => (m, rvOk next)

/-- The value that an AMO stores. -/
def amoValue (k : Nat) (w : Nat) (old src : Nat) : Option Nat :=
  let a := sext w old
  let b := sext w src
  let x := old % 2 ^ w
  let y := src % 2 ^ w
  match k with
  | 0x01 => some y
  | 0x00 => some ((x + y) % 2 ^ w)
  | 0x04 => some (Nat.xor x y)
  | 0x0C => some (Nat.land x y)
  | 0x08 => some (Nat.lor x y)
  | 0x10 => some (if a ≤ b then x else y)
  | 0x14 => some (if a ≤ b then y else x)
  | 0x18 => some (min x y)
  | 0x1C => some (max x y)
  | _ => none

/-- The instructions of A.  An address that is not aligned raises an address-misaligned trap; a reservation is the bytes
that LR read, and every SC ends it. -/
def Mach.rvAmo (m : Mach) (n t : Nat) (c next : SpurSt) (w : Nat) : Mach × RvOut :=
  let k := if rvF3 w = 2 then 4 else 8
  let o := (c.xr (rvRs1 w)).toNat
  let src := (c.xr (rvRs2 w)).toNat
  let rd := rvRd w
  let op := bits w 31 27
  let ext := fun (bs : List Byte) => BitVec.ofInt 64 (sext (8 * k) (leNat bs))
  if rvF3 w ≠ 2 && rvF3 w ≠ 3 then (m, rvIllegal c)
  else if op = 0x02 then
    if rvRs2 w ≠ 0 then (m, rvIllegal c)
    else if o % k ≠ 0 then (m, rvTrap c 4)
    else m.rvLoadTo n t c o k (fun bs => { next.setXr rd (ext bs) with resv := some (o, k) })
  else if op = 0x03 then
    if o % k ≠ 0 then (m, rvTrap c 6)
    else if c.resv = some (o, k) then
      m.rvStoreAt n t c { next.setXr rd 0 with resv := none } o (leBytes k src)
    else if !spurMayAll c.region o k then (m, rvTrap c 7)
    else (m, rvOk { next.setXr rd 1 with resv := none })
  else match amoValue op (8 * k) 0 0 with
    | none => (m, rvIllegal c)
    | some _ =>
      if o % k ≠ 0 then (m, rvTrap c 6)
      else match m.rvLoad n t c.region o k with
        | (m, none) => (m, rvTrap c 7)
        | (m, some bs) =>
          m.rvStoreAt n t c (next.setXr rd (ext bs)) o (leBytes k ((amoValue op (8 * k) (leNat bs) src).getD 0))

/-- LOAD, STORE, the scalar forms of LOAD-FP and STORE-FP, and AMO. -/
def Mach.rvScalarMem (m : Mach) (n t : Nat) (c next : SpurSt) (w : Nat) : Mach × RvOut :=
  let f3 := rvF3 w
  let a := c.xr (rvRs1 w)
  let k := 2 ^ (f3 % 4)
  match bits w 6 0 with
  | 0x03 =>
    if f3 = 7 then (m, rvIllegal c)
    else m.rvLoadTo n t c (rvAddr a (rvImmI w)) k (fun bs => next.setXr (rvRd w) (loadValue f3 bs))
  | 0x23 =>
    if f3 ≥ 4 then (m, rvIllegal c)
    else m.rvStoreAt n t c next (rvAddr a (rvImmS w)) (leBytes k (c.xr (rvRs2 w)).toNat)
  | 0x07 => m.rvLoadTo n t c (rvAddr a (rvImmI w)) k (fun bs => next.setFr (8 * k) (rvRd w) (leNat bs))
  | 0x27 => m.rvStoreAt n t c next (rvAddr a (rvImmS w)) (leBytes k (c.f.getD (rvRs2 w) 0).toNat)
  | _ => m.rvAmo n t c next w

/-! ### Compressed instructions (C) -/

/-- Words of the base encodings, built from their fields. -/
def encI (op f3 rd rs1 imm : Nat) : Nat := imm % 2 ^ 12 * 2 ^ 20 + rs1 * 2 ^ 15 + f3 * 2 ^ 12 + rd * 2 ^ 7 + op
def encS (op f3 rs1 rs2 imm : Nat) : Nat :=
  bits imm 11 5 * 2 ^ 25 + rs2 * 2 ^ 20 + rs1 * 2 ^ 15 + f3 * 2 ^ 12 + bits imm 4 0 * 2 ^ 7 + op
def encR (op f3 f7 rd rs1 rs2 : Nat) : Nat :=
  f7 * 2 ^ 25 + rs2 * 2 ^ 20 + rs1 * 2 ^ 15 + f3 * 2 ^ 12 + rd * 2 ^ 7 + op
def encB (f3 rs1 imm : Nat) : Nat :=
  bits imm 12 12 * 2 ^ 31 + bits imm 10 5 * 2 ^ 25 + rs1 * 2 ^ 15 + f3 * 2 ^ 12 + bits imm 4 1 * 2 ^ 8
    + bits imm 11 11 * 2 ^ 7 + 0x63
def encJ (rd imm : Nat) : Nat :=
  bits imm 20 20 * 2 ^ 31 + bits imm 10 1 * 2 ^ 21 + bits imm 11 11 * 2 ^ 20 + bits imm 19 12 * 2 ^ 12 + rd * 2 ^ 7 + 0x6F

/-- Bits of a compressed immediate: each pair gives the source bit and the place of one bit. -/
def gather (h : Nat) (l : List (Nat × Nat)) : Nat := l.foldl (fun v p => v + b2n (bit h p.1) * 2 ^ p.2) 0
/-- A signed immediate of `w` bits, as the field of a wider one. -/
def sgn (w v : Nat) : Nat := wrap 32 (sext w v)

/-- Quadrant 0. -/
def rvcQ0 (h : Nat) : Option Nat :=
  let rd := bits h 4 2 + 8
  let rs := bits h 9 7 + 8
  let d := gather h [(12, 5), (11, 4), (10, 3), (6, 7), (5, 6)]
  let s := gather h [(12, 5), (11, 4), (10, 3), (6, 2), (5, 6)]
  match bits h 15 13 with
  | 0 =>
    let imm := gather h [(12, 5), (11, 4), (10, 9), (9, 8), (8, 7), (7, 6), (6, 2), (5, 3)]
    if imm = 0 then none else some (encI 0x13 0 rd 2 imm)
  | 1 => some (encI 0x07 3 rd rs d)
  | 2 => some (encI 0x03 2 rd rs s)
  | 3 => some (encI 0x03 3 rd rs d)
  | 5 => some (encS 0x27 3 rs rd d)
  | 6 => some (encS 0x23 2 rs rd s)
  | 7 => some (encS 0x23 3 rs rd d)
  | _ => none

/-- Quadrant 1. -/
def rvcQ1 (h : Nat) : Option Nat :=
  let rd := bits h 11 7
  let r' := bits h 9 7 + 8
  let r2 := bits h 4 2 + 8
  let u := bits h 12 12 * 32 + bits h 6 2
  let imm := sgn 6 u
  let br := sgn 9 (gather h [(12, 8), (11, 4), (10, 3), (6, 7), (5, 6), (4, 2), (3, 1), (2, 5)])
  match bits h 15 13 with
  | 0 => some (encI 0x13 0 rd rd imm)
  | 1 => if rd = 0 then none else some (encI 0x1B 0 rd rd imm)
  | 2 => some (encI 0x13 0 rd 0 imm)
  | 3 =>
    if u = 0 then none
    else if rd = 2 then some (encI 0x13 0 2 2 (sgn 10 (gather h [(12, 9), (6, 4), (5, 6), (4, 8), (3, 7), (2, 5)])))
    else some (imm % 2 ^ 20 * 2 ^ 12 + rd * 2 ^ 7 + 0x37)
  | 4 =>
    (match bits h 11 10 with
    | 0 => some (encI 0x13 5 r' r' u)
    | 1 => some (encI 0x13 5 r' r' (0x400 + u))
    | 2 => some (encI 0x13 7 r' r' imm)
    | _ =>
      let k := bits h 6 5
      if bits h 12 12 = 0 then
        some (encR 0x33 ([0, 4, 6, 7].getD k 0) (if k = 0 then 0x20 else 0) r' r' r2)
      else if k = 0 then some (encR 0x3B 0 0x20 r' r' r2)
      else if k = 1 then some (encR 0x3B 0 0 r' r' r2)
      else none)
  | 5 => some (encJ 0 (sgn 12 (gather h [(12, 11), (11, 4), (10, 9), (9, 8), (8, 10), (7, 6), (6, 7), (5, 3), (4, 2), (3, 1), (2, 5)])))
  | 6 => some (encB 0 r' br)
  | _ => some (encB 1 r' br)

/-- Quadrant 2. -/
def rvcQ2 (h : Nat) : Option Nat :=
  let rd := bits h 11 7
  let rs2 := bits h 6 2
  let u := bits h 12 12 * 32 + rs2
  let dl := gather h [(12, 5), (6, 4), (5, 3), (4, 8), (3, 7), (2, 6)]
  let wl := gather h [(12, 5), (6, 4), (5, 3), (4, 2), (3, 7), (2, 6)]
  let ds := gather h [(12, 5), (11, 4), (10, 3), (9, 8), (8, 7), (7, 6)]
  let ws := gather h [(12, 5), (11, 4), (10, 3), (9, 2), (8, 7), (7, 6)]
  match bits h 15 13 with
  | 0 => some (encI 0x13 1 rd rd u)
  | 1 => some (encI 0x07 3 rd 2 dl)
  | 2 => if rd = 0 then none else some (encI 0x03 2 rd 2 wl)
  | 3 => if rd = 0 then none else some (encI 0x03 3 rd 2 dl)
  | 4 =>
    if bits h 12 12 = 0 then
      (if rs2 = 0 then (if rd = 0 then none else some (encI 0x67 0 0 rd 0)) else some (encR 0x33 0 0 rd 0 rs2))
    else if rs2 = 0 then (if rd = 0 then some 0x00100073 else some (encI 0x67 0 1 rd 0))
    else some (encR 0x33 0 0 rd rd rs2)
  | 5 => some (encS 0x27 3 2 rs2 ds)
  | 6 => some (encS 0x23 2 2 rs2 ws)
  | _ => some (encS 0x23 3 2 rs2 ds)

/-- The instruction that a compressed one stands for. -/
def rvcExpand (h : Nat) : Option Nat :=
  match h % 4 with
  | 0 => rvcQ0 h
  | 1 => rvcQ1 h
  | 2 => rvcQ2 h
  | _ => none

end Sys2Proof.Machine
end

