-- ==== Sys2Proof/Machine/RvVec.lean ====
section
/-!
DEFINITION. The vector unit of a spur core (R145: VLEN 512, ELEN 64): its configuration, the elements of register groups,
the checks on register operands, and the loops over the elements of a result.
-/
namespace Sys2Proof.Machine

/-! ### Configuration -/

def vlenBits : Nat := 512

/-- The setting of vtype and vl that an instruction runs under. -/
structure VCfg where
  sew : Nat
  /-- log2 of LMUL, from -3 to 3. -/
  lmul : Int
  vl : Nat
  vstart : Nat
  vta : Bool
  vma : Bool
deriving DecidableEq, Repr

/-- A power of two times a number, for exponents of either sign. -/
def shl (n : Nat) (e : Int) : Nat := if e ≥ 0 then n * 2 ^ e.toNat else n / 2 ^ (-e).toNat

/-- VLMAX for an element width and LMUL. -/
def vlMax (sew : Nat) (lmul : Int) : Nat := shl (vlenBits / sew) lmul

def log2Lmul (v : Nat) : Option Int :=
  match v with
  | 0 => some 0
  | 1 => some 1
  | 2 => some 2
  | 3 => some 3
  | 5 => some (-3)
  | 6 => some (-2)
  | 7 => some (-1)
  | _ => none

/-- The element width and LMUL of a vtype value that the unit supports: every width from 8 to 64 with every LMUL from 1/8 to
8 (R145). -/
def vtypeOk (v : Nat) : Option (Nat × Int) :=
  if v ≥ 2 ^ 8 || bits v 5 3 > 3 then none else (log2Lmul (bits v 2 0)).map (fun l => (8 * 2 ^ bits v 5 3, l))

/-- The setting in force; none while vill is set. -/
def SpurSt.vcfg (c : SpurSt) : Option VCfg :=
  let v := c.csr Csr.VTYPE
  (vtypeOk v).map (fun p =>
    { sew := p.1
      lmul := p.2
      vl := c.csr Csr.VL
      vstart := c.csr Csr.VSTART
      vta := bit v 6
      vma := bit v 7 })

def VCfg.vlmax (k : VCfg) : Nat := vlMax k.sew k.lmul

/-- vset: a new vtype and the application's vector length; an unsupported setting sets vill (PRESUMED, log 82: vl is the lesser
of the length and VLMAX). -/
def SpurSt.vset (c : SpurSt) (rd vtype : Nat) (avl : Option Nat) : SpurSt :=
  let c := c.setCsr Csr.VSTART 0
  match vtypeOk vtype with
  | none => ((c.setCsr Csr.VTYPE (2 ^ 63)).setCsr Csr.VL 0).setXr rd 0
  | some (sew, l) =>
    let vl := min ((avl.getD (2 ^ 64))) (vlMax sew l)
    ((c.setCsr Csr.VTYPE vtype).setCsr Csr.VL vl).setXr rd (BitVec.ofNat 64 vl)

/-- VSETVLI, VSETIVLI and VSETVL. -/
def SpurSt.rvVset (c : SpurSt) (w : Nat) : Option SpurSt :=
  let rd := rvRd w
  let rs1 := rvRs1 w
  let avl := if rs1 ≠ 0 then some (c.xr rs1).toNat else if rd ≠ 0 then none else some (c.csr Csr.VL)
  if bits w 31 31 = 0 then some (c.vset rd (bits w 30 20) avl)
  else if bits w 31 30 = 3 then some (c.vset rd (bits w 29 20) (some rs1))
  else if bits w 31 25 = 0x40 then some (c.vset rd (c.xr (rvRs2 w)).toNat avl)
  else none

/-! ### Elements -/

def SpurSt.vreg (c : SpurSt) (r : Nat) : Nat := (c.v.getD r 0).toNat
def SpurSt.setVreg (c : SpurSt) (r v : Nat) : SpurSt :=
  { c with v := modAt (c.v ++ List.replicate (32 - c.v.length) 0) r (fun _ => BitVec.ofNat 512 v) }

/-- Element `i` of `w` bits of the group at register `r`. -/
def SpurSt.velem (c : SpurSt) (w r i : Nat) : Nat :=
  let b := i * w
  c.vreg (r + b / vlenBits) / 2 ^ (b % vlenBits) % 2 ^ w
def SpurSt.setElem (c : SpurSt) (w r i v : Nat) : SpurSt :=
  let b := i * w
  let q := r + b / vlenBits
  c.setVreg q (setBits (c.vreg q) (b % vlenBits + w - 1) (b % vlenBits) v)

/-- Element `i` of `w` bits, signed. -/
def SpurSt.velemS (c : SpurSt) (w r i : Nat) : Int := sext w (c.velem w r i)
/-- Bit `i` of a mask register. -/
def SpurSt.vbit (c : SpurSt) (r i : Nat) : Bool := bit (c.vreg r) i

/-- An element that an agnostic policy leaves: undisturbed, or all ones; which one is open (log 82). -/
def agnostic (fr i w old : Nat) : Nat := if Config.agnosticOnes fr i then 2 ^ w - 1 else old

/-! ### Register operands -/

/-- A group of registers as an operand: first register, log2 of EMUL, and element width (1 for a mask). -/
structure VGroup where
  reg : Nat
  emul : Int
  eew : Nat
deriving DecidableEq, Repr

def VGroup.count (g : VGroup) : Nat := max 1 (shl 1 g.emul)
/-- EMUL lies in range, and the register is aligned to it. -/
def VGroup.ok (g : VGroup) : Bool := decide (-3 ≤ g.emul) && decide (g.emul ≤ 3) && g.reg % g.count == 0
def VGroup.meets (a b : VGroup) : Bool := decide (a.reg < b.reg + b.count) && decide (b.reg < a.reg + a.count)

/-- A destination may overlap a source: of one width; narrower, in the lowest part of the source; wider, in the highest part
of the destination. -/
def VGroup.overlapOk (d s : VGroup) : Bool :=
  !d.meets s || d.eew == s.eew
    || (if d.eew < s.eew then d.reg == s.reg else decide (s.emul ≥ 0) && s.reg + s.count == d.reg + d.count)

/-- A register that supplies source operands of one width only. -/
def VGroup.sameWidth (a b : VGroup) : Bool := !a.meets b || a.eew == b.eew

def maskGroup (r : Nat) : VGroup := ⟨r, 0, 1⟩

/-- The checks on the operands of an instruction whose result is a group or a mask; `vm` is false when it is masked. -/
def operandsOk (d : VGroup) (ss : List VGroup) (vm : Bool) : Bool :=
  let ss' := if vm then ss else maskGroup 0 :: ss
  d.ok && ss.all VGroup.ok && ss.all d.overlapOk
    && (vm || d.eew == 1 || !d.meets (maskGroup 0))
    && ss'.all (fun a => ss'.all (fun b => a.sameWidth b))
/-- The same for a result that may not overlap its sources at all. -/
def apart (d : VGroup) (ss : List VGroup) (vm : Bool) : Bool :=
  operandsOk d ss vm && ss.all (fun s => !d.meets s) && (vm || !d.meets (maskGroup 0))

/-- A group at the setting's width and LMUL. -/
def VCfg.group (k : VCfg) (r : Nat) : VGroup := ⟨r, k.lmul, k.sew⟩
/-- A group of elements twice as wide. -/
def VCfg.wide (k : VCfg) (r : Nat) : VGroup := ⟨r, k.lmul + 1, 2 * k.sew⟩

/-! ### Loops over a result -/

/-- The element takes part: unmasked, or its mask bit is set. -/
def SpurSt.active (c : SpurSt) (vm : Bool) (i : Nat) : Bool := vm || c.vbit 0 i

/-- The elements of a destination group, from `c` as the sources stood: `f` gives the value and flags of an active element;
masked-off elements and the tail follow the policies of vtype.  The state and the flags together. -/
def SpurSt.vloop (c : SpurSt) (k : VCfg) (fr : Nat) (d : VGroup) (act : Nat → Bool) (f : Nat → Nat × Nat) : SpurSt × Nat :=
  if k.vstart ≥ k.vl then (c, 0)
  else
    (List.range (d.count * vlenBits / d.eew)).foldl (fun (p : SpurSt × Nat) i =>
      if i < k.vstart then p
      else if i < k.vl then
        (if act i then let r := f i; (p.1.setElem d.eew d.reg i r.1, orFlags p.2 r.2)
         else if k.vma then (p.1.setElem d.eew d.reg i (agnostic fr i d.eew (c.velem d.eew d.reg i)), p.2) else p)
      else if k.vta then (p.1.setElem d.eew d.reg i (agnostic fr i d.eew (c.velem d.eew d.reg i)), p.2)
      else p) (c, 0)

/-- The bits of a mask result; its tail is always agnostic. -/
def SpurSt.mloop (c : SpurSt) (k : VCfg) (fr vd : Nat) (act : Nat → Bool) (f : Nat → Bool × Nat) : SpurSt × Nat :=
  if k.vstart ≥ k.vl then (c, 0)
  else
    let put := fun (v i : Nat) (b : Bool) => setBits v i i (b2n b)
    let old := c.vreg vd
    let r := (List.range vlenBits).foldl (fun (p : Nat × Nat) i =>
      if i < k.vstart then p
      else if i < k.vl then
        (if act i then let r := f i; (put p.1 i r.1, orFlags p.2 r.2)
         else if k.vma then (put p.1 i (agnostic fr i 1 (b2n (bit old i)) == 1), p.2) else p)
      else (put p.1 i (agnostic fr i 1 (b2n (bit old i)) == 1), p.2)) (old, 0)
    (c.setVreg vd r.1, r.2)

/-- Element 0 of a register written, and its tail (reductions, vmv.s.x). -/
def SpurSt.vscalar (c : SpurSt) (k : VCfg) (fr w vd v : Nat) : SpurSt :=
  if k.vstart ≥ k.vl then c
  else
    (List.range (vlenBits / w)).foldl (fun (p : SpurSt) i =>
      if i = 0 then p.setElem w vd 0 v
      else if k.vta then p.setElem w vd i (agnostic fr i w (c.velem w vd i)) else p) c

/-- Saturation of vcsr set by an instruction. -/
def SpurSt.orVxsat (c : SpurSt) (on : Bool) : SpurSt :=
  if on then c.setCsr Csr.VCSR (setBits (c.csr Csr.VCSR) 0 0 1) else c
def SpurSt.vxrm (c : SpurSt) : Nat := bits (c.csr Csr.VCSR) 2 1

/-- A value shifted right by `d` with the rounding of vxrm. -/
def roundoff (vxrm : Nat) (v : Int) (d : Nat) : Int :=
  if d = 0 then v
  else
    let q := v / 2 ^ d
    let r := (v % 2 ^ d).toNat
    let half := 2 ^ (d - 1)
    let odd := q % 2 != 0
    let up := match vxrm with
      | 0 => decide (r ≥ half)
      | 1 => decide (r > half) || (r == half && odd)
      | 2 => false
      | _ => r != 0 && !odd
    q + (b2n up : Nat)

/-- A value brought into range: the low `w` bits of the nearest number that they can hold, and whether it was moved. -/
def clipTo (sgd : Bool) (w : Nat) (v : Int) : Nat × Bool :=
  let lo : Int := if sgd then -(2 ^ (w - 1)) else 0
  let hi : Int := if sgd then 2 ^ (w - 1) - 1 else 2 ^ w - 1
  if v < lo then (wrap w lo, true) else if v > hi then (wrap w hi, true) else (wrap w v, false)

end Sys2Proof.Machine
end

