-- ==== Sys2Proof/Machine/RvVecInt.lean ====
section
/-!
DEFINITION. The integer, fixed-point, mask, reduction and permutation instructions of the vector unit (R145).
-/
namespace Sys2Proof.Machine

/-- The second source of an instruction: a register group, or one value for every element (an integer register or an
immediate). -/
inductive VSrc where
  | vec (r : Nat)
  | val (v : Int)
deriving DecidableEq, Repr

/-- Element `i` of a source as `w` bits. -/
def SpurSt.src (c : SpurSt) (s : VSrc) (w i : Nat) : Nat :=
  match s with
  | .vec r => c.velem w r i
  | .val v => wrap w v

/-- The groups of a source for the operand checks. -/
def VSrc.groups (s : VSrc) (g : Nat → VGroup) : List VGroup :=
  match s with
  | .vec r => [g r]
  | .val _ => []
def VSrc.isVec : VSrc → Bool
  | .vec _ => true
  | .val _ => false

/-- The result of an instruction with its saturation, vstart back at zero. -/
def finishX (r : SpurSt × Nat) : SpurSt := (r.1.orVxsat (r.2 != 0)).setCsr Csr.VSTART 0
/-- The same with floating-point flags. -/
def finishF (r : SpurSt × Nat) : SpurSt := (r.1.orFflags r.2).setCsr Csr.VSTART 0

/-! ### Element operations -/

/-- The single-width operations of OPI: `a` is the element of vs2, `b` of the other source. -/
def opiElem (f6 vxrm w a b : Nat) : Option (Nat × Nat) :=
  let sa := sext w a
  let sb := sext w b
  let sh := b % w
  let sat := fun (sgd : Bool) (v : Int) => let r := clipTo sgd w v; some (r.1, b2n r.2)
  let ok := fun (v : Nat) => some (v % 2 ^ w, 0)
  match f6 with
  | 0x00 => ok (a + b)
  | 0x02 => ok (wrap w (sa - sb))
  | 0x03 => ok (wrap w (sb - sa))
  | 0x04 => ok (min a b)
  | 0x05 => ok (if sa ≤ sb then a else b)
  | 0x06 => ok (max a b)
  | 0x07 => ok (if sa ≤ sb then b else a)
  | 0x09 => ok (Nat.land a b)
  | 0x0A => ok (Nat.lor a b)
  | 0x0B => ok (Nat.xor a b)
  | 0x20 => sat false ((a : Int) + b)
  | 0x21 => sat true (sa + sb)
  | 0x22 => sat false ((a : Int) - b)
  | 0x23 => sat true (sa - sb)
  | 0x25 => ok (a * 2 ^ sh)
  | 0x27 => sat true (roundoff vxrm (sa * sb) (w - 1))
  | 0x28 => ok (a / 2 ^ sh)
  | 0x29 => ok (wrap w (sa / 2 ^ sh))
  | 0x2A => ok (wrap w (roundoff vxrm a sh))
  | 0x2B => ok (wrap w (roundoff vxrm sa sh))
  | _ => none

/-- The compares of OPI. -/
def opiCmp (f6 w a b : Nat) : Option Bool :=
  let sa := sext w a
  let sb := sext w b
  match f6 with
  | 0x18 => some (a == b)
  | 0x19 => some (a != b)
  | 0x1A => some (decide (a < b))
  | 0x1B => some (decide (sa < sb))
  | 0x1C => some (decide (a ≤ b))
  | 0x1D => some (decide (sa ≤ sb))
  | 0x1E => some (decide (a > b))
  | 0x1F => some (decide (sa > sb))
  | _ => none

/-- The narrowing operations of OPI: `a` has twice the width. -/
def opiNarrow (f6 vxrm w a b : Nat) : Nat × Nat :=
  let sh := b % (2 * w)
  let sa := sext (2 * w) a
  match f6 with
  | 0x2C => (a / 2 ^ sh % 2 ^ w, 0)
  | 0x2D => (wrap w (sa / 2 ^ sh), 0)
  | 0x2E => let r := clipTo false w (roundoff vxrm a sh); (r.1, b2n r.2)
  | _ => let r := clipTo true w (roundoff vxrm sa sh); (r.1, b2n r.2)

/-- The single-width operations of OPM; `old` is the element of the destination. -/
def opmElem (f6 vxrm w a b old : Nat) : Option Nat :=
  let sa := sext w a
  let sb := sext w b
  let so := sext w old
  let r := fun (v : Int) => some (wrap w v)
  match f6 with
  | 0x08 => r (roundoff vxrm ((a : Int) + b) 1)
  | 0x09 => r (roundoff vxrm (sa + sb) 1)
  | 0x0A => r (roundoff vxrm ((a : Int) - b) 1)
  | 0x0B => r (roundoff vxrm (sa - sb) 1)
  | 0x20 => some (if b = 0 then 2 ^ w - 1 else a / b)
  | 0x21 => r (if sb = 0 then -1 else sa.tdiv sb)
  | 0x22 => some (if b = 0 then a else a % b)
  | 0x23 => r (if sb = 0 then sa else sa.tmod sb)
  | 0x24 => some (a * b / 2 ^ w)
  | 0x25 => r (sa * sb)
  | 0x26 => r (sa * (b : Int) / 2 ^ w)
  | 0x27 => r (sa * sb / 2 ^ w)
  | 0x29 => r (sb * so + sa)
  | 0x2B => r (sa - sb * so)
  | 0x2D => r (so + sb * sa)
  | 0x2F => r (so - sb * sa)
  | _ => none

/-- The widening operations of OPM, all with single-width sources: `a` of vs2, `b` of the other source. -/
def opmWiden (f6 w a b old : Nat) : Option Nat :=
  let sa := sext w a
  let sb := sext w b
  let r := fun (v : Int) => some (wrap (2 * w) v)
  match f6 with
  | 0x30 => r ((a : Int) + b)
  | 0x31 => r (sa + sb)
  | 0x32 => r ((a : Int) - b)
  | 0x33 => r (sa - sb)
  | 0x38 => r ((a : Int) * b)
  | 0x3A => r (sa * (b : Int))
  | 0x3B => r (sa * sb)
  | 0x3C => r ((old : Int) + (a : Int) * b)
  | 0x3D => r ((old : Int) + sa * sb)
  | 0x3E => r ((old : Int) + sa * (b : Int))
  | 0x3F => r ((old : Int) + (a : Int) * sb)
  | _ => none

/-- The widening operations whose first source is already wide. -/
def opmWide (f6 w a b : Nat) : Nat :=
  let sb := sext w b
  match f6 with
  | 0x34 => wrap (2 * w) ((a : Int) + b)
  | 0x35 => wrap (2 * w) ((a : Int) + sb)
  | 0x36 => wrap (2 * w) ((a : Int) - b)
  | _ => wrap (2 * w) ((a : Int) - sb)

/-- The reductions of OPM and OPI. -/
def redElem (f6 w acc e : Nat) : Nat :=
  match f6 with
  | 0x00 => (acc + e) % 2 ^ w
  | 0x01 => Nat.land acc e
  | 0x02 => Nat.lor acc e
  | 0x03 => Nat.xor acc e
  | 0x04 => min acc e
  | 0x05 => if sext w acc ≤ sext w e then acc else e
  | 0x06 => max acc e
  | _ => if sext w acc ≤ sext w e then e else acc

/-- The elements that take part, in order. -/
def SpurSt.actives (c : SpurSt) (k : VCfg) (vm : Bool) : List Nat := (List.range k.vl).filter (c.active vm)

/-! ### Single-width, narrowing and widening forms -/

/-- vs2 op source into vd, element by element, where `f` has an outcome. -/
def SpurSt.vbin (c : SpurSt) (k : VCfg) (fr vd vs2 : Nat) (s : VSrc) (vm : Bool)
    (f : Nat → Nat → Nat → Option (Nat × Nat)) : Option SpurSt :=
  if (f 0 0 0).isNone || !operandsOk (k.group vd) (k.group vs2 :: s.groups k.group) vm then none
  else some (finishX (c.vloop k fr (k.group vd) (c.active vm) (fun i =>
    (f (c.velem k.sew vs2 i) (c.src s k.sew i) (c.velem k.sew vd i)).getD (0, 0))))

/-- A compare into a mask. -/
def SpurSt.vcmp (c : SpurSt) (k : VCfg) (fr vd vs2 : Nat) (s : VSrc) (vm : Bool) (f6 : Nat) : Option SpurSt :=
  if !operandsOk (maskGroup vd) (k.group vs2 :: s.groups k.group) vm then none
  else some (finishX (c.mloop k fr vd (c.active vm) (fun i =>
    ((opiCmp f6 k.sew (c.velem k.sew vs2 i) (c.src s k.sew i)).getD false, 0))))

def SpurSt.vnarrow (c : SpurSt) (k : VCfg) (fr vd vs2 : Nat) (s : VSrc) (vm : Bool) (f6 : Nat) : Option SpurSt :=
  if k.sew > 32 || !operandsOk (k.group vd) (k.wide vs2 :: s.groups k.group) vm then none
  else some (finishX (c.vloop k fr (k.group vd) (c.active vm) (fun i =>
    opiNarrow f6 c.vxrm k.sew (c.velem (2 * k.sew) vs2 i) (c.src s k.sew i))))

def SpurSt.vwiden (c : SpurSt) (k : VCfg) (fr vd vs2 : Nat) (s : VSrc) (vm : Bool) (f6 : Nat) : Option SpurSt :=
  if k.sew > 32 || !operandsOk (k.wide vd) (k.group vs2 :: s.groups k.group) vm then none
  else some (finishX (c.vloop k fr (k.wide vd) (c.active vm) (fun i =>
    ((opmWiden f6 k.sew (c.velem k.sew vs2 i) (c.src s k.sew i) (c.velem (2 * k.sew) vd i)).getD 0, 0))))

def SpurSt.vwideOp (c : SpurSt) (k : VCfg) (fr vd vs2 : Nat) (s : VSrc) (vm : Bool) (f6 : Nat) : Option SpurSt :=
  if k.sew > 32 || !operandsOk (k.wide vd) (k.wide vs2 :: s.groups k.group) vm then none
  else some (finishX (c.vloop k fr (k.wide vd) (c.active vm) (fun i =>
    (opmWide f6 k.sew (c.velem (2 * k.sew) vs2 i) (c.src s k.sew i), 0))))

/-- vzext and vsext by 2, 4 or 8. -/
def SpurSt.vext (c : SpurSt) (k : VCfg) (fr vd vs2 : Nat) (vm sgd : Bool) (lg : Nat) : Option SpurSt :=
  let g : VGroup := ⟨vs2, k.lmul - lg, k.sew / 2 ^ lg⟩
  if k.sew / 2 ^ lg < 8 || !operandsOk (k.group vd) [g] vm then none
  else some (finishX (c.vloop k fr (k.group vd) (c.active vm) (fun i =>
    let e := c.velem g.eew vs2 i
    (if sgd then wrap k.sew (sext g.eew e) else e, 0))))

/-- The carry or borrow of element `i`, from the mask register. -/
def SpurSt.carryIn (c : SpurSt) (vm : Bool) (i : Nat) : Nat := if vm then 0 else b2n (c.vbit 0 i)

/-- vadc and vsbc: every element takes part, with v0 as the carry. -/
def SpurSt.vadc (c : SpurSt) (k : VCfg) (fr vd vs2 : Nat) (s : VSrc) (vm sub : Bool) : Option SpurSt :=
  if vm || !operandsOk (k.group vd) (k.group vs2 :: s.groups k.group) false then none
  else some (finishX (c.vloop k fr (k.group vd) (fun _ => true) (fun i =>
    let a : Int := (c.velem k.sew vs2 i : Nat)
    let b : Int := (c.src s k.sew i : Nat)
    let y : Int := (c.carryIn false i : Nat)
    (wrap k.sew (if sub then a - b - y else a + b + y), 0))))

/-- vmadc and vmsbc: the carry or borrow out. -/
def SpurSt.vmadc (c : SpurSt) (k : VCfg) (fr vd vs2 : Nat) (s : VSrc) (vm sub : Bool) : Option SpurSt :=
  if !operandsOk (maskGroup vd) (k.group vs2 :: s.groups k.group) vm then none
  else some (finishX (c.mloop k fr vd (fun _ => true) (fun i =>
    let a := c.velem k.sew vs2 i
    let b := c.src s k.sew i
    let y := c.carryIn vm i
    (if sub then decide (a < b + y) else decide (a + b + y ≥ 2 ^ k.sew), 0))))

/-- vmerge, and vmv.v with every element taken from the other source. -/
def SpurSt.vmerge (c : SpurSt) (k : VCfg) (fr vd vs2 : Nat) (s : VSrc) (vm : Bool) : Option SpurSt :=
  if vm then
    (if vs2 ≠ 0 || !operandsOk (k.group vd) (s.groups k.group) true then none
     else some (finishX (c.vloop k fr (k.group vd) (fun _ => true) (fun i => (c.src s k.sew i, 0)))))
  else if !operandsOk (k.group vd) (k.group vs2 :: s.groups k.group) false then none
  else some (finishX (c.vloop k fr (k.group vd) (fun _ => true) (fun i =>
    (if c.vbit 0 i then c.src s k.sew i else c.velem k.sew vs2 i, 0))))

/-! ### Permutation -/

/-- vslideup and vslidedown. -/
def SpurSt.vslide (c : SpurSt) (k : VCfg) (fr vd vs2 off : Nat) (vm up : Bool) : Option SpurSt :=
  if up then
    (if !apart (k.group vd) [k.group vs2] vm then none
     else
      -- elements below the offset stay as they are
      some (finishX (c.vloop k fr (k.group vd) (fun i => decide (i < off) || c.active vm i) (fun i =>
        (if i < off then c.velem k.sew vd i else c.velem k.sew vs2 (i - off), 0)))))
  else if !operandsOk (k.group vd) [k.group vs2] vm then none
  else some (finishX (c.vloop k fr (k.group vd) (c.active vm) (fun i =>
    (if i + off < k.vlmax then c.velem k.sew vs2 (i + off) else 0, 0))))

/-- vslide1up and vslide1down, and their floating-point forms: `x` enters at the end. -/
def SpurSt.vslide1 (c : SpurSt) (k : VCfg) (fr vd vs2 x : Nat) (vm up : Bool) : Option SpurSt :=
  if !(if up then apart (k.group vd) [k.group vs2] vm else operandsOk (k.group vd) [k.group vs2] vm) then none
  else some (finishX (c.vloop k fr (k.group vd) (c.active vm) (fun i =>
    (if up then (if i = 0 then x else c.velem k.sew vs2 (i - 1))
     else if i + 1 = k.vl then x else c.velem k.sew vs2 (i + 1), 0))))

/-- vrgather: an index past VLMAX gives zero. -/
def SpurSt.vgather (c : SpurSt) (k : VCfg) (fr vd vs2 : Nat) (s : VSrc) (iw : Nat) (ig : Nat → VGroup) (vm : Bool) :
    Option SpurSt :=
  if !apart (k.group vd) (k.group vs2 :: s.groups ig) vm then none
  else some (finishX (c.vloop k fr (k.group vd) (c.active vm) (fun i =>
    let j := match s with
      | .vec r => c.velem iw r i
      | .val v => wrap 64 v
    (if j < k.vlmax then c.velem k.sew vs2 j else 0, 0))))

/-- vcompress: the elements of vs2 that the mask in vs1 names, packed. -/
def SpurSt.vcompress (c : SpurSt) (k : VCfg) (fr vd vs1 vs2 : Nat) (vm : Bool) : Option SpurSt :=
  if !vm || k.vstart ≠ 0 || !apart (k.group vd) [k.group vs2, maskGroup vs1] true then none
  else if k.vl = 0 then some c
  else
    let js := (List.range k.vl).filter (c.vbit vs1)
    -- what follows the packed elements is tail
    let g := k.group vd
    let packed := js.zipIdx.foldl (fun (p : SpurSt) x => p.setElem k.sew vd x.2 (c.velem k.sew vs2 x.1)) c
    some (if !k.vta then packed
      else (List.range (g.count * vlenBits / k.sew)).foldl (fun (p : SpurSt) i =>
        if i < js.length then p else p.setElem k.sew vd i (agnostic fr i k.sew (c.velem k.sew vd i))) packed)

/-- vmv<nr>r: whole registers. -/
def SpurSt.vmvr (c : SpurSt) (k : VCfg) (vd vs2 n : Nat) (vm : Bool) : Option SpurSt :=
  if !vm || !(n == 1 || n == 2 || n == 4 || n == 8) || vd % n ≠ 0 || vs2 % n ≠ 0 then none
  else
    let c' := (List.range (n * vlenBits / k.sew)).foldl (fun (p : SpurSt) i =>
      if i < k.vstart then p else p.setElem k.sew vd i (c.velem k.sew vs2 i)) c
    some (c'.setCsr Csr.VSTART 0)

/-! ### Masks -/

def maskOp (f6 : Nat) (a b : Bool) : Bool :=
  match f6 with
  | 0x18 => a && !b
  | 0x19 => a && b
  | 0x1A => a || b
  | 0x1B => a != b
  | 0x1C => a || !b
  | 0x1D => !(a && b)
  | 0x1E => !(a || b)
  | _ => a == b

/-- vmsbf, vmsof and vmsif (kinds 1, 2 and 3): by the first active bit of vs2. -/
def SpurSt.vmset (c : SpurSt) (k : VCfg) (fr vd vs2 kind : Nat) (vm : Bool) : Option SpurSt :=
  if k.vstart ≠ 0 || vd == vs2 || (!vm && vd == 0) then none
  else
    let first := ((c.actives k vm).find? (c.vbit vs2)).getD k.vl
    some (finishX (c.mloop k fr vd (c.active vm) (fun i =>
      (match kind with
        | 1 => decide (i < first)
        | 2 => i == first
        | _ => decide (i ≤ first), 0))))

/-- viota: how many bits of vs2 are set before each active element. -/
def SpurSt.viota (c : SpurSt) (k : VCfg) (fr vd vs2 : Nat) (vm : Bool) : Option SpurSt :=
  if k.vstart ≠ 0 || !apart (k.group vd) [maskGroup vs2] vm then none
  else some (finishX (c.vloop k fr (k.group vd) (c.active vm) (fun i =>
    (((List.range i).filter (fun j => c.active vm j && c.vbit vs2 j)).length % 2 ^ k.sew, 0))))

/-! ### Reductions -/

/-- A reduction: element 0 of vs1, then the active elements of vs2 in order. -/
def SpurSt.vred (c : SpurSt) (k : VCfg) (fr vd vs1 vs2 : Nat) (vm : Bool) (f6 : Nat) : Option SpurSt :=
  if k.vstart ≠ 0 || !(k.group vs2).ok then none
  else
    let r := (c.actives k vm).foldl (fun acc i => redElem f6 k.sew acc (c.velem k.sew vs2 i)) (c.velem k.sew vs1 0)
    some (c.vscalar k fr k.sew vd r)

/-- vwredsum and vwredsumu. -/
def SpurSt.vwred (c : SpurSt) (k : VCfg) (fr vd vs1 vs2 : Nat) (vm sgd : Bool) : Option SpurSt :=
  let w := 2 * k.sew
  if k.sew > 32 || k.vstart ≠ 0 || !(k.group vs2).ok then none
  else
    let r := (c.actives k vm).foldl (fun acc i =>
      let e := c.velem k.sew vs2 i
      (acc + (if sgd then wrap w (sext k.sew e) else e)) % 2 ^ w) (c.velem w vs1 0)
    some (c.vscalar k fr w vd r)

/-! ### The instructions of OPIVV, OPIVX and OPIVI -/

/-- The index groups of vrgatherei16. -/
def VCfg.ei16 (k : VCfg) (r : Nat) : VGroup :=
  ⟨r, k.lmul + 4 - (Nat.log2 k.sew : Nat), 16⟩

/-- OPI: `s` is the register group, the register or the sign-extended immediate; `u` the offset or index of a slide or gather
and the shift of an immediate form, unsigned. -/
def SpurSt.vOpi (c : SpurSt) (k : VCfg) (fr w : Nat) (s : VSrc) (u : Nat) (imm : Bool) : Option SpurSt :=
  let f6 := bits w 31 26
  let vd := rvRd w
  let vs2 := rvRs2 w
  let vm := bit w 25
  let shifted := if imm then VSrc.val (u : Int) else s
  let offset : Nat := match s with
    | .vec _ => 0
    | .val v => if imm then u else wrap 64 v
  match f6 with
  | 0x0C =>
    (match s with
      | .vec _ => c.vgather k fr vd vs2 s k.sew k.group vm
      | .val _ => c.vgather k fr vd vs2 (.val (offset : Int)) k.sew k.group vm)
  | 0x0E =>
    (match s with
      | .vec _ => c.vgather k fr vd vs2 s 16 k.ei16 vm
      | .val _ => c.vslide k fr vd vs2 offset vm true)
  | 0x0F => if s.isVec then none else c.vslide k fr vd vs2 offset vm false
  | 0x10 => c.vadc k fr vd vs2 s vm false
  | 0x11 => c.vmadc k fr vd vs2 s vm false
  | 0x12 => if imm then none else c.vadc k fr vd vs2 s vm true
  | 0x13 => if imm then none else c.vmadc k fr vd vs2 s vm true
  | 0x17 => c.vmerge k fr vd vs2 s vm
  | 0x27 => if imm then c.vmvr k vd vs2 (u + 1) vm else c.vbin k fr vd vs2 s vm (fun a b _ => opiElem 0x27 c.vxrm k.sew a b)
  | 0x30 => match s with
    | .vec r => c.vwred k fr vd r vs2 vm false
    | .val _ => none
  | 0x31 => match s with
    | .vec r => c.vwred k fr vd r vs2 vm true
    | .val _ => none
  | _ =>
    if 0x18 ≤ f6 && f6 ≤ 0x1F then
      (if (f6 ≥ 0x1E && s.isVec) || ((f6 = 0x1A || f6 = 0x1B) && imm) then none else c.vcmp k fr vd vs2 s vm f6)
    else if 0x2C ≤ f6 && f6 ≤ 0x2F then c.vnarrow k fr vd vs2 shifted vm f6
    else if (imm && [0x02, 0x04, 0x05, 0x06, 0x07, 0x22, 0x23].contains f6) || (f6 = 0x03 && s.isVec) then none
    else c.vbin k fr vd vs2 (if 0x25 ≤ f6 then shifted else s) vm (fun a b _ => opiElem f6 c.vxrm k.sew a b)

/-! ### The instructions of OPMVV and OPMVX -/

/-- The unary forms: vmv.x.s, vcpop and vfirst write an integer register. -/
def SpurSt.vToX (c : SpurSt) (k : VCfg) (rd vs1 vs2 : Nat) (vm : Bool) : Option SpurSt :=
  match vs1 with
  | 0x00 => if vm then some ((c.setXr rd (BitVec.ofInt 64 (c.velemS k.sew vs2 0))).setCsr Csr.VSTART 0) else none
  | 0x10 =>
    if k.vstart ≠ 0 then none
    else some (c.setXr rd (BitVec.ofNat 64 ((c.actives k vm).filter (c.vbit vs2)).length))
  | 0x11 =>
    if k.vstart ≠ 0 then none
    else some (c.setXr rd (match (c.actives k vm).find? (c.vbit vs2) with
      | some i => BitVec.ofNat 64 i
      | none => BitVec.allOnes 64))
  | _ => none

/-- OPM with register sources. -/
def SpurSt.vOpmV (c : SpurSt) (k : VCfg) (fr w : Nat) : Option SpurSt :=
  let f6 := bits w 31 26
  let vd := rvRd w
  let vs1 := rvRs1 w
  let vs2 := rvRs2 w
  let vm := bit w 25
  match f6 with
  | 0x10 => c.vToX k vd vs1 vs2 vm
  | 0x12 =>
    if 2 ≤ vs1 && vs1 ≤ 7 then c.vext k fr vd vs2 vm (vs1 % 2 = 1) (4 - vs1 / 2) else none
  | 0x14 =>
    (match vs1 with
      | 0x01 => c.vmset k fr vd vs2 1 vm
      | 0x02 => c.vmset k fr vd vs2 2 vm
      | 0x03 => c.vmset k fr vd vs2 3 vm
      | 0x10 => c.viota k fr vd vs2 vm
      | 0x11 =>
        if vs2 ≠ 0 || !operandsOk (k.group vd) [] vm then none
        else some (finishX (c.vloop k fr (k.group vd) (c.active vm) (fun i => (i % 2 ^ k.sew, 0))))
      | _ => none)
  | 0x17 => c.vcompress k fr vd vs1 vs2 vm
  | _ =>
    if f6 < 8 then c.vred k fr vd vs1 vs2 vm f6
    else if 0x18 ≤ f6 && f6 ≤ 0x1F then
      (if !vm then none
       else some (finishX (c.mloop k fr vd (fun _ => true) (fun i => (maskOp f6 (c.vbit vs2 i) (c.vbit vs1 i), 0)))))
    else if 0x34 ≤ f6 && f6 ≤ 0x37 then c.vwideOp k fr vd vs2 (.vec vs1) vm f6
    else if f6 ≥ 0x30 then
      (if f6 = 0x3E || (opmWiden f6 8 0 0 0).isNone then none else c.vwiden k fr vd vs2 (.vec vs1) vm f6)
    else c.vbin k fr vd vs2 (.vec vs1) vm (fun a b o => (opmElem f6 c.vxrm k.sew a b o).map (·, 0))

/-- OPM with an integer register. -/
def SpurSt.vOpmX (c : SpurSt) (k : VCfg) (fr w : Nat) : Option SpurSt :=
  let f6 := bits w 31 26
  let vd := rvRd w
  let vs2 := rvRs2 w
  let vm := bit w 25
  let x := c.xr (rvRs1 w)
  let s := VSrc.val x.toInt
  match f6 with
  | 0x0E => c.vslide1 k fr vd vs2 (wrap k.sew x.toInt) vm true
  | 0x0F => c.vslide1 k fr vd vs2 (wrap k.sew x.toInt) vm false
  | 0x10 =>
    if vs2 ≠ 0 || !vm then none else some ((c.vscalar k fr k.sew vd (wrap k.sew x.toInt)).setCsr Csr.VSTART 0)
  | _ =>
    if 0x34 ≤ f6 && f6 ≤ 0x37 then c.vwideOp k fr vd vs2 s vm f6
    else if f6 ≥ 0x30 then (if (opmWiden f6 8 0 0 0).isNone then none else c.vwiden k fr vd vs2 s vm f6)
    else c.vbin k fr vd vs2 s vm (fun a b o => (opmElem f6 c.vxrm k.sew a b o).map (·, 0))

end Sys2Proof.Machine
end

