-- ==== Sys2Proof/Machine/RvVecFp.lean ====
section
/-!
DEFINITION. The floating-point instructions of the vector unit (R69, R145): binary32 and binary64 elements.  The unordered
reductions compute in element order, as the ordered ones do (R69).
-/
namespace Sys2Proof.Machine

/-- A width that the unit's floating point has. -/
def fpWidth (w : Nat) : Bool := w == 32 || w == 64

/-- The single-width operations: `a` the element of vs2, `b` of the other source, `o` of the destination. -/
def fpElem (f6 : Nat) (rm : Rm) (w a b o : Nat) : Option FRes :=
  let f := fmtOf w
  match f6 with
  | 0x00 => some (f.addRm rm a b)
  | 0x02 => some (f.subRm rm a b)
  | 0x04 => some (f.minRm false a b)
  | 0x06 => some (f.minRm true a b)
  | 0x08 => some ⟨f.sgnj 0 a b, 0⟩
  | 0x09 => some ⟨f.sgnj 1 a b, 0⟩
  | 0x0A => some ⟨f.sgnj 2 a b, 0⟩
  | 0x20 => some (f.divRm rm a b)
  | 0x21 => some (f.divRm rm b a)
  | 0x24 => some (f.mulRm rm a b)
  | 0x27 => some (f.subRm rm b a)
  | 0x28 => some (f.fmaRm rm b o a)
  | 0x29 => some (f.fmaRm rm (f.flip b) o (f.flip a))
  | 0x2A => some (f.fmaRm rm b o (f.flip a))
  | 0x2B => some (f.fmaRm rm (f.flip b) o a)
  | 0x2C => some (f.fmaRm rm b a o)
  | 0x2D => some (f.fmaRm rm (f.flip b) a (f.flip o))
  | 0x2E => some (f.fmaRm rm b a (f.flip o))
  | 0x2F => some (f.fmaRm rm (f.flip b) a o)
  | _ => none

/-- An element widened from `w` bits: exact, and a signalling NaN is invalid. -/
def fpWide (w a : Nat) : FRes := (fmtOf w).castRm (fmtOf (2 * w)) .rne a

/-- The widening operations: `a` and `b` are already wide, with the flags of their widening in `fl`. -/
def fpWiden (f6 : Nat) (rm : Rm) (w : Nat) (a b : FRes) (o : Nat) : Option FRes :=
  let f := fmtOf (2 * w)
  let fl := orFlags a.flags b.flags
  let out := fun (r : FRes) => some (r.raise true fl)
  match f6 with
  | 0x30 => out (f.addRm rm a.code b.code)
  | 0x32 => out (f.subRm rm a.code b.code)
  | 0x34 => out (f.addRm rm a.code b.code)
  | 0x36 => out (f.subRm rm a.code b.code)
  | 0x38 => out (f.mulRm rm a.code b.code)
  | 0x3C => out (f.fmaRm rm b.code a.code o)
  | 0x3D => out (f.fmaRm rm (f.flip b.code) a.code (f.flip o))
  | 0x3E => out (f.fmaRm rm b.code a.code (f.flip o))
  | 0x3F => out (f.fmaRm rm (f.flip b.code) a.code o)
  | _ => none

/-- The compares. -/
def fpCmp (f6 w a b : Nat) : Option (Bool × Nat) :=
  let f := fmtOf w
  match f6 with
  | 0x18 => some (f.eqRm a b)
  | 0x19 => some (f.leRm a b)
  | 0x1B => some (f.ltRm a b)
  | 0x1C => some (let r := f.eqRm a b; (!r.1, r.2))
  | 0x1D => some (f.ltRm b a)
  | 0x1F => some (f.leRm b a)
  | _ => none

/-- A code of the scalar source as an element, or the element of a group. -/
def SpurSt.fsrc (c : SpurSt) (s : VSrc) (w i : Nat) : Nat := c.src s w i

def SpurSt.vfbin (c : SpurSt) (k : VCfg) (fr vd vs2 : Nat) (s : VSrc) (vm : Bool) (rm : Rm) (f6 : Nat) : Option SpurSt :=
  if (fpElem f6 rm k.sew 0 0 0).isNone || !operandsOk (k.group vd) (k.group vs2 :: s.groups k.group) vm then none
  else some (finishF (c.vloop k fr (k.group vd) (c.active vm) (fun i =>
    match fpElem f6 rm k.sew (c.velem k.sew vs2 i) (c.src s k.sew i) (c.velem k.sew vd i) with
    | some r => (r.code, r.flags)
    | none => (0, 0))))

def SpurSt.vfcmp (c : SpurSt) (k : VCfg) (fr vd vs2 : Nat) (s : VSrc) (vm : Bool) (f6 : Nat) : Option SpurSt :=
  if (fpCmp f6 k.sew 0 0).isNone || !operandsOk (maskGroup vd) (k.group vs2 :: s.groups k.group) vm then none
  else some (finishF (c.mloop k fr vd (c.active vm) (fun i =>
    (fpCmp f6 k.sew (c.velem k.sew vs2 i) (c.src s k.sew i)).getD (false, 0))))

/-- The widening forms; with `wide`, vs2 is already wide. -/
def SpurSt.vfwiden (c : SpurSt) (k : VCfg) (fr vd vs2 : Nat) (s : VSrc) (vm wide : Bool) (rm : Rm) (f6 : Nat) : Option SpurSt :=
  let w := k.sew
  let g2 := if wide then k.wide vs2 else k.group vs2
  if w ≠ 32 || (fpWiden f6 rm w ⟨0, 0⟩ ⟨0, 0⟩ 0).isNone || !operandsOk (k.wide vd) (g2 :: s.groups k.group) vm then none
  else some (finishF (c.vloop k fr (k.wide vd) (c.active vm) (fun i =>
    let a : FRes := if wide then ⟨c.velem (2 * w) vs2 i, 0⟩ else fpWide w (c.velem w vs2 i)
    match fpWiden f6 rm w a (fpWide w (c.src s w i)) (c.velem (2 * w) vd i) with
    | some r => (r.code, r.flags)
    | none => (0, 0))))

/-- The reductions: 0x01 and 0x03 sums, in element order both; 0x05 least, 0x07 greatest. -/
def SpurSt.vfred (c : SpurSt) (k : VCfg) (fr vd vs1 vs2 : Nat) (vm : Bool) (rm : Rm) (f6 : Nat) : Option SpurSt :=
  let f := fmtOf k.sew
  if k.vstart ≠ 0 || !(k.group vs2).ok then none
  else
    let r := (c.actives k vm).foldl (fun (a : FRes) i =>
      let e := c.velem k.sew vs2 i
      (match f6 with
        | 0x05 => f.minRm false a.code e
        | 0x07 => f.minRm true a.code e
        | _ => f.addRm rm a.code e).raise true a.flags) (⟨c.velem k.sew vs1 0, 0⟩ : FRes)
    some ((c.vscalar k fr k.sew vd r.code).orFflags (if k.vl = 0 then 0 else r.flags))

/-- vfwredusum and vfwredosum. -/
def SpurSt.vfwred (c : SpurSt) (k : VCfg) (fr vd vs1 vs2 : Nat) (vm : Bool) (rm : Rm) : Option SpurSt :=
  let f := fmtOf (2 * k.sew)
  if k.sew ≠ 32 || k.vstart ≠ 0 || !(k.group vs2).ok then none
  else
    let r := (c.actives k vm).foldl (fun (a : FRes) i =>
      let e := fpWide k.sew (c.velem k.sew vs2 i)
      (f.addRm rm a.code e.code).raise true (orFlags a.flags e.flags)) (⟨c.velem (2 * k.sew) vs1 0, 0⟩ : FRes)
    some ((c.vscalar k fr (2 * k.sew) vd r.code).orFflags (if k.vl = 0 then 0 else r.flags))

/-! ### Conversions and the unary forms -/

/-- One element of a unary form. -/
def SpurSt.vfun (c : SpurSt) (k : VCfg) (fr : Nat) (d s : VGroup) (vm : Bool) (f : Nat → FRes) : Option SpurSt :=
  if !operandsOk d [s] vm then none
  else some (finishF (c.vloop k fr d (c.active vm) (fun i => let r := f (c.velem s.eew s.reg i); (r.code, r.flags))))

/-- VFUNARY0: conversions of one width, widening (0x08 up) and narrowing (0x10 up). -/
def SpurSt.vfcvt (c : SpurSt) (k : VCfg) (fr vd vs2 vs1 : Nat) (vm : Bool) (rm : Rm) : Option SpurSt :=
  let w := k.sew
  let kind := vs1 % 8
  let sgd := kind % 2 = 1
  let asInt := fun (w v : Nat) => if sgd then sext w v else (v : Int)
  let rmi := if kind ≥ 6 then Rm.rtz else rm
  let toInt := [0, 1, 6, 7].contains kind
  let ofInt := [2, 3].contains kind
  match vs1 / 8 with
  | 0 =>
    if !fpWidth w then none
    else if toInt then c.vfun k fr (k.group vd) (k.group vs2) vm (fun a => (fmtOf w).toInt rmi sgd w a)
    else if ofInt then c.vfun k fr (k.group vd) (k.group vs2) vm (fun a => (fmtOf w).ofInt rm (asInt w a))
    else none
  | 1 =>
    if w > 32 then none
    else if toInt then
      (if w = 32 then c.vfun k fr (k.wide vd) (k.group vs2) vm (fun a => (fmtOf w).toInt rmi sgd (2 * w) a) else none)
    else if ofInt then
      (if w ≥ 16 then c.vfun k fr (k.wide vd) (k.group vs2) vm (fun a => (fmtOf (2 * w)).ofInt rm (asInt w a)) else none)
    else if kind = 4 && w = 32 then c.vfun k fr (k.wide vd) (k.group vs2) vm (fpWide w)
    else none
  | 2 =>
    if w > 32 then none
    else if toInt then
      (if w ≥ 16 then c.vfun k fr (k.group vd) (k.wide vs2) vm (fun a => (fmtOf (2 * w)).toInt rmi sgd w a) else none)
    else if w ≠ 32 then none
    else if ofInt then c.vfun k fr (k.group vd) (k.wide vs2) vm (fun a => (fmtOf w).ofInt rm (asInt (2 * w) a))
    else c.vfun k fr (k.group vd) (k.wide vs2) vm (fun a => (fmtOf (2 * w)).castRm (fmtOf w) (if kind = 5 then .rod else rm) a)
  | _ => none

/-- VFUNARY1: square root, the two estimates, and the class. -/
def SpurSt.vfun1 (c : SpurSt) (k : VCfg) (fr vd vs2 vs1 : Nat) (vm : Bool) (rm : Rm) : Option SpurSt :=
  let f := fmtOf k.sew
  let on := c.vfun k fr (k.group vd) (k.group vs2) vm
  match vs1 with
  | 0x00 => on (fun a => f.sqrtRm rm a)
  | 0x04 => on (fun a => f.rsqrt7 a)
  | 0x05 => on (fun a => f.rec7 rm a)
  | 0x10 => on (fun a => ⟨f.classOf a, 0⟩)
  | _ => none

/-! ### The instructions of OPFVV and OPFVF -/

def SpurSt.vOpfV (c : SpurSt) (k : VCfg) (fr w : Nat) (rm : Rm) : Option SpurSt :=
  let f6 := bits w 31 26
  let vd := rvRd w
  let vs1 := rvRs1 w
  let vs2 := rvRs2 w
  let vm := bit w 25
  if f6 = 0x12 then c.vfcvt k fr vd vs2 vs1 vm rm
  else if f6 = 0x31 || f6 = 0x33 then c.vfwred k fr vd vs1 vs2 vm rm
  else if f6 ≥ 0x30 then c.vfwiden k fr vd vs2 (.vec vs1) vm (f6 = 0x34 || f6 = 0x36) rm f6
  else if !fpWidth k.sew then none
  else match f6 with
    | 0x01 => c.vfred k fr vd vs1 vs2 vm rm f6
    | 0x03 => c.vfred k fr vd vs1 vs2 vm rm f6
    | 0x05 => c.vfred k fr vd vs1 vs2 vm rm f6
    | 0x07 => c.vfred k fr vd vs1 vs2 vm rm f6
    | 0x10 =>
      if vs1 = 0 && vm then some ((c.setFr k.sew vd (c.velem k.sew vs2 0)).setCsr Csr.VSTART 0) else none
    | 0x13 => c.vfun1 k fr vd vs2 vs1 vm rm
    | 0x21 => none
    | 0x27 => none
    | _ =>
      if 0x18 ≤ f6 && f6 ≤ 0x1F then (if f6 = 0x1D || f6 = 0x1F then none else c.vfcmp k fr vd vs2 (.vec vs1) vm f6)
      else c.vfbin k fr vd vs2 (.vec vs1) vm rm f6

def SpurSt.vOpfF (c : SpurSt) (k : VCfg) (fr w : Nat) (rm : Rm) : Option SpurSt :=
  let f6 := bits w 31 26
  let vd := rvRd w
  let vs2 := rvRs2 w
  let vm := bit w 25
  let x := c.fr k.sew (rvRs1 w)
  let s := VSrc.val (x : Int)
  if !fpWidth k.sew then none
  else if f6 ≥ 0x30 then c.vfwiden k fr vd vs2 s vm (f6 = 0x34 || f6 = 0x36) rm f6
  else match f6 with
    | 0x0E => c.vslide1 k fr vd vs2 x vm true
    | 0x0F => c.vslide1 k fr vd vs2 x vm false
    | 0x10 => if vs2 ≠ 0 || !vm then none else some ((c.vscalar k fr k.sew vd x).setCsr Csr.VSTART 0)
    | 0x17 => c.vmerge k fr vd vs2 s vm
    | _ =>
      if 0x18 ≤ f6 && f6 ≤ 0x1F then c.vfcmp k fr vd vs2 s vm f6
      else c.vfbin k fr vd vs2 s vm rm f6

/-! ### The whole of OP-V -/

/-- OP-V: vset, and the arithmetic instructions, which need a legal vtype; those on floating point need a legal frm. -/
def SpurSt.rvVector (c : SpurSt) (fr w : Nat) : Option SpurSt :=
  let f3 := rvF3 w
  let x := (c.xr (rvRs1 w)).toInt
  if f3 = 7 then c.rvVset w
  else match c.vcfg with
    | none => none
    | some k =>
      match f3 with
      | 0 => c.vOpi k fr w (.vec (rvRs1 w)) 0 false
      | 2 => c.vOpmV k fr w
      | 3 => c.vOpi k fr w (.val (sext 5 (rvRs1 w))) (rvRs1 w) true
      | 4 => c.vOpi k fr w (.val x) 0 false
      | 6 => c.vOpmX k fr w
      | _ =>
        (match c.rm 7 with
          | none => none
          | some rm => if f3 = 1 then c.vOpfV k fr w rm else c.vOpfF k fr w rm)

end Sys2Proof.Machine
end

