-- ==== Sys2Proof/Machine/RvVecMem.lean ====
section
/-!
DEFINITION. The loads and stores of the vector unit (R145, R149): unit-stride, strided, indexed, segment, mask, whole
register and fault-only-first forms.  Elements are reached in order, and the first that faults ends the instruction with
vstart at its index.
-/
namespace Sys2Proof.Machine

/-- One element access: the element's index in vl, the register element that it loads or stores, and its address. -/
structure VAccess where
  index : Nat
  reg : Nat
  elem : Nat
  addr : Nat
deriving DecidableEq, Repr

/-- What a vector load or store does: its accesses in order, the width of an element, and its forms. -/
structure VPlan where
  eew : Nat
  accesses : List VAccess
  /-- The groups that a load writes, for the tail. -/
  groups : List VGroup
  firstOnly : Bool
  /-- Elements of the operation, and whether the tail is agnostic. -/
  vl : Nat
  agnosticTail : Bool
deriving DecidableEq, Repr

/-- The accesses of the active elements: field `f` of element `i` stands `f` elements past the address of `i`. -/
def SpurSt.vAccesses (c : SpurSt) (vm : Bool) (start vl nf regs vd eew : Nat) (addr : Nat → Int) : List VAccess :=
  ((List.range vl).filter (fun i => decide (start ≤ i) && c.active vm i)).flatMap (fun i =>
    (List.range nf).map (fun f => ⟨i, vd + f * regs, i, wrap 64 (addr i + f * (eew / 8 : Nat))⟩))

/-- The width that funct3 of a vector load or store encodes. -/
def vmemWidth (f3 : Nat) : Option Nat :=
  match f3 with
  | 0 => some 8
  | 5 => some 16
  | 6 => some 32
  | 7 => some 64
  | _ => none

/-- The plan of a load (`store` false) or a store; none when the encoding or its registers are reserved. -/
def SpurSt.vPlan (c : SpurSt) (w : Nat) (store : Bool) : Option VPlan :=
  let vd := rvRd w
  let vm := bit w 25
  let nf := bits w 31 29 + 1
  let base : Int := ((c.xr (rvRs1 w)).toNat : Int)
  let mop := bits w 27 26
  match vmemWidth (rvF3 w) with
  | none => none
  | some width =>
    if bit w 28 then none
    else if mop = 0 && rvRs2 w = 0x08 then
      -- whole registers, whatever vtype holds
      (if !vm || !(nf == 1 || nf == 2 || nf == 4 || nf == 8) || vd % nf ≠ 0 || (store && width ≠ 8) then none
       else
        let n := nf * vlenBits / width
        some { eew := width
               accesses := c.vAccesses true (c.csr Csr.VSTART) n 1 0 vd width (fun i => base + i * (width / 8 : Nat))
               groups := []
               firstOnly := false
               vl := n
               agnosticTail := false })
    else match c.vcfg with
      | none => none
      | some k =>
        if mop = 0 && rvRs2 w = 0x0B then
          (if !vm || nf ≠ 1 || width ≠ 8 then none
           else
            let n := ceilDiv k.vl 8
            some { eew := 8
                   accesses := c.vAccesses true k.vstart n 1 0 vd 8 (fun i => base + i)
                   groups := [⟨vd, 0, 8⟩]
                   firstOnly := false
                   vl := n
                   agnosticTail := true })
        else
          let indexed := mop % 2 = 1
          let first := mop = 0 && rvRs2 w = 0x10 && !store
          let eew := if indexed then k.sew else width
          let emul : Int := if indexed then k.lmul else k.lmul + (Nat.log2 width : Nat) - (Nat.log2 k.sew : Nat)
          let g : VGroup := ⟨vd, emul, eew⟩
          let ig : VGroup := ⟨rvRs2 w, k.lmul + (Nat.log2 width : Nat) - (Nat.log2 k.sew : Nat), width⟩
          let gs := (List.range nf).map (fun f => ({ g with reg := vd + f * g.count } : VGroup))
          let stride : Int := (c.xr (rvRs2 w)).toInt
          let addr : Nat → Int := fun i =>
            if indexed then base + (c.velem width (rvRs2 w) i : Nat)
            else if mop = 2 then base + i * stride
            else base + i * (nf * (eew / 8) : Nat)
          let overlaps := if store then !(g.ok && ig.ok)
            else if nf = 1 then !operandsOk g [ig] vm
            else !(g.ok && ig.ok) || gs.any (fun x => x.meets ig) || (!vm && gs.any (fun x => x.meets (maskGroup 0)))
          let bad := if indexed then overlaps
            else !g.ok || (!store && !vm && gs.any (fun x => x.meets (maskGroup 0)))
          if (mop = 0 && rvRs2 w ≠ 0 && !first) || bad || nf * g.count > 8 || vd + nf * g.count > 32 then none
          else some { eew := eew
                      accesses := c.vAccesses vm k.vstart k.vl nf g.count vd eew addr
                      groups := gs
                      firstOnly := first
                      vl := k.vl
                      agnosticTail := k.vta }

/-- The tail and the masked-off elements of a load, as the policies leave them. -/
def SpurSt.vLoadRest (c old : SpurSt) (p : VPlan) (vm : Bool) (fr : Nat) : SpurSt :=
  let vstart := old.csr Csr.VSTART
  let vma := bit (old.csr Csr.VTYPE) 7
  if vstart ≥ p.vl then c
  else p.groups.foldl (fun (c : SpurSt) g =>
    (List.range (g.count * vlenBits / g.eew)).foldl (fun (c : SpurSt) i =>
      let open_ := if i < vstart then false else if i < p.vl then vma && !old.active vm i else p.agnosticTail
      if open_ then c.setElem g.eew g.reg i (agnostic fr i g.eew (old.velem g.eew g.reg i)) else c) c) c

/-- The loads of a plan, in order, from `c` as the registers stand: the state, and the trap of the first that faults. -/
def Mach.vLoads (n t : Nat) (eew : Nat) (first : Bool) : List VAccess → Mach → SpurSt → Mach × RvOut
  | [], m, c => (m, rvOk c)
  | a :: as, m, c =>
    match m.rvLoad n t c.region a.addr (eew / 8) with
    | (m, some bs) => Mach.vLoads n t eew first as m (c.setElem eew a.reg a.elem (leNat bs))
    | (m, none) =>
      if first && a.index > 0 then (m, rvOk (c.setCsr Csr.VL a.index))
      else (m, rvTrap (c.setCsr Csr.VSTART a.index) 5)

def Mach.vStores (n t : Nat) (eew : Nat) : List VAccess → Mach → SpurSt → Mach × RvOut
  | [], m, c => (m, rvOk c)
  | a :: as, m, c =>
    match m.rvStore n t c.region a.addr (leBytes (eew / 8) (c.velem eew a.reg a.elem)) with
    | (m, true) => Mach.vStores n t eew as m c
    | (m, false) => (m, rvTrap (c.setCsr Csr.VSTART a.index) 7)

/-- A vector load or store. -/
def Mach.rvVecMem (m : Mach) (n t : Nat) (c next : SpurSt) (w fr : Nat) : Mach × RvOut :=
  let store := bits w 6 0 == 0x27
  match c.vPlan w store with
  | none => (m, rvIllegal c)
  | some p =>
    let r := if store then Mach.vStores n t p.eew p.accesses m next
      else Mach.vLoads n t p.eew p.firstOnly p.accesses m next
    (r.1, match r.2.trap with
      | some _ => { r.2 with c := { r.2.c with pc := c.pc } }
      | none => rvOk ((if store then r.2.c else r.2.c.vLoadRest c p (bit w 25) fr).setCsr Csr.VSTART 0))

end Sys2Proof.Machine
end

