-- ==== Sys2Proof/Machine/RvRun.lean ====
section
/-!
DEFINITION. One instruction of a spur core, and a run of several (R145, R152).
-/
namespace Sys2Proof.Machine

/-- What a fetch brings: an instruction word, a compressed one expanded, and its length in bytes; or the trap that it raises
(1 an access fault, 2 an encoding that the profile does not have). -/
inductive RvFetched where
  | word (w len : Nat)
  | trap (cause : Nat)
deriving DecidableEq, Repr

/-- The instruction at the pc of core `c`. -/
def Mach.rvFetch (m : Mach) (n t : Nat) (c : SpurSt) : Mach × RvFetched :=
  match m.rvLoad n t c.region c.pc 2 with
  | (m, none) => (m, .trap 1)
  | (m, some lo) =>
    let h := leNat lo
    if h % 4 ≠ 3 then
      (m, match rvcExpand h with
        | some w => .word w 2
        | none => .trap 2)
    else if bits h 4 2 = 7 then (m, .trap 2)
    else match m.rvLoad n t c.region (c.pc + 2) 2 with
      | (m, none) => (m, .trap 1)
      | (m, some hi) => (m, .word (h + leNat hi * 2 ^ 16) 4)

/-- An instruction word carried out on the core `c` of tile `t`. -/
def Mach.rvExec (m : Mach) (n t : Nat) (c : SpurSt) (w len : Nat) : Mach × RvOut :=
  let next : SpurSt := { c with pc := (c.pc + len) % 2 ^ 64 }
  let f3 := rvF3 w
  let op := bits w 6 0
  let i := m.dev.free
  let vec := m.mod (fun d => { d with free := d.free + 1 })
  if op = 0x57 then (vec, rvOpt c (next.rvVector i w))
  else if op = 0x07 || op = 0x27 then
    (if f3 = 2 || f3 = 3 then m.rvScalarMem n t c next w
     else if (vmemWidth f3).isSome then vec.rvVecMem n t c next w i
     else (m, rvIllegal c))
  else if op = 0x03 || op = 0x23 || op = 0x2F then m.rvScalarMem n t c next w
  else if op = 0x53 then (m, rvOpt c (next.rvFp w))
  else if op = 0x43 || op = 0x47 || op = 0x4B || op = 0x4F then (m, rvOpt c (next.rvFma w))
  else (m, c.rvPlain w len)

/-- The core of tile `t` carries out one instruction: the trap that it takes, if any.  An instruction that traps does not
retire, and the pc stays at it. -/
def Mach.rvStep (m : Mach) (n t : Nat) : Mach × Option Nat :=
  let c := (m.dev.tile t).spur
  match m.rvFetch n t c with
  | (m, .trap cause) => (m, some cause)
  | (m, .word w len) =>
    let (m, o) := m.rvExec n t c w len
    let c' := match o.trap with
      | some _ => o.c
      | none => { o.c with instret := o.c.instret + 1 }
    (m.mod (fun d => d.modTile t (fun x => { x with spur := c' })), o.trap)

/-- Up to `k` instructions, ended early by the first trap. -/
def Mach.rvRun (n t : Nat) : Nat → Mach → Mach × Option Nat
  | 0, m => (m, none)
  | k + 1, m =>
    match m.rvStep n t with
    | (m, some cause) => (m, some cause)
    | (m, none) => Mach.rvRun n t k m

/-! ### The end of a call (R150) -/

/-- The registers of a call that has ended: `result` is recorded after an ecall, `cause` and `epc` after every trap. -/
def Dev.spurEnd (d : Dev) (t : Nat) (trap : Bool) (result cause epc : Nat) : Dev :=
  let d := d.modTile t (fun x => { x with spur := { x.spur with call := none } })
  let keep := bits (d.reg (Reg.TILE_SPUR_STAT t)) 15 0
  let d := d.setReg (Reg.TILE_SPUR_STAT t) (b2n trap * 2 ^ 30 + (if trap then keep else result % 2 ^ 16))
  let d := d.setReg (Reg.TILE_SPUR_CAUSE t) cause
  let d := d.setReg64 (Reg.TILE_SPUR_EPC_LO t) epc
  d.cnt (Reg.TILE_SPUR_CALLS t) 1

/-- A trap ends the call of entry `i`: an ecall with a0 zero completes it; an ecall with another a0 and every other trap are
faults. -/
def Mach.spurTrapped (m : Mach) (n t i cause : Nat) : Mach :=
  let c := (m.dev.tile t).spur
  let a0 := (c.xr 10).toNat
  if cause = 8 then
    let m := m.mod (fun d => d.spurEnd t false a0 8 c.pc)
    if a0 = 0 then m.complete t i else m.tileFault n t 0x000B (i + a0 % 2 ^ 16 * 2 ^ 32)
  else (m.mod (fun d => d.spurEnd t true 0 cause c.pc)).tileFault n t 0x000C (i + cause * 2 ^ 32)

/-- The call in flight on a tile whose step runs: its loop and entry. -/
def Dev.spurInFlight (d : Dev) (t : Nat) : Option (Nat × Nat) :=
  match d.stepOn t, (d.tile t).spur.call with
  | some (n, _), some i => some (n, i)
  | _, _ => none

/-- The same while debug does not halt the hart. -/
def Dev.spurCallOn (d : Dev) (t : Nat) : Option (Nat × Nat) :=
  if d.harts.contains (4 + t) then none else d.spurInFlight t

end Sys2Proof.Machine
end

