-- ==== Sys2Proof/Machine/Pace.lean ====
section
/-!
DEFINITION. The pace monitors, the conversion of beats to time (R30 to R33, R584), the supervisors' budgets at each
sampling (R496 to R498), the counters of ND_EVENTS (R82), and the settling of the fabric rail (R33, R585, R586).
-/
namespace Sys2Proof.Machine

/-! ### Power caps (R582, R584) -/

/-- The setpoint of VDD_FAB in mV, the least stretch and HBM_LIM of a cap. -/
def capRow (cap : Nat) (boost : Bool) : Nat × Nat × Nat :=
  match cap with
  | 3 => (if boost then 850 else 750, 8, 0)
  | 2 => (650, 8, 0)
  | 1 => (650, 12, 1)
  | _ => (650, 32, 2)

def Dev.stretch (d : Dev) : Nat := d.rf Reg.PWR_STAT Fld.PWR_STAT.STRETCH
def Dev.vfab (d : Dev) : Nat := d.rf Reg.PWR_STAT Fld.PWR_STAT.VFAB

/-- The guaranteed beat time in ps at 105 °C (R27, R28). -/
def guaranteed (mv : Nat) : Nat := if mv ≥ 850 then 650 else if mv ≥ 750 then 782 else 1127

/-- The listed voltage whose guaranteed entry applies: the setting, or, while the rail moves between two listed voltages,
the lower of them (R28, R33). -/
def Dev.boundMv (d : Dev) : Nat := match d.pwr.moving with
  | some o => min o d.vfab
  | none => d.vfab

/-- A fallback of R32 or R33 in units of 1/8 ps: the guaranteed time stretched by s/8 (R584). -/
def Dev.fallback (d : Dev) : Nat := guaranteed d.boundMv * d.stretch

/-- The stretch set by a cap, the governor, a throttle or boot-only mode; it counts as changing from here (R32; log 58). -/
def Dev.setStretch (d : Dev) (s : Nat) : Dev :=
  let old := d.stretch
  let (lo, hi) := d.pwr.stretching.getD (old, old)
  let d := if s = old then d else { d with pwr := { d.pwr with stretching := some (min lo s, max hi s) } }
  d.wf Reg.PWR_STAT Fld.PWR_STAT.STRETCH s

/-- The per-beat figure of the conversion, in ns (R31 to R33, R496). -/
def Dev.qNs (d : Dev) : Rat :=
  let v : Rat := (d.rf Reg.GEN_PACE_SLOW Fld.GEN_PACE_SLOW.VALUE : Rat) / 8000
  if d.rfB Reg.GEN_PACE_SLOW Fld.GEN_PACE_SLOW.ALL_INVALID || d.rfB Reg.GEN_PACE_SLOW Fld.GEN_PACE_SLOW.FALLING then v
  else v * 17 / 16

/-! ### Monitors (R30, R32) -/

def Dev.pace (d : Dev) (m : Nat) : PaceSt := AMap.getD d.paces m {}
def Dev.paceInvalid (d : Dev) (m : Nat) : Bool := bit (d.reg Reg.GEN_PACE_CTRL) m
def Dev.paceCur (d : Dev) (m : Nat) : Nat := d.rf (Reg.GEN_PACE_n m) Fld.GEN_PACE_n.CUR

/-- A reading in units of 1/8 ps lies inside the limits of R32.  DESIGN CHOICE (log 58): the stretch counts as changing
from the write of STRETCH up to the next sampling, and, while a change of cap is in progress, up to the first sampling after
its rail has settled; R32 gives no duration. -/
def Dev.paceInside (d : Dev) (r : Nat) : Bool :=
  let (lo, hi) := d.pwr.stretching.getD (d.stretch, d.stretch)
  decide (400 * lo ≤ r) && decide (r ≤ 2000 * hi)

/-- The end of a sampling: the stretch has changed, unless a change of cap is still in progress (log 58). -/
def Dev.stretchSampled (d : Dev) : Dev :=
  if d.pwr.change.isSome then d else { d with pwr := { d.pwr with stretching := none } }

/-- A monitor is excluded. -/
def Dev.paceExclude (d : Dev) (m : Nat) : Dev :=
  (d.setReg Reg.GEN_PACE_CTRL (setBits (d.reg Reg.GEN_PACE_CTRL) m m 1)).raise 1 Src.PACE 0x0001 m (d.paceCur m)

/-- The slowest valid reading and the fallbacks, as GEN_PACE_SLOW reports them. -/
def Dev.paceSlow (d : Dev) : Dev :=
  let falling := d.rfB Reg.GEN_PACE_SLOW Fld.GEN_PACE_SLOW.FALLING
  let best := (List.range 28).foldl (fun (b : Option (Nat × Nat)) m =>
    if d.paceInvalid m then b
    else match b with
      | none => some (m, d.paceCur m)
      | some x => if d.paceCur m > x.2 then some (m, d.paceCur m) else b) none
  match best with
  | none => d.setReg Reg.GEN_PACE_SLOW (2 ^ 31 + b2n falling * 2 ^ 30 + d.fallback % 2 ^ 16)
  | some (m, r) => d.setReg Reg.GEN_PACE_SLOW (b2n falling * 2 ^ 30 + m * 2 ^ 16 + (if falling then d.fallback else r) % 2 ^ 16)

/-- One monitor's reading taken. -/
def Dev.paceRead (d : Dev) (m r : Nat) : Dev :=
  let p := d.pace m
  let same := if r = d.paceCur m then p.same + 1 else 0
  let inside := d.paceInside r
  let good := if inside && decide (same < 10) then p.good + 1 else 0
  let old := d.reg (Reg.GEN_PACE_n m)
  let d := d.setReg (Reg.GEN_PACE_n m) (max (bits old 31 16) r * 2 ^ 16 + r)
  let d := { d with paces := AMap.set d.paces m ⟨good, same⟩ }
  if !inside && !d.paceInvalid m then d.paceExclude m else d

/-! ### Supervisors at a sampling (R496 to R498) -/

/-- The step supervisor of a loop and the segment supervisors of its lists, unless they pause (R497, R543); a budget
loaded in the sampling's own Summit cycle is not decreased (R496, R498): a step that began with it, or a MARK that reached
its supervisor in it. -/
def Dev.superviseLoop (d : Dev) (dec : Rat) (started : List Nat) (marked : List Nat) (n : Nat) : Dev :=
  match (d.loop n).step with
  | none => d
  | some st =>
    if st.phase != .running || d.dbgHalted n then d
    else
      let d := d.modStep n (fun s => { s with
        budget := if s.fresh && started.contains n then s.budget else s.budget - dec, fresh := false })
      (d.stepLists n).foldl (fun (d : Dev) k => d.modList k (fun l =>
        { l with segment := l.segment.map (fun b => if l.fresh && marked.contains k then b else b - dec), fresh := false })) d

/-- PACE_SAMPLE (R30, R32, R33, R496). -/
def execPaceSample (readings : List (BitVec 16)) (started : List (Fin 16)) (marked : List ListId) (s : State) : Host.Outcome State Fault Refusal :=
  runDev (fun _ d =>
    if !d.pwr.fabOn then d
    else
      let d := ((List.range 28).zip readings).foldl (fun d p => d.paceRead p.1 p.2.toNat) d
      -- the first sampling after the rail has settled ends the fallback of R33
      let d := if d.pwr.settled then
          { (d.wf Reg.GEN_PACE_SLOW Fld.GEN_PACE_SLOW.FALLING 0) with pwr := { d.pwr with settled := false } } else d
      let d := d.stretchSampled.paceSlow
      let dec : Rat := if d.qNs = 0 then 0 else 1000 / d.qNs
      (List.range 16).foldl (fun d n => d.superviseLoop dec (started.map Fin.val) (marked.map listKey) n) d) s

/-- PACE_FROZEN (R32): a monitor that has not changed for 10 µs while the fabric is powered. -/
def execPaceFrozen (m : Fin 28) (s : State) : Host.Outcome State Fault Refusal :=
  runDev (fun _ d =>
    if d.pwr.fabOn && decide ((d.pace m.val).same ≥ 10) && !d.paceInvalid m.val then (d.paceExclude m.val).paceSlow
    else d) s

/-- PACE_RECOVERED (R32): 100 good samplings in a row. -/
def execPaceRecovered (m : Fin 28) (s : State) : Host.Outcome State Fault Refusal :=
  runDev (fun _ d =>
    if d.paceInvalid m.val && decide ((d.pace m.val).good ≥ 100) then
      ((d.setReg Reg.GEN_PACE_CTRL (setBits (d.reg Reg.GEN_PACE_CTRL) m.val m.val 0)).raise 0 Src.PACE 0x0002 m.val
        (d.paceCur m.val)).paceSlow
    else d) s

/-- CLR_PEAK (R30): PEAK of every monitor takes its CUR value. -/
def Dev.clrPeak (d : Dev) : Dev :=
  (List.range 28).foldl (fun d m => d.setReg (Reg.GEN_PACE_n m) (d.paceCur m * 2 ^ 16 + d.paceCur m)) d

/-- CLR_PEAK. -/
def execClrPeak (s : State) : Host.Outcome State Fault Refusal := runDev (fun _ d => d.clrPeak) s

/-! ### ND_EVENTS (R82) -/

def ndCounters : List Nat :=
  [Reg.GEN_ND_TOTAL_LO, Reg.GEN_ND_TOTAL_HI, Reg.GEN_ND_INGEST, Reg.GEN_ND_COLLIDE, Reg.GEN_ND_SEMA, Reg.GEN_ND_LAST]
    ++ (List.range 16).map Reg.GEN_ND_LOOP_n

/-- ND_CLR (R82). -/
def execNdClr (s : State) : Host.Outcome State Fault Refusal := runDev (fun _ d => d.clearRegs ndCounters) s

/-! ### A change of cap (R585, R586) -/

/-- The fabric voltage is commanded: the rail moves until it reports that it has settled (R28).  A fall begins the fallback
of R33, and a rise ends it. -/
def Dev.commandFab (d : Dev) (mv : Nat) : Dev :=
  let old := d.vfab
  if mv = old then d
  else
    let d := { d with pwr := { d.pwr with moving := some (min d.boundMv old), settled := false } }
    let d := d.wf Reg.PWR_STAT Fld.PWR_STAT.VFAB mv
    (d.wf Reg.GEN_PACE_SLOW Fld.GEN_PACE_SLOW.FALLING (b2n (decide (mv < old)))).paceSlow

/-- The fabric loses its supply: no rail of it moves between listed voltages, and its monitors read nothing until the first
sampling after it powers up again (GEN_PACE_n.CUR). -/
def Dev.fabDown (d : Dev) : Dev :=
  let d := { d with
    paces := []
    pwr := { d.pwr with fabOn := false, change := none, moving := none, settled := false, stretching := none } }
  let d := (List.range 28).foldl (fun (d : Dev) m => d.wf (Reg.GEN_PACE_n m) Fld.GEN_PACE_n.CUR 0) d
  (d.wf Reg.GEN_PACE_SLOW Fld.GEN_PACE_SLOW.FALLING 0).paceSlow

/-- A change of cap starts: a fall applies the HBM limit, then the stretch, then the voltage; a rise the voltage first
and the rest when the rail has settled. -/
def Dev.startCap (d : Dev) (cap : Nat) (boost : Bool) : Dev :=
  let now := d.rf Reg.PWR_STAT Fld.PWR_STAT.CAP_EFF
  let (mv, least, lim) := capRow cap boost
  let old := d.stretch
  let d := { d with pwr := { d.pwr with change := some (cap, boost) } }
  let d := d.wf Reg.PWR_STAT Fld.PWR_STAT.TRANS 1
  let d := if cap < now then
      (d.wf Reg.PWR_STAT Fld.PWR_STAT.HBM_LIM (if d.pwr.hbmHot.isEmpty then lim else max 2 lim)).setStretch (max least old)
    else d
  d.commandFab (if d.pwr.fabThrottle then 650 else mv)

/-- A change of cap ends: after a rise the stretch and then the HBM limit follow the voltage; a change of BOOST alone
is no change of cap and is not counted. -/
def Dev.endCap (d : Dev) (cap : Nat) (boost : Bool) : Dev :=
  let now := d.rf Reg.PWR_STAT Fld.PWR_STAT.CAP_EFF
  let (_, least, lim) := capRow cap boost
  let d := { d with pwr := { d.pwr with change := none } }
  let d := (d.setStretch (if d.pwr.fabThrottle then 32 else if cap > now then least else max least d.stretch)).wf
    Reg.PWR_STAT Fld.PWR_STAT.HBM_LIM (if d.pwr.hbmHot.isEmpty then lim else max 2 lim)
  ((d.wf Reg.PWR_STAT Fld.PWR_STAT.TRANS 0).wf Reg.PWR_STAT Fld.PWR_STAT.CAP_EFF cap).cnt (Reg.PWR_CNT_k 0)
    (b2n (cap != now))

/-- RAIL_SETTLED (R33, R585, R586): a change in progress completes, and one toward the latest value written starts. -/
def execRailSettled (s : State) : Host.Outcome State Fault Refusal :=
  runDev (fun _ d =>
    let d := { d with pwr := { d.pwr with
      moving := none
      settled := d.pwr.settled || d.rfB Reg.GEN_PACE_SLOW Fld.GEN_PACE_SLOW.FALLING } }
    match d.pwr.change with
    | none => d
    | some (cap, boost) =>
      let d := d.endCap cap boost
      let want := d.rf Reg.PWR_CTRL Fld.PWR_CTRL.CAP
      let wboost := d.rfB Reg.PWR_CTRL Fld.PWR_CTRL.BOOST
      if want ≠ cap || (cap = 3 && wboost != boost) then d.startCap want wboost else d) s

end Sys2Proof.Machine
end

