-- ==== Sys2Proof/Machine/TarnCalls.lean ====
section
/-!
DEFINITION. The calls of the Tarn list and the supply of its inboxes (R261 to R270): SUPPLY, APPEND, TOKENS, DECODE, WALK
and FEED, with the recurrence of R269 and texp of R270 bit for bit.
-/
namespace Sys2Proof.Machine

/-! ### Records of a TARN_PARAM table (R265) -/

/-- A TARN_PARAM record. -/
structure TParam where
  nsid : Nat
  layer : Nat
  bfirst : Nat
  bcount : Nat
  npos : Nat
  g : Nat
  walkv : Bool
  toBf16 : Bool
  recomp : Bool
  swin : Int
  ofmt : Nat
  scale : Nat
  kvclass : Nat
  wstart : Int
deriving DecidableEq, Repr

def parseTParam (r : List Byte) : TParam where
  nsid := field r 0 1
  layer := field r 1 1
  bfirst := field r 2 1
  bcount := field r 3 1 + 1
  npos := field r 4 2
  g := field r 6 1
  walkv := bit (field r 7 1) 0
  toBf16 := bit (field r 7 1) 1
  recomp := bit (field r 7 1) 2
  swin := sext 16 (field r 8 2)
  ofmt := field r 0xA 1
  scale := field r 0xC 4
  kvclass := field r 0x10 2
  wstart := sext 32 (field r 0x12 4)

/-- The place of the record that an entry names. -/
def Route.tparamAt (r : Route) (e : Nat) : Nat × Nat :=
  match r.tabs.find? (fun t => t.kind == 6) with
  | some t => (t.addr + 32 * Tarn.param e, 32)
  | none => (0, 0)
/-- The record that an entry names. -/
def Mach.tparam (m : Mach) (r : Route) (e : Nat) : TParam := parseTParam (m.rdBytes (r.tparamAt e).1 (r.tparamAt e).2)

/-- The batch positions of a call: the sequence slot of each, or none for an empty one. -/
def batchOf (st : StepSt) (p : TParam) : List (Option Nat) :=
  (List.range p.bcount).map (fun i => st.batch.getD (p.bfirst + i) none)

/-- Rows of 64 bytes that a record of `n` bytes takes (R266). -/
def rowsOf (n : Nat) : Nat := ceilDiv n 64

/-! ### The calls' faults (R267, R254) -/

def Mach.callFault (m : Mach) (i : Iss) : Mach :=
  (m.mod (fun d => d.raiseFor i.loop 1 Src.TARN 0x0005 (i.st.ctx.getD 0) i.idx)).abortStep i.loop

/-- An allocation that reclaim could not serve. -/
def Mach.poolShort (m : Mach) (i : Iss) (nsid : Nat) : Mach :=
  (m.mod (fun d => (d.wf Reg.TRN_STAT Fld.TRN_STAT.POOL_SHORT 1).raiseFor i.loop 1 Src.TARN 0x0002 (i.st.ctx.getD 0)
    (i.idx + nsid * 2 ^ 32))).abortStep i.loop

/-- The namespace of a call, when every batch sequence lies in it. -/
def Mach.callNs (m : Mach) (p : TParam) (b : List (Option Nat)) : Option NsRec :=
  if b.all (fun o => match o with
    | some s => m.sq s Sq.NSID 1 == p.nsid
    | none => true) then m.dev.nsRec p.nsid else none

/-- A new descriptor is touched: whether it misses the descriptor cache is not stated, so the count is open (log 44). -/
def Dev.descTouched (d : Dev) : Dev :=
  let (i, d) := d.fresh
  d.cnt (Reg.TRN_CNT_k 8) (Config.freeNat i)

/-! ### Inboxes (R261, R263, R264) -/

def CtxSt.inbox (c : CtxSt) (ch : Nat) : List (List Byte) := AMap.getD c.inboxes ch []

def Dev.setCtx (d : Dev) (c : Nat) (f : CtxSt → CtxSt) : Dev :=
  match AMap.find d.tarn.ctxs c with
  | none => d
  | some x => d.modTarn (fun t => { t with ctxs := AMap.set t.ctxs c (f x) })

/-- The first `k` rows of an inbox have been taken. -/
def Dev.takeInbox (d : Dev) (c ch k : Nat) : Dev :=
  d.setCtx c (fun x => if k = 0 then x else { x with inboxes := AMap.set x.inboxes ch ((x.inbox ch).drop k) })

/-- Rows that an inbox may hold now: 512, and those that the entry at the front of the Tarn list is taking (log 46). -/
def Dev.inboxRoom (d : Dev) (n ch : Nat) : Nat :=
  match (d.list (96 + n)).bind ListSt.front with
  | some (_, e) => if Ent.kind e == K.TARN && decide (Tarn.op e ≤ 3) && Tarn.chan e == ch then 512 + Tarn.nrows e else 512
  | none => 512

/-- The rows of one SUPPLY that its inbox takes. -/
def Mach.supplyRows (m : Mach) (n t entry c : Nat) : Nat → Mach
  | 0 => m
  | fuel + 1 =>
    match (m.dev.list t).bind (fun l => l.flights.find? (fun f => f.entry == entry)),
        AMap.find m.dev.tarn.ctxs c with
    | some f, some x =>
      let ch := Tarn.chan f.word
      if f.sent ≥ Tarn.nrows f.word then m.complete t entry
      else if (x.inbox ch).length ≥ m.dev.inboxRoom n ch then m
      else
        match m.tileRead n t entry (amAddr t (Tarn.srow f.word + f.sent)) 64 with
        | (m, none) => m
        | (m, some bs) =>
          let m := m.mod (fun d => (d.setCtx c (fun y =>
            { y with inboxes := AMap.set y.inboxes ch (y.inbox ch ++ [bs]) })).meshRows (t / 4) tarnRidge 8 1)
          Mach.supplyRows (m.modFlight t entry (fun g => { g with sent := g.sent + 1 })) n t entry c fuel
    | _, _ => m

/-- The SUPPLYs of a tile that are in flight go on in order. -/
def Mach.supplyAll (m : Mach) (t : Nat) : Mach :=
  match m.dev.list t with
  | none => m
  | some l => match (m.dev.loop l.loop).step.bind (·.ctx) with
    | none => m
    | some c => (l.flights.filter (fun f => f.kind == K.TARN)).foldl (fun m f =>
        m.supplyRows l.loop t f.entry c 65540) m

/-- SUPPLY: the entry is issued, and supplies in flight hand over the rows that their inboxes take. -/
def execSupply (t : Fin 96) (upsets : List Upset) (s : State) : Host.Outcome State Fault Refusal :=
  run (fun m => ((m.tileUpsets t.val upsets).issue t.val (isKind K.TARN) Mach.fly).supplyAll t.val) s

/-! ### The engine's output (R140, R262) -/

/-- Rows that the engine has produced leave for their queue while it has credits. -/
def Mach.tarnSend (m : Mach) (n : Nat) (i : Nat) (x : Dest) : Nat → Mach
  | 0 => m
  | fuel + 1 =>
    match AMap.getD m.dev.outq x.key [] with
    | [] => { m with dev := { m.dev with outq := AMap.erase m.dev.outq x.key } }
    | r :: rest =>
      if x.pkg == m.dev.pkg && m.dev.fenced x.tile then m.fencedDest n (96 + n) i x.tile
      else if !m.dev.maySend n x (x.tile % 2) 0x100 tarnRidge then m
      else
        let m := m.mod (fun d => ({ d with outq := AMap.set d.outq x.key rest }).sendRow n x tarnRidge (x.tile % 2)
          ⟨none, 0, r, tarnRidge, 0x100, 0⟩)
        Mach.tarnSend m n i x fuel

/-- Every output of the step's Tarn list goes on, and a call whose rows have all left completes. -/
def Mach.tarnOut (m : Mach) (n : Nat) : Mach :=
  match m.dev.list (96 + n), (m.dev.loop n).step with
  | some l, some st =>
    if st.phase != .running then m
    else (l.flights.filter (fun f => f.kind == K.TARN)).foldl (fun m f =>
      let x := st.b.dest (Tarn.dpkg f.word) (Tarn.dtile f.word) (Tarn.dq f.word)
      let m := m.tarnSend n f.entry x 4194304
      if (AMap.getD m.dev.outq x.key []).isEmpty then m.complete (96 + n) f.entry else m) m
  | _, _ => m

/-- The output rows of a call join those of its queue. -/
def Mach.tarnPut (m : Mach) (i : Iss) (rows : List (List Byte)) : Mach :=
  let x := i.st.b.dest (Tarn.dpkg i.word) (Tarn.dtile i.word) (Tarn.dq i.word)
  let m := m.fly i
  m.mod (fun d => { d with outq := AMap.set d.outq x.key (AMap.getD d.outq x.key [] ++ rows) })

/-- Bytes cut into rows of 64, the last one filled with zeros. -/
def toRows (bs : List Byte) : List (List Byte) := (List.range (rowsOf bs.length)).map (fun i => slice bs (64 * i) 64)

/-- No frozen pseudo-channel holds the pages that a call would read or the pages it would write in place (R311). -/
def Mach.callOpen (m : Mach) (st : StepSt) (e : Nat) : Bool :=
  let p := m.tparam st.b.route e
  let open' := fun (r : NsRec) (req : Nat) (is : List Nat) => is.all (fun i =>
    m.dev.hbmOpen (m.page r i p.layer) r.pb req)
  match m.dev.nsRec p.nsid with
  | none => true
  | some r =>
    let seqs := (batchOf st p).filterMap id
    if Tarn.op e == 3 || Tarn.op e == 4 then seqs.all (fun q => open' r (if Tarn.op e == 3 then 122 else 120) (m.blks q))
    else if Tarn.op e == 1 then seqs.all (fun q => open' r 121 ((m.blks q).drop (m.sq q Sq.NBLK 4 - 1)))
    else true

/-- The next entry of a Tarn list when it has operation `op` and its rows have arrived; `f` gets the rows. -/
def Mach.tarnCall (m : Mach) (n op : Nat) (f : Mach → Iss → List (List Byte) → Mach) : Mach :=
  let key := 96 + n
  let ctx := (m.dev.loop n).step.bind (fun s => s.ctx)
  let inbox := fun ch => match ctx.bind (fun c => AMap.find m.dev.tarn.ctxs c) with
    | some c => c.inbox ch
    | none => []
  let want := fun e => Ent.kind e == K.TARN && Tarn.op e == op
    && (decide (op ≥ 4) || decide ((inbox (Tarn.chan e)).length ≥ Tarn.nrows e))
    && (m.dev.loop n).step.all (fun st => m.callOpen st e)
  (m.issue key want (fun m i =>
    let k := if op ≥ 4 then 0 else Tarn.nrows i.word
    let rows := (inbox (Tarn.chan i.word)).take k
    let m := match ctx with
      | some c => m.mod (fun d => d.takeInbox c (Tarn.chan i.word) k)
      | none => m
    let at' := i.st.b.route.tparamAt i.word
    match m.eccRead at'.1 at'.2 120 n with
    | (m, none) => f m i rows
    | (m, some _) => m.abortStep n)).tarnOut n

/-! ### Appends and tokens (R250, R266) -/

/-- The transaction of a call on a sequence, begun at its first write: the base position is LEN, or RCUR for a
recompute. -/
def Mach.tx (m : Mach) (c s : Nat) (recomp : Bool) : TxSeq :=
  match (AMap.find m.dev.tarn.ctxs c).bind (fun x => txFind x s recomp) with
  | some x => x
  | none => { slot := s, base := m.sq s (if recomp then Sq.RCUR else Sq.LEN) 4, recomp := recomp }

def Mach.setTx (m : Mach) (c : Nat) (x : TxSeq) : Mach := m.mod (fun d => d.setCtx c (fun y => txSet y x))

/-- `k` positions from `pos` written one by one: `put` stores position `i` of the call in the node, and says whether it
could. -/
def Mach.writePositions (m : Mach) (loop c : Nat) (x : TxSeq) (pos : Nat) (put : Mach → Nat → Nat → Mach × Bool)
    (done : Nat) : Nat → Mach × TxSeq × Option WriteStop
  | 0 => (m, x, none)
  | k + 1 =>
    match m.writeNode loop x (pos + done) with
    | (m, .inl w) => (m.setTx c x, x, some w)
    | (m, .inr (node, x)) =>
      match put (m.setTx c x) node done with
      | (m, false) => (m, x, some .lost)
      | (m, true) => Mach.writePositions m loop c x pos put (done + 1) k

/-- One position's record stored in its page (R234, R266); a write of part of an uncorrectable burst does not happen
(R351, R354). -/
def Mach.putRecord (m : Mach) (loop : Nat) (r : NsRec) (node layer j : Nat) (rec : List Byte) : Mach × Bool :=
  let es := r.hd * r.b
  let a := m.page r node layer
  let part := fun (y : Mach × Bool) (ad i : Nat) =>
    if !y.2 then y
    else match y.1.rmwCheck ad es 121 loop with
      | (m, none) => ((m.store ad (slice rec (i * es) es)).mod (fun d => d.dmaRows ad es 121 true), true)
      | (m, some _) => (m, false)
  (List.range r.nkv).foldl (fun y g =>
    part (part y (a + (32 * g + j) * es) g) (a + r.pb / 2 + (32 * g + j) * es) (r.nkv + g)) (m, true)

/-- How a call that wrote positions ends (R254, R267, R354). -/
def Mach.writesOver (m : Mach) (i : Iss) (nsid : Nat) : Option WriteStop → Mach
  | none => m
  | some .short => m.poolShort i nsid
  | some .outside => m.callFault i
  | some .lost => m.abortStep i.loop

/-- The records of an APPEND written position by position, batch position by batch position, until a write stops it. -/
def Mach.appendAll (m : Mach) (i : Iss) (p : TParam) (r : NsRec) (rows : List (List Byte)) : Mach × Option WriteStop :=
  let b := batchOf i.st p
  let rr := rowsOf (2 * r.nkv * r.hd * r.b)
  let c := i.st.ctx.getD 0
  ((List.range b.length).zip b).foldl (fun (a : Mach × Option WriteStop) e =>
    match e.2, a.2 with
    | some q, none =>
      let x := a.1.tx c q p.recomp
      let done := AMap.getD x.layers p.layer 0
      let put := fun (m : Mach) (node k : Nat) =>
        let first := (e.1 * p.npos + k) * rr
        (m.mod Dev.descTouched).putRecord i.loop r node p.layer ((x.base + done + k) % 32) ((rows.drop first).take rr).flatten
      let (m, x, w) := a.1.writePositions i.loop c x (x.base + done) put 0 p.npos
      (m.setTx c { x with layers := AMap.set x.layers p.layer (done + p.npos) }, w)
    | _, _ => a) (m, none)

/-- An APPEND would write a position at or past a sequence's MAXLEN (R267). -/
def Mach.appendPast (m : Mach) (i : Iss) (p : TParam) : Bool :=
  (batchOf i.st p).any (fun o => match o with
    | none => false
    | some q =>
      let x := m.tx (i.st.ctx.getD 0) q p.recomp
      !p.recomp && decide (x.base + AMap.getD x.layers p.layer 0 + p.npos > m.sq q Sq.MAXLEN 4))

/-- APPEND (R247 to R250, R266, R267): records of keys and values into pages. -/
def execAppend (loop : Fin 16) (s : State) : Host.Outcome State Fault Refusal :=
  run (fun m => m.tarnCall loop.val 1 (fun m i rows =>
    let p := m.tparam i.st.b.route i.word
    match m.callNs p (batchOf i.st p) with
    | none => m.callFault i
    | some r =>
      if Tarn.nrows i.word ≠ p.bcount * p.npos * rowsOf (2 * r.nkv * r.hd * r.b) || p.kvclass ≠ r.kvclass || p.layer ≥ r.nl
          || m.appendPast i p then m.callFault i
      else
        let res := m.appendAll i p r rows
        res.1.writesOver i p.nsid res.2)) s

/-- The identifiers of a TOKENS written position by position, batch position by batch position, until a write stops it. -/
def Mach.tokensAll (m : Mach) (i : Iss) (p : TParam) (rows : List (List Byte)) : Mach × Option WriteStop :=
  let b := batchOf i.st p
  let c := i.st.ctx.getD 0
  let bytes := rows.flatten
  ((List.range b.length).zip b).foldl (fun (a : Mach × Option WriteStop) e =>
    match e.2, a.2 with
    | some q, none =>
      let x := a.1.tx c q p.recomp
      let done := x.tokens
      -- identifiers of positions past MAXLEN have no place
      let k := min p.npos (a.1.sq q Sq.MAXLEN 4 - (x.base + done))
      let put := fun (m : Mach) (node j : Nat) =>
        (m.store (m.nodeAddr node + 4 * ((x.base + done + j) % 32)) (slice bytes (4 * (e.1 * p.npos + j)) 4), true)
      let (m, x, w) := a.1.writePositions i.loop c x (x.base + done) put 0 k
      (m.setTx c { x with tokens := done + p.npos }, w)
    | _, _ => a) (m, none)

/-- TOKENS (R266): token identifiers into nodes. -/
def execTokens (loop : Fin 16) (s : State) : Host.Outcome State Fault Refusal :=
  run (fun m => m.tarnCall loop.val 2 (fun m i rows =>
    let p := m.tparam i.st.b.route i.word
    match m.callNs p (batchOf i.st p) with
    | none => m.callFault i
    | some _ =>
      if Tarn.nrows i.word ≠ ceilDiv (p.bcount * p.npos) 16 then m.callFault i
      else
        let res := m.tokensAll i p rows
        res.1.writesOver i p.nsid res.2)) s

/-! ### Decode attention (R268 to R270) -/

/-- `n` square roots of a number, each rounded down. -/
def isqrtN : Nat → Nat → Nat
  | 0, v => v
  | n + 1, v => isqrtN n (isqrt v)

/-- T[j]: 2^(j/256) rounded to binary32, from the 256th root of an integer. -/
def texpTable (j : Nat) : Nat := 127 * 2 ^ 23 + ((isqrtN 8 (2 ^ (24 * 256 + j)) + 1) / 2 - 2 ^ 23)

/-- The decoded value of a binary32 code as an integer times a power of two; other values are zero. -/
def f32Dy (x : Nat) : Int × Int :=
  match FFmt.f32.decode x with
  | .fin n m e => (signed n m, e)
  | _ => (0, 0)

def dyVal (m : Int) (e : Int) : FVal := .fin (m < 0) m.natAbs e

/-- texp (R270).  f and r are exact; each fma and each round32 rounds once (log 48). -/
def texp (x : Nat) : Nat :=
  let F := FFmt.f32
  if F.isNan x then F.nanCode
  else if F.lt x 0xC2D00000 then 0
  else if F.lt 0x42B10000 x then F.infCode
  else
    let y := F.mul x 0x3FB8AA3B
    let (ym, ye) := f32Dy y
    let n := floorDy ym ye
    let (fm, fe) := dyAdd ym ye (-n) 0
    let j := (floorDy fm (fe + 8)).toNat
    let (rm, re) := dyAdd fm fe (-(j : Int)) (-8)
    let r := dyVal rm re
    let p := F.addV (mulV r (F.decode 0x3D635847)) (F.decode 0x3E75FDF0)
    let p := F.addV (mulV r (F.decode p)) (F.decode 0x3F317218)
    let p := F.addV (mulV r (F.decode p)) (F.decode 0x3F800000)
    let q := F.mul (texpTable j) p
    match F.decode q with
    | .fin s m e => F.round s m (e + n)
    | v => F.encode v

/-- The score of a query and a key (R269): the product sum as a tally, and whether it set LOSS. -/
def score (kvfmt : Nat) (swin : Int) (scale : Nat) (q k : List Nat) : Nat × Bool :=
  let y := (q.zip k).foldl (fun (y : Tally) p => y.add (mulV (FFmt.bf16.decode p.1) (opValue kvfmt p.2)) swin none) {}
  let t := if y.ovfAt then FFmt.f32.nanCode else (y.drain 0 swin).1
  (FFmt.f32.mul t scale, y.loss)

/-- The state of the recurrence of R269. -/
structure DecSt where
  m : Nat := 0xFF800000
  l : Nat := 0
  acc : List Nat
  losses : Nat := 0

/-- One visible position. -/
def DecSt.next (d : DecSt) (kvfmt : Nat) (swin : Int) (scale : Nat) (q k v : List Nat) : DecSt :=
  let F := FFmt.f32
  let (s, loss) := score kvfmt swin scale q k
  let mn := F.maxN d.m s
  let c := texp (F.sub d.m mn)
  let e := texp (F.sub s mn)
  { m := mn
    l := F.fma d.l c e
    acc := (d.acc.zip v).map (fun p => F.addV (mulV (F.decode e) (opValue kvfmt p.2)) (F.decode (F.mul p.1 c)))
    losses := d.losses + b2n loss }

/-- The outputs of one query head, from the keys and values of the positions it sees. -/
def decodeHead (kvfmt : Nat) (swin : Int) (scale ofmt hd : Nat) (q : List Nat) (kv : List (List Nat × List Nat)) :
    List Nat × Nat :=
  let d := kv.foldl (fun d p => d.next kvfmt swin scale q p.1 p.2) ({ acc := List.replicate hd 0 } : DecSt)
  let out := d.acc.map (fun a =>
    let o := FFmt.f32.div a d.l
    if ofmt = 1 then FFmt.f32.convert FFmt.bf16 o else o)
  (out, d.losses)

/-- Elements of `n` bytes each. -/
def elems (bs : List Byte) (n cnt : Nat) : List Nat := (List.range cnt).map (fun i => field bs (n * i) n)

/-- Positions of the layer that a call sees. -/
def Mach.visible (m : Mach) (c s layer : Nat) (recomp : Bool) : Nat :=
  let x := m.tx c s recomp
  x.base + AMap.getD x.layers layer 0

/-- The key and the value of head `g` at a position of a layer. -/
def Mach.kvAt (m : Mach) (r : NsRec) (s layer g pos : Nat) : List Nat × List Nat :=
  let es := r.hd * r.b
  let a := m.page r (m.blk s (pos / 32)) layer + (32 * g + pos % 32) * es
  (elems (m.rdBytes a es) r.b r.hd, elems (m.rdBytes (a + r.pb / 2) es) r.b r.hd)

/-- The pages that a call reads, checked: the address of an uncorrectable burst. -/
def Mach.readPages (m : Mach) (n req layer : Nat) (r : NsRec) (nodes : List Nat) : Mach × Bool :=
  nodes.foldl (fun (a : Mach × Bool) i =>
    if a.2 then a else (a.1.mod Dev.descTouched).pagesRead r i [layer] req n) (m, false)

/-- Page reads saved in a DECODE (R268): in each round, lanes that hold the same node at the same block index. -/
def savedReads (lanes : List (List Nat)) : Nat :=
  let depth := lanes.foldl (fun n l => max n l.length) 0
  (List.range depth).foldl (fun n i =>
    let here := lanes.filterMap (fun l => l[i]?)
    n + (here.length - (here.foldl (fun (u : List Nat) x => if u.contains x then u else x :: u) []).length)) 0

/-- Positions that a batch position of a call sees. -/
def Mach.sees (m : Mach) (i : Iss) (p : TParam) (o : Option Nat) : Nat :=
  match o with
  | none => 0
  | some q => m.visible (i.st.ctx.getD 0) q p.layer p.recomp

/-- The nodes that a batch position of a DECODE reads. -/
def Mach.decodeNodes (m : Mach) (i : Iss) (p : TParam) (o : Option Nat) : List Nat :=
  match o with
  | none => []
  | some q => (m.blks q).take (ceilDiv (m.sees i p o) 32)

/-- The page reads of a DECODE: round r covers positions 64r to 64r + 63 of the call. -/
def Mach.decodeReads (m : Mach) (i : Iss) (p : TParam) (r : NsRec) : Mach × Bool :=
  let nodes := (batchOf i.st p).map (m.decodeNodes i p)
  ((List.range nodes.length).zip nodes).foldl (fun (a : Mach × Bool) x =>
    if a.2 then a else a.1.readPages i.loop (122 + x.1 % 64) p.layer r x.2) (m, false)

/-- Page reads that a DECODE saves, over its rounds. -/
def Mach.decodeSaved (m : Mach) (i : Iss) (p : TParam) : Nat :=
  let nodes := (batchOf i.st p).map (m.decodeNodes i p)
  (List.range (ceilDiv nodes.length 64)).foldl (fun n k => n + savedReads ((nodes.drop (64 * k)).take 64)) 0

/-- Batch position `k` of a DECODE (R266, R269): its output bytes, the positions whose product sum lost bits, and the heads
that see no position. -/
def Mach.decodeLane (m : Mach) (i : Iss) (p : TParam) (r : NsRec) (rows : List (List Byte)) (k : Nat) (o : Option Nat) :
    List Byte × Nat × Nat :=
  let heads := r.nkv * p.g
  let rr := rowsOf (heads * r.hd * 2)
  let ob := if p.ofmt = 1 then 2 else 4
  let input := ((rows.drop (k * rr)).take rr).flatten
  match o with
  | none => (List.replicate (64 * rowsOf (heads * r.hd * ob)) (0 : Byte), 0, 0)
  | some q =>
    if m.sees i p o = 0 then (List.replicate (64 * rowsOf (heads * r.hd * ob)) (0 : Byte), 0, heads)
    else
      let hs : List (List Nat × Nat) := (List.range heads).map (fun h =>
        decodeHead r.kvfmt p.swin p.scale p.ofmt r.hd (elems (slice input (2 * h * r.hd) (2 * r.hd)) 2 r.hd)
          ((List.range (m.sees i p o)).map (m.kvAt r q p.layer (h / p.g))))
      let bytes := hs.flatMap (fun y => y.1.flatMap (leBytes ob))
      ((toRows bytes).flatten, hs.foldl (fun n y => n + y.2) 0, 0)

/-- Every batch position of a DECODE, in order. -/
def Mach.decodeAll (m : Mach) (i : Iss) (p : TParam) (r : NsRec) (rows : List (List Byte)) : List (List Byte × Nat × Nat) :=
  let b := batchOf i.st p
  ((List.range b.length).zip b).map (fun x => m.decodeLane i p r rows x.1 x.2)

/-- DECODE (R266 to R269). -/
def execDecode (loop : Fin 16) (s : State) : Host.Outcome State Fault Refusal :=
  run (fun m => m.tarnCall loop.val 3 (fun m i rows =>
    let p := m.tparam i.st.b.route i.word
    match m.callNs p (batchOf i.st p) with
    | none => m.callFault i
    | some r =>
      if Tarn.nrows i.word ≠ p.bcount * rowsOf (r.nkv * p.g * r.hd * 2) || p.layer ≥ r.nl then m.callFault i
      else
        let res := m.decodeAll i p r rows
        let saved := m.decodeSaved i p
        match m.decodeReads i p r with
        | (m, true) => m.abortStep i.loop
        | (m, false) =>
          (m.mod (fun d => ((d.cnt (Reg.TRN_CNT_k 9) saved).cnt (Reg.TRN_CNT_k 10)
            (res.foldl (fun n y => n + y.2.1) 0)).cnt (Reg.TRN_CNT_k 15) (res.foldl (fun n y => n + y.2.2) 0))).tarnPut i
            (toRows (res.flatMap (·.1))))) s

/-! ### WALK and FEED (R266) -/

/-- The bytes of an element in a WALK: as stored, or exactly as BF16. -/
def walkElem (kvfmt : Nat) (toBf16 : Bool) (x : Nat) : List Byte :=
  if kvfmt = 6 then leBytes 2 x
  else if toBf16 then leBytes 2 (FFmt.bf16.encode (opValue kvfmt x))
  else leBytes 1 x

/-- A group of up to 64 positions of one head as stationary blocks (R129) and its mask row: `els` holds the key or the
value of each position, none for a position that does not exist. -/
def walkGroup (kvfmt hd : Nat) (walkv toBf16 : Bool) (els : List (Option (List Nat))) : List (List Byte) :=
  let w := if kvfmt = 6 || toBf16 then 2 else 1
  let at' := fun (pos dim : Nat) => match els.getD pos none with
    | some v => walkElem kvfmt toBf16 (v.getD dim 0)
    | none => List.replicate w (0 : Byte)
  let lane := fun (bs : List Byte) => toRows bs
  let body := if walkv then
      -- column groups of 64 dimensions; within one, a lane row for each position (log 43)
      (List.range (ceilDiv hd 64)).flatMap (fun cg => (List.range 64).flatMap (fun pos =>
        lane ((List.range 64).flatMap (fun j => if 64 * cg + j < hd then at' pos (64 * cg + j)
          else List.replicate w (0 : Byte)))))
    else (List.range hd).flatMap (fun dim => lane ((List.range 64).flatMap (fun pos => at' pos dim)))
  body ++ [(List.range 64).map (fun pos => if (els.getD pos none).isSome then (1 : Byte) else 0)]

/-- Position `i` of a window, when it is one of the `len` positions that exist. -/
def winPos (base : Nat) (wstart : Int) (i len : Nat) : Option Nat :=
  let q : Int := base + wstart + i
  if 0 ≤ q && q < len then some q.toNat else none

/-- The positions of a sequence in the window of a WALK, none for one that does not exist. -/
def Mach.walkWindow (m : Mach) (i : Iss) (p : TParam) (q : Nat) : List (Option Nat) :=
  (List.range p.npos).map (fun k =>
    winPos (m.tx (i.st.ctx.getD 0) q p.recomp).base p.wstart k (m.visible (i.st.ctx.getD 0) q p.layer p.recomp))

/-- The nodes that a WALK reads, each once for a batch position. -/
def Mach.walkNodes (m : Mach) (i : Iss) (p : TParam) : List Nat :=
  (batchOf i.st p).flatMap (fun o => match o with
    | none => []
    | some q => ((m.walkWindow i p q).filterMap id).foldl (fun (l : List Nat) pos =>
        let x := m.blk q (pos / 32)
        if l.contains x then l else l ++ [x]) [])

/-- The rows of a WALK: for each batch position and head its groups of 64 positions. -/
def Mach.walkRows (m : Mach) (i : Iss) (p : TParam) (r : NsRec) : List (List Byte) :=
  (batchOf i.st p).flatMap (fun o => (List.range r.nkv).flatMap (fun g =>
    let els := match o with
      | none => List.replicate p.npos none
      | some q => (m.walkWindow i p q).map (fun (w : Option Nat) => w.map (fun pos =>
          let kv := m.kvAt r q p.layer g pos
          if p.walkv then kv.2 else kv.1))
    (List.range (ceilDiv p.npos 64)).flatMap (fun k =>
      walkGroup r.kvfmt r.hd p.walkv p.toBf16 ((els.drop (64 * k)).take 64))))

/-- WALK: pages of keys or values as stationary blocks. -/
def execWalk (loop : Fin 16) (s : State) : Host.Outcome State Fault Refusal :=
  run (fun m => m.tarnCall loop.val 4 (fun m i _ =>
    let p := m.tparam i.st.b.route i.word
    match m.callNs p (batchOf i.st p) with
    | none => m.callFault i
    | some r =>
      if p.layer ≥ r.nl then m.callFault i
      else
        let rows := m.walkRows i p r
        match m.readPages i.loop 120 p.layer r (m.walkNodes i p) with
        | (m, true) => m.abortStep i.loop
        | (m, false) => m.tarnPut i rows)) s

/-- The token identifiers of a FEED: for each batch position those of its window, 0xFFFFFFFF for a position that does not
exist. -/
def Mach.feedBytes (m : Mach) (i : Iss) (p : TParam) : List Byte :=
  (batchOf i.st p).flatMap (fun o => match o with
    | none => List.replicate (4 * p.npos) (0 : Byte)
    | some q =>
      let x := m.tx (i.st.ctx.getD 0) q p.recomp
      let len := if p.recomp then m.sq q Sq.LEN 4 else x.base + x.tokens
      (List.range p.npos).flatMap (fun k => match winPos x.base p.wstart k len with
        | none => leBytes 4 0xFFFFFFFF
        | some pos => m.rdBytes (m.nodeAddr (m.blk q (pos / 32)) + 4 * (pos % 32)) 4))

/-- FEED: the token identifiers of a window. -/
def execFeed (loop : Fin 16) (s : State) : Host.Outcome State Fault Refusal :=
  run (fun m => m.tarnCall loop.val 5 (fun m i _ =>
    let p := m.tparam i.st.b.route i.word
    match m.callNs p (batchOf i.st p) with
    | none => m.callFault i
    | some _ => m.tarnPut i (toRows (m.feedBytes i p)))) s

end Sys2Proof.Machine
end

