-- ==== Sys2Proof/Machine/Areas.lean ====
section
/-!
DEFINITION. The areas of HBM that some part of the device has in use (R135, R162, R166, R232, R233, R301, R366, R419,
R527), as lists of (first address, bytes): what commands that place an area are checked against.
-/
namespace Sys2Proof.Machine

abbrev Area := Nat × Nat

/-- Two areas have a byte in common. -/
def areaMeets (x y : Area) : Bool :=
  decide (0 < x.2) && decide (0 < y.2) && decide (x.1 < y.1 + y.2) && decide (y.1 < x.1 + x.2)
def anyArea (x : Area) (ys : List Area) : Bool := ys.any (areaMeets x)
/-- An area lies in HBM. -/
def inHbm (x : Area) : Bool := decide (x.1 + x.2 ≤ hbmSize)

/-- The region of R232, whether or not it is in use, and as it counts for checks. -/
def Dev.trnRegion (d : Dev) : Area := (d.trnBase, 0x20000000)
def Dev.trnOn (d : Dev) : Bool := d.rfB Reg.TRN_CTRL Fld.TRN_CTRL.EN
def Dev.trnAreas (d : Dev) : List Area := if d.trnOn then [d.trnRegion] else []

/-- The save area of a loop (R301). -/
def Dev.saveArea (d : Dev) (n : Nat) : Area := (d.saveBase n, d.saveSize n)
def Dev.saveAreas (d : Dev) : List Area := (List.range 16).map d.saveArea

/-- The buffers of a stream entry, and its tables (R417, R418, R426, R439). -/
def Mach.streamBufs (m : Mach) (e : List Byte) : Area := (Se.bufBase e, Se.nbuf e * Se.bufSize e (m.nplane e))
def Mach.streamTables (m : Mach) (e : List Byte) : List Area :=
  (if Se.fmt e = 6 then [] else [(Se.norm e, 16 + 16 * m.nplane e)])
    ++ (if Se.kind e = 2 then
      [(Se.aug e, 16 + 16 * Se.listLen e * Se.nauge e), (Se.list e, 8 * Se.listLen e), (Se.index e, 16 * Se.indexLen e)]
      else [])
def Mach.streamAreas (m : Mach) : List Area :=
  m.dev.streams.flatMap (fun (p : Nat × StreamSt) => m.streamBufs p.2.entry :: m.streamTables p.2.entry)

/-- Frame pools of the configured namespaces (R233). -/
def NsRec.pool (r : NsRec) : Area := (r.frameBase, r.nframes * r.frameSize)
def Dev.poolAreas (d : Dev) : List Area := d.tarn.ns.map (fun (p : Nat × NsRec) => p.2.pool)

/-- Loaded route images (R166). -/
def Dev.imageAreas (d : Dev) : List Area := d.routes.map (fun (p : Nat × Route) => (p.2.addr, p.2.len))

/-- The Tarinady region (R527). -/
def Dev.tarinadyAreas (d : Dev) : List Area :=
  match d.boot.tarinady with
  | some i => [(i.load, ceilDiv (i.stop - i.load) 0x200000 * 0x200000)]
  | none => []

/-- The flash map region and write buffer, while FL_CTRL.EN is 1 (R366). -/
def Dev.flashAreas (d : Dev) : List Area :=
  if d.flEnabled then [(d.mapBase, 0x80000000), (d.wbBase, 0x4000000)] else []

end Sys2Proof.Machine
end

