-- ==== Sys2Proof/Machine/TarnCmd.lean ====
section
/-!
DEFINITION. The commands of the Tarn block (R232, R233, R236 to R239, R246, R247, R251 to R254, R259, R271): namespaces,
sequences and their edits, batch tables, grace, the enable bit and the counters.
-/
namespace Sys2Proof.Machine

/-- The namespace record that an NS_CONFIG payload gives. -/
def nsOf (p : List Byte) : NsRec where
  nl := pay8 p 1
  nkv := pay8 p 2
  kvfmt := pay8 p 3
  hd := pay16 p 4
  share := bit (pay8 p 6) 0
  drop := bit (pay8 p 6) 1
  rloop := pay8 p 7
  rpos := pay16 p 8
  kvclass := pay16 p 10
  modelTag := pay32 p 12
  frameBase := pay64 p 16
  nframes := pay32 p 24
  descBase := pay32 p 28
  ndesc := pay32 p 32

/-- A field of a namespace record lies outside its range (R233, R234). -/
def NsRec.outOfRange (r : NsRec) (flags : Nat) : Bool :=
  let in' := fun lo hi n => decide (lo ≤ n) && decide (n ≤ hi)
  !in' 1 255 r.nl || !in' 1 64 r.nkv || !(in' 16 512 r.hd && r.hd % 16 == 0) || !in' 4 6 r.kvfmt
    || r.frameBase % 4096 != 0 || !in' 1 (2 ^ 25 - 1) r.nframes || r.ndesc % max 1 r.nl != 0
    || r.rloop > 15 || !in' 1 4096 r.rpos || flags > 3 || r.pb > 0x100000

/-- The ranges of a namespace record overlap another's, lie outside HBM or the descriptor table, or meet an area that
must stay clear (R233, R527). -/
def Dev.nsRangesBad (d : Dev) (n : Nat) (r : NsRec) : Bool :=
  let others := List.filter (fun (p : Nat × NsRec) => p.1 != n) d.tarn.ns
  !inHbm r.pool || r.descBase + r.ndesc > 4194304
    || others.any (fun (p : Nat × NsRec) => areaMeets r.pool p.2.pool
        || areaMeets (r.descBase, r.ndesc) (p.2.descBase, p.2.ndesc))
    || anyArea r.pool (d.trnAreas ++ d.tarinadyAreas)

/-- What a namespace still keeps from before it is configured again leaves the tree and enters GRACE; a block whose grace
is not over keeps its node until it is (R245, R246; log 47). -/
def Mach.clearNs (m : Mach) (n : Nat) : Mach :=
  match m.dev.nsRec n with
  | none => m
  | some r =>
    let mine := fun (m : Mach) => (List.range m.dev.tarn.nodeNext).filter (fun i => !m.dev.tarn.nodeFree.contains i
      && (AMap.find m.dev.tarn.orphans i).isNone && m.nd i Nd.NSID 1 == n)
    let m := (mine m).foldl (fun m i => if (AMap.find m.dev.tarn.grace i).isSome then m else m.toGrace i) m
    let m := m.sweepGrace
    (mine m).foldl (fun m i => m.mod (fun d => d.modTarn (fun t => { t with orphans := AMap.set t.orphans i r.nl }))) m

/-- NS_CONFIG (R233, R234). -/
def execNsConfig (tag : BitVec 16) (s : State) : Host.Outcome State Fault Refusal :=
  run (fun m => m.cmd 0x0407 tag.toNat (fun m p =>
    let n := pay8 p.payload 0
    let r := nsOf p.payload
    if n ≥ 16 || r.outOfRange (pay8 p.payload 6) || m.dev.nsRangesBad n r then m.fail p ST.BAD_PARAM
    else if m.openSeqs.any (fun q => m.sq q Sq.NSID 1 == n) then m.fail p ST.STATE
    else ((m.mod Dev.nextEpoch).clearNs n |>.mod (fun d => d.setNs n r)).ok p [])) s

/-- The walk of the tree at an open (R259): the nodes that match the prompt's full blocks, from the root. -/
def Mach.matchPrompt (m : Mach) (r : NsRec) (nsid : Nat) (toks : List Byte) : Nat → Nat → Nat → Mach × List Nat
  | 0, _, _ => (m, [])
  | k + 1, parent, ph =>
    let blk := toks.take 128
    let h := blockHash ph blk
    match m.lookup h nsid parent blk with
    | (m, none) => (m, [])
    | (m, some i) =>
      let (m, l) := Mach.matchPrompt m r nsid (toks.drop 128) k i h
      (m, i :: l)

/-- SEQ_OPEN (R237, R247, R257 to R259). -/
def execSeqOpen (tag : BitVec 16) (s : State) : Host.Outcome State Fault Refusal :=
  run (fun m => m.cmd 0x0408 tag.toNat (fun m p =>
    let n := pay8 p.payload 0
    let maxlen := pay32 p.payload 4
    let ntok := pay32 p.payload 12
    let addr := pay64 p.payload 16
    -- the engine's tables exist only while EN is 1 (R232; log 78)
    if !bit (m.dev.reg Reg.TRN_CTRL) 0 then m.fail p ST.STATE
    else match m.freeSlot, m.dev.nsRec n with
    | none, _ => m.fail p ST.TABLE_FULL
    | some _, none => m.fail p ST.BAD_PARAM
    | some q, some r =>
      if maxlen % 32 ≠ 0 || maxlen < 32 || maxlen > 262144 || ntok > maxlen || !inHbm (addr, 4 * ntok) then
        m.fail p ST.BAD_PARAM
      else
        match m.eccRead addr (4 * ntok) 120 0xFF with
        | (m, some _) => m.fail p ST.FAULT
        | (m, none) =>
          let m := m.mod Dev.nextEpoch
          let full := ntok / 32
          let toks := m.rdBytes addr (128 * full)
          let (m, hits) := m.matchPrompt r n toks full noNode (rootHash r n)
          let m := m.openSlot q n maxlen (pay32 p.payload 8)
          let m := ((List.range hits.length).zip hits).foldl (fun m h =>
            ((m.setBlk q h.1 h.2).ref h.2).setNd h.2 Nd.LASTUSE 4 m.dev.epoch) m
          let m := m.setSq q Sq.NBLK 4 hits.length
          let m := m.setSq q Sq.LEN 4 (32 * hits.length)
          let m := m.refreshSeq q
          let m := m.mod (fun d => (d.cnt (Reg.TRN_CNT_k 4) hits.length).cnt (Reg.TRN_CNT_k 5)
            (b2n (decide (hits.length < full))))
          m.ok p (leBytes 2 (seqIdOf m q) ++ [0, 0] ++ leBytes 4 (32 * hits.length)))) s

/-- An edit command (R251, R252): applied at once, or queued while a step holds its sequence. -/
def Mach.editCmd (m : Mach) (op tag : Nat) : Mach :=
  m.cmd op tag (fun m p =>
    match m.seqOfId (pay16 p.payload 0) with
    | none => m.fail p ST.NOT_FOUND
    | some q =>
      if m.inuse q then
        if m.dev.tarn.edits.length ≥ 4096 then m.fail p ST.BUSY
        else
          let m := (m.mod Dev.nextEpoch).setSeqFlag q 2 true
          (m.mod (fun d => d.modTarn (fun t => { t with edits := t.edits ++ [⟨p.tag, op, p.payload⟩] }))).answer p
            ST.DEFERRED []
      else
        let (m', st, out) := (m.mod Dev.nextEpoch).applyEdit op p.payload
        if st = ST.OK then m'.ok p out else m.fail p st)

/-- SEQ_CLOSE (R247, R251). -/
def execSeqClose (tag : BitVec 16) (s : State) : Host.Outcome State Fault Refusal :=
  run (fun m => m.editCmd 0x0409 tag.toNat) s

/-- SEQ_FORK (R247, R251). -/
def execSeqFork (tag : BitVec 16) (s : State) : Host.Outcome State Fault Refusal :=
  run (fun m => m.editCmd 0x040A tag.toNat) s

/-- SEQ_TRUNCATE (R251, R253). -/
def execSeqTruncate (tag : BitVec 16) (s : State) : Host.Outcome State Fault Refusal :=
  run (fun m => m.editCmd 0x040B tag.toNat) s

/-- SEQ_DROP (R251, R254). -/
def execSeqDrop (tag : BitVec 16) (s : State) : Host.Outcome State Fault Refusal :=
  run (fun m => m.editCmd 0x040C tag.toNat) s

/-- BATCH_SET (R239): the table takes effect at the loop's next step start; positions from COUNT up hold 0xFFFF. -/
def execBatchSet (tag : BitVec 16) (s : State) : Host.Outcome State Fault Refusal :=
  run (fun m => m.cmd 0x040D tag.toNat (fun m p =>
    let n := pay8 p.payload 0
    let cnt := pay16 p.payload 2
    if n > 15 || cnt > 256 then m.fail p ST.BAD_PARAM
    else
      let ids := (List.range cnt).map (fun i => pay16 p.payload (4 + 2 * i)) ++ List.replicate (256 - cnt) 0xFFFF
      ((m.mod Dev.nextEpoch).mod (fun d => d.modTarn (fun t => { t with batches := AMap.set t.batches n ids }))).ok p [])) s

/-- GRACE_FREE (R246): a block in GRACE becomes FREE when nothing that started before its EPOCH is in progress. -/
def execGraceFree (node : Fin 1048576) (s : State) : Host.Outcome State Fault Refusal :=
  run (fun m => match AMap.find m.dev.tarn.grace node.val with
    | none => m
    | some held => if m.graceOver node.val then m.freeBlock node.val held else m) s

/-- The engine's tables as it finds them when it is enabled: every node, run and frame free and every bucket empty (R232;
log 78). -/
def Dev.freshTables (d : Dev) : Dev :=
  d.modTarn (fun t =>
    { t with
      nodeNext := 0
      nodeFree := []
      grace := []
      orphans := []
      buckets := []
      ns := List.map (fun (x : Nat × NsRec) =>
        (x.1, { x.2 with frameNext := 0, frameFree := [], runNext := 0, runFree := [] })) t.ns })

/-- A write of TRN_CTRL.EN (R12, R232): locked while a sequence is open, and refused when the region would meet an area in
use. -/
def Mach.trnEnWrite (m : Mach) (en : Bool) : Mach :=
  let locked := !m.dev.tarn.openSlots.isEmpty
  let clash := en && anyArea m.dev.trnRegion (m.dev.saveAreas ++ m.streamAreas ++ m.dev.poolAreas ++ m.dev.imageAreas
    ++ m.dev.tarinadyAreas ++ m.dev.flashAreas)
  m.mod (fun d => if locked || clash then d.wf Reg.TRN_STAT Fld.TRN_STAT.CFG_LOCKED_WRITE 1
    else (if en && d.rf Reg.TRN_CTRL Fld.TRN_CTRL.EN = 0 then d.freshTables else d).wf Reg.TRN_CTRL Fld.TRN_CTRL.EN (b2n en))

/-- TRN_EN (R232). -/
def execTrnEn (en : Bool) (s : State) : Host.Outcome State Fault Refusal := run (fun m => m.trnEnWrite en) s

def trnCounters : List Nat := (List.range 16).map Reg.TRN_CNT_k

/-- TRN_CNT_CLR (R271). -/
def execTrnCntClr (s : State) : Host.Outcome State Fault Refusal := runDev (fun _ d => d.clearRegs trnCounters) s

end Sys2Proof.Machine
end

