-- ==== Sys2Proof/Machine/Sched.lean ====
section
/-!
DEFINITION. The scheduler (R275 to R287, R302, R303, R255, R256, R466, R508 to R510): releases, guards and windows, the
decision that starts and resumes steps, the posting of recomputes, the start of self-test chunks, and the end of a step.
-/
namespace Sys2Proof.Machine

/-! ### Releases, guards and windows (R275 to R277) -/

/-- A release of a paced loop, merged with one that is pending or with the step it would start (R275). -/
def Dev.release (d : Dev) (n : Nat) : Dev :=
  if d.loopClass n ≠ 1 || !d.loopEn n then d
  else if (d.loop n).release || (d.loop n).step.isSome then d.loopCnt n 2
  else d.modLoop n (fun l => { l with release := true })

/-- PACED_RELEASE: the timebase reaches the loop's next congruent instant. -/
def execPacedRelease (loop : Fin 16) (s : State) : Host.Outcome State Fault Refusal :=
  runDev (fun _ d =>
    let n := loop.val
    if d.loopClass n ≠ 1 || !d.loopEn n then d
    else
      let t := d.nextInstant n
      ((d.reachUs t).modLoop n (fun l => { l with mark := t })).release n) s

/-- The ridges of a loop's binding. -/
def Dev.bindRidges (d : Dev) (n : Nat) : List Nat :=
  match (d.loop n).binding with
  | some b => b.ridges
  | none => []

/-- The pre-emption of every step but a safety step that holds one of these ridges is called for (R276, R286). -/
def Dev.clearRidges (d : Dev) (rs : List Nat) (caller : Option Nat) : Dev :=
  (List.range 16).foldl (fun d n => match d.holding n with
    | some st => if d.loopClass n ≠ 2 && st.b.ridges.any rs.contains then d.callPreempt n caller else d
    | none => d) d

/-- GUARD_START (R276): GUARD µs before the window's next opening. -/
def execGuardStart (loop : Fin 16) (s : State) : Host.Outcome State Fault Refusal :=
  runDev (fun _ d =>
    let n := loop.val
    if d.loopClass n ≠ 2 || !d.loopEn n || (d.loop n).binding.isNone then d
    else if (d.loop n).guard then d
    else ((d.reachUs (d.nextInstant n - d.loopGuard n)).modLoop n (fun l => { l with guard := true })).clearRidges
      (d.bindRidges n) (some n)) s

/-- WINDOW_OPEN (R277, R503): the timebase reaches the opening, which counts for Cairn; a step that cannot start at it is
late. -/
def execWindowOpen (loop : Fin 16) (s : State) : Host.Outcome State Fault Refusal :=
  runDev (fun _ d =>
    let n := loop.val
    if d.loopClass n ≠ 2 || !d.loopEn n || (d.loop n).binding.isNone then d
    else
      let t := d.nextInstant n
      let d := d.reachUs t
      let l := d.loop n
      let blocked := l.step.isSome || !l.due.isEmpty || !(d.bindRidges n).all d.ridgeFree
      let counts := d.rfB Reg.SAF_CTRL Fld.SAF_CTRL.CAIRN_EN
      d.setLoop n { l with
        guard := false
        window := true
        openedUs := t
        mark := t
        due := l.due ++ [⟨t, blocked, if counts then some l.winCount else none⟩]
        winCount := if counts then l.winCount + 1 else l.winCount }) s

/-- WINDOW_CLOSE (R276): LEN µs after the opening.  A late step still starts as soon as its ridges are free (R277; log
55). -/
def execWindowClose (loop : Fin 16) (s : State) : Host.Outcome State Fault Refusal :=
  runDev (fun _ d =>
    let n := loop.val
    if !(d.loop n).window then d
    else (d.reachUs ((d.loop n).openedUs + d.loopLen n)).modLoop n (fun l =>
      { l with window := false, due := l.due.filter (·.late) })) s

/-- Ridges that a guard or a window keeps from the steps of other loops (R276, R277): until the step of the window has
ended, or the window closes. -/
def Dev.guarded (d : Dev) : List Nat :=
  (List.range 16).flatMap (fun n =>
    let l := d.loop n
    if d.loopClass n = 2 && (l.guard || (l.window && (!l.due.isEmpty || l.step.isSome))) then d.bindRidges n else [])

/-! ### CARRY regions (R303) -/

/-- Loops other than `n` whose CARRY regions stand on these ridges and are not in their save areas. -/
def Dev.carryHere (d : Dev) (n : Nat) (rs : List Nat) : List Nat :=
  (List.range 16).filter (fun k =>
    let l := d.loop k
    k != n && l.step.isNone && l.carrySaved.isNone && (match l.binding with
      | some b => (b.route.live.filter (fun v => v.kind == 3)).any (fun v => rs.contains (b.tile v.ltile / 4))
      | none => false))

/-! ### Starting and resuming (R285, R302) -/

/-- What became of a loop that the decision would start. -/
inductive Began where
  | started
  | waits
deriving DecidableEq, Repr

/-- A loop whose ridges are free begins: CARRY regions of other loops are saved first, its own come back next; then its
step starts, or resumes. -/
def Mach.begin (m : Mach) (n nowUs : Nat) (rs : List Nat) : Mach × Began :=
  match m.dev.carryHere n rs with
  | k :: ks => (m.mod (fun d => (k :: ks).foldl (fun d j => d.modLoop j (fun l => { l with carryBusy := some (true, n) })) d),
      .waits)
  | [] =>
    let l := m.dev.loop n
    match l.step with
    | some _ => (m.mod (fun d => d.modStep n (fun s => { s with phase := .restoring })), .started)
    | none =>
      if l.carrySaved.isSome then
        (m.mod (fun d => d.modLoop n (fun l => { l with carryBusy := some (false, n) })), .waits)
      else
        let m := m.startStep n nowUs
        -- a tile that has been fenced ends the step at its start (R512)
        if rs.any (fun r => (List.range 4).any (fun i => m.dev.fenced (4 * r + i))) then (m.abortStep n, .started)
        else (m, .started)

/-- The ridges that the loop's next step or resumption takes. -/
def Dev.wantRidges (d : Dev) (n : Nat) : List Nat :=
  match (d.loop n).step with
  | some s => s.b.ridges
  | none => d.bindRidges n

/-- A CARRY save or restore for the step of loop `n` is under way. -/
def Dev.carryFor (d : Dev) (n : Nat) : Bool :=
  (List.range 16).any (fun k => match (d.loop k).carryBusy with
    | some (_, x) => x == n
    | none => false)

/-- Safety steps, in the order in which their windows opened; the ridges of those that cannot start are kept. -/
def Mach.decideSafety (m : Mach) (nowUs : Nat) : Mach × List Nat :=
  let opened := fun n => match (m.dev.loop n).due with
    | w :: _ => w.opened
    | [] => (m.dev.loop n).openedUs
  let ls := ((List.range 16).filter (fun n => m.dev.loopClass n == 2)).sortLe (fun a b => opened a ≤ opened b)
  ls.foldl (fun (p : Mach × List Nat) n =>
    let (m, blocked) := p
    if !m.mayBegin n then p
    else
      let rs := m.dev.wantRidges n
      if rs.all m.dev.ridgeFree && !rs.any blocked.contains then
        let (m, r) := m.begin n nowUs rs
        (m, if r = .started then blocked else blocked ++ rs)
      else if m.dev.carryFor n then (m, blocked ++ rs)
      else (m.mod (fun d => d.modLoop n (fun l => { l with
        due := if l.step.isSome then l.due else modAt l.due 0 (fun w => { w with late := true }) })), blocked ++ rs)) (m, [])

/-- R282: bulk and paced loops that become eligible after having been neither eligible, running nor pre-empted. -/
def Mach.catchUp (m : Mach) : Mach :=
  let ls := (List.range 16).filter (fun n => m.dev.loopClass n != 2)
  let ready := ls.filter (fun n => m.waitCode n == 0)
  let busy := ls.filter (fun n => ready.contains n || (m.dev.holding n).isSome)
  m.mod (fun d =>
    let d := ready.foldl (fun d n =>
      if (d.loop n).wasActive then d
      else match d.first (busy.filter (· != n)) with
        | none => d
        | some k => d.modLoop n (fun l => { l with
            acct := min (2 ^ 64 - 1) (max l.acct ((d.loop k).acct * d.loopShare n / d.loopShare k)) })) d
    ls.foldl (fun d n => d.modLoop n (fun l => { l with wasActive := ready.contains n || l.step.isSome })) d)

/-- Loops in the order of R281. -/
def Dev.ranked (d : Dev) (ls : List Nat) : List Nat := ls.sortLe (fun a b => d.ranksBefore a b)

/-- The state of the walk of R285 through the ranked loops: ridges that no later loop gets, loops begun in this decision,
and whether a waiting loop has been met. -/
structure Walk where
  m : Mach
  blocked : List Nat
  fresh : List Nat
  first : Bool

/-- Ridges that R510 offers to chunks first: those of tiles in the last FORCE seconds of an incomplete cycle. -/
def Dev.forcedRidges (d : Dev) : List Nat :=
  (List.range 24).filter (fun r => (List.range 4).any (fun i => (d.tile (4 * r + i)).forced))

/-- Bulk and paced loops in rank order, with pre-empted steps that wait to resume (R285, R286). -/
def Mach.decideRanked (m : Mach) (nowUs : Nat) (blocked : List Nat) : Mach :=
  let ls := (List.range 16).filter (fun n => m.dev.loopClass n != 2 && m.mayBegin n)
  let guard := m.dev.guarded
  let w := (m.dev.ranked ls).foldl (fun (w : Walk) n =>
    let m := w.m
    let rs := m.dev.wantRidges n
    -- a step started in this decision may have taken the last Tarn context or a sequence of the batch (R240, R261)
    if !m.mayBegin n then w
    else if rs.all m.dev.ridgeFree && !rs.any w.blocked.contains && !rs.any guard.contains then
      let (m, r) := m.begin n nowUs rs
      if r = .started then { w with m := m, fresh := n :: w.fresh }
      else { w with m := m, blocked := w.blocked ++ rs, first := false }
    else
      let m := if w.first && m.dev.loopClass n == 1 then
          m.mod (fun d => (List.range 16).foldl (fun d k => match d.holding k with
            | some st => if d.loopClass k = 0 && !w.fresh.contains k && st.b.ridges.any rs.contains then
                d.callPreempt k (some n) else d
            | none => d) d)
        else m
      { w with m := m, blocked := w.blocked ++ rs, first := false })
    ({ m := m, blocked := blocked, fresh := [], first := true } : Walk)
  w.m

/-! ### Save areas that are short (R301) -/

def Mach.markShort (m : Mach) : Mach :=
  (List.range 16).foldl (fun m n =>
    if m.waitCode n ≠ 6 then m
    else match (m.dev.loop n).binding with
      | none => m
      | some b => m.mod (fun d =>
          let d := d.wf (Reg.SCH_LOOPn_STAT n) Fld.SCH_LOOPn_STAT.SAVE_SHORT 1
          if b.saveShort then d
          else (d.raiseFor n 1 Src.SCHED 0x0003 0xFFFF (saveBytes b.route)).modLoop n (fun l =>
            { l with binding := some { b with saveShort := true } }))) m

/-! ### Recomputes (R255, R256) -/

/-- The KVCLASS with which a route writes a namespace (R235): that of its APPENDs into it, all equal. -/
def Mach.routeClass (m : Mach) (r : Route) (nsid : Nat) : Option Nat :=
  let cs := (((rawList m (r.addr + r.tarnOff) r.tarnCnt).filter (fun e =>
    Ent.kind e == K.TARN && Tarn.op e == 1)).map (m.tparam r)).filterMap (fun p =>
      if p.nsid = nsid then some p.kvclass else none)
  match cs with
  | [] => none
  | c :: rest => if rest.all (· == c) then some c else none

/-- The blocks of a sequence made ready for its recompute and the sequence posted to RLOOP; nothing changes while frames
are short. -/
def Mach.postSeq (m : Mach) (s : Nat) (r : NsRec) (held : List Nat) : Mach :=
  let nsid := m.sq s Sq.NSID 1
  let ds := ((List.range (m.sq s Sq.NBLK 4)).zip (m.blks s)).filter (fun p => m.blockState p.2 == .dropped)
  let need := r.nl * ds.length
  let m := if m.enough nsid need 0 then m else m.reclaim nsid need 0 held
  if !m.enough nsid need 0 then m
  else
    let m := ds.foldl (fun m p => match (m.dev.nsRec nsid).bind (fun r => r.takeFrames r.nl) with
      | some (fs, r) => (m.mod (fun d => d.setNs nsid r)).setBlockDescs p.2 nsid .recomputing fs
      | none => m) m
    let m := match ds with
      | p :: _ => m.setSq s Sq.RCUR 4 (32 * p.1)
      | [] => m
    m.mod (fun d => d.modTarn (fun t => { t with
      posted := AMap.set t.posted r.rloop (AMap.getD t.posted r.rloop [] ++ [s]) }))

/-- A sequence's blocks can be recomputed (R256): its namespace's RLOOP has a bound route of the namespace's class. -/
def Mach.hasRecompute (m : Mach) (s : Nat) : Bool :=
  let nsid := m.sq s Sq.NSID 1
  match m.dev.nsRec nsid with
  | none => false
  | some r => match (m.dev.loop r.rloop).binding with
    | some b => m.routeClass b.route nsid == some r.kvclass
    | none => false

/-- A held step whose sequences need blocks recomputed (R255), or that is skipped with one fault (R256).  A sequence that
shares a block now being recomputed for another waits for it (log 75). -/
def Mach.postFor (m : Mach) (n : Nat) : Mach :=
  let held := m.batchSlots n
  let short := held.filter m.needRc
  match short.find? (fun s => !m.hasRecompute s) with
  | some s => m.mod (fun d => (d.raiseFor n 1 Src.TARN 0x0003 0xFFFF (m.sq s Sq.NSID 1)).modLoop n (fun l =>
      { l with release := false, due := l.due.drop 1 }))
  | none => short.foldl (fun m s =>
      if m.inuse s || m.posted s || (m.blks s).any (fun i => m.blockState i == .recomputing) then m
      else match m.dev.nsRec (m.sq s Sq.NSID 1) with
        | none => m
        | some r => m.postSeq s r held) m

def Mach.postRecomputes (m : Mach) : Mach :=
  (List.range 16).foldl (fun m n => if m.waitCode n = 5 then m.postFor n else m) m

/-! ### Self-test chunks (R508 to R510) -/

/-- The instant, in microseconds, at which the next guard of R276 that covers a ridge starts; none when no safety loop
lands there. -/
def Dev.nextGuard (d : Dev) (r nowUs : Nat) : Option Nat :=
  (List.range 16).foldl (fun a n =>
    if d.loopClass n ≠ 2 || !d.loopEn n || !(d.bindRidges n).contains r then a
    else
      let p := d.loopPeriod n
      let g := d.loopGuard n
      -- the first opening whose guard starts at or after now
      let t := nowUs + g
      let o := t + (d.loopPhase n + p - t % p) % p
      match a with
      | none => some (o - g)
      | some x => some (min x (o - g))) none

/-- The worst case of a chunk in beats (R507). -/
def chunkBeats (k : Nat) : Nat := if k < 4 then 6144 else if k < 36 then 2304 else 20480

/-- A chunk that would start now ends before the next guard of its ridge. -/
def Dev.chunkFits (d : Dev) (r nowUs k : Nat) : Bool :=
  match d.nextGuard r nowUs with
  | none => true
  | some g => decide ((nowUs : Rat) * 1000 + 2000 + chunkBeats k * d.qNs ≤ (g : Rat) * 1000)

/-- All 37 chunks of a tile's cycle are done: a new cycle and a new interval begin (R507, R511). -/
def Dev.endCycle (d : Dev) (t : Nat) : Dev :=
  let a := Reg.SAF_TILEt_ST t
  if (d.tile t).doneChunks.length < 37 then d
  else
    ((d.modTile t (fun x => { x with
      doneChunks := []
      forced := false })).wf a Fld.SAF_TILEt_ST.DONE 0).inc a Fld.SAF_TILEt_ST.CYCLES 1

/-- Chunks of retired arrays count as done (R507). -/
def Dev.skipChunks (d : Dev) (t : Nat) : Dev :=
  let x := d.tile t
  let ks := (List.range 4).filter (fun p => bit (d.rf (Reg.TILE_ARR_MAP t) Fld.TILE_ARR_MAP.RETIRED) p
    && !x.doneChunks.contains p)
  if ks.isEmpty then d
  else
    let d := d.modTile t (fun x => { x with doneChunks := x.doneChunks ++ ks })
    (d.wf (Reg.SAF_TILEt_ST t) Fld.SAF_TILEt_ST.DONE ((d.tile t).doneChunks.length)).endCycle t

/-- The chunk of a tile that the scheduler starts: the first one not done that fits (R508). -/
def Dev.startChunk (d : Dev) (t nowUs : Nat) : Dev :=
  let d := d.skipChunks t
  let x := d.tile t
  let left := (List.range 37).filter (fun k => !x.doneChunks.contains k)
  match left with
  | [] => d
  | k0 :: _ =>
    match left.find? (d.chunkFits (t / 4) nowUs) with
    | none => d.cnt (Reg.SAF_CNT_k 10) 1
    | some k => (d.cnt (Reg.SAF_CNT_k 10) (b2n (k != k0))).modTile t (fun x => { x with chunk := some k })

/-- A debug halt of a list or of a spur hart keeps chunks from a ridge (R543). -/
def Dev.ridgeHalted (d : Dev) (r : Nat) : Bool :=
  d.harts.any (fun h => decide (4 ≤ h) && (h - 4) / 4 == r)

/-- Chunks start on the ridges of a list that no step holds. -/
def Dev.startChunks (d : Dev) (rs : List Nat) (nowUs : Nat) : Dev :=
  if !d.rfB Reg.SAF_CTRL Fld.SAF_CTRL.ST_EN || !d.rfB Reg.SAF_STAT Fld.SAF_STAT.OUT_EN || !d.pwr.fabOn then d
  else rs.foldl (fun d r =>
    let running := ((List.range 24).filter d.chunkOn).length
    let maxPar := max 1 (d.rf Reg.SAF_ST_CFG Fld.SAF_ST_CFG.MAXPAR)
    if !d.ridgeOn r || (d.ridgeLoop r).isSome || d.carryOn r || d.guarded.contains r || d.ridgeHalted r
        || (!d.chunkOn r && decide (running ≥ maxPar)) then d
    else (List.range 4).foldl (fun d i =>
      let x := d.tile (4 * r + i)
      if x.chunk.isSome || d.fenced (4 * r + i) then d else d.startChunk (4 * r + i) nowUs) d) d

/-! ### The decision (R284, R285) -/

/-- The scheduler starts steps: enabled, the fabric powered, and not in boot-only mode (R588, R593). -/
def Dev.schedOn (d : Dev) : Bool :=
  d.rfB Reg.SCH_CTRL Fld.SCH_CTRL.EN && d.pwr.fabOn && !d.pwr.pwrFail && !d.rfB Reg.PWR_STAT Fld.PWR_STAT.BOOT_ONLY

/-- Bulk steps that hold a ridge whose cycle is in its last FORCE seconds are called for pre-emption (R510). -/
def Dev.callForced (d : Dev) : Dev :=
  d.forcedRidges.foldl (fun d r => match d.ridgeLoop r with
    | some n => if d.loopClass n = 0 then d.callPreempt n none else d
    | none => d) d

/-- SCHED_DECISION: safety steps, chunks of ridges in their last FORCE seconds, bulk and paced loops in rank order, then
chunks on the ridges that stay free. -/
def Mach.schedule (m : Mach) (nowUs : Nat) : Mach :=
  let forced := m.dev.forcedRidges
  let m := m.mod Dev.callForced
  if !m.dev.schedOn then m.mod (fun d => d.startChunks (List.range 24) nowUs)
  else
    let m := m.markShort.postRecomputes
    let (m, blocked) := m.decideSafety nowUs
    let m := m.mod (fun d => d.startChunks (forced.filter (fun r => !blocked.contains r)) nowUs)
    let m := m.catchUp.decideRanked nowUs blocked
    m.mod (fun d => d.startChunks ((List.range 24).filter (fun r => !(forced.contains r) || blocked.contains r)) nowUs)

/-- SCHED_DECISION. -/
def execSchedDecision (nowUs : Nat) (s : State) : Host.Outcome State Fault Refusal :=
  run (fun m => (m.schedule nowUs).mod Dev.settleOrders) s

/-! ### The end of a step (R188, R280, R466, R501, R504) -/

/-- The rows of a post are copied as the step ends; a Cairn step posts nothing (R466, R503), and neither does one whose rows
cannot be read (log 80). -/
def Mach.copyPost (m : Mach) (n : Nat) (st : StepSt) : Mach :=
  let a := Reg.CE_POSTn_CFG n
  let f := m.dev.effRf a
  if f Fld.CE_POSTn_CFG.EN = 0 || st.cairn then m
  else
    let t := st.b.tile (f Fld.CE_POSTn_CFG.LTILE)
    let a := amAddr t (f Fld.CE_POSTn_CFG.ROW)
    let k := 64 * max 1 (min 64 (f Fld.CE_POSTn_CFG.NROWS))
    match m.eccRead a k 187 n with
    | (m, some _) => m
    | (m, none) =>
      let rows := m.rdBytes a k
      m.mod (fun d => { d with posts := AMap.set d.posts n (AMap.getD d.posts n [] ++ [(d.stamp, rows)]) })

/-- STEP_END: every list of the step has completed its END. -/
def execStepEnd (loop : Fin 16) (beats : Nat) (s : State) : Host.Outcome State Fault Refusal :=
  run (fun m =>
    let n := loop.val
    match (m.dev.loop n).step with
    | none => m
    | some st =>
      if st.phase != .running || !List.all m.dev.lists (fun (p : Nat × ListSt) => p.2.loop != n || p.2.ended) then m
      else
        match st.ctx.bind (fun c => (m.tarnEndFault c).map (fun f => (c, f))) with
        | some (c, code, detail) =>
          let at' := match m.dev.list (96 + n) with
            | some l => l.count - 1
            | none => 0
          let m := m.mod (fun d => d.raiseFor n 1 Src.TARN code c (if code = 5 then at' else detail))
          m.abortWith n (some beats)
        | none =>
          let m := m.mod (fun d => (d.endBoost n).charge n beats)
          let m := if st.cairn then m.mod (fun d => d.cairnCheck n st) else m
          let m := (m.copyPost n st).leaveStep n st true
          (m.mod (fun d => d.loopCnt n 0)).applyDeferred n) s

end Sys2Proof.Machine
end

