-- ==== Sys2Proof/Machine/Preempt.lean ====
section
/-!
DEFINITION. Pre-emption (R295 to R304, R600): what becomes of the entries in flight, the save, the hold on remote
producers, the restore, and the saving and restoring of CARRY regions.  The tile state record is written to the save area
in the places that R301 gives, and the restore takes it from State (log 49).
-/
namespace Sys2Proof.Machine

/-! ### The entries in flight at the halt (R296) -/

/-- All rows of the open pass that are still to be sent are in activation memory or in its queue. -/
def Mach.passCanEnd (m : Mach) (t : Nat) (p : PassSt) : Bool :=
  if Ent.kind p.word = K.PASS && Pass.rsrc p.word then
    let (_, _, _, held) := m.dev.queue t (Pass.queue p.word)
    decide (ceilDiv (Pass.nrows p.word) (rowsPer (Pass.rfmt p.word)) ≤ held) && m.queueTurn t (Pass.queue p.word) p.entry
  else true

/-- The pass in progress completes, or returns to its base. -/
def Mach.finishPass (m : Mach) (n t l entry num : Nat) : Nat → Mach
  | 0 => m
  | fuel + 1 =>
    match (m.dev.loop n).step, (m.dev.larr t l).pass with
    | some st, some p =>
      if !p.started || p.entry ≠ entry || p.num ≠ num then m
      else if p.phase == .ended then
        if (m.dev.runsOn t l).isNone then m.restartPass t l p p.rerun
        else Mach.finishPass (m.comparePass n t l st) n t l entry num fuel
      else if !m.passCanEnd t p || !m.mayEnter t l p then m.restartPass t l p p.rerun
      else Mach.finishPass (m.rowSlot n t l st false []) n t l entry num fuel
    | _, _ => m

def Mach.finishPasses (m : Mach) (n t : Nat) : Mach :=
  (List.range 4).foldl (fun m l => match (m.dev.larr t l).pass with
    | some p => m.finishPass n t l p.entry p.num 300000
    | none => m) m

/-- A load that is cut gives its use of the fill back. -/
def Dev.unuseFill (d : Dev) (t : Nat) (fill : Option Nat) : Dev :=
  match fill.bind (AMap.find (d.tile t).fills) with
  | some (.slot s) => d.wf (Reg.TILE_WR_SLOTn t s) Fld.TILE_WR_SLOTn.USES (d.slotUses t s + 1)
  | _ => d

/-- Loads that could not be made are cut. -/
def Dev.cutLoads (d : Dev) (t : Nat) : Dev :=
  (List.range 4).foldl (fun d l =>
    let cut := (d.larr t l).loads.filter (fun ld => !ld.auto)
    let d := cut.foldl (fun d ld => d.unuseFill t ld.fill) d
    d.modLarr t l (fun x => { x with loads := x.loads.filter (·.auto) })) d

/-- Loads, receives and reductions in flight are issued again at the resumption. -/
def isCut (f : Flight) : Bool := f.kind == K.SLOAD || f.kind == K.RECV || f.kind == K.ARGMAX

def Dev.cutFlights (d : Dev) (t : Nat) : Dev :=
  match d.list t with
  | none => d
  | some l =>
    let d := (l.flights.filter (fun f => f.kind == K.RECV)).foldl (fun d f =>
      d.setRead t (Recv.queue f.word) 0) d
    d.setList t { l with
      flights := l.flights.filter (fun f => !isCut f)
      redo := (l.redo ++ (l.flights.filter isCut).map (fun f => (f.entry, f.word))).sortLe (fun a b => decide (a.1 ≤ b.1)) }

/-- SPECULATIVE slots are squashed (R195). -/
def Dev.squash (d : Dev) (t : Nat) : Dev :=
  (List.range 6).foldl (fun d s =>
    if d.token t s = Tok.SPECULATIVE then (d.emptySlot t s).specCnt t 2 1 else d) d

/-! ### Streams at the halt -/

/-- The rows on their way to a queue go back: a send resumes at the first row that has not landed, and rows of the Tarn
engine wait for credits again (R296). -/
def Mach.returnRows (m : Mach) (t q : Nat) : Mach :=
  let k := 16 * t + q
  let rows := AMap.getD m.dev.transit k []
  let key := prodKey m.dev.pkg t q
  let m := m.mod (fun d => { d with transit := AMap.erase d.transit k
                                    credits := AMap.set d.credits key (AMap.getD d.credits key 0 + rows.length) })
  let m := m.mod (fun d => { d with outq :=
    match (rows.filter (fun r => r.list.isNone)).map (·.data) with
    | [] => d.outq
    | back => AMap.set d.outq key (back ++ AMap.getD d.outq key []) })
  rows.foldl (fun m r => match r.list with
    | some s => m.modFlight s r.entry (fun f => { f with sent := f.landed })
    | none => m) m

/-- Every queue of the step. -/
def Binding.queueList (b : Binding) : List (Nat × Nat) :=
  b.usedTiles.flatMap (fun t => (b.route.queues (b.ltile t)).map (fun v => (t, v.qnum)))

/-- Rows of other packages are still on their way to a queue of the step. -/
def Dev.farRowsComing (d : Dev) (b : Binding) : Bool :=
  b.queueList.any (fun x =>
    let src := d.reg (Reg.TILE_LQn_SRC x.1 x.2)
    bits src 31 30 == 0 && bits src 29 28 != d.pkg && !(AMap.getD d.transit (16 * x.1 + x.2) []).isEmpty)

/-- A hold has been answered and every counted row has landed (R299). -/
def Dev.holdOver (d : Dev) (st : StepSt) (h : Nat × Option Nat) : Bool :=
  match h.2 with
  | none => false
  | some c => decide (AMap.getD st.rowsFrom h.1 0 ≥ c) && !d.farRowsComing st.b

/-! ### The save (R297, R300) -/

/-- The tiles with a list, with the places of their state records in the save area. -/
def Binding.records (b : Binding) : List (Nat × Nat) :=
  (((List.range (4 * b.route.nridges)).filter (listUsed b.route)).foldl (fun (p : Nat × List (Nat × Nat)) lt =>
    (p.1 + 16384 + 64 * (liveRows b.route lt).length, p.2 ++ [(b.tile lt, p.1)])) (4096, [])).2

/-- Open bytes stored. -/
def Mach.storeOpen (m : Mach) (a n : Nat) : Mach :=
  let i := m.dev.free
  (m.mod (fun d => { d with free := d.free + n })).store a ((List.range n).map (fun k => Config.freeByte (i + k)))

/-- An uncorrectable error that a save engine met (R600): the tile's fault, and the step's abort with the beats of its
meters. -/
def Mach.saveFails (m : Mach) (n t detail beats : Nat) : Mach :=
  ((m.mod (fun d => d.raiseFor n 1 Src.TILE 0x0008 t detail)).abortWith n (some beats)).mod (fun d =>
    d.modTile t (fun x => { x with faulted := true }))

/-- Live rows written to the save area; false when an uncorrectable error has aborted the step (R600). -/
def Mach.saveRows (m : Mach) (n base beats : Nat) (rows : List (Nat × Nat × Nat)) : Mach × Bool :=
  rows.foldl (fun (p : Mach × Bool) x =>
    if !p.2 then p
    else
      let t := (x.2.1 - 0x010000000000) / 0x400000
      match p.1.eccRead x.2.1 64 (96 + t / 4) n with
      | (m, some u) => (m.saveFails n t (memUeDetail 0 u) beats, false)
      | (m, none) => ((m.store (base + x.2.2) (m.rdBytes x.2.1 64)).mod (fun d => d.toHbm (base + x.2.2) 1 t), true))
    (m, true)

/-- A tile state item that cannot be read (R600): R597 gives the fault's memory and row for memories only, so that they are
open. -/
def Mach.stateFails (m : Mach) (n t beats : Nat) : Mach :=
  let (i, d) := m.dev.fresh
  let x := Config.freeNat i
  ({ m with dev := d } : Mach).saveFails n t (x % 4 * 2 ^ 32 + x / 4 % 2 ^ 15 * 2 ^ 48) beats

/-- The fills that the save records: those with loads to come or a block in use, in fill order, with their uses left. -/
def Mach.liveFills (m : Mach) (t : Nat) : List (FillReq × Nat) :=
  let x := m.dev.tile t
  let fs := (List.range 6).filterMap (fun s => match (x.slots.getD s {}).req with
    | some r => (match r.fill with
      | some f => if m.dev.slotUses t s > 0 || m.fillBusy t f then some (r, m.dev.slotUses t s) else none
      | none => none)
    | none => none)
  fs.sortLe (fun a b => decide (a.1.fill.getD 0 ≤ b.1.fill.getD 0))

/-! The tile state record (R301): the table gives the places of its parts; the order and the widths of the items within a
part are the model's (DESIGN CHOICE, log 49). -/

/-- A part of a record, filled with zeros to its size. -/
def part (n : Nat) (bs : List Byte) : List Byte := (bs ++ List.replicate n 0).take n

/-- The resume points of R296: the entries in flight with the rows they have sent and landed. -/
def recSequencer (l : Option ListSt) : List Byte :=
  part 256 (match l with
    | none => []
    | some l => leBytes 4 l.next ++ (l.flights.flatMap (fun f => leBytes 4 f.entry ++ leBytes 4 f.sent ++ leBytes 4 f.landed)
        ++ l.redo.flatMap (fun r => leBytes 4 r.1 ++ leBytes 4 0 ++ leBytes 4 0)))

/-- Each queue: W, Rd, Rel, held count and credits. -/
def Dev.recQueues (d : Dev) (t : Nat) : List Byte :=
  (List.range 16).flatMap (fun q =>
    let (_, _, rel, held) := d.queue t q
    leBytes 2 (d.rf (Reg.TILE_LQn_PTR t q) Fld.TILE_LQn_PTR.WPTR)
      ++ leBytes 2 (d.rf (Reg.TILE_LQn_RD t q) Fld.TILE_LQn_RD.RDPTR) ++ leBytes 2 rel ++ leBytes 2 held
      ++ leBytes 8 (AMap.getD d.credits (prodKey d.pkg t q) 0))

/-- The fills of R297: address, length in bytes and remaining uses. -/
def recFills (fs : List (FillReq × Nat)) : List Byte :=
  part 512 (fs.flatMap (fun f => part 64 (leBytes 8 f.1.addr ++ leBytes 4 (64 * f.1.rows) ++ leBytes 4 f.2)))

/-- A committed tally in 24 bytes, in the order of R53. -/
def Tally.record (x : Tally) : List Byte :=
  leBytes 16 x.value.toNat
    ++ leBytes 8 (x.count + 2 ^ 33 * b2n x.loss + 2 ^ 34 * b2n x.ovf + 2 ^ 35 * b2n x.nan + 2 ^ 36 * b2n x.pinf
        + 2 ^ 37 * b2n x.ninf)

/-- A logical array: its 64 tallies, window and parity. -/
def LogArray.record (a : LogArray) : List Byte :=
  part 1792 (a.tallies.flatMap Tally.record ++ leBytes 2 (wrap 16 (a.win.getD 0)) ++ leBytes 1 (b2n a.win.isSome)
    ++ leBytes 1 (b2n a.parity))

/-- The spur CSRs of the record: fcsr, vtype, vl, vstart and vcsr, then instret and the pc. -/
def SpurSt.recCsrs (s : SpurSt) : List Byte :=
  part 256 (([Csr.FCSR, Csr.VTYPE, Csr.VL, Csr.VSTART, Csr.VCSR].map s.csr ++ [s.instret, s.pc]).flatMap (leBytes 8))

/-- The record of one tile. -/
def Mach.tileRecord (m : Mach) (t : Nat) : List Byte :=
  let x := m.dev.tile t
  recSequencer (m.dev.list t) ++ m.dev.recQueues t ++ recFills (m.liveFills t)
    ++ part 7168 (x.larr.flatMap LogArray.record)
    ++ part 512 ((List.range 32).flatMap (fun i => leBytes 8 (x.spur.x.getD i 0).toNat)
        ++ (List.range 32).flatMap (fun i => leBytes 8 (x.spur.f.getD i 0).toNat))
    ++ x.spur.recCsrs
    ++ part 2048 ((List.range 32).flatMap (fun i => leBytes 64 (x.spur.v.getD i 0).toNat))
    ++ List.replicate 5376 0

/-- The record of one tile kept for the restore, and the tile let go. -/
def Mach.saveTile (m : Mach) (n t : Nat) : Mach :=
  let d := m.dev
  let qs := List.range 16
  let sv : SavedTile := {
    tile := t
    st := d.tile t
    list := d.list t
    queues := qs.map (fun q => (d.reg (Reg.TILE_LQn_CFG t q), d.reg (Reg.TILE_LQn_SRC t q), d.reg (Reg.TILE_LQn_PTR t q),
      d.reg (Reg.TILE_LQn_RD t q)))
    credits := qs.map (fun q => AMap.getD d.credits (prodKey d.pkg t q) 0)
    outs := qs.map (fun q => AMap.getD d.outq (prodKey d.pkg t q) [])
    fills := m.liveFills t }
  m.mod (fun d =>
    let d := d.modStep n (fun s => { s with saved := s.saved ++ [sv] })
    let d := { d with lists := AMap.erase d.lists t
                      outq := qs.foldl (fun o q => AMap.erase o (prodKey d.pkg t q)) d.outq }
    d.endTile t)

/-- The µs of a pre-emption, as PREEMPT_T keeps them. -/
def Dev.preemptTime (d : Dev) (n us : Nat) : Dev :=
  let a := Reg.SCH_LOOPn_PREEMPT_T n
  let u := min us 65535
  d.setReg a (max (d.rf a Fld.SCH_LOOPn_PREEMPT_T.PREEMPT_MAX) u * 2 ^ 16 + u)

/-- The step is saved: accounts, counts, notifications, and its ridges free (R280, R295). -/
def Dev.preempted (d : Dev) (n : Nat) (st : StepSt) (beats saveBeats us : Nat) : Dev :=
  let d := (d.charge n beats).charge (st.callers.headD n) saveBeats
  let d := (d.loopCnt n 1).preemptTime n us
  let d := st.preemptTags.foldl (fun d t => d.notify t ST.OK []) d
  let far := List.filter (fun (p : Nat × Nat) => p.1 / 1536 != d.pkg
    && (st.b.usedTiles.any (fun t => p.1 / 16 % 96 == t))) d.credits
  d.modStep n (fun s => { s with
    phase := .preempted
    holds := []
    called := false
    preemptTags := []
    farCredits := far })

/-- The instructions that the spur calls of loop `n` have retired by the save (R152): `ran` gives them by tile.  A count that
runs into a trap does not describe the core, and nothing is done for it. -/
def Mach.spurProgress (m : Mach) (n : Nat) (ran : List (Fin 96 × Nat)) : Mach :=
  ran.foldl (fun m x =>
    match m.dev.spurCallOn x.1.val with
    | none => m
    | some (n', _) =>
      if n' ≠ n then m
      else match Mach.rvRun n x.1.val x.2 m with
        | (m1, none) => m1
        | (_, some _) => m) m

/-- SAVE_DONE (R295): the lists are halted, every hold is over, and the save engines have written the area.  `stateError`
names a tile of which a state item met an uncorrectable error (R600); `spurRan` is what the stopped spur cores have run. -/
def execSaveDone (loop : Fin 16) (beats saveBeats us : Nat) (stateError : Option (Fin 96)) (spurRan : List (Fin 96 × Nat))
    (upsets : List Upset) (s : State) : Host.Outcome State Fault Refusal :=
  run (fun m =>
    let n := loop.val
    let m := m.upsets upsets
    match (m.dev.loop n).step with
    | none => m
    | some st =>
      if st.phase != .saving || !st.holds.all (m.dev.holdOver st) then m
      else
        let ts := st.b.usedTiles
        let m := m.spurProgress n spurRan
        let m := ts.foldl (fun m t => (m.kickLoads t).finishPasses n t) m
        let m := st.b.queueList.foldl (fun m x => m.returnRows x.1 x.2) m
        let m := m.mod (fun d => ts.foldl (fun d t => ((d.cutLoads t).cutFlights t).squash t) d)
        let base := m.dev.saveBase n
        -- a save that cannot finish: its own beats go to the caller, or to the loop itself (R280)
        let ends := fun (m : Mach) => m.mod (fun d => d.charge (st.callers.headD n) saveBeats)
        if (m.dev.loop n).step.isNone then ends m
        else match (stateError.filter (fun t => st.b.usedTiles.contains t.val)), m.saveRows n base beats st.b.places with
          | some t, _ => ends (m.stateFails n t.val beats)
          | none, (m, false) => ends m
          | none, (m, true) =>
            let m := m.storeOpen base 4096
            let m := st.b.records.foldl (fun m x =>
              (m.store (base + x.2) (m.tileRecord x.1)).mod (fun d => d.toHbm (base + x.2) 256 x.1)) m
            let m := ts.foldl (fun m t => m.saveTile n t) m
            m.mod (fun d => d.preempted n st beats saveBeats us)) s

/-! ### The restore (R302) -/

/-- Live rows read back from the save area; false when an uncorrectable error has aborted the step, whose own meters count
from the end of the restore (R280). -/
def Mach.restoreRows (m : Mach) (n base : Nat) (rows : List (Nat × Nat × Nat)) : Mach × Bool :=
  rows.foldl (fun (p : Mach × Bool) x =>
    if !p.2 then p
    else
      let t := (x.2.1 - 0x010000000000) / 0x400000
      match p.1.eccRead (base + x.2.2) 64 (96 + t / 4) n with
      | (m, some _) => (m.abortWith n (some 0), false)
      | (m, none) => ((m.store x.2.1 (m.rdBytes (base + x.2.2) 64)).mod (fun d => d.fromHbm (base + x.2.2) 1 t), true))
    (m, true)

/-- One recorded fill fetched again into slot `s`. -/
def Mach.refill (m : Mach) (n t s : Nat) (f : FillReq × Nat) : Mach :=
  let (m, bad) := if f.1.bad then (m, some f.1.addr) else m.eccRead f.1.addr (64 * f.1.rows) t n
  let m := if bad.isSome then m else m.store (wmAddr t s 0) (m.rdBytes f.1.addr (64 * f.1.rows))
  m.mod (fun d =>
    let d := d.setReg (Reg.TILE_WR_SLOTn t s) ((if bad.isSome then Tok.POISONED else Tok.FULL) * 2 ^ 29 + f.2)
    let d := d.modTile t (fun x => { x with
      slots := modAt x.slots s (fun _ => { req := some f.1, landed := true })
      fills := AMap.set x.fills (f.1.fill.getD 0) (.slot s) })
    (d.cnt (Reg.TILE_WR_CNT_k t (if bad.isSome then 3 else 0)) 1).fromHbm f.1.addr f.1.rows t)

/-- One tile's record comes back. -/
def Mach.restoreTile (m : Mach) (n : Nat) (b : Binding) (sv : SavedTile) : Mach :=
  let t := sv.tile
  let now := m.dev.tile t
  let m := m.mod (fun d =>
    let d := d.setTile t { sv.st with
      parr := now.parr
      remap := []
      slots := List.replicate 6 {}
      fills := List.filter (fun (p : Nat × FillPlace) => p.2 == FillPlace.zero) sv.st.fills
      chunk := now.chunk
      doneChunks := now.doneChunks
      forced := now.forced }
    let d := (List.range 6).foldl (fun d s => d.setReg (Reg.TILE_WR_SLOTn t s) 0) d
    let d := d.setReg (Reg.TILE_WR_STAT t) (b.route.runAhead * 2 ^ 23)
    let d := d.wf (Reg.TILE_WR_STAT t) Fld.TILE_WR_STAT.FILL_PTR (sv.fills.length % 6)
    let d := ((List.range 16).zip sv.queues).foldl (fun d x =>
      (((d.setReg (Reg.TILE_LQn_CFG t x.1) x.2.1).setReg (Reg.TILE_LQn_SRC t x.1) x.2.2.1).setReg (Reg.TILE_LQn_PTR t x.1)
        x.2.2.2.1).setReg (Reg.TILE_LQn_RD t x.1) x.2.2.2.2) d
    let d := ((List.range 16).zip sv.credits).foldl (fun d x =>
      { d with credits := AMap.set d.credits (prodKey d.pkg t x.1) x.2 }) d
    let d := ((List.range 16).zip sv.outs).foldl (fun d x =>
      if x.2.isEmpty then d else { d with outq := AMap.set d.outq (prodKey d.pkg t x.1) x.2 }) d
    let d := d.wf (Reg.TILE_SPUR_STAT t) ⟨31, 31⟩ (b2n sv.st.spur.call.isSome)
    match sv.list with
    | some l => d.setList t { l with stopped := false }
    | none => d)
  let m := ((List.range sv.fills.length).zip sv.fills).foldl (fun m x => m.refill n t x.1 x.2) m
  (List.range 4).foldl (fun m l => if (m.dev.loop n).step.isSome then m.moveLarr n t l else m) m

/-- RESTORE_DONE (R302). -/
def execRestoreDone (loop : Fin 16) (restoreBeats : Nat) (upsets : List Upset) (s : State) :
    Host.Outcome State Fault Refusal :=
  run (fun m =>
    let n := loop.val
    let m := m.upsets upsets
    match (m.dev.loop n).step with
    | none => m
    | some st =>
      if st.phase != .restoring then m
      else
        let m := m.mod (fun d => d.charge (st.callers.headD n) restoreBeats)
        match m.restoreRows n (m.dev.saveBase n) st.b.places with
        | (m, false) => m
        | (m, true) =>
          let m := st.b.records.foldl (fun m x => m.mod (fun d => d.fromHbm (m.dev.saveBase n + x.2) 256 x.1)) m
          let m := st.saved.foldl (fun m x => if (m.dev.loop n).step.isSome then m.restoreTile n st.b x else m) m
          m.mod (fun d =>
            let d := st.farCredits.foldl (fun d (p : Nat × Nat) => { d with credits := AMap.set d.credits p.1 p.2 }) d
            let d := [96 + n, 112 + n].foldl (fun d k => d.modList k (fun l => { l with stopped := false })) d
            let d := (d.peersOf st.b).foldl (fun (d : Dev) k => if (st.b.queueList.any (fun x =>
                bits (d.reg (Reg.TILE_LQn_SRC x.1 x.2)) 31 28 == k)) then d.toPeer k [0x52, BitVec.ofNat 8 n] 1 else d) d
            d.modStep n (fun s => { s with
              phase := .running
              saved := []
              callers := []
              called := false
              farCredits := [] }))) s

/-! ### Holds on remote producers (R299) -/

/-- A hold received: the sends to the peer stop, of the loop's step or of the next one when none has started, and the answer
counts the rows placed on the link. -/
def Dev.hold (d : Dev) (k n : Nat) : Dev :=
  let c := match (d.loop n).step with
    | some st => AMap.getD st.rowsTo k 0
    | none => 0
  let d := d.modStep n (fun st => if st.heldBy.contains k then st else { st with heldBy := st.heldBy ++ [k] })
  let d := if (d.loop n).step.isSome || (d.loop n).heldBy.contains k then d
    else d.modLoop n (fun l => { l with heldBy := l.heldBy ++ [k] })
  d.toPeer k ([0x41, BitVec.ofNat 8 n] ++ leBytes 4 c) 1

/-- PREEMPT_HOLD. -/
def execPreemptHold (pkg : Fin 4) (loop : Fin 16) (s : State) : Host.Outcome State Fault Refusal :=
  runDev (fun _ d => if pkg.val = d.pkg then d else d.hold pkg.val loop.val) s

/-- REMOTE_TIMEOUT: an answer, or a counted row, has not arrived 40 µs after the hold. -/
def Mach.remoteTimeout (m : Mach) (n k : Nat) (beats : Option Nat) : Mach :=
  (m.mod (fun d => (d.raiseFor n 1 Src.SCHED 0x0004 k 0).cnt (Reg.SCH_CNT_k 2) 1)).abortWith n beats

def execRemoteTimeout (pkg : Fin 4) (loop : Fin 16) (beats : Nat) (s : State) : Host.Outcome State Fault Refusal :=
  run (fun m =>
    match (m.dev.loop loop.val).step with
    | none => m
    | some st =>
      if st.phase == .saving && st.holds.any (fun h => h.1 == pkg.val && !m.dev.holdOver st h) then
        m.remoteTimeout loop.val pkg.val (some beats)
      else m) s

/-! ### CARRY regions (R303, R304, R600) -/

/-- The CARRY rows of a loop's binding: address, and offset in the save area. -/
def Binding.carryPlaces (b : Binding) : List (Nat × Nat) :=
  (b.places.filter (fun p => p.1 == 3)).map (·.2)

/-- The CARRY regions of a loop are lost: its next step begins as after an abort, with them zero and its spur section copied
again (R304). -/
def Mach.carryLost (m : Mach) (n : Nat) (b : Binding) : Mach :=
  (m.freshBinding b).mod (fun d =>
    (d.wf (Reg.SCH_LOOPn_STAT n) Fld.SCH_LOOPn_STAT.ABORTED 1).loopCnt n 3)

/-- A row of a CARRY region that cannot be read while it is saved: the tile's fault. -/
def Dev.carryUe (d : Dev) (n u : Nat) : Dev :=
  d.raiseFor n 1 Src.TILE 0x0008 ((u - 0x010000000000) / 0x400000) (memUeDetail 0 u)

/-- CARRY_SAVE_DONE: a save is charged to the loop whose step waits for it, a restore to the loop itself. -/
def execCarrySaveDone (loop : Fin 16) (save : Bool) (beats : Nat) (upsets : List Upset) (s : State) :
    Host.Outcome State Fault Refusal :=
  run (fun m =>
    let n := loop.val
    let m := m.upsets upsets
    let l := m.dev.loop n
    match l.carryBusy, l.binding with
    | some (sv, who), some b =>
      if (sv != save) = true then m
      else
        let base := m.dev.saveBase n
        let m := m.mod (fun d => (d.modLoop n (fun l => { l with carryBusy := none })).charge (if save then who else n) beats)
        let (m, bad) := b.carryPlaces.foldl (fun (p : Mach × Option Nat) x =>
          match p.2 with
          | some _ => p
          | none =>
            let (a, o) := x
            if save then
              match p.1.eccRead a 64 (96 + (a - 0x010000000000) / 0x400000 / 4) n with
              | (m, some u) => (m.mod (fun d => d.carryUe n u), some u)
              | (m, none) => ((m.store (base + o) (m.rdBytes a 64)).mod (fun d =>
                  d.toHbm (base + o) 1 ((a - 0x010000000000) / 0x400000)), none)
            else
              match p.1.eccRead (base + o) 64 (96 + (a - 0x010000000000) / 0x400000 / 4) n with
              | (m, some u) => (m, some u)
              | (m, none) => ((m.store a (m.rdBytes (base + o) 64)).mod (fun d =>
                  d.fromHbm (base + o) 1 ((a - 0x010000000000) / 0x400000)), none)) (m, none)
        let m := m.mod (fun d => d.modLoop n (fun l => { l with carrySaved := if save then some base else none }))
        match bad with
        | none => m
        | some _ =>
          let m := m.carryLost n b
          if save then b.carryPlaces.foldl (fun m x => m.zero (base + x.2) 64) m else m
    | _, _ => m) s

end Sys2Proof.Machine
end

