-- ==== Sys2Proof/Machine/Arb.lean ====
section
/-!
DEFINITION. The arbiters (R305 to R311), and the writes and reports that reach the scheduler (R284, R286, R301, R312, R313,
R342, R599).
-/
namespace Sys2Proof.Machine

/-! ### Arbiters (R305 to R308) -/

/-- Requesters that an arbiter has: those of R306, or the nine crossbar ports. -/
def arbHas (a r : Nat) : Bool := if a < 136 then decide (r < 195) else decide (r < 9)

def loopClassOf : Nat → LoopClass
  | 0 => .bulk
  | 1 => .paced
  | _ => .safety

/-- The class of a step's traffic: PACED while it is boosted (R293). -/
def Dev.stepClass (d : Dev) (n : Nat) : LoopClass :=
  match (d.loop n).step with
  | some st => if st.boosted then .paced else loopClassOf (d.loopClass n)
  | none => loopClassOf (d.loopClass n)

/-- The requester of R306 that originated a request: at a mesh egress, the one that the request names. -/
def ArbReq.source (a : Nat) (r : ArbReq) : Nat := if a < 136 then r.req else r.origin.requester.val

/-- The loop whose step's traffic a requester carries (R310, R354): a Tarn requester and a Col port serve the step that is
named. -/
def Dev.arbLoop (d : Dev) (r : Nat) (served : Option (Fin 16)) : Option Nat :=
  if r < 96 then d.tileLoop r
  else if r < 120 then d.ridgeLoop (r - 96)
  else if r = 187 || r = 188 then none
  else served.map (·.val)

/-- The class of a request (R306).  A tile or a save engine whose ridge no step holds, and a Tarn request that serves no step,
have the class that the request names. -/
def Dev.arbClass (d : Dev) (a : Nat) (q : ArbReq) : LoopClass :=
  let r := q.source a
  if r < 96 then ((d.tileLoop r).map d.stepClass).getD q.origin.cls
  else if r < 120 then
    (match d.ridgeLoop (r - 96) with
     | some n => (match (d.loop n).step.bind (fun s => s.callers.head?) with
       | some c => loopClassOf (d.loopClass c)
       | none => .paced)
     | none => q.origin.cls)
  else if r < 186 then (q.origin.served.map (fun n => d.stepClass n.val)).getD q.origin.cls
  else if r = 186 then (if q.origin.live then .paced else .bulk)
  else if r = 187 || r = 188 then .bulk
  else q.origin.cls

/-- BULK requests whose level has reached PROMOTE are served as PACED from then on (R308). -/
def Dev.promote (d : Dev) (a : Nat) : Dev :=
  let p := d.rf Reg.ARB_CTRL Fld.ARB_CTRL.PROMOTE
  let x := d.arb a
  if x.waiting.all (fun q => q.promoted || decide (q.level < p)) then d
  else d.setArb a { x with waiting := x.waiting.map (fun q =>
    { q with promoted := q.promoted || (d.arbClass a q == .bulk && decide (q.level ≥ p)) }) }

def Dev.promoteAll (d : Dev) : Dev := (d.arbs.map (·.1)).foldl Dev.promote d

/-- ARB_REQUEST (R306, R307): a request is stamped on arrival; a removed requester makes none until it has returned. -/
def execArbRequest (a : Fin 256) (req : Fin 256) (origin : ArbOrigin) (reset : Bool) (s : State) :
    Host.Outcome State Fault Refusal :=
  runDev (fun _ d =>
    let x := d.arb a.val
    let x := if reset then { x with removed := x.removed.filter (fun r => r != (req.val, none)) } else x
    if !arbUsed a.val || !arbHas a.val req.val || x.removed.any (fun r => r.1 == req.val)
        || x.waiting.any (fun r => r.req == req.val) then d
    else (d.setArb a.val { x with
      arrivals := (x.arrivals + 1) % 65536
      waiting := x.waiting ++ [⟨req.val, origin, x.arrivals, 0, false⟩] }).promote a.val) s

/-- The oldest of some requests, by signed difference of their stamps. -/
def oldest : List ArbReq → Option ArbReq
  | [] => none
  | r :: rs => match oldest rs with
    | none => some r
    | some x => if sext 16 (x.stamp + 65536 - r.stamp) < 0 then some x else some r

/-- The BULK request that rotating priority with ageing picks (R308). -/
def rotate (pointer : Nat) (ws : List ArbReq) : Option ArbReq :=
  let top := ws.foldl (fun n r => max n r.level) 0
  let dist := fun (r : ArbReq) => (r.req + 256 - pointer) % 256
  (ws.filter (fun r => r.level == top)).foldl (fun b r => match b with
    | none => some r
    | some x => if dist r < dist x then some r else some x) none

/-- The next grant of an arbiter that has no owner (R307, R308). -/
def Dev.arbPick (d : Dev) (a : Nat) : Dev :=
  let x := d.arb a
  match oldest (x.waiting.filter (fun r => r.promoted || d.arbClass a r != .bulk)) with
  | some r => d.setArb a { x with owner := some r, waiting := x.waiting.filter (fun y => y.req != r.req) }
  | none =>
    match rotate x.pointer x.waiting with
    | none => d
    | some r => (d.setArb a { x with
        owner := some r
        pointer := (r.req + 1) % 256
        waiting := (x.waiting.filter (fun y => y.req != r.req)).map (fun y => { y with level := min 15 (y.level + 1) }) }).promote
          a

/-- Transactions in flight at a pseudo-channel request port: the rows of fills that have not landed (R350). -/
def Dev.tagsUsed (d : Dev) (pc : Nat) : Nat :=
  d.tiles.foldl (fun n (x : Nat × TileSt) => x.2.slots.foldl (fun n s => match s.req with
    | some r => if s.landed then n
      else n + ((List.range r.rows).filter (fun i => pseudoChannel (r.addr + 64 * i) == pc)).length
    | none => n) n) 0

/-- A pseudo-channel's arbiter has a tag for one more transaction (R350). -/
def Dev.tagFree (d : Dev) (a : Nat) : Bool := decide (a ≥ 128) || decide (d.tagsUsed a < 2048)

/-- ARB_GRANT: with `drop` the owner drops its request; a frozen arbiter makes no new grant, and neither does one whose tags
are all in use (R309, R311, R350). -/
def execArbGrant (a : Fin 256) (drop : Bool) (s : State) : Host.Outcome State Fault Refusal :=
  runDev (fun _ d =>
    if !arbUsed a.val then d
    else
      let d := if drop then d.setArb a.val { d.arb a.val with owner := none } else d
      if (d.arb a.val).owner.isSome || d.arbFrozen a.val || !d.tagFree a.val then d else d.arbPick a.val) s

/-- The opcodes of the commands that the Summit's DMA, the flash subsystem and the Tarn engine serve. -/
def servedOps (r : Nat) : List Nat :=
  if r = 187 then [0x0301, 0x0302, 0x0303, 0x0304] else if r = 188 then [0x0503, 0x0504]
  else if 120 ≤ r && r < 186 then (List.range 7).map (· + 0x0407) else []

/-- ARB_WATCHDOG (R310): the grant ends and the requester is removed; its step aborts, or the operation it served ends
with ST_TIMEOUT.  A requester returns when its step has ended; one that carries no step's traffic, when the Summit has reset
its unit (of a Col port's remote access, which is neither: DESIGN CHOICE, log 71). -/
def execArbWatchdog (a : Fin 256) (s : State) : Host.Outcome State Fault Refusal :=
  run (fun m =>
    let x := m.dev.arb a.val
    match x.owner with
    | none => m
    | some r =>
      let src := r.source a.val
      let loop := m.dev.arbLoop src r.origin.served
      let m := m.mod (fun d =>
        let d := d.setArb a.val { x with
          owner := none
          waiting := x.waiting.filter (fun y => y.req != r.req)
          removed := x.removed ++ [(r.req, if (d.loop (loop.getD 16)).step.isSome then loop else none)] }
        let d := (d.cnt Reg.ARB_BITES 1).setReg Reg.ARB_BITE_LAST (a.val * 2 ^ 16 + r.req)
        match loop with
        | some n => d.raiseFor n 1 Src.ARB 0x0001 a.val r.req
        | none => d.raise 1 Src.ARB 0x0001 a.val r.req)
      match loop with
      | some n => m.abortStep n
      | none =>
        match m.dev.sdio.outstanding.find? (fun p => (servedOps src).contains p.op && m.dev.sdio.mayStart p) with
        | some p => m.fail p ST.TIMEOUT
        | none => m) s

/-- ARB_FREEZE (R311). -/
def execArbFreeze (k : Fin 8) (value : Word) (s : State) : Host.Outcome State Fault Refusal :=
  runDev (fun _ d => d.setReg (Reg.ARB_FREEZE_k k.val) value.toNat) s

def arbCounters : List Nat := [Reg.ARB_BITES]

/-- ARB_CNT_CLR (R313). -/
def execArbCntClr (s : State) : Host.Outcome State Fault Refusal := runDev (fun _ d => d.clearRegs arbCounters) s

/-! ### Scheduler writes (R284, R312, R313, R593) -/

/-- A write of SCH_CTRL.EN; ignored in boot-only mode. -/
def Dev.schEnWrite (d : Dev) (en : Bool) : Dev :=
  if d.rfB Reg.PWR_STAT Fld.PWR_STAT.BOOT_ONLY then d.wf Reg.SCH_STAT Fld.SCH_STAT.CFG_LOCKED_WRITE 1
  else d.wf Reg.SCH_CTRL Fld.SCH_CTRL.EN (b2n en)

/-- SCH_EN. -/
def execSchEn (en : Bool) (s : State) : Host.Outcome State Fault Refusal := runDev (fun _ d => d.schEnWrite en) s

def schCounters : List Nat :=
  (List.range 4).map Reg.SCH_CNT_k ++ (List.range 16).flatMap (fun n =>
    (List.range 4).map (Reg.SCH_LOOPn_CNT_k n) ++ [Reg.SCH_LOOPn_PREEMPT_T n, Reg.SCH_LOOPn_BOOST_T n])

/-- SCH_CNT_CLR. -/
def execSchCntClr (s : State) : Host.Outcome State Fault Refusal := runDev (fun _ d => d.clearRegs schCounters) s

/-- LOOP_EN_WRITE (R275, R312). -/
def execLoopEnWrite (loop : Fin 16) (en : Bool) (s : State) : Host.Outcome State Fault Refusal :=
  runDev (fun _ d => (d.wf (Reg.SCH_LOOPn_CFG loop.val) Fld.SCH_LOOPn_CFG.EN (b2n en)).retime d loop.val) s

/-! ### Loops across packages (R342, R599) -/

/-- LOOP_BOUND_REPORT (R342, R599). -/
def execLoopBoundReport (pkg : Fin 4) (loop : Fin 16) (bound : Bool) (pmap : BitVec 8)
    (sends : List CrossSend) (queues : List CrossQueue) (lists : List (Fin 96)) (s : State) :
    Host.Outcome State Fault Refusal :=
  runDev (fun mem d =>
    let n := loop.val
    let k := pkg.val
    if k = d.pkg then d
    else
      let d := d.modLoop n (fun l => { l with
        reports := AMap.set l.reports k ⟨bound, pmap.toNat, sends, queues, lists.map (·.val)⟩ })
      ((⟨mem, [], d⟩ : Mach).checkCross n).dev) s

/-! ### LOOP_CONFIG and LOOP_PREEMPT (R274, R286, R301, R312) -/

/-- A loop-configure payload that is refused with ST_BAD_PARAM. -/
def Dev.loopConfigBad (d : Dev) (p : List Byte) : Bool :=
  let n := pay8 p 0
  let base := pay64 p 20
  let size := pay32 p 28
  let area : Area := (base, size * 65536)
  n > 15 || pay8 p 1 > 2 || pay8 p 2 > 1 || pay16 p 4 = 0 || pay32 p 8 < 10 || pay32 p 8 > 16777215
    || pay32 p 12 > 16777215 || base % 65536 ≠ 0 || size > 65535
    || (size > 0 && (!inHbm area || anyArea area (((List.range 16).filter (· != n)).map d.saveArea)
      || anyArea area (d.trnAreas ++ d.tarinadyAreas)))

/-- LOOP_CONFIG: applied at once, or at the end of the loop's step. -/
def execLoopConfig (tag : BitVec 16) (s : State) : Host.Outcome State Fault Refusal :=
  run (fun m => m.cmd 0x0405 tag.toNat (fun m p =>
    let n := pay8 p.payload 0
    let l := m.dev.loop n
    if m.dev.loopConfigBad p.payload then m.fail p ST.BAD_PARAM
    else if l.step.isSome || !l.deferred.isEmpty then
      (m.mod (fun d => d.modLoop n (fun l => { l with deferred := l.deferred ++ [.config p.tag p.payload] }))).answer p
        ST.DEFERRED []
    else (m.mod (fun d => d.configNow p.payload)).ok p [])) s

/-- LOOP_PREEMPT. -/
def execLoopPreempt (tag : BitVec 16) (s : State) : Host.Outcome State Fault Refusal :=
  run (fun m => m.cmd 0x0406 tag.toNat (fun m p =>
    let n := pay8 p.payload 0
    if n > 15 then m.fail p ST.BAD_PARAM
    else match (m.dev.loop n).step with
      | none => m.fail p ST.STATE
      | some st =>
        if st.phase == .preempted then m.fail p ST.STATE
        else
          let m := m.answer p ST.DEFERRED []
          m.mod (fun d =>
            let d := (d.modStep n (fun s => { s with preemptTags := s.preemptTags ++ [p.tag] })).callPreempt n none
            match (d.loop n).step with
            | some s => if s.phase == .preempted then
                -- a restore that stops leaves the step pre-empted at once (R302)
                (s.preemptTags.foldl (fun d t => d.notify t ST.OK []) d).modStep n (fun s => { s with preemptTags := [] })
                else d
            | none => d))) s

end Sys2Proof.Machine
end

