-- ==== Sys2Proof/Machine/Hbm.lean ====
section
/-!
DEFINITION. The HBM3 controllers (R348 to R358): reads and writes with their error protection, refresh, the patrol scrub
and the power-on fill.
-/
namespace Sys2Proof.Machine

def Dev.hbmReady (d : Dev) : Bool := d.rfB Reg.HBM_STAT Fld.HBM_STAT.READY

/-- The channel and the pseudo-channel of a stack that serve an HBM address (R349): stack, channel, pseudo-channel. -/
def hbmPlace (a : Nat) : Nat × Nat × Nat :=
  let pc := pseudoChannel a
  (pc / 32, pc % 32 / 2, pc % 2)
/-- The byte offset of an HBM address in its pseudo-channel (R349). -/
def hbmOffset (a : Nat) : Nat := bits a 36 8 / 2 ^ 7 * 256 + a % 256

/-- The loop of an HBM requester's step (R306); a Tarn requester serves the step that is named. -/
def Dev.hbmLoop (d : Dev) (req : Nat) (served : Option (Fin 16)) : Nat := (d.arbLoop req served).getD 0xFF

/-- An HBM access of a requester goes ahead: the fill is complete, and no frozen arbiter on its way holds it (R311, R355). -/
def Dev.hbmGoes (d : Dev) (a n req : Nat) : Bool :=
  let p := reqPort req
  d.hbmReady && d.hbmOpen a n req && (hbmRidgeRows (a / 64 * 64) (ceilDiv (a % 64 + n) 64)).all (fun x =>
    d.meshOpen x.1 p.1 p.2 req && d.meshOpen p.1 x.1 8 req)

/-- A read of a tile failed (R354): a slot whose fill asks for the burst is POISONED, or the list's entry cannot be read. -/
def Mach.tileReadFailed (m : Mach) (t u : Nat) : Mach :=
  let x := m.dev.tile t
  let hit := (List.range 6).find? (fun i => match x.slots.getD i {} with
    | { req := some r, landed := false } => unitMeets r.addr (64 * r.rows) u
    | _ => false)
  match hit with
  | some i => m.mod (fun d =>
      (((d.modTile t (fun y => { y with slots := modAt y.slots i (fun z => { z with landed := true }) })).setOutstanding
        t).setToken t i Tok.POISONED).cnt (Reg.TILE_WR_CNT_k t 3) 1)
  | none =>
    match m.dev.list t with
    | none => m
    | some l =>
      let i := l.next + l.buf.length
      if l.bad.isSome || !unitMeets (l.addr + 16 * i) (16 * (l.count - i)) u then m
      else
        let e := max i ((u - l.addr) / 16)
        (m.mod (fun d => (d.setList t { l with bad := some e }).raiseFor l.loop 1 Src.TILE 0x0009 t e)).checkBad t

/-- The sample of a replay stream that a failed read of the burst `u` is for (R438): one of the list positions that the burst
holds, or the first position that is not done when it lies in the index or the AUGMENT table (DESIGN CHOICE, log 72). -/
def StreamSt.sampleAt (s : StreamSt) (u : Nat) : Option Nat :=
  let e := s.entry
  let open_ := ((List.range 64).map (fun i => s.cursor + i)).filter (fun q => (AMap.find s.done q).isNone)
  if Se.kind e ≠ 2 || s.closing then none
  else match open_.find? (fun q => unitMeets (Se.list e + 8 * (q % Se.listLen e)) 8 u) with
    | some q => some q
    | none =>
      if unitMeets (Se.index e) (16 * Se.indexLen e) u
          || unitMeets (Se.aug e) (16 + 16 * (Se.listLen e * Se.nauge e)) u then open_.head?
      else none

/-- The ingest engine's read failed: a step that reads a pinned buffer aborts and the tensor is corrupt (R434); else the frame
or the sample whose read it is, is corrupt (R354, R423, R424, R438). -/
def Mach.ingestReadFailed (m : Mach) (u : Nat) (served : Option (Fin 16)) : Mach :=
  match served with
  | some n =>
    (match (m.dev.loop n.val).step.bind (fun st => st.bound.find? (fun b => match b.addr with
        | some a => unitMeets a (64 * b.rows) u
        | none => false)) with
     | some b => (m.mod (fun d => d.cnt (ingCount b.stream 5) 1)).abortStep n.val
     | none => m)
  | none =>
    match m.dev.streams.find? (fun p => p.2.frame.isSome && unitMeets (Se.norm p.2.entry) 80 u) with
    | some (n, _) => m.mod (fun d => d.dropFrame n)
    | none =>
      match m.dev.streams.findSome? (fun p => (p.2.sampleAt u).map (fun q => (p.1, q))) with
      | some (n, q) => m.sampleDone n q ⟨m.sampleId n q, 8, 0, 0, []⟩
      | none => m

/-- The command that a requester serves ends with ST_FAULT. -/
def Mach.servedFails (m : Mach) (req : Nat) : Mach :=
  match m.dev.sdio.outstanding.find? (fun p => (servedOps req).contains p.op && m.dev.sdio.mayStart p) with
  | some p => m.fail p ST.FAULT
  | none => m

/-- What a read or a partial write that met an uncorrectable error means for its requester (the table of R354). -/
def Mach.hbmFailed (m : Mach) (req u : Nat) (served : Option (Fin 16)) : Mach :=
  if req < 96 then m.tileReadFailed req u
  else if req < 186 then
    (match m.dev.arbLoop req served with
     | some n => if req ≥ 120 || ((m.dev.loop n).step.any (fun st => st.phase == .restoring)) then m.abortStep n else m
     | none => m.servedFails req)
  else if req = 186 then m.ingestReadFailed u served
  else if req = 187 then m.servedFails 187
  else if req = 188 then
    (if m.dev.mapBase ≤ u && u < m.dev.mapBase + 2 ^ 31 then m.mapRebuild u
     else match m.dev.flash.wb.find? (fun w => unitMeets (m.dev.wbBase + w.slot * unitSize) unitSize u) with
       | some w => m.wbLost w
       | none => m)
  else m

/-- HBM_READ (R354): data, corrected data, or the outcome of an uncorrectable error.  Before the power-on fill is complete
the access waits (R355), and so it does at a frozen arbiter (R311). -/
def execHbmRead (addr : Fin 103079215104) (len : Nat) (req : Fin 256) (served : Option (Fin 16)) (upsets : List Upset)
    (s : State) : Host.Outcome State Fault Refusal :=
  run (fun m =>
    let n := min len (hbmSize - addr.val)
    if !m.dev.hbmGoes addr.val n req.val then m
    else
      let m := m.upsets upsets
      let (m, bad) := m.eccRead addr.val n req.val (m.dev.hbmLoop req.val served)
      match bad with
      | none => m.mod (fun d => d.dmaRows addr.val n req.val false)
      | some u => m.hbmFailed req.val u served) s

/-- HBM_WRITE (R351): whole bursts replace their check bits; a part of a burst is a read-modify-write, which writes nothing
when its read meets an uncorrectable error. -/
def execHbmWrite (addr : Fin 103079215104) (data : List Byte) (req : Fin 256) (served : Option (Fin 16))
    (upsets : List Upset) (s : State) : Host.Outcome State Fault Refusal :=
  run (fun m =>
    let bs := data.take (hbmSize - addr.val)
    if !m.dev.hbmGoes addr.val bs.length req.val then m
    else
      let m := m.upsets upsets
      let (m, bad) := m.rmwCheck addr.val bs.length req.val (m.dev.hbmLoop req.val served)
      match bad with
      | none => (m.store addr.val bs).mod (fun d => d.dmaRows addr.val bs.length req.val true)
      | some u => m.hbmFailed req.val u served) s

/-- HOT of each stack that reports above 85 °C (R356). -/
def hotBits (temps : List Int) : Nat :=
  (List.range 4).foldl (fun n i => n + b2n (decide (temps.getD i 0 > 85)) * 2 ^ i) 0

/-- HBM_REFRESH. -/
def execHbmRefresh (temps : List Int) (s : State) : Host.Outcome State Fault Refusal :=
  runDev (fun _ d => d.wf Reg.HBM_STAT Fld.HBM_STAT.HOT (hotBits temps)) s

/-- PATROL_SCRUB (R357): a correction counts under SCRUB_CE; an uncorrectable burst is recorded with requester 0xFF. -/
def execPatrolScrub (addr : Fin 103079215104) (upsets : List Upset) (s : State) : Host.Outcome State Fault Refusal :=
  runDev (fun _ d =>
    if !d.hbmReady || !d.rfB Reg.HBM_CTRL Fld.HBM_CTRL.SCRUB_EN then d
    else
      let d := upsets.foldl Dev.upset d
      let u := eccUnit addr.val
      if u ∈ d.ue then d.uncorrectable u 0xFF 0xFF
      else if u ∈ d.ce then
        { d with wb := if u ∈ d.wb then d.wb else d.wb ++ [u] }.cnt (Reg.HBM_CNT_k 4) 1
      else d) s

/-- HBM_FILL_DONE (R355): all of HBM reads as zero with valid check bits, and the boot goes on. -/
def execHbmFillDone (trainFail : BitVec 4) (s : State) : Host.Outcome State Fault Refusal :=
  runKeep (fun _ d a => d.boot.phase != .filling || decide (a ≥ hbmSize)) (fun m =>
    if m.dev.boot.phase ≠ .filling then m
    else m.mod (fun d =>
      let d := { d with
        ue := d.ue.filter (· ≥ hbmSize)
        ce := d.ce.filter (· ≥ hbmSize)
        wb := d.wb.filter (· ≥ hbmSize)
        off := d.off.filter (· ≥ hbmSize)
        flash := { d.flash with flipped := [] }
        boot := { d.boot with phase := .injecting } }
      (d.wf Reg.HBM_STAT Fld.HBM_STAT.READY 1).wf Reg.HBM_STAT Fld.HBM_STAT.TRAIN_FAIL trainFail.toNat)) s

def hbmCounters : List Nat := (List.range 5).map Reg.HBM_CNT_k

/-- HBM_CNT_CLR (R358). -/
def execHbmCntClr (s : State) : Host.Outcome State Fault Refusal := runDev (fun _ d => d.clearRegs hbmCounters) s

end Sys2Proof.Machine
end

