-- ==== Sys2Proof/Machine/Col.lean ====
section
/-!
DEFINITION. The Col ports (R314 to R347): bring-up, flits, replay and recovery, loss of a link, and the messages of the
STREAM, RESPONSE and MGMT channels.  Tarinady's own messages on the management channel have a form of this model (log 50).
-/
namespace Sys2Proof.Machine

def Dev.colCnt (d : Dev) (p k n : Nat) : Dev := d.cnt (Reg.COL_Pp_CNT_k p k) n
def Dev.portEn (d : Dev) (p : Nat) : Bool := d.rfB (Reg.COL_Pp_CTRL p) Fld.COL_Pp_CTRL.EN
def Dev.colAuto (d : Dev) : Bool := d.rfB Reg.COL_CTRL Fld.COL_CTRL.AUTO
/-- The Col ports may run: not in boot-only mode, and not after a power failure (R588, R593). -/
def Dev.colPower (d : Dev) : Bool := !d.rfB Reg.PWR_STAT Fld.PWR_STAT.BOOT_ONLY && !d.pwr.pwrFail

/-! ### Bring-up (R316, R334 to R337) -/

/-- A link starts afresh: sequence numbers, buffers and credits (R321, R327); whole messages received before stay, and so
do messages that wait and have not begun. -/
def PortSt.fresh (x : PortSt) : PortSt := { rx := x.rx, old := x.rx.map List.length, queued := x.queued }

/-- LINK_TRAIN: steps 1 to 3 of R336, with the lanes that failed. -/
def execLinkTrain (p : Fin 6) (result : TrainResult) (s : State) : Host.Outcome State Fault Refusal :=
  runDev (fun _ d =>
    let q := p.val
    let st := d.portState q
    if !d.colPower || !(st == PS.TRAINING || (st == PS.DOWN && d.colAuto && d.portEn q)) then d
    else
      let f := result.laneFail.toNat
      let a := Reg.COL_Pp_STAT q
      let d := d.wf a Fld.COL_Pp_STAT.LANE_FAIL f
      let up := fun (d : Dev) =>
        (((d.modPort q PortSt.fresh).setReg (Reg.COL_Pp_CRED q) 0).setPortState q PS.INIT).sendIdle q
      if f = 0 then up (d.wf a Fld.COL_Pp_STAT.WIDTH4 0)
      else if d.rfB (Reg.COL_Pp_CTRL q) Fld.COL_Pp_CTRL.ALLOW4 && (f % 16 == 0 || f / 16 == 0) then
        up ((d.wf a Fld.COL_Pp_STAT.WIDTH4 1).raise 0 Src.COL 0x0001 q f)
      else d.setPortState q PS.DOWN) s

/-- LINK_TRAIN_TIMEOUT: the attempt failed; the port returns to step 1 while AUTO is 1. -/
def execLinkTrainTimeout (p : Fin 6) (s : State) : Host.Outcome State Fault Refusal :=
  runDev (fun _ d =>
    if d.portState p.val ≠ PS.TRAINING then d
    else if d.colAuto then d else d.setPortState p.val PS.DOWN) s

/-! ### Messages (R330, R331) -/

/-- A message at the head of a channel. -/
structure Msg where
  op : Nat
  cls : Nat
  tag : Nat
  len : Nat
  status : Nat
  addr : Nat
  payload : List Byte
deriving DecidableEq, Repr

/-- Payload bytes that follow a header. -/
def msgPayload (op len : Nat) : Nat := if op = 0x01 then 0 else len

def msgHead (bs : List Byte) : Option Msg :=
  if bs.length < 16 then none
  else
    let op := field bs 0 1
    let len := field bs 4 2
    if bs.length < 16 + msgPayload op len then none
    else some ⟨op, field bs 1 1, field bs 2 2, len, field bs 6 2, field bs 8 8, slice bs 16 (msgPayload op len)⟩

def Msg.size (m : Msg) : Nat := 16 + m.payload.length

/-- Whole messages at the front of a byte stream, in bytes. -/
def wholeMsgs (bs : List Byte) : Nat → Nat
  | 0 => 0
  | fuel + 1 => match msgHead bs with
    | none => 0
    | some m => m.size + wholeMsgs (bs.drop m.size) fuel

/-- The operations of a channel (R326). -/
def vcOps (vc : Nat) : List Nat :=
  if vc = VC.REQUEST then [0x01, 0x02] else if vc = VC.RESPONSE then [0x10, 0x11, 0x21]
  else if vc = VC.STREAM then [0x20] else [0x30]

/-- Flits whose bytes have all left the buffer after `n` more bytes: the lengths left, and their number. -/
def popFlits : List Nat → Nat → List Nat × Nat
  | [], _ => ([], 0)
  | l :: ls, n => if l ≤ n then let (r, k) := popFlits ls (n - l); (r, k + 1) else ((l - n) :: ls, 0)

/-- `n` bytes leave the receive buffer of a channel, with the credits that return (R327). -/
def Dev.colTake (d : Dev) (p vc n : Nat) : Dev :=
  d.modPort p (fun x =>
    let (lens, k) := popFlits (x.rxLens.getD vc []) (n - x.old.getD vc 0)
    { x with
      rx := modAt x.rx vc (·.drop n)
      old := modAt x.old vc (· - n)
      rxLens := modAt x.rxLens vc (fun _ => lens)
      returned := modAt x.returned vc (fun r => (r + k) % 256) })

/-- The message at the head of a channel; one that does not belong there is discarded with its count and fault. -/
def Dev.colMsg (d : Dev) (p vc : Nat) : Dev × Option Msg :=
  match msgHead ((d.port p).rx.getD vc []) with
  | none => (d, none)
  | some m =>
    if (vcOps vc).contains m.op then (d, some m)
    else ((d.colTake p vc m.size).colCnt p 8 1 |>.raise 1 Src.COL 0x0004 p (m.op + vc * 2 ^ 8), none)

/-! ### A link goes DOWN (R325, R344, R345) -/

/-- The peer that a port leads to has become unreachable (R345). -/
def Dev.peerLost (d : Dev) (k : Nat) : Dev :=
  if d.reachable k then d
  else if d.pkg = 0 then
    let d := (List.range 16).foldl (fun d n => match (d.loop n).binding with
      | some b => if (d.peersOf b).contains k then d.wf (Reg.SCH_LOOPn_CFG n) Fld.SCH_LOOPn_CFG.EN 0 else d
      | none => d) d
    d.raise 1 Src.COL 0x0006 k 0
  else if k = 0 then { d.raise 2 Src.COL 0x0007 0 0 with col := { d.col with lost := true } } else d

/-- A command that the lead has sent to a peer ends without the peer's answer (R344, R561). -/
def Dev.endRemote (d : Dev) (tag status : Nat) : Dev :=
  let d := { d with sdio := { d.sdio with remote := AMap.erase d.sdio.remote tag } }
  match d.sdio.outstanding.find? (fun p => p.tag == tag && p.pkg != d.pkg) with
  | some p => d.reply p status []
  | none => d

/-! ### Summit accesses to other packages (R332, R339, R344) -/

/-- A Summit access ends with a status: what is left of it is dropped, and a response that arrives later finds nothing. -/
def Dev.endSummit (d : Dev) (acc status : Nat) : Dev :=
  let c := d.col
  match AMap.find c.accs acc with
  | none => d
  | some a => { d with
      readData := if a.reads && status == ST.OK then leNat a.data else d.readData
      readFlag := if a.reads && status == ST.OK then false else d.readFlag
      col := { c with
        accs := AMap.erase c.accs acc
        outstanding := List.filter (fun (x : Nat × RemoteReq) => x.2.acc != acc) c.outstanding
        waiting := c.waiting.filter (fun w => w.acc != acc)
        accStatus := status } }

/-- Flits of the RESPONSE buffer that the response to a READ of `n` bytes fills (R328). -/
def respFlits (n : Nat) : Nat := ceilDiv (16 + n) 244

/-- The RESPONSE buffer space of a port that no outstanding READ has reserved takes one more response (R328). -/
def Dev.readRoom (d : Dev) (p n : Nat) : Bool :=
  decide (d.col.outstanding.foldl (fun k (x : Nat × RemoteReq) =>
    if x.2.port = p && x.2.reads then k + respFlits x.2.len else k) (respFlits n) ≤ 128)

/-- The Col tag of the next access (R330). -/
def Dev.freeTag (d : Dev) : Nat :=
  (((List.range 4097).find? (fun i => (AMap.find d.col.outstanding ((d.col.nextTag + i) % 65536)).isNone)).getD 0
    + d.col.nextTag) % 65536

/-- The waiting messages leave in order while fewer than 4,096 are outstanding and a READ has room for its response; one whose
package no port leads to ends its access (R328, R332, R333, R344). -/
def Dev.issueAccesses (d : Dev) : Nat → Dev
  | 0 => d
  | fuel + 1 =>
    match d.col.waiting with
    | [] => d
    | w :: rest =>
      match d.portFor w.pkg 0 with
      | none => (d.endSummit w.acc ST.LINK_DOWN).issueAccesses fuel
      | some p =>
        if d.col.outstanding.length ≥ 4096 || (w.reads && !d.readRoom p w.len) then d
        else
          let tag := d.freeTag
          let d := { d with col := { d.col with
            waiting := rest
            nextTag := (tag + 1) % 65536
            outstanding := AMap.set d.col.outstanding tag ⟨p, w.reads, w.addr, w.len, w.acc⟩ } }
          (d.colSend p VC.REQUEST 16 (mkMsg (if w.reads then 0x01 else 0x02) w.cls d.pkg w.pkg tag w.len 0 w.addr
            w.data)).issueAccesses fuel

/-- The parts of an access, none of which crosses a 4 KiB boundary (R332). -/
def splitAccess (a n : Nat) : List (Nat × Nat) :=
  let k := 4096 - a % 4096
  if n ≤ k then [(a, n)] else [(a, k), (a + k, n - k)]

/-- A Summit core's access to package `k`: its messages join those that wait (R38, R332, R339). -/
def Dev.remoteAccess (d : Dev) (k cls addr n : Nat) (data : Option (List Byte)) : Dev :=
  let parts := splitAccess addr n
  let acc := d.col.nextAcc
  let d := { d with col := { d.col with
    nextAcc := acc + 1
    accs := AMap.set d.col.accs acc ⟨data.isNone, addr, parts.length, List.replicate n 0⟩
    waiting := d.col.waiting ++ parts.map (fun (x : Nat × Nat) =>
      (⟨k, data.isNone, cls, x.1, x.2, ((data.getD []).drop (x.1 - addr)).take x.2, acc⟩ : ColAccess)) } }
  d.issueAccesses 4096

/-- The effects of R325: messages not wholly acknowledged are lost, and the operations they belonged to end; the state
that follows is the caller's. -/
def Mach.portDown (m : Mach) (p next : Nat) : Mach :=
  let x := m.dev.port p
  let k := m.dev.peerOf p
  let loops := ((x.msgs.map (·.2.1) ++ x.queued.flatMap (·.map (·.who))).filter (· < 16)
    ++ (List.range 4).filterMap (m.dev.poolLoop p)).eraseDups
  let mgmt := x.msgs.any (fun y => y.1 == VC.MGMT) || !(x.queued.getD VC.MGMT []).isEmpty
  let m := m.mod (fun d =>
    let d := (d.colCnt p 7 1).raise 1 Src.COL 0x0003 p 0
    let d := d.setPort p { ({} : PortSt) with rx := x.rx.map (fun b => b.take (wholeMsgs b b.length)) }
    let d := (d.setReg (Reg.COL_Pp_CRED p) 0).setPortState p next
    let lost := List.filter (fun (q : Nat × RemoteReq) => q.2.port == p) d.col.outstanding
    let d := (lost.foldl (fun (d : Dev) (q : Nat × RemoteReq) => d.endSummit q.2.acc ST.LINK_DOWN) d).issueAccesses 4096
    if mgmt then (List.filter (fun (q : Nat × Nat) => q.2 == k) d.sdio.remote).foldl
      (fun (d : Dev) (q : Nat × Nat) => d.endRemote q.1 ST.LINK_DOWN) d
    else d)
  let m := loops.foldl (fun m n => if (m.dev.holding n).isSome then
      (m.mod (fun d => d.raiseFor n 1 Src.COL 0x0008 p 0)).abortStep n else m) m
  let m := (List.range 16).foldl (fun m n => match (m.dev.loop n).step with
    | some st => if st.phase == .saving && st.holds.any (fun h => h.1 == k && !m.dev.holdOver st h) then
        m.remoteTimeout n k none else m
    | none => m) m
  m.mod (fun d => d.peerLost k)

def Dev.linkUp (d : Dev) (p : Nat) : Bool := d.portState p == PS.UP || d.portState p == PS.RECOVERY

/-- DOWN. -/
def execDown (p : Fin 6) (s : State) : Host.Outcome State Fault Refusal :=
  run (fun m => if m.dev.linkUp p.val then m.portDown p.val PS.DOWN else m) s

/-- RETRAIN (R346): from any state to step 1 of R336. -/
def Mach.retrain (m : Mach) (p : Nat) : Mach :=
  if !m.dev.colPower then m
  else if m.dev.linkUp p then m.portDown p PS.TRAINING
  else m.mod (fun d => d.setPortState p PS.TRAINING)

def execRetrain (p : Fin 6) (s : State) : Host.Outcome State Fault Refusal := run (fun m => m.retrain p.val) s

/-- PORT_EN (R346). -/
def Mach.portEnWrite (m : Mach) (p : Nat) (en : Bool) : Mach :=
  let m := m.mod (fun d => d.wf (Reg.COL_Pp_CTRL p) Fld.COL_Pp_CTRL.EN (b2n en))
  if en then
    if m.dev.portState p = PS.DISABLED && m.dev.colPower then m.mod (fun d => d.setPortState p PS.TRAINING) else m
  else if m.dev.linkUp p then m.portDown p PS.DISABLED
  else m.mod (fun d => d.setPortState p PS.DISABLED)

def execPortEn (p : Fin 6) (en : Bool) (s : State) : Host.Outcome State Fault Refusal :=
  run (fun m => m.portEnWrite p.val en) s

/-! ### Flits (R317 to R324) -/

/-- The fields of a flit (R317, R318). -/
structure Flit where
  type : Nat
  vc : Nat
  seq : Nat
  ack : Nat
  crvc : Nat
  crcnt : Nat
  payload : List Byte
deriving DecidableEq, Repr

/-- A flit that passes its CRC and has a valid type. -/
def parseFlit (bs : List Byte) : Option Flit :=
  let h := field bs 0 8
  if bs.length ≠ 256 || crc32c (bs.take 252) ≠ field bs 252 4 || bits h 63 62 = 3 then none
  else some ⟨bits h 63 62, bits h 61 60, bits h 59 48, bits h 47 36, bits h 35 34, bits h 33 26,
    slice bs 8 (if bits h 63 62 = 1 then min 244 (bits h 25 18) else 244)⟩

/-- Bytes acknowledged leave the front of their channel's messages. -/
def ackMsgs : List (Nat × Nat × Nat) → Nat → Nat → List (Nat × Nat × Nat)
  | [], _, _ => []
  | (c, w, l) :: r, vc, n =>
    if c ≠ vc then (c, w, l) :: ackMsgs r vc n
    else if l ≤ n then ackMsgs r vc (n - l) else (c, w, l - n) :: r

/-- The flits that an ACK covers are freed (R321, R323). -/
def PortSt.acked (x : PortSt) (ack : Nat) : PortSt :=
  let done := x.unacked.filter (fun u => decide (sext 12 (ack + 4096 - u.seq) ≥ 0))
  if done.isEmpty then { x with ackIn := ack }
  else { x with
    ackIn := ack
    unacked := x.unacked.filter (fun u => decide (sext 12 (ack + 4096 - u.seq) < 0))
    resends := 0
    msgs := done.foldl (fun ms u => ackMsgs ms u.vc u.len) x.msgs }

/-- Credits that a flit reports (R318, R327). -/
def Dev.takeCredits (d : Dev) (p : Nat) (f : Flit) : Dev :=
  let seen := (d.port p).seen.getD f.crvc 0
  let n := (f.crcnt + 256 - seen) % 256
  let d := d.modPort p (fun x => { x with seen := modAt x.seen f.crvc (fun _ => f.crcnt) })
  d.wf (Reg.COL_Pp_CRED p) (credFld f.crvc) (min 255 (d.colCredits p f.crvc + n))

/-- RECOVERY begins (R324); the peer may become unreachable by it (R338, R345). -/
def Dev.portRecovery (d : Dev) (p : Nat) : Dev :=
  (((d.setPortState p PS.RECOVERY).colCnt p 6 1).raise 0 Src.COL 0x0002 p 0).peerLost (d.peerOf p)

/-- Every flit of the replay buffer is sent again, byte for byte, and the replay counted (R323); a flit that has been resent
eight times takes the port to RECOVERY (R324). -/
def Dev.replay (d : Dev) (p : Nat) : Dev :=
  let n := (d.port p).unacked.length
  let d := ((d.colCnt p 5 1).colCnt p 0 n).modPort p (fun x => { x with resends := if n = 0 then 0 else x.resends + 1 })
  if (d.port p).resends ≥ 8 then d.portRecovery p else d

/-- The identity that the other end of a port must have (R319, R335): package, port, group size and version. -/
def Dev.identity (d : Dev) (p : Nat) : Nat := d.peerOf p + peerPort p * 2 ^ 8 + d.grp * 2 ^ 16 + 2 ^ 24

/-- A package that boots over Col asks the lead for the images that it lacks, from the first byte (R340; log 11). -/
def Dev.askImages (d : Dev) : Dev :=
  { d with boot := { d.boot with recovery := [] } }.toPeer 0 [0x42, if d.boot.stage1.isSome then 2 else 1] 1

/-- An IDLE flit (R319, R336, R337). -/
def Mach.idleFlit (m : Mach) (p : Nat) (f : Flit) : Mach :=
  let id := field f.payload 0 4
  let a := Reg.COL_Pp_STAT p
  if m.dev.portState p = PS.INIT then
    if (m.dev.port p).wired then m
    else m.mod (fun d =>
      let d := (d.wf a Fld.COL_Pp_STAT.PEER_PKG (id % 256)).wf a Fld.COL_Pp_STAT.PEER_PORT (id / 256 % 256)
      if id = d.identity p then
        let first := !d.reachable (d.peerOf p)
        let d := ((d.modPort p (fun x => { x with ident := id })).setPortState p PS.UP).takeCredits p f
        if first && d.boot.phase == .colBoot && d.peerOf p = 0 then d.askImages else d
      else ((d.wf a Fld.COL_Pp_STAT.WIRING 1).modPort p (fun x => { x with wired := true })).raise 1 Src.COL 0x0005 p id)
  else if id ≠ (m.dev.port p).ident then
    (m.mod (fun d => d.wf a Fld.COL_Pp_STAT.WIRING 1)).portDown p PS.DOWN
  else m.mod (fun d => (d.modPort p (fun x => x.acked f.ack)).takeCredits p f)

/-- A DATA flit: accepted only in sequence (R322). -/
def Dev.dataFlit (d : Dev) (p : Nat) (f : Flit) : Dev :=
  let d := (d.modPort p (fun x => x.acked f.ack)).takeCredits p f
  if f.seq ≠ ((d.port p).ackOut + 1) % 4096 then d
  else (d.colCnt p 1 1).modPort p (fun x => { x with
    ackOut := f.seq
    nak := false
    rx := modAt x.rx f.vc (· ++ f.payload)
    rxLens := modAt x.rxLens f.vc (· ++ [f.payload.length]) })

/-- The codewords that carry the next flit (R315): five flits lie in two codewords, which begin in the first and in the third
of them.  The counts of the codeword that begins here, and whether the flit lies in an uncorrectable one. -/
def Dev.fecFlit (d : Dev) (p : Nat) (fec : FecResult) : Dev × Bool :=
  let x := d.port p
  let begins := x.cwPhase == 0 || x.cwPhase == 2
  let badNew := begins && fec == .uncorrectable
  let bad := badNew || (x.cwPhase != 0 && x.cwBad)
  let d := (d.colCnt p 3 (b2n (begins && fec == .corrected))).colCnt p 4 (b2n badNew)
  (d.modPort p (fun x => { x with
    cwPhase := (x.cwPhase + 1) % 5
    cwBad := if begins then badNew else x.cwBad }), bad)

/-- FLIT_RX. -/
def execFlitRx (p : Fin 6) (flit : List Byte) (fec : FecResult) (s : State) : Host.Outcome State Fault Refusal :=
  run (fun m =>
    let q := p.val
    let st := m.dev.portState q
    if st ≠ PS.INIT && st ≠ PS.UP then m
    else
      let (d, bad) := m.dev.fecFlit q fec
      let m := { m with dev := d }
      match (if bad then none else parseFlit flit) with
      | none => m.mod (fun d => (d.colCnt q 2 1).sendNak q)
      | some f =>
        let m := if f.type = 0 then m.idleFlit q f
          else if st ≠ PS.UP then m
          else if f.type = 1 then m.mod (fun d => d.dataFlit q f)
          else m.mod (fun d => ((d.modPort q (fun x => x.acked f.ack)).takeCredits q f).replay q)
        m.mod (fun d => d.colKick q 1024)) s

/-- REPLAY_TIMEOUT (R323). -/
def execReplayTimeout (p : Fin 6) (s : State) : Host.Outcome State Fault Refusal :=
  runDev (fun _ d =>
    if d.portState p.val ≠ PS.UP || (d.port p.val).unacked.isEmpty then d else d.replay p.val) s

/-- RECOVERY (R324): unacknowledged flits and no advance. -/
def execRecovery (p : Fin 6) (s : State) : Host.Outcome State Fault Refusal :=
  runDev (fun _ d =>
    if d.portState p.val ≠ PS.UP || (d.port p.val).unacked.isEmpty then d
    else d.portRecovery p.val) s

/-- CODEWORD_LOCK (R324): the port resumes by R323. -/
def execCodewordLock (p : Fin 6) (s : State) : Host.Outcome State Fault Refusal :=
  runDev (fun _ d =>
    if d.portState p.val ≠ PS.RECOVERY then d
    else
      let d := (d.setPortState p.val PS.UP).modPort p.val (fun x => { x with resends := 0, cwPhase := 0, cwBad := false })
      (if (d.port p.val).unacked.isEmpty then d else d.replay p.val).colKick p.val 1024) s

/-! ### Responses (R339) -/

/-- A response to an outstanding message: its data joins the access, which ends with the last part or with a status other than
ST_OK; one that answers nothing outstanding is discarded. -/
def Dev.endAccess (d : Dev) (m : Msg) : Dev :=
  match AMap.find d.col.outstanding m.tag with
  | none => d
  | some r =>
    let d := { d with col := { d.col with outstanding := AMap.erase d.col.outstanding m.tag } }
    match AMap.find d.col.accs r.acc with
    | none => d
    | some a =>
      let o := r.addr - a.addr
      let a := { a with
        left := a.left - 1
        data := if r.reads then a.data.take o ++ (List.range r.len).map (fun i => m.payload.getD i 0) ++ a.data.drop (o + r.len)
                else a.data }
      let d := { d with col := { d.col with accs := AMap.set d.col.accs r.acc a } }
      (if m.status ≠ ST.OK || a.left = 0 then d.endSummit r.acc m.status else d).issueAccesses 4096

/-- The response at the head of a port's RESPONSE channel. -/
def Dev.response (d : Dev) (p op : Nat) : Dev :=
  match d.colMsg p VC.RESPONSE with
  | (d, none) => d
  | (d, some m) => if m.op ≠ op then d else ((d.colTake p VC.RESPONSE m.size).endAccess m).colKick p 1024

/-- READ_RESP. -/
def execReadResp (p : Fin 6) (s : State) : Host.Outcome State Fault Refusal := runDev (fun _ d => d.response p.val 0x10) s

/-- WRITE_RESP. -/
def execWriteResp (p : Fin 6) (s : State) : Host.Outcome State Fault Refusal := runDev (fun _ d => d.response p.val 0x11) s

/-- REMOTE_ACCESS_TIMEOUT (R339, R561). -/
def execRemoteAccessTimeout (tag : BitVec 16) (s : State) : Host.Outcome State Fault Refusal :=
  runDev (fun _ d =>
    let t := tag.toNat
    match AMap.find d.col.outstanding t with
    | some r => (d.endSummit r.acc ST.TIMEOUT).issueAccesses 4096
    | none => if (AMap.find d.sdio.remote t).isSome then d.endRemote t ST.TIMEOUT else d) s

/-! ### Streams between packages (R331, R332, R342) -/

/-- COL_STREAM: whole rows on their way to a queue of a step that runs; rows wait in the port's buffer until the step of
their loop has started, and are dropped when the loop has no queue for them. -/
def execColStream (p : Fin 6) (s : State) : Host.Outcome State Fault Refusal :=
  runDev (fun _ d =>
    let q := p.val
    match d.colMsg q VC.STREAM with
    | (d, none) => d
    | (d, some msg) =>
      let t := bits msg.addr 6 0
      let lq := bits msg.addr 10 7
      let n := bits msg.addr 14 11
      let k := d.peerOf q
      match (d.loop n).step with
      | none => if (d.loop n).binding.isSome then d else d.colTake q VC.STREAM msg.size
      | some st =>
        if st.phase != .running && st.phase != .saving then d
        else
          let d := d.colTake q VC.STREAM msg.size
          let src := d.reg (Reg.TILE_LQn_SRC t lq)
          if !st.b.holdsTile t || d.reg (Reg.TILE_LQn_CFG t lq) / 2 ^ 31 = 0 || bits src 31 28 ≠ k then d
          else if d.fenced t then
            -- the destination crossbar rejects the row, and the package that sent it is told (R144; log 67)
            d.toPeer k [0x4F, BitVec.ofNat 8 n, BitVec.ofNat 8 t, BitVec.ofNat 8 lq] 1
          else
            let rows := List.range (msg.payload.length / 64)
            let d := rows.foldl (fun (d : Dev) i =>
              d.putRow t lq ⟨none, 0, slice msg.payload (64 * i) 64, colRidge q, 0x200 + q, 0⟩) d
            d.modStep n (fun st => { st with rowsFrom := AMap.set st.rowsFrom k (AMap.getD st.rowsFrom k 0 + rows.length) })) s

/-- QCREDIT: credits of a queue in the peer's package. -/
def execQcredit (p : Fin 6) (s : State) : Host.Outcome State Fault Refusal :=
  runDev (fun _ d =>
    let q := p.val
    match d.colMsg q VC.RESPONSE with
    | (d, none) => d
    | (d, some msg) =>
      if msg.op ≠ 0x21 then d
      else
        let d := d.colTake q VC.RESPONSE msg.size
        let key := prodKey (d.peerOf q) (bits msg.addr 6 0) (bits msg.addr 10 7)
        let n := bits msg.addr 14 11
        let c := bits msg.addr 30 15
        match (d.loop n).step with
        | some st =>
          if st.phase == .preempted || st.phase == .restoring then
            d.modStep n (fun st => { st with farCredits := AMap.set st.farCredits key (AMap.getD st.farCredits key 0 + c) })
          else { d with credits := AMap.set d.credits key (AMap.getD d.credits key 0 + c) }
        | none => d) s

/-! ### The management channel (R299, R331, R338, R340, R342, R561) -/

/-- The answer to a hold (R299). -/
def Dev.holdAnswer (d : Dev) (k n c : Nat) : Dev :=
  d.modStep n (fun st => { st with holds := st.holds.map (fun h => if h.1 = k then (k, some c) else h) })

/-- The peer's step has resumed: its sends go on. -/
def Dev.holdEnds (d : Dev) (k n : Nat) : Dev :=
  (d.modLoop n (fun l => { l with heldBy := l.heldBy.filter (· != k) })).modStep n (fun st => { st with heldBy := st.heldBy.filter (· != k) })

/-- A packet from a peer: a command that the lead carries here, or the reply to one that this package carried (R561). -/
def Dev.peerPacket (d : Dev) (k : Nat) (bs : List Byte) : Dev :=
  let op := field bs 2 2
  let tag := field bs 4 2
  let flags := field bs 6 1
  let len := field bs 8 4
  if flags % 2 = 0 then
    let p : Packet := { op := op, tag := tag, fence := bit flags 1, pkg := d.pkg, payload := slice bs 16 len, stamp := d.stamp }
    { d with
      sdio := { d.sdio with outstanding := d.sdio.outstanding ++ [p] }
      col := { d.col with served := d.col.served ++ [(tag, k)] } }
  else if bit flags 2 then
    let d := { d with sdio := { d.sdio with deferred := d.sdio.deferred.filter (fun x => x.1 != tag) } }
    d.place bs none
  else if (AMap.find d.sdio.remote tag).isNone then d
  else
    let st := field bs 12 2
    let d := { d with sdio := { d.sdio with
      remote := AMap.erase d.sdio.remote tag
      deferred := if st = ST.DEFERRED then d.sdio.deferred ++ [(tag, op)] else d.sdio.deferred } }
    let d := if st = ST.OK || st = ST.DEFERRED then d else d.cnt (Reg.SDIO_CNT_k 7) 1
    d.place bs (some tag)

/-- A report of R342 in the form of this model (log 50): loop, bound, map, the counts, the logical tiles with a list as
twelve bytes of bits, sends of four bytes and queues of six. -/
def Mach.peerReport (m : Mach) (k : Nat) (bs : List Byte) : Mach :=
  let n := field bs 1 1 % 16
  let ns := field bs 4 2
  let nq := field bs 6 2
  let byte := fun (k : Nat) [NeZero k] (o : Nat) => Fin.ofNat k (field bs o 1)
  let sends := (List.range ns).map (fun i =>
    let o := 20 + 4 * i
    (⟨byte 128 o, byte 4 (o + 1), byte 96 (o + 2), byte 16 (o + 3)⟩ : CrossSend))
  let queues := (List.range nq).map (fun i =>
    let o := 20 + 4 * ns + 6 * i
    (⟨byte 4 o, byte 96 (o + 1), byte 96 (o + 2), byte 16 (o + 3), Fin.ofNat 32769 (field bs (o + 4) 2)⟩ : CrossQueue))
  let lists := (List.range 96).filter (bit (field bs 8 12))
  (m.mod (fun d => d.modLoop n (fun l => { l with
    reports := AMap.set l.reports k ⟨field bs 2 1 != 0, field bs 3 1, sends, queues, lists⟩ }))).checkCross n

/-- The size of the item at the front of a peer's management bytes; none while it is not whole, 0 for no known item. -/
def itemSize (bs : List Byte) : Option Nat :=
  match bs with
  | [] => none
  | b :: _ =>
    let need := fun n => if bs.length ≥ n then some n else none
    match b.toNat with
    | 0x48 => need 2
    | 0x52 => need 2
    | 0x41 => need 6
    | 0x42 => need 2
    | 0x4E => need 4
    | 0x4F => need 4
    | 0x54 => need 9
    | 0x55 => need 25
    | 0x4C => if bs.length < 8 then none else need (20 + 4 * field bs 4 2 + 6 * field bs 6 2)
    | 0x5A => if bs.length < 16 then none else need (16 + (if field bs 8 4 = 0 then 0 else field bs 8 4 + 4))
    | _ => some 0

/-- The send of loop `n` that a row to queue `q` of tile `t` in package `k` belongs to: the oldest that has rows on their way. -/
def Dev.sendTo (d : Dev) (k n t q : Nat) : Option (Nat × Nat) :=
  match (d.loop n).step with
  | none => none
  | some st => List.findSome? (fun (x : Nat × ListSt) =>
      if x.2.loop ≠ n then none
      else (x.2.flights.find? (fun f => f.kind == K.SEND && decide (f.landed < f.sent)
        && (st.b.dest (Send.dpkg f.word) (Send.dtile f.word) (Send.dq f.word)).key == prodKey k t q)).map
          (fun f => (x.1, f.entry))) d.lists

/-- A row that this package sent has landed in package `k`, or its fenced tile has rejected it (R144, R187; log 67). -/
def Mach.farRow (m : Mach) (k : Nat) (landed : Bool) (n t q : Nat) : Mach :=
  match m.dev.sendTo k n t q with
  | none => m
  | some (key, entry) => if landed then m.landed key entry else m.fencedDest n key entry t

/-- The answer of the lead to a stamped message, and what the exchange gives (R341). -/
def Dev.tsyncItem (d : Dev) (k : Nat) (x : List Byte) : Dev :=
  if field x 0 1 = 0x54 then
    (if d.pkg ≠ 0 then d else d.toPeer k ([0x55] ++ slice x 1 8 ++ leBytes 8 d.stamp ++ leBytes 8 d.stamp) 1)
  else { d with col := { d.col with exchange := some (field x 1 8, field x 9 8, field x 17 8, d.stamp) } }

/-- The whole items at the front of a peer's management bytes, in order. -/
def Mach.mgmtItems (m : Mach) (k : Nat) : Nat → Mach
  | 0 => m
  | fuel + 1 =>
    let bs := AMap.getD m.dev.col.mgmt k []
    let put := fun (m : Mach) (bs : List Byte) => m.mod (fun d =>
      { d with col := { d.col with mgmt := if bs.isEmpty then AMap.erase d.col.mgmt k else AMap.set d.col.mgmt k bs } })
    match itemSize bs with
    | none => m
    | some 0 => put m []
    | some n =>
      let m := put m (bs.drop n)
      let x := bs.take n
      let m := match field x 0 1 with
        | 0x48 => m.mod (fun d => d.hold k (field x 1 1 % 16))
        | 0x52 => m.mod (fun d => d.holdEnds k (field x 1 1 % 16))
        | 0x41 => m.mod (fun d => d.holdAnswer k (field x 1 1 % 16) (field x 2 4))
        | 0x42 => m.mod (fun d => { d with col := { d.col with
            booting := d.col.booting.filter (fun y => y.1 != k) ++ [(k, field x 1 1)] } })
        | 0x4C => m.peerReport k x
        | 0x4E => m.farRow k true (field x 1 1 % 16) (field x 2 1) (field x 3 1)
        | 0x4F => m.farRow k false (field x 1 1 % 16) (field x 2 1) (field x 3 1)
        | 0x54 => m.mod (fun d => d.tsyncItem k x)
        | 0x55 => m.mod (fun d => d.tsyncItem k x)
        | _ => m.mod (fun d => d.peerPacket k x)
      Mach.mgmtItems m k fuel

def colCounters : List Nat := (List.range 6).flatMap (fun p => (List.range 9).map (Reg.COL_Pp_CNT_k p))

/-- COL_CNT_CLR (R347). -/
def execColCntClr (s : State) : Host.Outcome State Fault Refusal := runDev (fun _ d => d.clearRegs colCounters) s

end Sys2Proof.Machine
end

