-- ==== Sys2Proof/Machine/Crypto.lean ====
section
/-!
DEFINITION. The hash and the signature of R518: SHA-384 of FIPS 180-4, and ECDSA verification over the curve
brainpoolP384r1 of RFC 5639.
-/
namespace Sys2Proof

/-! ### SHA-384 -/

def shaK0 : List DWord := [
  0x428A2F98D728AE22, 0x7137449123EF65CD, 0xB5C0FBCFEC4D3B2F, 0xE9B5DBA58189DBBC,
  0x3956C25BF348B538, 0x59F111F1B605D019, 0x923F82A4AF194F9B, 0xAB1C5ED5DA6D8118,
  0xD807AA98A3030242, 0x12835B0145706FBE, 0x243185BE4EE4B28C, 0x550C7DC3D5FFB4E2,
  0x72BE5D74F27B896F, 0x80DEB1FE3B1696B1, 0x9BDC06A725C71235, 0xC19BF174CF692694]
def shaK1 : List DWord := [
  0xE49B69C19EF14AD2, 0xEFBE4786384F25E3, 0x0FC19DC68B8CD5B5, 0x240CA1CC77AC9C65,
  0x2DE92C6F592B0275, 0x4A7484AA6EA6E483, 0x5CB0A9DCBD41FBD4, 0x76F988DA831153B5,
  0x983E5152EE66DFAB, 0xA831C66D2DB43210, 0xB00327C898FB213F, 0xBF597FC7BEEF0EE4,
  0xC6E00BF33DA88FC2, 0xD5A79147930AA725, 0x06CA6351E003826F, 0x142929670A0E6E70]
def shaK2 : List DWord := [
  0x27B70A8546D22FFC, 0x2E1B21385C26C926, 0x4D2C6DFC5AC42AED, 0x53380D139D95B3DF,
  0x650A73548BAF63DE, 0x766A0ABB3C77B2A8, 0x81C2C92E47EDAEE6, 0x92722C851482353B,
  0xA2BFE8A14CF10364, 0xA81A664BBC423001, 0xC24B8B70D0F89791, 0xC76C51A30654BE30,
  0xD192E819D6EF5218, 0xD69906245565A910, 0xF40E35855771202A, 0x106AA07032BBD1B8]
def shaK3 : List DWord := [
  0x19A4C116B8D2D0C8, 0x1E376C085141AB53, 0x2748774CDF8EEB99, 0x34B0BCB5E19B48A8,
  0x391C0CB3C5C95A63, 0x4ED8AA4AE3418ACB, 0x5B9CCA4F7763E373, 0x682E6FF3D6B2B8A3,
  0x748F82EE5DEFB2FC, 0x78A5636F43172F60, 0x84C87814A1F0AB72, 0x8CC702081A6439EC,
  0x90BEFFFA23631E28, 0xA4506CEBDE82BDE9, 0xBEF9A3F7B2C67915, 0xC67178F2E372532B]
def shaK4 : List DWord := [
  0xCA273ECEEA26619C, 0xD186B8C721C0C207, 0xEADA7DD6CDE0EB1E, 0xF57D4F7FEE6ED178,
  0x06F067AA72176FBA, 0x0A637DC5A2C898A6, 0x113F9804BEF90DAE, 0x1B710B35131C471B,
  0x28DB77F523047D84, 0x32CAAB7B40C72493, 0x3C9EBE0A15C9BEBC, 0x431D67C49C100D4C,
  0x4CC5D4BECB3E42B6, 0x597F299CFC657E2A, 0x5FCB6FAB3AD6FAEC, 0x6C44198C4A475817]
/-- The round constants of FIPS 180-4. -/
def shaK : List DWord := shaK0 ++ shaK1 ++ shaK2 ++ shaK3 ++ shaK4

/-- The initial value of SHA-384. -/
def sha384Init : List DWord := [
  0xCBBB9D5DC1059ED8, 0x629A292A367CD507, 0x9159015A3070DD17, 0x152FECD8F70E5939,
  0x67332667FFC00B31, 0x8EB44A8768581511, 0xDB0C2E0D64F98FA7, 0x47B5481DBEFA4FA4]

def shaSmall0 (x : DWord) : DWord := x.rotateRight 1 ^^^ x.rotateRight 8 ^^^ (x >>> 7)
def shaSmall1 (x : DWord) : DWord := x.rotateRight 19 ^^^ x.rotateRight 61 ^^^ (x >>> 6)
def shaBig0 (x : DWord) : DWord := x.rotateRight 28 ^^^ x.rotateRight 34 ^^^ x.rotateRight 39
def shaBig1 (x : DWord) : DWord := x.rotateRight 14 ^^^ x.rotateRight 18 ^^^ x.rotateRight 41

/-- The 64-bit words of a block, big-endian. -/
def shaWords (b : List Byte) : List DWord := (List.range 16).map (fun i => BitVec.ofNat 64 (beNat ((b.drop (8 * i)).take 8)))

/-- The message schedule, newest word first: 16 words of the block extended to 80. -/
def shaSchedule : Nat → List DWord → List DWord
  | 0, w => w
  | n + 1, w => shaSchedule n ((shaSmall1 (w.getD 1 0) + w.getD 6 0 + shaSmall0 (w.getD 14 0) + w.getD 15 0) :: w)

/-- One round on the working variables a to h. -/
def shaRound (v : List DWord) (kw : DWord) : List DWord :=
  match v with
  | [a, b, c, d, e, f, g, h] =>
    let t1 := h + shaBig1 e + ((e &&& f) ^^^ (~~~e &&& g)) + kw
    let t2 := shaBig0 a + ((a &&& b) ^^^ (a &&& c) ^^^ (b &&& c))
    [t1 + t2, a, b, c, d + t1, e, f, g]
  | _ => v

/-- The hash value after one block of 128 bytes. -/
def shaBlock (hv : List DWord) (b : List Byte) : List DWord :=
  let ws := (shaSchedule 64 (shaWords b).reverse).reverse
  let v := ((shaK.zip ws).map (fun p => p.1 + p.2)).foldl shaRound hv
  (hv.zip v).map (fun p => p.1 + p.2)

def shaBlocks : Nat → List DWord → List Byte → List DWord
  | 0, hv, _ => hv
  | n + 1, hv, bs => shaBlocks n (shaBlock hv (bs.take 128)) (bs.drop 128)

/-- SHA-384 of a string of bytes. -/
def sha384 (bs : List Byte) : List Byte :=
  let n := bs.length
  let pad := (239 - n % 128) % 128
  let m := bs ++ [0x80] ++ List.replicate pad 0 ++ beBytes 16 (8 * n)
  ((shaBlocks (m.length / 128) sha384Init m).take 6).flatMap (fun w => beBytes 8 w.toNat)

/-! ### brainpoolP384r1 (RFC 5639) -/

def ecP : Nat := 0x8CB91E82A3386D280F5D6F7E50E641DF152F7109ED5456B412B1DA197FB71123ACD3A729901D1A71874700133107EC53
def ecA : Nat := 0x7BC382C63D8C150C3C72080ACE05AFA0C2BEA28E4FB22787139165EFBA91F90F8AA5814A503AD4EB04A8C7DD22CE2826
def ecB : Nat := 0x4A8C7DD22CE28268B39B55416F0447C2FB77DE107DCD2A62E880EA53EEB62D57CB4390295DBC9943AB78696FA504C11
def ecGx : Nat := 0x1D1C64F068CF45FFA2A63A81B7C13F6B8847A3E77EF14FE3DB7FCAFE0CBD10E8E826E03436D646AAEF87B2E247D4AF1E
def ecGy : Nat := 0x8ABE1D7520F9C2A45CB1EB8E95CFD55262B70B29FEEC5864E19C054FF99129280E4646217791811142820341263C5315
/-- The order of the base point; the cofactor is 1. -/
def ecN : Nat := 0x8CB91E82A3386D280F5D6F7E50E641DF152F7109ED5456B31F166E6CAC0425A7CF3AB6AF6B7FC3103B883202E9046565

/-- x^e modulo m, by the bits of e. -/
def powMod (m : Nat) : Nat → Nat → Nat → Nat
  | 0, _, _ => 1 % m
  | k + 1, x, e => (if e % 2 = 1 then x else 1) * powMod m k (x * x % m) (e / 2) % m

/-- The inverse modulo a prime of at most 384 bits. -/
def invMod (m x : Nat) : Nat := powMod m 384 (x % m) (m - 2)

/-- A point of the curve in Jacobian coordinates: x = X / Z^2, y = Y / Z^3; Z = 0 is the point at infinity. -/
structure EcPoint where
  x : Nat
  y : Nat
  z : Nat
deriving DecidableEq, Repr

/-- a - b modulo p. -/
def ecSub (a b : Nat) : Nat := (a + (ecP - b % ecP)) % ecP

def EcPoint.double (p : EcPoint) : EcPoint :=
  let ys := p.y * p.y % ecP
  let s := 4 * p.x * ys % ecP
  let m := (3 * p.x * p.x + ecA * powMod ecP 3 p.z 4) % ecP
  let x := ecSub (m * m) (2 * s)
  { x := x
    y := ecSub (m * ecSub s x) (8 * ys * ys)
    z := 2 * p.y * p.z % ecP }

def EcPoint.add (p q : EcPoint) : EcPoint :=
  if p.z = 0 then q
  else if q.z = 0 then p
  else
    let zp := p.z * p.z % ecP
    let zq := q.z * q.z % ecP
    let u1 := p.x * zq % ecP
    let u2 := q.x * zp % ecP
    let s1 := p.y * zq * q.z % ecP
    let s2 := q.y * zp * p.z % ecP
    if u1 = u2 then (if s1 = s2 then p.double else { x := 1, y := 1, z := 0 })
    else
      let h := ecSub u2 u1
      let r := ecSub s2 s1
      let hh := h * h % ecP
      let hhh := hh * h % ecP
      let v := u1 * hh % ecP
      let x := ecSub (ecSub (r * r) hhh) (2 * v)
      { x := x
        y := ecSub (r * ecSub v x) (s1 * hhh)
        z := h * p.z * q.z % ecP }

/-- k times a point, by `n` bits of k from the low end. -/
def EcPoint.times : Nat → Nat → EcPoint → EcPoint
  | 0, _, _ => { x := 1, y := 1, z := 0 }
  | n + 1, k, p =>
    let r := EcPoint.times n (k / 2) p.double
    if k % 2 = 1 then r.add p else r

/-- A public key of R518 that names a point of the curve. -/
def ecKey (key : List Byte) : Option EcPoint :=
  let x := beNat ((key.drop 1).take 48)
  let y := beNat ((key.drop 49).take 48)
  if key.length = 97 && key.getD 0 0 == 4 && decide (x < ecP) && decide (y < ecP)
      && (y * y) % ecP == (x * x * x + ecA * x + ecB) % ecP then some { x := x, y := y, z := 1 }
  else none

/-- The signature verifies under the key, over the SHA-384 of `msg` (R518). -/
def ecdsaOk (key sig msg : List Byte) : Bool :=
  match ecKey key with
  | none => false
  | some q =>
    let r := beNat (sig.take 48)
    let s := beNat ((sig.drop 48).take 48)
    if r = 0 || s = 0 || decide (r ≥ ecN) || decide (s ≥ ecN) then false
    else
      let e := beNat (sha384 msg)
      let w := invMod ecN s
      let t := (EcPoint.times 384 (e * w % ecN) { x := ecGx, y := ecGy, z := 1 }).add (EcPoint.times 384 (r * w % ecN) q)
      if t.z = 0 then false
      else
        let zi := invMod ecP t.z
        (t.x * zi % ecP * zi % ecP) % ecN == r

end Sys2Proof
end

