-- ==== Sys2Proof/Machine/Flash.lean ====
section
/-!
DEFINITION. The flash subsystem's own events (R359 to R374): mount and stop, NAND operations, journal and checkpoint,
the scrub, garbage collection, the close and the resume.
-/
namespace Sys2Proof.Machine

/-- The subsystem serves its array. -/
def Dev.flServing (d : Dev) : Bool := d.flState == FL.READY || d.flState == FL.READONLY

/-- The state after a mount or a resume: no spare block leaves READONLY (R363). -/
def Dev.flServe (d : Dev) : Dev := d.setFlState (if d.flash.spare = 0 then FL.READONLY else FL.READY)

/-- Flash commands that have not started end with ST_STATE when a close begins (R372). -/
def Dev.endFlashCmds (d : Dev) : Dev :=
  (d.sdio.outstanding.filter (fun p => p.pkg == d.pkg && p.op / 256 == 5 && !d.sdio.executed p.tag)).foldl
    (fun d p => d.reply p ST.STATE []) d

/-- A close begins (R372). -/
def Dev.flClose (d : Dev) : Dev :=
  if d.flServing then ((d.setFlState FL.CLOSING).wf Reg.FL_STAT Fld.FL_STAT.CLEAN 0).endFlashCmds else d

/-- A write of FL_CTRL.EN (R374): 1 mounts, 0 stops after a close. -/
def Dev.flEnWrite (d : Dev) (en : Bool) : Dev :=
  let was := d.flEnabled
  let d := d.wf Reg.FL_CTRL Fld.FL_CTRL.EN (b2n en)
  if en && !was then (if d.flState = FL.OFF then d.setFlState FL.MOUNTING else d)
  else if !en && was then
    (if d.flServing then d.flClose
     else if d.flState = FL.CLOSING then d
     else d.setFlState FL.OFF)
  else d

/-- FL_EN. -/
def execFlEn (en : Bool) (s : State) : Host.Outcome State Fault Refusal := runDev (fun _ d => d.flEnWrite en) s

/-- Every buffered unit is programmed. -/
def Mach.programAll (m : Mach) : Mach := (List.range m.dev.flash.wb.length).foldl (fun m _ => m.programOldest) m

/-- A journal page is programmed with up to 1,020 records (R369). -/
def Mach.journalPage (m : Mach) : Mach :=
  if m.dev.flash.records = 0 then m
  else m.mod (fun d =>
    let rest := d.flash.records - 1020
    (d.modFlash (fun f => { f with
      records := rest
      pages := f.pages + 1
      unjournaled := if rest = 0 then [] else f.unjournaled })).cnt (Reg.FL_CNT_k 4) 1)

/-- JOURNAL_FLUSH (R369). -/
def execJournalFlush (s : State) : Host.Outcome State Fault Refusal :=
  run (fun m => if m.dev.flServing then m.journalPage else m) s

/-- CHECKPOINT (R369): after 4,096 journal pages, to the other system area. -/
def execCheckpoint (s : State) : Host.Outcome State Fault Refusal :=
  runDev (fun _ d =>
    if !d.flServing || d.flash.pages < 4096 then d
    else d.modFlash (fun f => { f with pages := 0, area := 1 - f.area })) s

/-- NAND_OPERATION_DONE (R361 to R363, R368). -/
def execNandOperationDone (op : NandOp) (s : State) : Host.Outcome State Fault Refusal :=
  run (fun m =>
    if !m.dev.flServing && m.dev.flState ≠ FL.CLOSING then m
    else match op with
      | .program outcome =>
        (match outcome, m.dev.flash.wb with
         | .failed, w :: _ => m.growBad (m.dev.flash.blockOf w.unit)
         | _, _ => m.programOldest)
      | .erase b outcome =>
        -- a block that still holds valid data is not erased (R367)
        if outcome = .failed then m.growBad b
        else if (m.dev.flash.inBlock b).isEmpty then m.mod (fun d => d.eraseBlock b) else m
      | .read u b outcome => (m.nandRead u b outcome).1) s

/-- RETENTION_SCRUB (R365). -/
def execRetentionScrub (block corrected : Nat) (neededRetry : Bool) (s : State) : Host.Outcome State Fault Refusal :=
  run (fun m =>
    let us := m.dev.flash.inBlock block
    if !m.dev.flServing || us.isEmpty then m
    else if corrected > m.dev.rf Reg.FL_POLICY Fld.FL_POLICY.SCRUB_THR || neededRetry then
      (m.moveUnits us).mod (fun d => d.cnt (Reg.FL_CNT_k 3) 1)
    else m) s

/-- The block with the fewest valid units. -/
def FlashSt.leastValid (f : FlashSt) : Option Nat :=
  let bs := f.map.foldl (fun (l : AMap Nat) p => AMap.set l (pageBlock p.2) (AMap.getD l (pageBlock p.2) 0 + 1)) []
  (bs.foldl (fun (best : Option (Nat × Nat)) x => match best with
    | none => some x
    | some y => if x.2 < y.2 then some x else some y) none).map (·.1)

/-- The data block of the lowest erase count, when the counts of data blocks differ by more than WEAR_THR (R364). -/
def Dev.wornApart (d : Dev) : Option Nat :=
  let bs := (d.flash.map.map (fun x => pageBlock x.2)).eraseDups
  match bs.sortLe (fun a b => d.flash.erased a ≤ d.flash.erased b) with
  | [] => none
  | b :: rest =>
    let most := rest.foldl (fun n x => max n (d.flash.erased x)) (d.flash.erased b)
    if most - d.flash.erased b > 16 * d.rf Reg.FL_POLICY Fld.FL_POLICY.WEAR_THR then some b else none

/-- GARBAGE_COLLECT (R364): wear levelling where the erase counts are too far apart, else garbage collection. -/
def execGarbageCollect (s : State) : Host.Outcome State Fault Refusal :=
  run (fun m =>
    match m.dev.flServing, m.dev.wornApart, m.dev.flash.leastValid with
    | true, some b, _ => m.moveUnits (m.dev.flash.inBlock b)
    | true, none, some b => m.moveUnits (m.dev.flash.inBlock b)
    | _, _, _ => m) s

/-- FLASH_CLOSED (R372): buffered pages, the last journal page and the close marker are programmed. -/
def execFlashClosed (s : State) : Host.Outcome State Fault Refusal :=
  run (fun m =>
    if m.dev.flState ≠ FL.CLOSING then m
    else
      let m := m.programAll.journalPage
      m.mod (fun d =>
        let d := d.modFlash (fun f => { f with records := 0, unjournaled := [] })
        let d := (d.cnt (Reg.FL_CNT_k 5) 1).wf Reg.FL_STAT Fld.FL_STAT.CLEAN 1
        d.setFlState (if d.flEnabled then FL.CLOSED else FL.OFF))) s

/-- FLASH_RESUME (R373). -/
def execFlashResume (s : State) : Host.Outcome State Fault Refusal :=
  runDev (fun _ d =>
    if d.flEnabled && (d.flState = FL.CLOSING || d.flState = FL.CLOSED) then d.flServe else d) s

def flCounters : List Nat := (List.range 8).map Reg.FL_CNT_k

/-- FL_CNT_CLR (R363). -/
def execFlCntClr (s : State) : Host.Outcome State Fault Refusal := runDev (fun _ d => d.clearRegs flCounters) s

/-- A reset without a close (R374, R580): each buffered unit, and each unit whose latest change is in no programmed
journal page, holds either its old or its new content: an open choice. -/
def Mach.flashCut (m : Mach) : Mach :=
  let serving := m.dev.flServing || m.dev.flState = FL.CLOSING
  if !serving then m
  else
    let m := m.dev.flash.wb.foldl (fun m w =>
      let (i, d) := m.dev.fresh
      let m := { m with dev := d }
      if Config.freeBit i then
        (m.store (flashMem + w.unit * unitSize) (m.rdBytes (m.dev.wbBase + w.slot * unitSize) unitSize)).mod
          (fun d => d.modFlash (fun f => { f with unjournaled := f.unjournaled.filter (fun x => x.1 != w.unit) }))
      else m.mod (fun d => d.modFlash (fun f => { f with
        unjournaled := f.unjournaled.filter (fun x => x.1 != w.unit)
        map := match w.old with
          | some p => AMap.set f.map w.unit p
          | none => AMap.erase f.map w.unit }))) m
    let m := m.dev.flash.unjournaled.foldl (fun m x =>
      let (i, d) := m.dev.fresh
      let m := { m with dev := d }
      if Config.freeBit i then m
      else (m.store (flashMem + x.1 * unitSize) (m.rdBytes (flashOld + x.1 * unitSize) unitSize)).mod
        (fun d => d.modFlash (fun f => { f with
          map := match x.2 with
            | some p => AMap.set f.map x.1 p
            | none => AMap.erase f.map x.1 }))) m
    m.mod (fun d => d.modFlash (fun f => { f with wb := [], unjournaled := [], records := 0 }))

/-- The 2 GiB region that the mount fills with the map: everything in it reads as unmapped entries first. -/
def mountKeep (d : Dev) (a : Nat) : Bool :=
  d.flState != FL.MOUNTING || decide (a < d.mapBase) || decide (a ≥ d.mapBase + 2 ^ 31)

/-- The targets of an array in channel-major order: those in use, and those that R360 leaves unused, for a geometry outside
R359 or a total beyond 8 TiB. -/
def useTargets (ts : List TargetGeom) : List TargetGeom × List TargetGeom :=
  (ts.sortLe (fun a b => targetUnit a ≤ targetUnit b)).foldl (fun (p : List TargetGeom × List TargetGeom) g =>
    if targetOk g && decide ((p.1.foldl (fun n x => n + targetBytes x) 0) + targetBytes g ≤ 2 ^ 43) then (p.1 ++ [g], p.2)
    else (p.1, p.2 ++ [g])) ([], [])

/-- The faults of the targets left unused. -/
def Dev.badTargets (d : Dev) (ts : List TargetGeom) : Dev :=
  ts.foldl (fun d x => (d.wf Reg.FL_STAT Fld.FL_STAT.GEOM 1).raise 0 Src.FLASH 0x0001 (targetUnit x) 0) d

/-- The logical capacity fixed at format (R366), and the firmware regions created at format (R375); what is known of the
array itself stays. -/
def FlashSt.format (f : FlashSt) (goodPages spare : Nat) : FlashSt :=
  { flipped := f.flipped
    geom := f.geom
    erases := f.erases
    bad := f.bad
    formatted := true
    capacity := min 536870912 (goodPages * 9 / 10)
    spare := spare
    regions := [(0, { kind := 0, first := 0, units := 4096 }), (1, { kind := 0, first := 4096, units := 4096 })] }

/-- The map of an array written to its HBM region: every entry unmapped, then the mapped ones; every burst of the region gets
fresh check bits. -/
def Mach.placeMap (m : Mach) : Mach :=
  let m := m.mod (fun d =>
    let keep := List.filter (fun (u : Nat) => decide (u < d.mapBase) || decide (u ≥ d.mapBase + 2 ^ 31))
    { d with ue := keep d.ue, ce := keep d.ce, wb := keep d.wb, off := keep d.off }.modFlash (fun f =>
      { f with flipped := if f.flipped.contains (d.mapBase / 2 ^ 31) then f.flipped
                          else f.flipped ++ [d.mapBase / 2 ^ 31] }))
  m.dev.flash.map.foldl (fun m p => m.storeNat (m.dev.mapBase + 4 * p.1) 4 p.2) m

/-- What a mount does (R360, R374). -/
def Mach.mountDone (m : Mach) (found : MountFound) : Mach :=
  if m.dev.flState ≠ FL.MOUNTING then m
  else
    let (good, unused) := useTargets found.targets
    let m := m.mod (fun d => (d.badTargets unused).modFlash (fun f => { f with geom := good }))
    let mask := (List.range 8).foldl (fun n c => n + b2n (good.any (fun x => x.chan.val == c)) * 2 ^ c) 0
    let m := m.mod (fun d => d.wf Reg.FL_STAT Fld.FL_STAT.TARGETS mask)
    if good.isEmpty then m.mod (fun d => d.setFlState FL.FAILED)
    else if !found.formatted then m.mod (fun d => d.setFlState FL.BLANK)
    else
      let m := m.mod (fun d =>
        if d.flash.formatted then d
        else d.modFlash (fun f => FlashSt.format f found.goodPages found.spareBlocks))
      let m := m.placeMap
      m.mod (fun d =>
        let d := d.modFlash (fun f => { f with wb := [], unjournaled := [], records := 0 })
        let d := d.wf Reg.FL_STAT Fld.FL_STAT.CLEAN (b2n found.closeMarker)
        let d := if found.closeMarker then d else (d.cnt (Reg.FL_CNT_k 6) 1).raise 1 Src.FLASH 0x0007 0xFFFF 0
        d.flServe)

end Sys2Proof.Machine
end

