-- ==== Sys2Proof/Machine/Cv.lean ====
section
/-!
DEFINITION. The check-value units (R377 to R382): jobs and slices, claims, and a claimed unit's context.
-/
namespace Sys2Proof.Machine

/-- The width in bits of a CRC's register (R377). -/
def cvWidth (sel : Nat) : Nat := (crcParams sel).width

def Dev.cvClaimed (d : Dev) (u : Nat) : Bool := d.rfB (Reg.CV_Un_SEL u) Fld.CV_Un_SEL.CLAIMED
def Dev.cvClaim (d : Dev) (u : Nat) : Bool := d.rfB (Reg.CV_Un_SEL u) Fld.CV_Un_SEL.CLAIM
def Dev.cvSel (d : Dev) (u : Nat) : Nat := d.rf (Reg.CV_Un_SEL u) Fld.CV_Un_SEL.SEL

/-- The context registers of a unit set to a context (R378, R380). -/
def Dev.cvShow (d : Dev) (u sel value count : Nat) : Dev :=
  ((d.wf (Reg.CV_Un_SEL u) Fld.CV_Un_SEL.SEL sel).setReg64 (Reg.CV_Un_VAL_LO u) value).setReg64 (Reg.CV_Un_CNT_LO u) count

/-- A context write to an unclaimed unit is ignored (R380). -/
def Dev.cvLocked (d : Dev) (u : Nat) : Dev := d.wf (Reg.CV_Un_SEL u) Fld.CV_Un_SEL.CFG_LOCKED_WRITE 1

/-- A unit begins to serve a job, whose context its registers then show. -/
def Dev.cvLoad (d : Dev) (u : Nat) (j : CvJob) : Dev :=
  { d with cv := { d.cv with serving := AMap.set d.cv.serving u j } }.cvShow u j.sel j.value j.count

/-- An idle unit that jobs may use: unclaimed, with no claim waiting and no job. -/
def Dev.cvIdle (d : Dev) (u : Nat) : Bool :=
  !d.cvClaim u && !d.cvClaimed u && (AMap.find d.cv.serving u).isNone

/-- CV_JOB (R379): the job starts with VALUE at Init and COUNT 0, at an idle unit or behind the waiting jobs. -/
def execCvJob (req : Fin 256) (sel : Fin 4) (data : List Byte) (s : State) : Host.Outcome State Fault Refusal :=
  runDev (fun _ d =>
    let j : CvJob := ⟨req.val, sel.val, data, (crcParams sel.val).init, 0⟩
    match (List.range 16).find? d.cvIdle with
    | some u => d.cvLoad u j
    | none => { d with cv := { d.cv with waiting := d.cv.waiting ++ [j] } }) s

/-- Slice length in bytes: CV_CTRL.SLICE KiB, 0 acts as 1. -/
def Dev.cvSlice (d : Dev) : Nat := max 1 (d.rf Reg.CV_CTRL Fld.CV_CTRL.SLICE) * 1024

/-- A job after `n` more of its bytes (R378). -/
def CvJob.take (j : CvJob) (n : Nat) : CvJob :=
  { j with
    data := j.data.drop n
    value := (crcParams j.sel).run j.value (j.data.take n)
    count := (j.count + (j.data.take n).length) % 2 ^ 64 }

/-- The oldest waiting job goes to a unit that is free for jobs. -/
def Dev.cvNext (d : Dev) (u : Nat) : Dev :=
  match d.cvIdle u, d.cv.waiting with
  | true, j :: rest => { d with cv := { d.cv with waiting := rest } }.cvLoad u j
  | _, _ => d

/-- A claim that waits takes effect at a slice boundary (R380). -/
def Dev.cvApplyClaim (d : Dev) (u : Nat) : Dev :=
  if d.cvClaim u && (AMap.find d.cv.serving u).isNone then d.wf (Reg.CV_Un_SEL u) Fld.CV_Un_SEL.CLAIMED 1 else d

/-- CV_SLICE_END (R379): the unit takes a slice of its job; a job with bytes left goes behind the waiting ones. -/
def execCvSliceEnd (u : Fin 16) (s : State) : Host.Outcome State Fault Refusal :=
  runDev (fun _ d =>
    match AMap.find d.cv.serving u.val with
    | none => (d.cvApplyClaim u.val).cvNext u.val
    | some j =>
      let j := j.take d.cvSlice
      let d := d.cvShow u.val j.sel j.value j.count
      let d := { d with cv := { serving := AMap.erase d.cv.serving u.val
                                waiting := if j.data.isEmpty then d.cv.waiting else d.cv.waiting ++ [j] } }
      (d.cvApplyClaim u.val).cvNext u.val) s

/-- A write of CLAIM (R380): an idle unit is at a slice boundary at once; a release takes effect at once. -/
def Dev.cvClaimWrite (d : Dev) (u : Nat) (on : Bool) : Dev :=
  let d := d.wf (Reg.CV_Un_SEL u) Fld.CV_Un_SEL.CLAIM (b2n on)
  if on then d.cvApplyClaim u else (d.wf (Reg.CV_Un_SEL u) Fld.CV_Un_SEL.CLAIMED 0).cvNext u

/-- CLAIM. -/
def execClaim (u : Fin 16) (on : Bool) (s : State) : Host.Outcome State Fault Refusal :=
  runDev (fun _ d => d.cvClaimWrite u.val on) s

/-- A write of 1 to START (R378). -/
def Dev.cvStart (d : Dev) (u : Nat) : Dev :=
  if d.cvClaimed u then d.cvShow u (d.cvSel u) (crcParams (d.cvSel u)).init 0 else d.cvLocked u

/-- START. -/
def execCvStart (u : Fin 16) (s : State) : Host.Outcome State Fault Refusal := runDev (fun _ d => d.cvStart u.val) s

/-- A write of CV_Un_DATA (R378): BYTES bytes, least significant first; ignored while the unit is unclaimed. -/
def Dev.cvDataWrite (d : Dev) (u v : Nat) : Dev :=
  if !d.cvClaimed u then d
  else
    let n := min 4 (d.rf (Reg.CV_Un_SEL u) Fld.CV_Un_SEL.BYTES)
    let bs := leBytes n v
    let value := (crcParams (d.cvSel u)).run (d.reg64 (Reg.CV_Un_VAL_LO u)) bs
    (d.setReg64 (Reg.CV_Un_VAL_LO u) value).setReg64 (Reg.CV_Un_CNT_LO u) (d.reg64 (Reg.CV_Un_CNT_LO u) + n)

/-- CV_DATA. -/
def execCvData (u : Fin 16) (value : Word) (s : State) : Host.Outcome State Fault Refusal :=
  runDev (fun _ d => d.cvDataWrite u.val value.toNat) s

/-- A low word of a 64-bit quantity, held until the high word is written (R15). -/
def Dev.holdLow (d : Dev) (lo v : Nat) : Dev := { d with held := AMap.set d.held lo (BitVec.ofNat 32 v) }
/-- The low word that applies when the high word is written: the one held, or, when no low word is held, the low word in
effect (R15 gives a high word written alone no effect: DESIGN CHOICE, log 70). -/
def Dev.heldLow (d : Dev) (lo : Nat) : Nat := match AMap.find d.held lo with
  | some w => w.toNat
  | none => d.reg lo
def Dev.dropLow (d : Dev) (lo : Nat) : Dev := { d with held := AMap.erase d.held lo }
/-- The high word is written: the whole value applies. -/
def Dev.applyHigh (d : Dev) (lo v : Nat) : Dev := ((d.setReg lo (d.heldLow lo)).setReg (lo + 4) v).dropLow lo

/-- A write of a high context word (R380, R382). -/
def Dev.cvHigh (d : Dev) (u lo v : Nat) : Dev :=
  if d.cvClaimed u then d.applyHigh lo v else (d.dropLow lo).cvLocked u

/-- CV_VAL_HI (R382): bits of VALUE beyond the CRC's width read zero. -/
def Dev.cvValHi (d : Dev) (u v : Nat) : Dev :=
  let d := d.cvHigh u (Reg.CV_Un_VAL_LO u) v
  if d.cvClaimed u then
    d.setReg64 (Reg.CV_Un_VAL_LO u) (d.reg64 (Reg.CV_Un_VAL_LO u) % 2 ^ cvWidth (d.cvSel u))
  else d

def execCvValHi (u : Fin 16) (value : Word) (s : State) : Host.Outcome State Fault Refusal :=
  runDev (fun _ d => d.cvValHi u.val value.toNat) s

/-- CV_CNT_HI (R382). -/
def execCvCntHi (u : Fin 16) (value : Word) (s : State) : Host.Outcome State Fault Refusal :=
  runDev (fun _ d => d.cvHigh u.val (Reg.CV_Un_CNT_LO u.val) value.toNat) s

end Sys2Proof.Machine
end

