-- ==== Sys2Proof/Machine/Time.lean ====
section
/-!
DEFINITION. The timebase (R383 to R397, R341): the counter, the state machine and the servo, steps, the compare units and
the event inputs, and the instants of the control engine that a step moves (R445, R450).
-/
namespace Sys2Proof.Machine

/-! ### Stamps and the counter (R383 to R387) -/

/-- RATE of R384, signed. -/
def Dev.tbRate (d : Dev) : Int := sext 32 (d.reg Reg.TB_RATE)

/-- One cycle of the Summit clock: the timebase adds 1 + RATE × 2^-40 ns (R383). -/
def Dev.tbTick (d : Dev) : Dev :=
  let f : Int := (d.tb.frac : Int) + 2 ^ 40 + d.tbRate
  d.countTo { d.tb.move (f / 2 ^ 40) with frac := (f % 2 ^ 40).toNat }

/-! ### The instants of the control engine (R445, R450) -/

def Dev.cePeriod (d : Dev) : Nat :=
  min 1000000000 (max 20480 (d.rf Reg.CE_PERIOD Fld.CE_PERIOD.PERIOD))
def Dev.ceBase (d : Dev) : Nat := d.reg64 Reg.CE_BASE_LO
def Dev.ceRun (d : Dev) : Bool := d.rfB Reg.CE_STAT Fld.CE_STAT.RUN
def Dev.modCe (d : Dev) (f : CeSt → CeSt) : Dev := { d with eng := f d.eng }

/-- The stamp BASE + j × PERIOD. -/
def Dev.ceInstant (d : Dev) (j : Int) : Nat := stampMove d.ceBase (j * d.cePeriod)

/-- The next instant is the first that lies at or after `t`; CE_JOFF becomes j − k. -/
def Dev.ceAim (d : Dev) (t : Nat) : Dev :=
  let j : Int := -((-(stampDiff t d.ceBase)) / (d.cePeriod : Int))
  (d.modCe (fun c => { c with j := j })).setReg64 Reg.CE_JOFF_LO (wrap 64 (j - d.eng.k))

/-- A step of the timebase by `theta` ns realigns the engine's frames (R450).  Outside a frame, the engine keeps the
stamp from which its next instant is sought. -/
def Dev.ceRealign (d : Dev) (theta : Int) : Dev :=
  if !d.ceRun then d
  else if d.eng.inFrame then
    let a := match d.eng.apply with
      | some a => stampMove a theta
      | none => stampMove d.eng.stamp (theta + d.cePeriod)
    ((d.modCe (fun c => { c with apply := some a })).ceAim (stampMove a d.cePeriod)).cnt (Reg.CE_CNT_k 5) 1
  else
    let s := stampMove d.eng.stamp theta
    let d := (d.modCe (fun c => { c with stamp := s })).ceAim s
    if d.eng.k = 0 then d else d.cnt (Reg.CE_CNT_k 5) 1

/-! ### Steps (R390, R392, R393) -/

/-- Instants congruent to PHASE modulo PERIOD in (a, b], in microseconds. -/
def congruentIn (a b period phase : Nat) : Bool :=
  let f := fun x => (x + period - phase % period) / period
  decide (f b > f a)

/-- The timebase steps by `theta` ns: paced loops whose instants it passes over get one release, and the next release or
window of every loop is the first congruent instant after the step (R275, R276). -/
def Dev.tbStep (d : Dev) (theta : Int) : Dev :=
  let before := d.us
  let d := { d with tb := d.tb.move theta, sync := { d.sync with i := 0 } }
  let d := (d.setReg64 Reg.TB_STEP_LO (wrap 64 theta)).cnt (Reg.TB_CNT_k 0) 1
  let d := d.wf Reg.TB_STAT Fld.TB_STAT.STEPPED 1
  let after := d.us
  let d := (List.range 16).foldl (fun d n =>
    let l := d.loop n
    let d := d.modLoop n (fun l => { l with mark := after })
    if theta > 0 && d.loopClass n = 1 && congruentIn (min l.mark before) after (d.loopPeriod n) (d.loopPhase n) then
      d.release n
    else d) d
  d.ceRealign theta

/-! ### Following a source (R388 to R391) -/

def tbFree := 0
def tbAcquiring := 1
def tbLocked := 2
def tbHoldover := 3
def Dev.tbState (d : Dev) : Nat := d.rf Reg.TB_STAT Fld.TB_STAT.STATE
def Dev.setTbState (d : Dev) (s : Nat) : Dev := d.wf Reg.TB_STAT Fld.TB_STAT.STATE s

/-- The MAC whose PTP role is SLAVE. -/
def Dev.slaveMac (d : Dev) : Option Nat :=
  (List.range 4).find? (fun m => d.rf (Reg.ETH_CTRL m) Fld.ETH_CTRL.PTP_ROLE == 1)

/-- SOURCE of R388: the lead, on another package of a group (R341); else the SLAVE MAC; else none. -/
def Dev.tbSource (d : Dev) : Nat :=
  if d.pkg ≠ 0 && d.rf Reg.COL_GRP Fld.COL_GRP.GRP > 0 then 2
  else if d.slaveMac.isSome then 1 else 0

/-- HOLDOVER is entered. -/
def Dev.tbHold (d : Dev) : Dev :=
  { (d.setTbState tbHoldover).cnt (Reg.TB_CNT_k 1) 1 with sync := { d.sync with farRaised := false, good := 0, wide := 0 } }

/-- TB_OFFSET: θ in ns, signed, saturating. -/
def Dev.setOffset (d : Dev) (theta : Int) : Dev :=
  d.setReg Reg.TB_OFFSET (wrap 32 (max (-(2 ^ 31)) (min (2 ^ 31 - 1) theta)))

/-- A rational value rounded to the nearest integer, ties away from zero. -/
def roundAway (neg : Bool) (mag : Nat) (e : Int) : Int :=
  let q : Nat := if e ≥ 0 then mag * 2 ^ e.toNat else (mag * 2 + 2 ^ (-e).toNat) / (2 ^ (-e).toNat * 2)
  signed neg q

/-- The servo of R391 for an accepted measurement: i and RATE. -/
def Dev.servo (d : Dev) (theta : Int) (interval : Nat) : Dev :=
  let f := FFmt.f64
  let th := f.ofDyadic theta 0
  let t := f.ofRat ((max 1 interval : Nat) : Int) 1000000000
  let p2 := fun k => f.ofDyadic 1 (k : Int)
  let i := f.add d.sync.i (f.div th (f.mul t (p2 (d.rf Reg.TB_CTRL Fld.TB_CTRL.KIS))))
  let r := f.add i (f.div th (f.mul t (p2 (d.rf Reg.TB_CTRL Fld.TB_CTRL.KPS))))
  let slew := min 500 (max 1 (d.rf Reg.TB_LIMITS Fld.TB_LIMITS.SLEW))
  let hi := f.ofDyadic (1000 * slew) 0
  let r := if f.lt hi r then hi else if f.lt r (f.neg hi) then f.neg hi else r
  let x := f.mul (f.mul r (p2 40)) (f.ofRat 1 1000000000)
  let rate := match f.decode x with
    | .fin n m e => roundAway n m e
    | _ => 0
  let rate := max (-549755814) (min 549755814 rate)
  { d with sync := { d.sync with i := i } }.setReg Reg.TB_RATE (wrap 32 rate)

/-- A measurement of the present source (the tables of R389, and R390). -/
def Dev.measure (d : Dev) (m : Measurement) : Dev :=
  let st := d.tbState
  let lock : Int := d.rf Reg.TB_LIMITS Fld.TB_LIMITS.LOCK_NS
  let thr : Int := (d.rf Reg.TB_STEP_THR Fld.TB_STEP_THR.THR : Int) * 1000
  let abs : Int := m.theta.natAbs
  let run := fun (d : Dev) (good wide : Nat) => { d with sync := { d.sync with good := good, wide := wide } }
  if st = tbFree then run (((d.setOffset m.theta).tbStep m.theta).setTbState tbAcquiring) 0 0
  else if st = tbHoldover then
    if abs ≤ thr then run (((d.setOffset m.theta).servo m.theta m.interval).setTbState tbAcquiring) 1 0
    else
      let d := d.wf Reg.TB_STAT Fld.TB_STAT.FAR 1
      if d.sync.farRaised then d
      else { d.raise 1 Src.TIMEBASE 0x0001 0xFFFF (wrap 64 m.theta) with sync := { d.sync with farRaised := true } }
  else if m.newGrandmaster then d.tbHold
  else
    let d := (d.setOffset m.theta).servo m.theta m.interval
    if st = tbAcquiring then
      let good := if abs ≤ lock then d.sync.good + 1 else 0
      if good ≥ 8 then run (d.setTbState tbLocked) 0 0 else run d good 0
    else
      let wide := if abs > 8 * lock then d.sync.wide + 1 else 0
      if wide ≥ 4 then run (d.setTbState tbAcquiring) 0 0 else run d 0 wide

/-- TB_MEASUREMENT (R389): a measurement of a SLAVE MAC; with no source, or with the lead as the source, there is none. -/
def execTbMeasurement (m : Measurement) (s : State) : Host.Outcome State Fault Refusal :=
  runDev (fun _ d => if d.tbSource = 1 then d.measure m else d) s

/-- TB_SOURCE_TIMEOUT (R389): no accepted measurement for 3 × T. -/
def execTbSourceTimeout (s : State) : Host.Outcome State Fault Refusal :=
  runDev (fun _ d => if d.tbState = tbAcquiring || d.tbState = tbLocked then d.tbHold else d) s

/-- This timebase's offset from the lead's by an exchange whose two messages take equally long (R341); an odd sum is rounded
down (DESIGN CHOICE, log 73). -/
def exchangeOffset (x : Nat × Nat × Nat × Nat) : Int := (stampDiff x.1 x.2.1 + stampDiff x.2.2.2 x.2.2.1) / 2

/-- COL_TSYNC (R341), every 1 ms: the exchange with the lead that is complete corrects the timebase, and the next one begins
with a stamped message. -/
def execColTsync (s : State) : Host.Outcome State Fault Refusal :=
  runDev (fun _ d =>
    if d.tbSource ≠ 2 || !d.reachable 0 then d
    else
      let d := match d.col.exchange with
        | none => d
        | some x =>
          let offset := exchangeOffset x
          let d := { d with col := { d.col with exchange := none } }
          let d := d.setReg Reg.COL_TSYNC (wrap 32 (max (-(2 ^ 31)) (min (2 ^ 31 - 1) offset)))
          d.measure ⟨-offset, 1000000, false⟩
      d.toPeer 0 ([0x54] ++ leBytes 8 d.stamp) 1) s

/-- A write of 1 to TB_CTRL.RESTEP (R389). -/
def Dev.restep (d : Dev) : Dev :=
  let d := (d.setTbState tbFree).wf Reg.TB_STAT Fld.TB_STAT.STEPPED 0
  { d with sync := { d.sync with good := 0, wide := 0 } }

/-- RESTEP. -/
def execRestep (s : State) : Host.Outcome State Fault Refusal := runDev (fun _ d => d.restep) s

def tbCounters : List Nat := (List.range 4).map Reg.TB_CNT_k

/-- TB_CNT_CLR (R415). -/
def execTbCntClr (s : State) : Host.Outcome State Fault Refusal := runDev (fun _ d => d.clearRegs tbCounters) s

/-- COUNTER_COMPARE (R490): the duplicate counter differs. -/
def execCounterCompare (s : State) : Host.Outcome State Fault Refusal :=
  runDev (fun _ d => d.raise 3 Src.TIMEBASE 0x0002 0xFFFF 0) s

/-- CARRY_INTO_SECONDS (R396): the timebase has counted to the next second, at which TB_PPS_OUT rises. -/
def execCarryIntoSeconds (s : State) : Host.Outcome State Fault Refusal :=
  runDev (fun _ d => d.countTo { sec := (d.tb.sec + 1) % 2 ^ 48, ns := 0, frac := 0 }) s

/-- With no command waiting, one Summit cycle passes and the timebase counts it (log 53). -/
def idle (s : State) : State :=
  match s.dev.boot.phase with
  | .off => s
  | _ => { s with dev := s.dev.tbTick }

/-! ### Compare units and event inputs (R394 to R397) -/

/-- PERIOD of a compare unit in ns; 0 is one-shot. -/
def Dev.cmpPeriod (d : Dev) (n : Nat) : Nat :=
  let p := d.rf (Reg.TB_CMPn_CTRL n) Fld.TB_CMPn_CTRL.PERIOD
  if p = 0 then 0 else min 1000000000 (max 1000 p)

/-- TB_CMP_OUT[n] rises when the unit drives it (R396). -/
def Dev.cmpRises (d : Dev) (n : Nat) : Dev :=
  if n < 4 && d.rfB (Reg.TB_CMPn_CTRL n) Fld.TB_CMPn_CTRL.OUT then
    { d with sync := { d.sync with cmpRise := AMap.set d.sync.cmpRise n d.nsNow } }
  else d

/-- CMP_FIRE (R394, R395): an armed unit fires when its target has come; a one-shot unit fires once for each target. -/
def execCmpFire (n : Fin 8) (s : State) : Host.Outcome State Fault Refusal :=
  runDev (fun _ d =>
    if !d.rfB (Reg.TB_CMPn_CTRL n.val) Fld.TB_CMPn_CTRL.EN || bit d.sync.cmpDone n.val then d
    else
      let target := d.reg64 (Reg.TB_CMPn_LO n.val)
      let d := (d.reach target).cmpRises n.val
      let d := d.setReg Reg.TB_CMP_FIRED (setBits (d.reg Reg.TB_CMP_FIRED) n.val n.val 1)
      let p := d.cmpPeriod n.val
      if p = 0 then { d with sync := { d.sync with cmpDone := setBits d.sync.cmpDone n.val n.val 1 } }
      else
        let late := stampDiff d.stamp (stampMove target p)
        if late < 0 then d.setReg64 (Reg.TB_CMPn_LO n.val) (stampMove target p)
        else
          let more := (late / p).toNat + 1
          (d.setReg64 (Reg.TB_CMPn_LO n.val) (stampMove target (p * (1 + more)))).cnt (Reg.TB_CNT_k 2) 1) s

/-- The unit is ready to fire again. -/
def Dev.cmpRearm (d : Dev) (n : Nat) : Dev :=
  { d with sync := { d.sync with cmpDone := setBits d.sync.cmpDone n n 0 } }

/-- CMP_TARGET_WRITE (R394, R15): the HI word applies the whole target. -/
def execCmpTargetWrite (n : Fin 8) (hi : Word) (s : State) : Host.Outcome State Fault Refusal :=
  runDev (fun _ d => (d.applyHigh (Reg.TB_CMPn_LO n.val) hi.toNat).cmpRearm n.val) s

/-- EVT_IN (R397): a rising edge is stamped; one that comes before the previous stamp was read replaces it. -/
def execEvtIn (n : Fin 4) (s : State) : Host.Outcome State Fault Refusal :=
  runDev (fun _ d =>
    let d := if bit d.sync.evtUnread n.val then d.cnt (Reg.TB_CNT_k 3) 1 else d
    let d := d.setReg64 (Reg.TB_EVTn_LO n.val) d.stamp
    { d with sync := { d.sync with evtUnread := setBits d.sync.evtUnread n.val n.val 1 } }) s

end Sys2Proof.Machine
end

