-- ==== Sys2Proof/Machine/Eth.lean ====
section
/-!
DEFINITION. The Ethernet MACs (R399 to R410): receive sorting and the frame checks, FEEDBACK records into the axis table,
the gate control list, the credit-based shaper and the choice of a frame, and the PTP role.
-/
namespace Sys2Proof.Machine

def Dev.mac (d : Dev) (m : Nat) : MacSt := AMap.getD d.macs m {}
def Dev.setMac (d : Dev) (m : Nat) (x : MacSt) : Dev := { d with macs := AMap.set d.macs m x }
def Dev.modMac (d : Dev) (m : Nat) (f : MacSt → MacSt) : Dev := d.setMac m (f (d.mac m))
def Dev.ethRfB (d : Dev) (m : Nat) (f : Fd) : Bool := d.rfB (Reg.ETH_CTRL m) f

/-- CFG_BAD: SGMII with a speed other than 1 Gb/s. -/
def Dev.macBad (d : Dev) (m : Nat) : Bool :=
  d.ethRfB m Fld.ETH_CTRL.IF && d.rf (Reg.ETH_CTRL m) Fld.ETH_CTRL.SPEED != 3
/-- LINK. -/
def Dev.macUp (d : Dev) (m : Nat) : Bool :=
  (d.mac m).phy && d.ethRfB m Fld.ETH_CTRL.EN && !d.macBad m
def Dev.ethCnt (d : Dev) (m k : Nat) : Dev := d.cnt (Reg.ETH_CNT_k m k) 1

/-! ### Receive (R399, R401, R405 to R409) -/

/-- The receive stamp, corrected by RX_LAT in 1/16 ns; the fraction is dropped (R386, R398). -/
def Dev.rxStamp (d : Dev) (m : Nat) : Nat :=
  stampMove d.stamp (((d.tb.frac : Int) - d.rf (Reg.ETH_LAT m) Fld.ETH_LAT.RX_LAT * 2 ^ 36) / 2 ^ 40)

/-- The transmit stamp of a frame that starts at a stamp, corrected by TX_LAT in 1/16 ns; the fraction is dropped (R386,
R398). -/
def Dev.txStamp (d : Dev) (m stamp : Nat) : Nat :=
  stampMove stamp (((d.tb.frac : Int) + d.rf (Reg.ETH_LAT m) Fld.ETH_LAT.TX_LAT * 2 ^ 36) / 2 ^ 40)

/-- The station address in wire order. -/
def Dev.station (d : Dev) (m : Nat) : List Byte :=
  beBytes 2 (d.rf (Reg.ETH_ADDR_HI m) Fld.ETH_ADDR_HI.ADDR_HI) ++ beBytes 4 (d.reg (Reg.ETH_ADDR_LO m))

/-- The receive filter of R399. -/
def Dev.passes (d : Dev) (m : Nat) (da : List Byte) : Bool :=
  da == d.station m || da == List.replicate 6 0xFF || da == beBytes 6 0x0180C200000E
    || (bit (beNat (da.take 1)) 0 && d.ethRfB m Fld.ETH_CTRL.ALLMC)

/-- Where the EtherType stands: after an 802.1Q tag when there is one. -/
def etypeAt (frame : List Byte) : Nat := if slice frame 12 2 == beBytes 2 0x8100 then 16 else 12

/-- The big-endian field of `n` bytes at offset `o`. -/
def beField (bs : List Byte) (o n : Nat) : Nat := beNat (slice bs o n)

/-- The length in bytes of the header and body that a Stardoul frame declares; none when a field is invalid. -/
def stardoulLen (jumbo : Bool) (p : List Byte) : Option Nat :=
  let kind := beField p 1 1
  let nrec := beField p 3 1
  if p.length < 16 then none
  else if kind = 3 then
    let len := beField p 28 2
    if nrec ≠ 0 || p.length < 32 || len = 0 || len > (if jumbo then 8950 else 1464) then none else some (32 + len)
  else if kind = 1 || kind = 2 then (if nrec = 0 || nrec > 185 then none else some (16 + 8 * nrec))
  else none

/-- The checks of R408 on the bytes after the EtherType: KIND, lengths with padding ignored, and CHECK. -/
def stardoulOk (jumbo padded : Bool) (p : List Byte) : Bool :=
  match stardoulLen jumbo p with
  | none => false
  | some n =>
    (p.length == n + 4 || (padded && decide (p.length > n + 4))) && crc32c (p.take n) == beField p n 4

/-- ETH_RX (R401): sorting of a received frame. -/
def execEthRx (m : Fin 4) (frame : List Byte) (fcsOk : Bool) (s : State) : Host.Outcome State Fault Refusal :=
  runDev (fun _ d =>
    let i := m.val
    let jumbo := d.ethRfB i Fld.ETH_CTRL.JUMBO
    if !d.macUp i then d
    else if !fcsOk then d.ethCnt i 2
    else if frame.length < 60 || frame.length > (if jumbo then 9018 else 1518) then d
    else
      let d := d.ethCnt i 1
      if !d.passes i (frame.take 6) then d
      else
        let o := etypeAt frame
        let p := frame.drop (o + 2)
        if beField frame o 2 = d.rf (Reg.ETH_CTRL i) Fld.ETH_CTRL.ETYPE && beField p 0 1 = 1 then
          (if stardoulOk jumbo (decide (frame.length ≤ 48 + o)) p then
            d.modMac i (fun x => { x with sorted := x.sorted ++ [(d.rxStamp i, p)] })
           else d.ethCnt i 3)
        else if (d.mac i).ring.length ≥ 256 then d.ethCnt i 6
        else d.modMac i (fun x => { x with ring := x.ring ++ [(d.rxStamp i, frame)] })) s

/-- The oldest sorted frame of a kind, and the frames without it. -/
def takeKind (k : Nat) : List (Nat × List Byte) → Option ((Nat × List Byte) × List (Nat × List Byte))
  | [] => none
  | f :: fs =>
    if beField f.2 1 1 = k then some (f, fs)
    else match takeKind k fs with
      | none => none
      | some (g, r) => some (g, f :: r)

/-- The axis table's entry of an axis (R409). -/
def axisAddr (axis : Nat) : Nat := ceMem + 0x1FC000 + 16 * axis

/-- One record of 8 bytes, most significant byte first, replaces its axis's entry as a whole (R406, R409); an AXIS of
1,024 or above is skipped. -/
def Mach.axisRecord (m : Mach) (r : List Byte) (source stamp : Nat) : Mach :=
  let axis := beField r 0 2
  if axis ≥ 1024 then m
  else m.store (axisAddr axis) (leBytes 4 (beField r 4 4) ++ leBytes 1 (beField r 2 1) ++ leBytes 1 (beField r 3 1)
    ++ leBytes 2 source ++ leBytes 8 stamp)

/-- The records of a run of bytes, in order. -/
def Mach.axisRecords (m : Mach) (bs : List Byte) (n source stamp : Nat) : Mach :=
  (List.range n).foldl (fun m i => m.axisRecord (slice bs (8 * i) 8) source stamp) m

/-- FEEDBACK (R409). -/
def execFeedback (m : Fin 4) (s : State) : Host.Outcome State Fault Refusal :=
  run (fun x =>
    match takeKind 2 (x.dev.mac m.val).sorted with
    | none => x
    | some ((rx, p), rest) =>
      let stamp := if bit (beField p 2 1) 0 then beField p 8 8 else rx
      (x.axisRecords (p.drop 16) (beField p 3 1) m.val stamp).mod (fun d =>
        d.modMac m.val (fun y => { y with sorted := rest }))) s

/-- DRIVE_RECEIVED (R408): dropped and counted. -/
def execDriveReceived (m : Fin 4) (s : State) : Host.Outcome State Fault Refusal :=
  runDev (fun _ d =>
    match takeKind 1 (d.mac m.val).sorted with
    | none => d
    | some (_, rest) => (d.modMac m.val (fun y => { y with sorted := rest })).ethCnt m.val 4) s

/-! ### Gates (R402) -/

/-- The intervals of an operating cycle: gates and length, cut or stretched to the cycle. -/
def gclSpans (cycle : Nat) : List (Nat × Nat) → Nat → List (Nat × Nat)
  | [], _ => []
  | [(g, _)], at_ => [(g, cycle - at_)]
  | (g, n) :: rest, at_ => if at_ + n ≥ cycle then [(g, cycle - at_)] else (g, n) :: gclSpans cycle rest (at_ + n)

/-- How long gate `q` stays open from position `pos` of the spans on, at most over twice the spans given; 0 when it is
closed there. -/
def openFor (q : Nat) : List (Nat × Nat) → Nat → Nat
  | [], _ => 0
  | (g, n) :: rest, pos =>
    if pos ≥ n then openFor q rest (pos - n)
    else if bit g q then (n - pos) + (match rest with
      | [] => 0
      | _ => openFor q rest 0)
    else 0

/-- Nanoseconds for which gate `q` is open from stamp `now`; none when every gate is open. -/
def GclSet.window (g : GclSet) (q now : Nat) : Option Nat :=
  if !g.en || g.list.isEmpty then none
  else
    let sp := gclSpans g.cycle g.list 0
    let pos := (stampDiff now g.base % (g.cycle : Int)).toNat
    if sp.all (fun x => bit x.1 q) then none else some (openFor q (sp ++ sp) pos)

/-- The longest window of gate `q` in the operating cycle; none when it never closes. -/
def GclSet.longest (g : GclSet) (q : Nat) : Option Nat :=
  if !g.en || g.list.isEmpty then none
  else
    let sp := gclSpans g.cycle g.list 0
    if sp.all (fun x => bit x.1 q) then none
    else some ((List.range sp.length).foldl (fun n i =>
      max n (openFor q (sp ++ sp) ((sp.take i).foldl (fun a x => a + x.2) 0))) 0)

/-- Open time of gate `q` in the first `t` ns of the spans. -/
def openIn (q : Nat) : List (Nat × Nat) → Nat → Nat
  | [], _ => 0
  | (g, n) :: rest, t =>
    let here := min n t
    (if bit g q then here else 0) + openIn q rest (t - here)

/-- Open time of gate `q` between two times, in ns (a credit stays frozen while its gate is closed, R403). -/
def GclSet.openTime (g : GclSet) (q a b : Nat) : Nat :=
  if !g.en || g.list.isEmpty then b - a
  else
    let sp := gclSpans g.cycle g.list 0
    let whole := openIn q sp g.cycle
    let b0 : Nat := (g.base / 2 ^ 30) * 1000000000 + g.base % 2 ^ 30
    let upto := fun (t : Nat) =>
      let x : Int := (t : Int) - (b0 : Int)
      x / (g.cycle : Int) * (whole : Int) + (openIn q sp (x % (g.cycle : Int)).toNat : Int)
    (upto b - upto a).toNat

/-- CHANGE (R402): the admin set waits for the first cycle start at least 2 µs away. -/
def Dev.gclChange (d : Dev) (m : Nat) : Dev :=
  if (d.mac m).pend.isSome then d
  else
    let len := min 256 (max 1 (d.rf (Reg.ETH_QBV_CTRL m) Fld.ETH_QBV_CTRL.LEN))
    let g : GclSet := {
      en := d.rfB (Reg.ETH_QBV_CTRL m) Fld.ETH_QBV_CTRL.EN
      base := d.reg64 (Reg.ETH_QBV_BASE_LO m)
      cycle := max 1000 (d.rf (Reg.ETH_QBV_CYCLE m) Fld.ETH_QBV_CYCLE.CYCLE)
      list := (List.range len).map (fun i =>
        (d.rf (Reg.ETH_GCL_i m i) Fld.ETH_GCL_i.GATES, max 1 (d.rf (Reg.ETH_GCL_i m i) Fld.ETH_GCL_i.INTERVAL))) }
    let t := stampDiff (stampAdd d.stamp 2000) g.base
    let n : Int := max 0 (-((-t) / (g.cycle : Int)))
    d.modMac m (fun x => { x with pend := some (g, stampMove g.base (n * g.cycle)) })

/-- CHANGE. -/
def execChange (m : Fin 4) (s : State) : Host.Outcome State Fault Refusal := runDev (fun _ d => d.gclChange m.val) s

/-! ### Transmission (R403, R404, R410) -/

/-- The link rate in Mb/s. -/
def Dev.linkRate (d : Dev) (m : Nat) : Nat :=
  match d.rf (Reg.ETH_CTRL m) Fld.ETH_CTRL.SPEED with
  | 0 => 10000
  | 1 => 5000
  | 2 => 2500
  | _ => 1000

/-- The time of a frame from preamble to the end of the inter-frame gap, in units of 0.1 ns. -/
def Dev.frameTime (d : Dev) (m : Nat) (f : TxFrame) : Nat := (8 + max 60 f.bytes.length + 4 + 12) * (80000 / d.linkRate m)

def Dev.shaped (d : Dev) (m q : Nat) : Bool := d.rfB (Reg.ETH_CBS_q m q) Fld.ETH_CBS_q.EN

/-- idleSlope in bits per ns. -/
def Dev.idleSlope (d : Dev) (m q : Nat) : Rat :=
  (min (d.rf (Reg.ETH_CBS_q m q) Fld.ETH_CBS_q.IDLE) (d.linkRate m * 1000) : Nat) / (1000000 : Rat)

/-- A queue's credit brought up to a time (R403): hiCredit bounds it while frames wait, and an empty queue's credit ends at
zero (IEEE 802.1Q-2018). -/
def Dev.creditAt (d : Dev) (m q now : Nat) : Rat × Nat :=
  let x := d.mac m
  let (c, t) := x.credit.getD q (0, 0)
  if now ≤ t then (c, t)
  else
    let rate : Rat := (d.linkRate m : Rat) / 1000
    let up := c + d.idleSlope m q * x.oper.openTime q t now
    let maxBits : Rat := if d.ethRfB m Fld.ETH_CTRL.JUMBO then 72176 else 12176
    let hi := maxBits * d.idleSlope m q / rate
    if (x.queues.getD q []).isEmpty then (if c > 0 then 0 else min 0 up, now) else (min hi up, now)

/-- The credits of every queue brought up to now. -/
def Dev.settleCredits (d : Dev) (m : Nat) : Dev :=
  d.modMac m (fun x => { x with credit := (List.range 8).map (fun q => d.creditAt m q d.nsNow) })

/-- A drive frame queued (R410): an older one of the same template that has not been sent is discarded and counted, and the
new one takes its place. -/
def Dev.queueDrive (d : Dev) (m q tmpl : Nat) (bs : List Byte) : Dev :=
  let f : TxFrame := ⟨bs, some tmpl⟩
  let isOld := fun (g : TxFrame) => g.tmpl == some tmpl
  let d := d.settleCredits m
  if ((d.mac m).queues.getD q []).any isOld then
    (d.modMac m (fun x => { x with queues := modAt x.queues q (fun l => l.map (fun g => if isOld g then f else g)) })).ethCnt m 5
  else
    let d := (List.range 4).foldl (fun (d : Dev) k =>
      if (d.mac k).queues.any (fun l => l.any isOld) then
        (d.modMac k (fun x => { x with queues := x.queues.map (fun l => l.filter (fun g => !isOld g)) })).ethCnt k 5
      else d) d
    d.modMac m (fun x => { x with queues := modAt x.queues q (fun l => l ++ [f]) })

/-- Head frames longer than the longest window of their gate are discarded (R404). -/
def Dev.dropOversize (d : Dev) (m q : Nat) : Nat → Dev
  | 0 => d
  | k + 1 =>
    match (d.mac m).queues.getD q [], (d.mac m).oper.longest q with
    | f :: rest, some w =>
      if d.frameTime m f > 10 * w then
        Dev.dropOversize ((d.modMac m (fun x => { x with queues := modAt x.queues q (fun _ => rest) })).cnt
          (Reg.ETH_OVERSIZE m) 1) m q k
      else d
    | _, _ => d

/-- The head of queue `q` may be sent now. -/
def Dev.maySendQ (d : Dev) (m q now stamp : Nat) : Bool :=
  match (d.mac m).queues.getD q [] with
  | [] => false
  | f :: _ =>
    (match (d.mac m).oper.window q stamp with
     | none => true
     | some w => decide (w > 0) && decide (d.frameTime m f ≤ 10 * w))
    && (!d.shaped m q || decide ((d.creditAt m q now).1 ≥ 0))

/-- TX_SELECT (R404): the highest-numbered queue whose head may be sent; the opportunity comes once the frame before has
left. -/
def execTxSelect (m : Fin 4) (s : State) : Host.Outcome State Fault Refusal :=
  runDev (fun _ d =>
    let i := m.val
    if !d.macUp i then d
    else
      let now := max d.nsNow (d.mac i).busy
      let stamp := stampAdd d.stamp (now - d.nsNow)
      let d := (List.range 8).foldl (fun (d : Dev) q => d.dropOversize i q ((d.mac i).queues.getD q []).length) d
      match ((List.range 8).reverse).find? (fun q => d.maySendQ i q now stamp) with
      | none => d
      | some q =>
        match (d.mac i).queues.getD q [] with
        | [] => d
        | f :: rest =>
          let tx := ceilDiv (d.frameTime i f) 10
          let rate : Rat := (d.linkRate i : Rat) / 1000
          let send := d.idleSlope i q - rate
          let maxBits : Rat := if d.ethRfB i Fld.ETH_CTRL.JUMBO then 72176 else 12176
          let (c, _) := d.creditAt i q now
          let d := d.modMac i (fun x => { x with
            credit := ((List.range 8).map (fun k => d.creditAt i k now)).set q
              (max (maxBits * send / rate) (c + send * ((d.frameTime i f : Rat) / 10)), now + tx)
            queues := modAt x.queues q (fun _ => rest)
            busy := now + tx
            sent := some (d.txStamp i stamp, f) })
          d.ethCnt i 0) s

/-- GCL_APPLY (R402): the set that waits becomes the operating set at its cycle start. -/
def execGclApply (m : Fin 4) (s : State) : Host.Outcome State Fault Refusal :=
  runDev (fun _ d =>
    match (d.mac m.val).pend with
    | none => d
    | some (g, start) => ((d.reach start).settleCredits m.val).modMac m.val (fun x => { x with oper := g, pend := none })) s

/-! ### Role, link and counters (R388, R410, R415) -/

/-- A write of PTP_ROLE: a second SLAVE is refused. -/
def Dev.ptpRoleWrite (d : Dev) (m role : Nat) : Dev :=
  if role = 1 && (match d.slaveMac with
      | some k => k != m
      | none => false) then d.wf (Reg.ETH_STAT m) Fld.ETH_STAT.ROLE_REFUSED 1
  else d.wf (Reg.ETH_CTRL m) Fld.ETH_CTRL.PTP_ROLE role

/-- PTP_ROLE_WRITE. -/
def execPtpRoleWrite (m : Fin 4) (role : BitVec 2) (s : State) : Host.Outcome State Fault Refusal :=
  runDev (fun _ d => d.ptpRoleWrite m.val role.toNat) s

/-- ETH_LINK_CHANGE (R410): frames queued for a MAC whose link is down wait. -/
def execEthLinkChange (m : Fin 4) (up : Bool) (s : State) : Host.Outcome State Fault Refusal :=
  runDev (fun _ d => d.modMac m.val (fun x => { x with phy := up })) s

def ethCounters (m : Nat) : List Nat := Reg.ETH_OVERSIZE m :: (List.range 7).map (Reg.ETH_CNT_k m)

/-- ETH_CNT_CLR (R415). -/
def execEthCntClr (m : Fin 4) (s : State) : Host.Outcome State Fault Refusal :=
  runDev (fun _ d => d.clearRegs (ethCounters m.val)) s

end Sys2Proof.Machine
end

