-- ==== Sys2Proof/Machine/Can.lean ====
section
/-!
DEFINITION. The CAN controllers (R411 to R415): receive filters and their routes, bound transmit buffers, error states.
-/
namespace Sys2Proof.Machine

def Dev.can (d : Dev) (n : Nat) : CanSt := AMap.getD d.cans n {}
def Dev.modCan (d : Dev) (n : Nat) (f : CanSt → CanSt) : Dev := { d with cans := AMap.set d.cans n (f (d.can n)) }
def Dev.canCnt (d : Dev) (n k : Nat) : Dev := d.cnt (Reg.CAN_CNT_k n k) 1
def Dev.canState (d : Dev) (n : Nat) : Nat := d.rf (Reg.CAN_STAT n) Fld.CAN_STAT.ESTATE
/-- The controller is on the bus. -/
def Dev.canOn (d : Dev) (n : Nat) : Bool := d.rfB (Reg.CAN_CTRL n) Fld.CAN_CTRL.EN && d.canState n != 2

/-- The first enabled filter that matches a frame (R413): its ROUTE. -/
def Dev.canRoute (d : Dev) (n : Nat) (f : CanFrame) : Nat :=
  let hit := (List.range 64).find? (fun i =>
    let r := d.reg (Reg.CAN_FLTf_ID n i)
    let mask := d.rf (Reg.CAN_FLTf_MASK n i) Fld.CAN_FLTf_MASK.MASK
    bits r 31 30 != 0 && bit r 29 == f.ide && ((bits r 28 0 ^^^ f.id.toNat) &&& mask) == 0)
  match hit with
  | some i => d.rf (Reg.CAN_FLTf_ID n i) Fld.CAN_FLTf_ID.ROUTE
  | none => 0

/-- A frame for Tarinady's 128-frame ring. -/
def Dev.canRing (d : Dev) (n : Nat) (f : CanFrame) : Dev :=
  if (d.can n).ring.length ≥ 128 then d.canCnt n 4
  else d.modCan n (fun x => { x with ring := x.ring ++ [(d.stamp, f)] })

/-- A frame received (R411, R413): a remote frame has no records, and goes to Tarinady. -/
def Mach.canReceive (m : Mach) (n : Nat) (f : CanFrame) : Mach :=
  let m := m.mod (fun d => d.canCnt n 1)
  match m.dev.canRoute n f with
  | 1 => m.mod (fun d => d.canRing n f)
  | 2 =>
    if f.rtr then m.mod (fun d => d.canRing n f)
    else if f.data.length % 8 ≠ 0 then m.mod (fun d => d.canCnt n 2)
    else m.axisRecords f.data (f.data.length / 8) (1 * 2 ^ 14 + n) m.dev.stamp
  | _ => m

/-- CAN_RX (R411, R413): an FD frame is received where FD frames are allowed, and no bus frame in internal loopback. -/
def execCanRx (n : Fin 4) (frame : CanFrame) (s : State) : Host.Outcome State Fault Refusal :=
  run (fun m =>
    if !m.dev.canOn n.val || m.dev.rf (Reg.CAN_CTRL n.val) Fld.CAN_CTRL.MODE = 3 || (frame.fd && !m.dev.rfB (Reg.CAN_CTRL n.val) Fld.CAN_CTRL.FD) then m
    else m.canReceive n.val frame) s

/-- The priority of an identifier on the bus: a base identifier stands in the upper 11 bits. -/
def canRank (f : CanFrame) : Nat := if f.ide then f.id.toNat else f.id.toNat % 2 ^ 11 * 2 ^ 18

/-- The pending buffer that goes first (R412): lowest identifier, then lowest buffer. -/
def CanSt.first (c : CanSt) : Option (Nat × CanTxSt) :=
  c.tx.foldl (fun b x => match b with
    | none => some x
    | some y => if canRank x.2.frame < canRank y.2.frame then some x else b) none

/-- CAN_TX (R412): a pending buffer wins arbitration; in loopback the frame is received as well, and listen-only and
restricted operation send nothing. -/
def execCanTx (n : Fin 4) (s : State) : Host.Outcome State Fault Refusal :=
  run (fun m =>
    let mode := m.dev.rf (Reg.CAN_CTRL n.val) Fld.CAN_CTRL.MODE
    match (m.dev.can n.val).first with
    | none => m
    | some (b, t) =>
      if !m.dev.canOn n.val || mode = 1 || mode = 2 then m
      else
        let m := m.mod (fun d => (d.modCan n.val (fun x => { x with tx := AMap.erase x.tx b })).canCnt n.val 0)
        if mode = 3 then m.canReceive n.val t.frame else m) s

/-- A drive frame put in a bound buffer (R410, R412): one that has not won arbitration is discarded and counted. -/
def Dev.queueCan (d : Dev) (n buf : Nat) (f : CanTxSt) : Dev :=
  let d := if (AMap.find (d.can n).tx buf).isSome then d.canCnt n 3 else d
  d.modCan n (fun x => { x with tx := AMap.set x.tx buf f })

/-- ERROR_PASSIVE (R414). -/
def execErrorPassive (n : Fin 4) (tec rec : Byte) (s : State) : Host.Outcome State Fault Refusal :=
  runDev (fun _ d =>
    if !d.canOn n.val then d
    else
      let entered := d.canState n.val ≠ 1
      let d := ((d.wf (Reg.CAN_STAT n.val) Fld.CAN_STAT.ESTATE 1).wf (Reg.CAN_STAT n.val) Fld.CAN_STAT.TEC tec.toNat).wf
        (Reg.CAN_STAT n.val) Fld.CAN_STAT.REC rec.toNat
      if entered then d.raise 0 Src.CAN 0x0001 n.val (tec.toNat + rec.toNat * 2 ^ 8) else d) s

/-- BUS_OFF (R414). -/
def execBusOff (n : Fin 4) (s : State) : Host.Outcome State Fault Refusal :=
  runDev (fun _ d =>
    if !d.canOn n.val then d
    else
      let d := (d.wf (Reg.CAN_STAT n.val) Fld.CAN_STAT.ESTATE 2).wf (Reg.CAN_STAT n.val) Fld.CAN_STAT.TEC 255
      let d := d.modCan n.val (fun x => { x with recovering := d.rfB (Reg.CAN_CTRL n.val) Fld.CAN_CTRL.AUTO_REC })
      (d.canCnt n.val 5).raise 1 Src.CAN 0x0002 n.val 0) s

/-- CAN_RECOVERED (R414): 128 occurrences of 11 recessive bits have been counted. -/
def execCanRecovered (n : Fin 4) (s : State) : Host.Outcome State Fault Refusal :=
  runDev (fun _ d =>
    if d.canState n.val ≠ 2 || !((d.can n.val).recovering || d.rfB (Reg.CAN_CTRL n.val) Fld.CAN_CTRL.AUTO_REC) then d
    else
      let d := d.modCan n.val (fun x => { x with recovering := false })
      ((d.wf (Reg.CAN_STAT n.val) Fld.CAN_STAT.ESTATE 0).wf (Reg.CAN_STAT n.val) Fld.CAN_STAT.TEC 0).wf
        (Reg.CAN_STAT n.val) Fld.CAN_STAT.REC 0) s

/-- A write of 1 to RECOVER: the count of recessive bits starts (R414). -/
def Dev.canRecover (d : Dev) (n : Nat) : Dev :=
  if d.canState n = 2 then d.modCan n (fun x => { x with recovering := true }) else d

/-- RECOVER. -/
def execRecover (n : Fin 4) (s : State) : Host.Outcome State Fault Refusal := runDev (fun _ d => d.canRecover n.val) s

def canCounters (n : Nat) : List Nat := (List.range 6).map (Reg.CAN_CNT_k n)

/-- CAN_CNT_CLR (R415). -/
def execCanCntClr (n : Fin 4) (s : State) : Host.Outcome State Fault Refusal :=
  runDev (fun _ d => d.clearRegs (canCounters n.val)) s

end Sys2Proof.Machine
end

