-- ==== Sys2Proof/Machine/CeCore.lean ====
section
/-!
DEFINITION. The control engine's banks (R451 to R457, R471), its validation, its binary32 law (R458 to R462) and the
channels' modes (R461, R464).
-/
namespace Sys2Proof.Machine

/-! ### Banks (R454, R457, R471, R477) -/

def bankBase (b : Nat) : Nat := ceMem + 0x100000 + b * 0x40000
def chanAddr (b c : Nat) : Nat := bankBase b + 0x1000 + 512 * c
def tmplAddr (b n : Nat) : Nat := bankBase b + 0x21000 + 1024 * n

/-- The active bank: 0 for A, 1 for B. -/
def Dev.bank (d : Dev) : Nat := d.rf Reg.CE_STAT Fld.CE_STAT.ACTIVE

/-- A field of a channel record, by offset and size. -/
def Mach.cf (m : Mach) (b c o n : Nat) : Nat := m.rdNat (chanAddr b c + o) n
def Mach.tf (m : Mach) (b t o n : Nat) : Nat := m.rdNat (tmplAddr b t + o) n

def Cr.LAW := 0x000
def Cr.ORDER := 0x001
def Cr.NBQM := 0x002
def Cr.NBQO := 0x003
def Cr.SPSRC := 0x004
def Cr.SPCH := 0x005
def Cr.MSRC := 0x006
def Cr.MCH := 0x007
def Cr.MAXIS := 0x008
def Cr.FLAGS := 0x00A
def Cr.SP_STALE_US := 0x00C
def Cr.M_STALE_US := 0x010
def Cr.STALE_FAULT := 0x014
def Cr.SPCONST := 0x018
def Cr.SAFE_SP := 0x01C
def Cr.SAFE_OUT := 0x020
def Cr.SP_RATE := 0x024
def Cr.OUT_MIN := 0x028
def Cr.OUT_MAX := 0x02C
def Cr.OUT_RATE := 0x030
def Cr.KP := 0x034
def Cr.KI := 0x038
def Cr.AD := 0x03C
def Cr.BD := 0x040
def Cr.KF := 0x044
def Cr.I_MIN := 0x048
def Cr.I_MAX := 0x04C
def Cr.TDECAY := 0x050
def Cr.BQ := 0x060
def Cr.DSS := 0x0B0
def Cr.BSS := 0x0B4
def Cr.CSS := 0x0D4
def Cr.ASS := 0x0F4

/-- The entries of a slot table: slot, SPANM1 and channel; covered slots are passed over. -/
def scanSlots (w : Nat → Nat) : Nat → Nat → List (Nat × Nat × Nat)
  | 0, _ => []
  | k + 1, s =>
    if s ≥ 512 then []
    else if bit (w s) 31 then
      let span := min (bits (w s) 24 16) (511 - s)
      (s, bits (w s) 24 16, bits (w s) 7 0) :: scanSlots w k (s + span + 1)
    else scanSlots w k (s + 1)

def Mach.slotWord (m : Mach) (b s : Nat) : Nat := m.rdNat (bankBase b + 4 * s) 4
def Mach.slots (m : Mach) (b : Nat) : List (Nat × Nat × Nat) := scanSlots (m.slotWord b) 512 0

/-- The cost of a channel in engine cycles (R456). -/
def Mach.chanCost (m : Mach) (b c : Nat) : Nat :=
  let n := m.cf b c Cr.ORDER 1
  8 + 5 * (m.cf b c Cr.NBQM 1 + m.cf b c Cr.NBQO 1) + (match m.cf b c Cr.LAW 1 with
    | 1 => 12
    | 2 => 11 + ceilDiv ((n + 1) * (n + 1)) 4
    | _ => 0)

/-- C of R446. -/
def Dev.slotCycles (d : Dev) : Nat := d.cePeriod / 640

/-! ### Validation (R452, and the reasons of CE_SWAP_ERR) -/

/-- The first item of a list at which a check fails. -/
def firstBad {α : Type} (xs : List α) (f : α → Option (Nat × Nat)) : Option (Nat × Nat) := xs.findSome? f

/-- 0x01 SLOT: the span leaves the table, or a covered slot is not zero. -/
def Mach.vcSlot (m : Mach) (b : Nat) (es : List (Nat × Nat × Nat)) : Option (Nat × Nat) :=
  firstBad es (fun e =>
    if e.1 + e.2.1 > 511 then some (e.1, e.2.2)
    else ((List.range e.2.1).find? (fun i => m.slotWord b (e.1 + 1 + i) != 0)).map (fun i => (e.1 + 1 + i, e.2.2)))

/-- 0x02 DUPLICATE. -/
def dupSlots : List (Nat × Nat × Nat) → List Nat → Option (Nat × Nat)
  | [], _ => none
  | e :: es, seen => if seen.contains e.2.2 then some (e.1, e.2.2) else dupSlots es (e.2.2 :: seen)

/-- 0x04 LAW. -/
def Mach.lawBad (m : Mach) (b c : Nat) : Bool :=
  let law := m.cf b c Cr.LAW 1
  let n := m.cf b c Cr.ORDER 1
  decide (law > 2) || (law == 2 && (n == 0 || decide (n > 8))) || (law != 2 && n != 0)
    || decide (m.cf b c Cr.NBQM 1 + m.cf b c Cr.NBQO 1 > 4)

/-- 0x05 SOURCE. -/
def Mach.sourceBad (m : Mach) (b c : Nat) : Bool :=
  let sp := m.cf b c Cr.SPSRC 1
  let ms := m.cf b c Cr.MSRC 1
  decide (sp > 2) || decide (ms > 2) || (sp == 1 && m.cf b c Cr.SPCH 1 == c) || (ms == 1 && m.cf b c Cr.MCH 1 == c)
    || (ms == 0 && decide (m.cf b c Cr.MAXIS 2 > 1023))

/-- Offsets of the values that every channel uses, and of those that its law and biquads leave unused. -/
def alwaysUsed : List Nat := (List.range 15).map (fun i => 0x018 + 4 * i)
def Mach.unusedAt (m : Mach) (b c : Nat) : List Nat :=
  let nb := m.cf b c Cr.NBQM 1 + m.cf b c Cr.NBQO 1
  let ss := m.cf b c Cr.LAW 1 == 2
  let n := if ss then m.cf b c Cr.ORDER 1 else 0
  (List.range 20).filterMap (fun i => if i / 5 < nb then none else some (Cr.BQ + 4 * i))
    ++ (if ss then [] else [Cr.DSS])
    ++ (List.range 8).flatMap (fun j => if j < n then [] else [Cr.BSS + 4 * j, Cr.CSS + 4 * j])
    ++ (List.range 64).filterMap (fun i => if i / 8 < n && i % 8 < n then none else some (Cr.ASS + 4 * i))
def coeffAt : List Nat :=
  (List.range 20).map (fun i => Cr.BQ + 4 * i) ++ [Cr.DSS]
    ++ (List.range 8).flatMap (fun j => [Cr.BSS + 4 * j, Cr.CSS + 4 * j]) ++ (List.range 64).map (fun i => Cr.ASS + 4 * i)

/-- 0x06 COEFF. -/
def Mach.coeffBad (m : Mach) (b c : Nat) : Bool :=
  let f := FFmt.f32
  let unused := m.unusedAt b c
  let v := fun o => m.cf b c o 4
  let le := fun x y => !f.lt y x
  (alwaysUsed ++ coeffAt.filter (fun o => !unused.contains o)).any (fun o => !f.isFinite (v o))
    || unused.any (fun o => v o != 0)
    || !le (v Cr.OUT_MIN) (v Cr.OUT_MAX) || !le (v Cr.I_MIN) (v Cr.I_MAX)
    || f.lt (v Cr.SP_RATE) 0 || f.lt (v Cr.OUT_RATE) 0
    || f.lt (v Cr.TDECAY) 0 || !f.lt (v Cr.TDECAY) 0x3F800000

/-- 0x07 STALE. -/
def Mach.staleBad (m : Mach) (b c : Nat) : Bool :=
  let out := fun x => x == 0 || decide (x > 16777215)
  out (m.cf b c Cr.SP_STALE_US 4) || (bit (m.cf b c Cr.FLAGS 1) 2 && out (m.cf b c Cr.M_STALE_US 4))

/-- A template's CAN buffer, when it is enabled and sends on CAN. -/
def Mach.tmplCan (m : Mach) (b n : Nat) : Option (Nat × Nat) :=
  if m.tf b n 0 1 = 1 && m.tf b n 1 1 = 1 then some (m.tf b n 2 1, m.tf b n 3 1) else none

/-- 0x08 TEMPLATE. -/
def Mach.tmplBad (m : Mach) (b n : Nat) : Bool :=
  let en := m.tf b n 0 1
  let q := m.tf b n 3 1
  let nrec := m.tf b n 0x0E 1
  let canf := m.tf b n 0x0F 1
  let can := m.tf b n 1 1 == 1
  decide (en > 1) || (en == 1 && (decide (m.tf b n 1 1 > 1) || decide (m.tf b n 2 1 > 3)
    || (if can then decide (q < 16) || decide (q > 31) || nrec == 0 || decide (nrec > (if bit canf 0 then 8 else 1))
          || decide (m.tf b n 0x10 4 ≥ (if bit canf 1 then 2 ^ 29 else 2 ^ 11))
          || (List.range n).any (fun k => (m.tmplCan b k).isSome && m.tmplCan b k == m.tmplCan b n)
        else decide (q > 7) || nrec == 0 || decide (nrec > 185))
    || (List.range (min nrec 185)).any (fun i => decide (m.tf b n (0x20 + 4 * i + 2) 2 > 1023))))

/-- 0x09 RESERVED, for a channel and for a template. -/
def Mach.chanReserved (m : Mach) (b c : Nat) : Bool :=
  decide (m.cf b c Cr.FLAGS 1 ≥ 8) || m.cf b c 0x0B 1 != 0 || m.cf b c 0x54 12 != 0 || m.cf b c 0x1F4 12 != 0
def Mach.tmplReserved (m : Mach) (b n : Nat) : Bool :=
  m.tf b n 0 1 == 1 && (decide (m.tf b n 0x0A 1 > 1) || m.tf b n 0x0B 1 != 0 || decide (m.tf b n 0x0F 1 > 7)
    || m.tf b n 0x14 12 != 0 || m.tf b n 0x304 252 != 0)

/-- The first check that a bank fails, in the order of the reasons: reason, slot and item.  The records of channels that no
slot names are not checked (log 52). -/
def Mach.validateBank (m : Mach) (b : Nat) : Option (Nat × Nat × Nat) :=
  let es := m.slots b
  let per := fun (bad : Nat → Bool) => firstBad es (fun e => if bad e.2.2 then some (e.1, e.2.2) else none)
  let tmpl := fun (bad : Nat → Bool) => firstBad (List.range 64) (fun n => if bad n then some (0, n) else none)
  let cyc := m.dev.slotCycles
  let checks : List (Nat × Option (Nat × Nat)) := [
    (1, m.vcSlot b es), (2, dupSlots es []),
    (3, firstBad es (fun e => if m.chanCost b e.2.2 > (e.2.1 + 1) * cyc then some (e.1, e.2.2) else none)),
    (4, per (m.lawBad b)), (5, per (m.sourceBad b)), (6, per (m.coeffBad b)), (7, per (m.staleBad b)),
    (8, tmpl (m.tmplBad b)),
    (9, (firstBad (List.range 512) (fun s =>
      let w := m.slotWord b s
      if bits w 30 25 != 0 || bits w 15 8 != 0 then some (s, bits w 7 0) else none)).orElse (fun _ =>
        (per (m.chanReserved b)).orElse (fun _ => tmpl (m.tmplReserved b))))]
  checks.findSome? (fun x => x.2.map (fun y => (x.1, y.1, y.2)))

/-- CE_SWAP_ERR records a failed validation. -/
def Dev.swapErr (d : Dev) (e : Nat × Nat × Nat) : Dev := d.setReg Reg.CE_SWAP_ERR (e.1 * 2 ^ 27 + e.2.1 * 2 ^ 18 + e.2.2)

/-! ### Channels (R458, R461) -/

def Dev.chan (d : Dev) (c : Nat) : ChanSt := AMap.getD d.eng.chans c {}
def Dev.setChan (d : Dev) (c : Nat) (x : ChanSt) : Dev :=
  d.modCe (fun e => { e with chans := AMap.set e.chans c x })
def Dev.modChan (d : Dev) (c : Nat) (f : ChanSt → ChanSt) : Dev := d.setChan c (f (d.chan c))
def Dev.chanMode (d : Dev) (c : Nat) : Nat := d.rf (Reg.CE_CHn_STAT c) Fld.CE_CHn_STAT.MODE
def Dev.scheduled (d : Dev) (c : Nat) : Bool := d.eng.sched.contains c
def Dev.ceCnt (d : Dev) (k : Nat) : Dev := d.cnt (Reg.CE_CNT_k k) 1
def Dev.f2 (d : Dev) : Bool := d.rfB Reg.SAF_STAT Fld.SAF_STAT.F2_LATCHED

def Mach.safeOut (m : Mach) (c : Nat) : Nat := m.cf m.dev.bank c Cr.SAFE_OUT 4

def ChanSt.zeroLaw (x : ChanSt) : ChanSt :=
  { x with i := 0, d := 0, xdPrev := 0, x := List.replicate 8 0, z := 0 }
def ChanSt.zeroBq (x : ChanSt) : ChanSt := { x with s1 := List.replicate 4 0, s2 := List.replicate 4 0 }

/-- A channel takes a mode (R461 to R463): OFF zeroes its states, SAFE counts an entry, AUTO begins with a transfer, and
MANUAL from AUTO takes the latched output unless MAN_OUT was written since the previous instant. -/
def Dev.setMode (d : Dev) (c mode cause : Nat) : Dev :=
  let old := d.chanMode c
  if old = mode then d
  else
    let x := d.chan c
    let d := d.setReg (Reg.CE_CHn_STAT c)
      (setBits (setBits (d.reg (Reg.CE_CHn_STAT c)) 31 30 mode) 26 24 (if mode = 3 then cause else 0))
    if mode = 0 then d.setChan c x.zeroLaw.zeroBq
    else if mode = 3 then (d.modCe (fun e => { e with safeSeen := true })).ceCnt 3
    else if mode = 2 then d.setChan c { x with xfer := true }
    else if old = 2 && !x.manNew then
      (d.setChan c { x with man := x.out }).setReg (Reg.CE_CHn_MAN c) x.out
    else d

/-- The greater and the lesser of two binary32 values: a NaN when either is one, and -0 below +0. -/
def max32 (a b : Nat) : Nat :=
  let f := FFmt.f32
  if f.isNan a || f.isNan b then f.nanCode else if f.lt a b then b else if f.lt b a then a else if a ≥ f.signBit then b else a
def min32 (a b : Nat) : Nat :=
  let f := FFmt.f32
  if f.isNan a || f.isNan b then f.nanCode else if f.lt a b then a else if f.lt b a then b else if a ≥ f.signBit then a else b
def eq32 (a b : Nat) : Bool :=
  let f := FFmt.f32
  !f.isNan a && !f.isNan b && !f.lt a b && !f.lt b a

/-- biquad(q, x) of R458. -/
def Mach.biquad (m : Mach) (b c q x : Nat) (s : ChanSt) : Nat × ChanSt :=
  let f := FFmt.f32
  let k := fun i => m.cf b c (Cr.BQ + 20 * q + 4 * i) 4
  let y := f.fma (k 0) x (s.s1.getD q 0)
  let a := f.fma (k 1) x (f.fma (f.neg (k 3)) y (s.s2.getD q 0))
  let z := f.fma (k 2) x (f.mul (f.neg (k 4)) y)
  (y, { s with s1 := s.s1.set q a, s2 := s.s2.set q z })

/-- A run of biquads. -/
def Mach.biquads (m : Mach) (b c from_ n x : Nat) (s : ChanSt) : Nat × ChanSt :=
  (List.range n).foldl (fun (p : Nat × ChanSt) i => m.biquad b c (from_ + i) p.1 p.2) (x, s)

/-- The setpoint after its rate limit. -/
def Mach.ramp (m : Mach) (b c t : Nat) (s : ChanSt) : Nat :=
  let f := FFmt.f32
  let rate := m.cf b c Cr.SP_RATE 4
  if f.lt 0 rate then min32 (max32 t (f.sub s.rPrev rate)) (f.add s.rPrev rate) else t

/-- The output limits of the frame. -/
def Mach.limits (m : Mach) (b c : Nat) (s : ChanSt) : Nat × Nat :=
  let f := FFmt.f32
  let lo := m.cf b c Cr.OUT_MIN 4
  let hi := m.cf b c Cr.OUT_MAX 4
  let rate := m.cf b c Cr.OUT_RATE 4
  if f.lt 0 rate then (max32 lo (f.sub s.out rate), min32 hi (f.add s.out rate)) else (lo, hi)

/-- What one evaluation gives: u, v, whether the output was limited, and the channel with its new states and signals. -/
structure EvalOut where
  u : Nat
  v : Nat
  sat : Bool
  st : ChanSt

/-- The derivative filter: xd and dt. -/
def Mach.deriv (m : Mach) (b c meas e : Nat) (s : ChanSt) : Nat × Nat :=
  let f := FFmt.f32
  let xd := if bit (m.cf b c Cr.FLAGS 1) 0 then f.neg meas else e
  (xd, f.fma (m.cf b c Cr.AD 4) s.d (f.mul (m.cf b c Cr.BD 4) (f.sub xd s.xdPrev)))

/-- A frame in AUTO (R458), with the transfer of R462 in the first one. -/
def Mach.evalAuto (m : Mach) (b c mraw t ffv : Nat) (s0 : ChanSt) : EvalOut :=
  let f := FFmt.f32
  let law := m.cf b c Cr.LAW 1
  let n := m.cf b c Cr.ORDER 1
  let (meas, s) := m.biquads b c 0 (m.cf b c Cr.NBQM 1) mraw s0
  let r := m.ramp b c t s
  let e := f.sub r meas
  let ff := f.mul (m.cf b c Cr.KF 4) ffv
  let p := f.mul (m.cf b c Cr.KP 4) e
  let (xd, dt) := m.deriv b c meas e s
  let imin := m.cf b c Cr.I_MIN 4
  let imax := m.cf b c Cr.I_MAX 4
  let s := if s.xfer && law = 1 then
      { s with i := min32 (max32 (f.sub (f.sub (f.sub s.out p) dt) ff) imin) imax }
    else if s.xfer && law = 2 then
      { s with x := List.replicate 8 0, z := f.sub (f.sub s.out (f.mul (m.cf b c Cr.DSS 4) e)) ff }
    else s
  let v := match law with
    | 1 => f.add (f.add (f.add p s.i) dt) ff
    | 2 =>
      let v := (List.range n).foldl (fun v j => f.fma (m.cf b c (Cr.CSS + 4 * j) 4) (s.x.getD j 0) v)
        (f.mul (m.cf b c Cr.DSS 4) e)
      f.add (f.add v s.z) ff
    | _ => f.add r ff
  let xn := if law = 2 then
      (List.range 8).map (fun a =>
        if a < n then
          (List.range n).foldl (fun y j => f.fma (m.cf b c (Cr.ASS + 32 * a + 4 * j) 4) (s.x.getD j 0) y)
            (f.mul (m.cf b c (Cr.BSS + 4 * a) 4) e)
        else 0)
    else s.x
  let (v, s) := m.biquads b c (m.cf b c Cr.NBQM 1) (m.cf b c Cr.NBQO 1) v s
  let (lo, hi) := m.limits b c s
  let u := min32 (max32 v lo) hi
  let ki := m.cf b c Cr.KI 4
  let g := f.mul ki e
  let hold := (eq32 u hi && f.lt hi v && f.lt 0 g) || (eq32 u lo && f.lt v lo && f.lt g 0)
  let s := if law = 1 then
      { s with
        i := if hold then s.i else min32 (max32 (f.fma ki e s.i) imin) imax
        d := dt
        xdPrev := xd }
    else if law = 2 then { s with x := xn, z := f.mul s.z (m.cf b c Cr.TDECAY 4) }
    else s
  let sig : AMap Nat := [(0, r), (1, meas), (2, mraw), (3, e), (4, if law = 1 then p else 0), (5, if law = 1 then s.i else 0),
    (6, if law = 1 then dt else 0), (7, ff), (8, v), (9, u)]
    ++ (if law = 2 then (List.range n).map (fun j => (10 + j, s.x.getD j 0)) else [])
  ⟨u, v, u != v, { s with rPrev := r, xfer := false, signals := sig }⟩

/-- A frame in MANUAL (R461): the measurement biquads and, for PID, the derivative filter run; the output is MAN_OUT through
the limits. -/
def Mach.evalManual (m : Mach) (b c mraw t : Nat) (s0 : ChanSt) : EvalOut :=
  let f := FFmt.f32
  let law := m.cf b c Cr.LAW 1
  let (meas, s) := m.biquads b c 0 (m.cf b c Cr.NBQM 1) mraw s0
  let r := m.ramp b c t s
  let e := f.sub r meas
  let (xd, dt) := m.deriv b c meas e s
  let s := if law = 1 then { s with d := dt, xdPrev := xd } else s
  let (lo, hi) := m.limits b c s
  let u := min32 (max32 s.man lo) hi
  let sig : AMap Nat := [(0, r), (1, meas), (2, mraw), (3, e), (5, if law = 1 then s.i else 0), (6, if law = 1 then dt else 0),
    (8, s.man), (9, u)]
  ⟨u, s.man, u != s.man, { s with rPrev := r, signals := sig }⟩

/-- Every value that R460 names is finite. -/
def EvalOut.finite (o : EvalOut) : Bool :=
  ([o.u, o.v, o.st.i, o.st.d, o.st.z] ++ o.st.x ++ o.st.s1 ++ o.st.s2).all FFmt.f32.isFinite

end Sys2Proof.Machine
end

