-- ==== Sys2Proof/Machine/CeRun.lean ====
section
/-!
DEFINITION. The frames of the control engine: the evaluation of a channel (R458 to R462, R469, R470), drive frames (R410,
R412, R471, R472), the trace (R473 to R476), bank swaps (R452, R465), modes and samples (R447, R449, R461, R468), and the
safe state of R464.
-/
namespace Sys2Proof.Machine

/-! ### Evaluating a channel -/

/-- A channel's output as it stands during the frame (R459): this frame's, else the one latched. -/
def ChanSt.now (x : ChanSt) : Nat := match x.next with
  | some (u, _) => u
  | none => x.out

/-- The target, the feed-forward value and whether the frame is stale (R459, R469). -/
def Mach.target (m : Mach) (b c : Nat) : Nat × Nat × Bool :=
  let x := m.dev.chan c
  match m.cf b c Cr.SPSRC 1 with
  | 0 =>
    if !x.spStale then (x.sp, x.ff, false)
    else match bit (m.cf b c Cr.FLAGS 1) 1, x.fresh with
      | false, some (sp, ff) => (sp, ff, true)
      | _, _ => (m.cf b c Cr.SAFE_SP 4, 0, true)
  | 1 =>
    let y := m.dev.chan (m.cf b c Cr.SPCH 1)
    (y.now, 0, y.stale)
  | _ => (m.cf b c Cr.SPCONST 4, 0, false)

/-- The measurement as sampled. -/
def Mach.rawMeas (m : Mach) (b c : Nat) : Nat :=
  match m.cf b c Cr.MSRC 1 with
  | 0 => (m.dev.chan c).mraw
  | 1 => (m.dev.chan (m.cf b c Cr.MCH 1)).now
  | _ => 0

/-- The raw bits of the trace signal FLAGS. -/
def flagSignal (stale sat : Bool) (mode : Nat) : Nat := b2n stale + 2 * b2n sat + 4 * mode

/-- A channel that gives SAFE_OUT in this frame: it is in OFF or SAFE, or has just entered SAFE. -/
def Mach.giveSafe (m : Mach) (c : Nat) (stale : Bool) : Mach :=
  let u := m.safeOut c
  m.mod (fun d => d.modChan c (fun x => { x with
    next := some (u, 1, stale, false)
    stale := stale
    signals := [(2, x.mraw), (9, u), (18, x.sp), (19, flagSignal stale false (d.chanMode c))] }))

/-- A stale frame counted, with the fault of a run that reaches STALE_FAULT (R470); a frame that is not stale ends the
run. -/
def Mach.noteStale (m : Mach) (b c : Nat) (stale : Bool) : Mach :=
  if !stale then m.mod (fun d => d.modChan c (fun x => { x with run := 0 }))
  else
    let n := min (2 ^ 24 - 1) ((m.dev.chan c).run + 1)
    let lim := m.cf b c Cr.STALE_FAULT 4
    m.mod (fun d =>
      let again := (d.chan c).run
      let d := (d.ceCnt 1).modChan c (fun x => { x with run := n })
      if lim ≠ 0 && n = lim && again ≠ n then d.raise 1 Src.CE 0x0001 c n else d)

/-- The evaluation of a channel in its slots (R458 to R462, R469, R470); a record with an uncorrectable error gives an open
output. -/
def Mach.evalChan (m : Mach) (c : Nat) : Mach :=
  let b := m.dev.bank
  let mode := m.dev.chanMode c
  match m.eccRead (chanAddr b c) 512 0xFF 16 with
  | (m, some _) =>
    let (i, d) := m.dev.fresh
    { m with dev := d.modChan c (fun x => { x with next := some (Config.freeNat i % 2 ^ 32, 1, false, false) }) }
  | (m, none) =>
    if mode = 0 || mode = 3 then ((m.noteStale b c false).giveSafe c false)
    else
      let mraw := m.rawMeas b c
      if m.cf b c Cr.MSRC 1 = 0 && bit (m.cf b c Cr.FLAGS 1) 2 && (m.dev.chan c).mstale then
        let axis := m.cf b c Cr.MAXIS 2
        ((m.mod (fun d => (d.setMode c 3 3).raise 1 Src.CE 0x0002 c (axis % 1024))).noteStale b c false).giveSafe c false
      else
        let (t, ffv, stale) := m.target b c
        let m := m.noteStale b c stale
        let x := m.dev.chan c
        let o := if mode = 2 then m.evalAuto b c mraw t ffv x else m.evalManual b c mraw t x
        if o.finite then
          m.mod (fun d =>
            let d := if o.sat then d.ceCnt 2 else d
            d.setChan c { o.st with
              next := some (o.u, 2 * b2n stale, stale, o.sat)
              stale := stale
              signals := o.st.signals ++ [(18, x.sp), (19, flagSignal stale o.sat mode)] })
        else
          (m.mod (fun d =>
            (((d.ceCnt 4).setChan c o.st.zeroLaw.zeroBq).setMode c 3 4).raise 1 Src.CE 0x0003 c (d.eng.k - 1))).giveSafe c stale

/-- The scheduled channels that the present frame has not evaluated yet, in slot order. -/
def Dev.toEvaluate (d : Dev) : List Nat := d.eng.sched.filter (fun c => (d.chan c).next.isNone)

/-- Every scheduled channel that is left is evaluated. -/
def Mach.evalRest (m : Mach) : Mach := m.dev.toEvaluate.foldl Mach.evalChan m

/-! ### Drive frames (R405, R410, R412, R471, R472) -/

/-- One record of 8 bytes (R406). -/
def driveRecord (axis code flags value : Nat) : List Byte :=
  beBytes 2 axis ++ beBytes 1 code ++ beBytes 1 flags ++ beBytes 4 value

/-- The records of template `n`: AXIS and CODE of the template, output and RFLAGS of the channel. -/
def Mach.driveRecs (m : Mach) (b n : Nat) : List (Nat × Nat × Nat × Nat) :=
  (List.range (m.tf b n 0x0E 1)).map (fun i =>
    let x := m.dev.chan (m.tf b n (0x20 + 4 * i) 1)
    (m.tf b n (0x20 + 4 * i + 2) 2, m.tf b n (0x20 + 4 * i + 1) 1, x.outFlags, x.out))

/-- The data field lengths of CAN FD that R412 uses. -/
def canField (n : Nat) : Nat := ([8, 16, 24, 32, 48].find? (fun l => decide (n ≤ l))).getD 64

/-- The frame of template `n`, stamped and queued; SEQ advances. -/
def Mach.driveFrame (m : Mach) (b n stamp : Nat) : Mach :=
  let recs := m.driveRecs b n
  let body := recs.flatMap (fun r => driveRecord r.1 r.2.1 r.2.2.1 r.2.2.2)
  let port := m.tf b n 2 1
  let q := m.tf b n 3 1
  if m.tf b n 1 1 = 1 then
    let canf := m.tf b n 0x0F 1
    let len := canField body.length
    let f : CanFrame := ⟨bit canf 1, BitVec.ofNat 29 (m.tf b n 0x10 4), bit canf 0, false,
      body ++ List.replicate (len - body.length) 0xFF⟩
    m.mod (fun d => d.queueCan port q ⟨f, bit canf 2⟩)
  else
    let seq := AMap.getD m.dev.eng.seq n 0
    let flags := 1 + 2 * b2n (recs.all (fun r => bit r.2.2.1 0))
    let p := beBytes 1 1 ++ beBytes 1 1 ++ beBytes 1 flags ++ beBytes 1 recs.length ++ beBytes 2 seq ++ beBytes 2 n
      ++ beBytes 8 stamp ++ body
    let tag := if bit (m.tf b n 0x0A 1) 0 then beBytes 2 0x8100 ++ beBytes 2 (m.tf b n 0x0C 2) else []
    let bs := m.rdBytes (tmplAddr b n + 4) 6 ++ m.dev.station port ++ tag
      ++ beBytes 2 (m.dev.rf (Reg.ETH_CTRL port) Fld.ETH_CTRL.ETYPE) ++ p ++ beBytes 4 (crc32c p)
    m.mod (fun d => (d.modCe (fun e => { e with seq := AMap.set e.seq n ((seq + 1) % 65536) })).queueDrive port q n bs)

/-- Every enabled template of the active bank builds and queues its frame; none does once the duplicate compare has failed
(R514). -/
def Mach.driveAll (m : Mach) (stamp : Nat) : Mach :=
  let b := m.dev.bank
  if m.dev.eng.dead then m else
  (List.range 64).foldl (fun m n => if m.tf b n 0 1 = 1 then m.driveFrame b n stamp else m) m

/-! ### The trace (R473 to R476) -/

def Dev.traceNodes (d : Dev) : Nat := min 32 (max 1 (d.rf Reg.CE_TR_CTRL Fld.CE_TR_CTRL.NNODES))
def Dev.traceRec (d : Dev) : Nat := 16 * ceilDiv (8 + 4 * d.traceNodes) 16
def Dev.traceCap (d : Dev) : Nat := 1048576 / d.traceRec
def Dev.modTrace (d : Dev) (f : TraceSt → TraceSt) : Dev := d.modCe (fun e => { e with trace := f e.trace })
def Dev.traceState (d : Dev) : Nat := d.rf Reg.CE_TR_STAT Fld.CE_TR_STAT.STATE
def Dev.setTraceState (d : Dev) (s : Nat) : Dev := d.wf Reg.CE_TR_STAT Fld.CE_TR_STAT.STATE s

/-- The value of trace node `i` in the frame. -/
def Dev.nodeValue (d : Dev) (i : Nat) : Nat :=
  let a := Reg.CE_TR_NODEi i
  let sig := d.rf a Fld.CE_TR_NODEi.SIG
  if sig ≥ 20 then 0 else AMap.getD (d.chan (d.rf a Fld.CE_TR_NODEi.CH)).signals sig 0

/-- A crossing of LEVEL from `p` to `v`, by KIND (R475). -/
def crosses (kind level p v : Nat) : Bool :=
  let f := FFmt.f32
  let ok := !f.isNan p && !f.isNan v && !f.isNan level
  let rise := f.lt p level && !f.lt v level
  let fall := !f.lt p level && f.lt v level
  ok && ((kind == 1 && rise) || (kind == 2 && fall) || (kind == 3 && (rise || fall)))

/-- The trigger fires in this frame. -/
def Dev.traceFires (d : Dev) : Bool :=
  let t := d.eng.trace
  let kind := d.rf Reg.CE_TR_TRIG Fld.CE_TR_TRIG.KIND
  let x := d.chan (d.rf Reg.CE_TR_TRIG Fld.CE_TR_TRIG.TCH)
  t.force
    || (match t.prev with
        | some p => crosses kind (d.reg Reg.CE_TR_LEVEL) p (d.nodeValue (d.rf Reg.CE_TR_TRIG Fld.CE_TR_TRIG.TNODE))
        | none => false)
    || (kind == 4 && d.eng.safeSeen) || (kind == 5 && x.stale && x.run == 1) || (kind == 6 && d.eng.faultSeen)

/-- The record of the frame whose instant is `stamp` written at the next ring index. -/
def Mach.traceWrite (m : Mach) (stamp : Nat) : Mach :=
  let d := m.dev
  let t := d.eng.trace
  let bs := leBytes 8 stamp ++ (List.range d.traceNodes).flatMap (fun i => leBytes 4 (d.nodeValue i))
  (m.store (ceMem + t.idx * d.traceRec) (bs ++ List.replicate (d.traceRec - bs.length) 0)).mod (fun d =>
    d.modTrace (fun t => { t with idx := (t.idx + 1) % d.traceCap, since := t.since + 1 }))

/-- Recording ends. -/
def Dev.traceDone (d : Dev) : Dev := (d.setTraceState 3).wf Reg.CE_TR_CTRL Fld.CE_TR_CTRL.ARM 0

/-- The trigger has fired: where it stands in the ring, and what the trace keeps from before it. -/
def Dev.traceTrigger (d : Dev) (stamp : Nat) : Dev :=
  let t := d.eng.trace
  let got := min (d.rf Reg.CE_TR_WIN Fld.CE_TR_WIN.PRE) t.since
  let post := d.rf Reg.CE_TR_WIN Fld.CE_TR_WIN.POST
  let d := (d.setTraceState 2).wf Reg.CE_TR_STAT Fld.CE_TR_STAT.PRE_GOT got
  let d := d.setReg Reg.CE_TR_POS (((t.idx + d.traceCap - got) % d.traceCap) * 2 ^ 16 + t.idx)
  (d.setReg64 Reg.CE_TR_STAMP_LO stamp).modTrace (fun t => { t with post := post })

/-- Step 3 of R447 for the frame that began at `stamp`. -/
def Mach.traceStep (m : Mach) (stamp : Nat) : Mach :=
  let d := m.dev
  let due := d.eng.trace.wait = 0
  let state := d.traceState
  let m :=
    if state = 1 && d.traceFires then
      let m := (m.mod (fun d => d.traceTrigger stamp)).traceWrite stamp
      if m.dev.eng.trace.post = 0 then m.mod Dev.traceDone else m
    else if state = 1 && due then m.traceWrite stamp
    else if state = 2 && due then
      let m := (m.traceWrite stamp).mod (fun d => d.modTrace (fun t => { t with post := t.post - 1 }))
      if m.dev.eng.trace.post = 0 then m.mod Dev.traceDone else m
    else m
  m.mod (fun d =>
    let node := d.nodeValue (d.rf Reg.CE_TR_TRIG Fld.CE_TR_TRIG.TNODE)
    let armed := state = 1 || state = 2
    let div := d.rf Reg.CE_TR_CTRL Fld.CE_TR_CTRL.DIVM1
    (d.modTrace (fun t => { t with
      prev := some node
      force := false
      wait := if !armed then 0 else if due then div else t.wait - 1 })).modCe (fun e =>
        { e with safeSeen := false, faultSeen := false }))

/-! ### Swaps (R452, R465) -/

/-- The channels that the slot table of bank `b` schedules. -/
def Mach.schedOf (m : Mach) (b : Nat) : List Nat := (m.slots b).map (fun e => e.2.2)

/-- The schedule of a bank comes into force: NOSLOT of every channel, and the requested mode of a channel that had none. -/
def Dev.setSched (d : Dev) (sched : List Nat) : Dev :=
  let before := d.eng.sched
  let d := d.modCe (fun e => { e with sched := sched })
  (List.range 256).foldl (fun d c =>
    let d := d.wf (Reg.CE_CHn_STAT c) Fld.CE_CHn_STAT.NOSLOT (b2n (!sched.contains c))
    if sched.contains c && !before.contains c then d.modChan c (fun x => { x with reqMode := true }) else d) d

/-- What a channel keeps when bank `n` replaces bank `b` (R465). -/
def Mach.carryOver (m : Mach) (b n : Nat) (d : Dev) (c : Nat) : Dev :=
  let differs := fun o => m.cf b c o 1 != m.cf n c o 1
  let d := if differs Cr.LAW || differs Cr.ORDER then
      d.modChan c (fun x => { x.zeroLaw with xfer := x.xfer || d.chanMode c == 2 }) else d
  if differs Cr.NBQM || differs Cr.NBQO then d.modChan c ChanSt.zeroBq else d

/-- The swap that waits is applied. -/
def Mach.applySwap (m : Mach) : Mach :=
  let b := m.dev.bank
  let n := 1 - b
  m.mod (fun d =>
    let tag := match d.eng.swap with
      | some (_, t) => t
      | none => none
    let d := (List.range 256).foldl (m.carryOver b n) d
    let d := (((d.modCe (fun e => { e with swap := none })).wf Reg.CE_STAT Fld.CE_STAT.ACTIVE n).wf
      Reg.CE_STAT Fld.CE_STAT.SWAP_PEND 0).ceCnt 0
    let d := d.setSched (m.schedOf n)
    match tag with
    | some t => d.notify t ST.OK []
    | none => d)

/-- A swap request (R452): its status. -/
def Mach.swapRequest (m : Mach) (tag : Option Nat) : Mach × Nat :=
  if m.dev.eng.swap.isSome then (m, ST.BUSY)
  else match m.validateBank (1 - m.dev.bank) with
    | some e => (m.mod (fun d => d.swapErr e), ST.BAD_PARAM)
    | none =>
      if m.dev.ceRun then
        (m.mod (fun d => (d.modCe (fun e => { e with swap := some (d.nsNow, tag) })).wf Reg.CE_STAT Fld.CE_STAT.SWAP_PEND 1),
          ST.DEFERRED)
      else (m.applySwap, ST.OK)

/-! ### Starting and stopping (R445, R453, R495) -/

/-- The engine stops; a swap that waits is applied. -/
def Mach.ceStop (m : Mach) : Mach :=
  let m := m.mod (fun d => ((d.modCe (fun e => { e with stopping := false, inFrame := false, apply := none })).wf
    Reg.CE_STAT Fld.CE_STAT.RUN 0).wf Reg.CE_CTRL Fld.CE_CTRL.EN 0)
  if m.dev.eng.swap.isSome then m.applySwap else m

/-- The channels as an enable leaves them: law and biquad states zero and the previous output SAFE_OUT. -/
def Mach.freshChannels (m : Mach) : Mach :=
  m.mod (fun d => (List.range 256).foldl (fun d c =>
    let d := d.setReg (Reg.CE_CHn_STAT c) (bits (d.reg (Reg.CE_CHn_STAT c)) 31 30 * 2 ^ 30
      + bits (d.reg (Reg.CE_CHn_STAT c)) 27 24 * 2 ^ 24)
    d.modChan c (fun x => { x.zeroLaw.zeroBq with
      rPrev := m.cf m.dev.bank c Cr.SAFE_SP 4
      out := m.safeOut c
      outFlags := 1
      next := none
      run := 0
      stale := false
      reqMode := true })) d)

/-- A write of 1 to CE_CTRL.EN, or CE_ENABLE: the status. -/
def Mach.ceEnable (m : Mach) : Mach × Nat :=
  if !m.dev.rfB Reg.SAF_STAT Fld.SAF_STAT.OUT_EN || m.dev.rfB Reg.PWR_STAT Fld.PWR_STAT.BOOT_ONLY then
    (m.mod (fun d => d.wf Reg.CE_STAT Fld.CE_STAT.CFG_LOCKED_WRITE 1), ST.STATE)
  else if m.dev.ceRun then
    (m.mod (fun d => (d.modCe (fun e => { e with stopping := false })).wf Reg.CE_CTRL Fld.CE_CTRL.EN 1), ST.OK)
  else match m.validateBank m.dev.bank with
    | some e => (m.mod (fun d => d.swapErr e), ST.BAD_PARAM)
    | none =>
      let sched := m.schedOf m.dev.bank
      (m.freshChannels.mod (fun d =>
        let d := d.setSched sched
        let t := stampAdd d.stamp 2000
        let d := d.modCe (fun e => { e with k := 0, inFrame := false, apply := none, stopping := false, stamp := t })
        let d := (d.ceAim t).setReg64 Reg.CE_FRAME_LO 0
        (d.wf Reg.CE_STAT Fld.CE_STAT.RUN 1).wf Reg.CE_CTRL Fld.CE_CTRL.EN 1), ST.OK)

/-- A write of 0 to CE_CTRL.EN, or CE_ENABLE with EN 0: the frame in progress completes. -/
def Mach.ceDisable (m : Mach) : Mach :=
  let m := m.mod (fun d => d.wf Reg.CE_CTRL Fld.CE_CTRL.EN 0)
  if !m.dev.ceRun then m
  else if !m.dev.eng.inFrame then m.ceStop
  else m.mod (fun d => d.modCe (fun e => { e with stopping := true }))

/-! ### Instants (R447 to R450) -/

/-- Step 1: the outputs of the frame are latched. -/
def Mach.latch (m : Mach) : Mach :=
  m.mod (fun d => (List.range 256).foldl (fun d c =>
    let x := d.chan c
    let (u, fl, stale, sat) := x.next.getD (m.safeOut c, 1, false, false)
    let r := setBits (setBits (setBits (d.reg (Reg.CE_CHn_STAT c)) 29 29 (b2n stale)) 28 28 (b2n sat)) 23 0 x.run
    (d.setReg (Reg.CE_CHn_STAT c) r).setChan c { x with out := u, outFlags := fl, next := none }) d)

/-- Steps 1 to 3 for the frame in progress, its outputs stamped with `stamp`. -/
def Mach.endFrame (m : Mach) (stamp : Nat) : Mach :=
  let m := m.evalRest.latch
  let m := m.driveAll stamp
  (m.traceStep m.dev.eng.stamp).mod (fun d => d.modCe (fun e => { e with inFrame := false }))

/-- Step 5: modes and manual outputs (R455, R461, R463, R464). -/
def Dev.applyModes (d : Dev) : Dev :=
  (List.range 256).foldl (fun d c =>
    let x := d.chan c
    let d :=
      if d.f2 then (d.setMode c 3 2).wf (Reg.CE_CHn_STAT c) Fld.CE_CHn_STAT.SAFE_CAUSE 2
      else if !d.scheduled c then d.setMode c 0 0
      else if x.reqMode then d.setMode c (d.rf (Reg.CE_CHn_MODE c) Fld.CE_CHn_MODE.MODE) 1
      else d
    let d := if x.manNew then d.modChan c (fun y => { y with man := d.reg (Reg.CE_CHn_MAN c) }) else d
    d.modChan c (fun y => { y with reqMode := false, manNew := false })) d

/-- The mailbox entry of a channel (R477). -/
def mailAddr (c : Nat) : Nat := ceMem + 0x188000 + 32 * c

/-- A field of control-engine memory read for a sample: open when the row has an uncorrectable error. -/
def Mach.sampleField (m : Mach) (a n : Nat) : Mach × Nat :=
  match m.eccRead a n 0xFF 16 with
  | (m, none) => (m, m.rdNat a n)
  | (m, some _) =>
    let (i, d) := m.dev.fresh
    ({ m with dev := d }, Config.freeNat i % 2 ^ (8 * n))

/-- Step 6: the sample of one channel at `stamp` (R449, R468 to R470). -/
def Mach.sampleChan (stamp b : Nat) (m : Mach) (c : Nat) : Mach :=
  let age := fun (st lim : Nat) => decide (stampDiff stamp st > (lim : Int) * 1000)
  let (m, ax) := m.sampleField (axisAddr (m.cf b c Cr.MAXIS 2 % 1024)) 16
  let (m, box) := m.sampleField (mailAddr c) 32
  let isAxis := m.cf b c Cr.MSRC 1 == 0
  let src := box / 2 ^ 128 % 256
  let old := src == 0 || age (box / 2 ^ 64 % 2 ^ 64) (m.cf b c Cr.SP_STALE_US 4)
  m.mod (fun d => d.modChan c (fun x => { x with
    mraw := if isAxis then ax % 2 ^ 32 else 0
    mstale := isAxis && age (ax / 2 ^ 64 % 2 ^ 64) (m.cf b c Cr.M_STALE_US 4)
    sp := box % 2 ^ 32
    ff := box / 2 ^ 32 % 2 ^ 32
    spStale := old
    fresh := if old then x.fresh else some (box % 2 ^ 32, box / 2 ^ 32 % 2 ^ 32) }))

/-- Steps 4 to 7 at instant j of stamp `stamp`: the next frame begins. -/
def Mach.beginFrame (m : Mach) (stamp : Nat) : Mach :=
  let due := match m.dev.eng.swap with
    | some (t, _) => decide (t + 2000 ≤ m.dev.nsNow)
    | none => false
  let m := if due then m.applySwap else m
  let m := m.mod Dev.applyModes
  let m := m.dev.eng.sched.foldl (Mach.sampleChan stamp m.dev.bank) m
  m.mod (fun d => (d.setReg64 Reg.CE_FRAME_LO (d.eng.k % 2 ^ 64)).modCe (fun e =>
    { e with k := e.k + 1, j := e.j + 1, inFrame := true, stamp := stamp }))

/-- An instant of the engine: after a step of the timebase, the application of the frame in progress (R450); else the
instant j.  Where no frame is in progress, at the first instant and after the gap of a step, the drive templates build
from the outputs as they were last latched, since R447 has them build at each instant (log 54). -/
def Mach.instant (m : Mach) : Mach :=
  if !m.dev.ceRun then m
  else match m.dev.eng.apply with
    | some a =>
      let m := (m.mod (fun d => d.reach a)).endFrame a
      if m.dev.eng.stopping then m.ceStop
      else m.mod (fun d => d.modCe (fun e => { e with apply := none, stamp := stampAdd a d.cePeriod }))
    | none =>
      let t := m.dev.ceInstant m.dev.eng.j
      let m := m.mod (fun d => d.reach t)
      let m := if m.dev.eng.inFrame then m.endFrame t else m.driveAll t
      if m.dev.eng.stopping then m.ceStop else m.beginFrame t

/-! ### The safe state (R464) -/

/-- An F2 has been raised: every channel enters SAFE, and each enabled template builds a safe frame at once. -/
def Mach.safeAll (m : Mach) : Mach :=
  let safe := (List.range 256).map (fun c => m.safeOut c)
  let m := m.mod (fun d =>
    ((List.range 256).foldl (fun d c =>
      let u := safe.getD c 0
      let d := (d.setMode c 3 2).wf (Reg.CE_CHn_STAT c) Fld.CE_CHn_STAT.SAFE_CAUSE 2
      d.modChan c (fun x => { x with
        out := u
        outFlags := 1
        next := x.next.map (fun _ => (u, 1, false, false))
        reqMode := false })) d).wf Reg.CE_STAT Fld.CE_STAT.SAFE_ALL 1)
  if m.dev.ceRun then m.driveAll m.dev.stamp else m

end Sys2Proof.Machine
end

