-- ==== Sys2Proof/Machine/Ce.lean ====
section
/-!
DEFINITION. The commands of the control engine (R447 to R479) and its command packets (R563), with the posts of R466.
-/
namespace Sys2Proof.Machine

/-- CE_INSTANT (R447): a channel whose slots have not been evaluated is evaluated first. -/
def execCeInstant (s : State) : Host.Outcome State Fault Refusal := run (fun m => m.instant) s

/-- The duplicate compare fails (R514): the engine stops at once and builds no further frame. -/
def Dev.dupCompare (d : Dev) (c : Nat) : Dev :=
  let d := d.modCe (fun e => { e with dead := true, stopping := false, inFrame := false, apply := none })
  let d := (d.wf Reg.CE_STAT Fld.CE_STAT.RUN 0).wf Reg.CE_CTRL Fld.CE_CTRL.EN 0
  d.raise 3 Src.CE 0x0004 c (d.eng.k - 1)

/-- CHANNEL_EVAL (R455, R458): the channels whose slots come before this one's are evaluated before it. -/
def execChannelEval (c : Fin 256) (dupFails : Bool) (s : State) : Host.Outcome State Fault Refusal :=
  run (fun m =>
    if !m.dev.ceRun || !m.dev.eng.inFrame || !m.dev.toEvaluate.contains c.val then m
    else if dupFails then
      let m := m.mod (fun d => d.dupCompare c.val)
      if m.dev.eng.swap.isSome then m.applySwap else m
    else
      let todo := m.dev.toEvaluate
      (todo.take (todo.idxOf c.val + 1)).foldl Mach.evalChan m) s

/-- CE_EN_WRITE (R453). -/
def execCeEnWrite (en : Bool) (s : State) : Host.Outcome State Fault Refusal :=
  run (fun m => if en then m.ceEnable.1 else m.ceDisable) s

/-- SWAP (R452). -/
def execSwap (s : State) : Host.Outcome State Fault Refusal := run (fun m => (m.swapRequest none).1) s

/-- A write of CE_CHn_MODE (R461, R464): ignored while F2 is latched, unless it asks for SAFE. -/
def Dev.ceModeWrite (d : Dev) (c mode : Nat) : Dev :=
  if d.f2 && mode ≠ 3 then d
  else (d.wf (Reg.CE_CHn_MODE c) Fld.CE_CHn_MODE.MODE mode).modChan c (fun x => { x with reqMode := true })

/-- CE_MODE_WRITE. -/
def execCeModeWrite (c : Fin 256) (mode : BitVec 2) (s : State) : Host.Outcome State Fault Refusal :=
  runDev (fun _ d => d.ceModeWrite c.val mode.toNat) s

/-- A write of CE_CHn_MAN: a value that is not finite leaves the field unchanged. -/
def Dev.ceManWrite (d : Dev) (c v : Nat) : Dev :=
  if FFmt.f32.isFinite v then (d.setReg (Reg.CE_CHn_MAN c) v).modChan c (fun x => { x with manNew := true })
  else d.wf Reg.CE_STAT Fld.CE_STAT.CFG_LOCKED_WRITE 1

/-- CE_MAN_WRITE (R463). -/
def execCeManWrite (c : Fin 256) (value : Word) (s : State) : Host.Outcome State Fault Refusal :=
  runDev (fun _ d => d.ceManWrite c.val value.toNat) s

/-- A write of ARM (R474, R476): refused when the window does not fit the ring. -/
def Dev.ceArm (d : Dev) (on : Bool) : Dev :=
  let armed := d.rfB Reg.CE_TR_CTRL Fld.CE_TR_CTRL.ARM
  if !on then (d.wf Reg.CE_TR_CTRL Fld.CE_TR_CTRL.ARM 0).setTraceState (if armed then 0 else d.traceState)
  else if armed then d
  else if d.rf Reg.CE_TR_WIN Fld.CE_TR_WIN.PRE + d.rf Reg.CE_TR_WIN Fld.CE_TR_WIN.POST + 1 > d.traceCap then
    d.wf Reg.CE_TR_STAT Fld.CE_TR_STAT.BADCFG 1
  else
    ((d.wf Reg.CE_TR_CTRL Fld.CE_TR_CTRL.ARM 1).setTraceState 1).modTrace (fun t =>
      { idx := 0, since := 0, wait := 0, post := 0, prev := t.prev, force := false })

/-- ARM. -/
def execArm (on : Bool) (s : State) : Host.Outcome State Fault Refusal := runDev (fun _ d => d.ceArm on) s

/-- A write of 1 to FORCE (R475). -/
def Dev.ceForce (d : Dev) : Dev := if d.traceState = 1 then d.modTrace (fun t => { t with force := true }) else d

/-- FORCE. -/
def execForce (s : State) : Host.Outcome State Fault Refusal := runDev (fun _ d => d.ceForce) s

def ceCounters : List Nat := (List.range 8).map Reg.CE_CNT_k

/-- CE_CNT_CLR (R479). -/
def execCeCntClr (s : State) : Host.Outcome State Fault Refusal := runDev (fun _ d => d.clearRegs ceCounters) s

/-! ### The mailbox (R466, R467) -/

/-- The 16-byte records of a post. -/
def postRecords (rows : List Byte) : List (List Byte) := (List.range (rows.length / 16)).map (fun i => slice rows (16 * i) 16)

/-- One record: skipped when VALID is clear, skipped and counted when CH, SP or FF is bad; the flag says whether an entry
has changed. -/
def Mach.postRecord (stamp src : Nat) (p : Mach × Bool) (r : List Byte) : Mach × Bool :=
  let ch := field r 0 2
  let sp := field r 4 4
  let ff := field r 8 4
  if !bit (field r 2 1) 0 then p
  else if ch ≥ 256 || !FFmt.f32.isFinite sp || !FFmt.f32.isFinite ff then (p.1.mod (fun d => d.ceCnt 7), p.2)
  else
    (p.1.store (mailAddr ch) (leBytes 4 sp ++ leBytes 4 ff ++ leBytes 8 stamp ++ leBytes 1 src ++ List.replicate 15 0), true)

/-- A post applied as a whole; POSTS counts one that changes an entry. -/
def Mach.postRows (m : Mach) (rs : List (List Byte)) (stamp src : Nat) : Mach :=
  let (m, changed) := rs.foldl (Mach.postRecord stamp src) (m, false)
  if changed then m.mod (fun d => d.ceCnt 6) else m

/-- POST (R466): the rows that the ended step has left become visible. -/
def execPost (loop : Fin 16) (s : State) : Host.Outcome State Fault Refusal :=
  run (fun m =>
    match AMap.getD m.dev.posts loop.val [] with
    | [] => m
    | (stamp, rows) :: rest =>
      (m.mod (fun d => { d with posts := if rest.isEmpty then AMap.erase d.posts loop.val
                                         else AMap.set d.posts loop.val rest })).postRows (postRecords rows) stamp (loop.val + 1)) s

/-! ### Command packets -/

/-- CE_ENABLE (R453, R495). -/
def execCeEnable (tag : BitVec 16) (s : State) : Host.Outcome State Fault Refusal :=
  run (fun m => m.cmd 0x0701 tag.toNat (fun m p =>
    match pay8 p.payload 0 with
    | 0 => m.ceDisable.ok p []
    | 1 =>
      let (m, st) := m.ceEnable
      m.answer p st []
    | _ => m.fail p ST.BAD_PARAM)) s

/-- CE_SWAP (R452). -/
def execCeSwap (tag : BitVec 16) (s : State) : Host.Outcome State Fault Refusal :=
  run (fun m => m.cmd 0x0702 tag.toNat (fun m p =>
    let (m, st) := m.swapRequest (some p.tag)
    m.answer p st [])) s

/-- CE_SETPOINT (R467): a post of its own, stamped with the packet's stamp (R398). -/
def execCeSetpoint (tag : BitVec 16) (s : State) : Host.Outcome State Fault Refusal :=
  run (fun m => m.cmd 0x0703 tag.toNat (fun m p =>
    let n := pay16 p.payload 0
    let rs := postRecords ((p.payload.drop 4).take (16 * n))
    if n = 0 || n > 256 || rs.any (fun r => decide (field r 0 2 ≥ 256)) then m.fail p ST.BAD_PARAM
    else (m.postRows rs p.stamp 0x80).ok p [])) s

/-- CE_MODE (R461 to R464, R478). -/
def execCeMode (tag : BitVec 16) (s : State) : Host.Outcome State Fault Refusal :=
  run (fun m => m.cmd 0x0704 tag.toNat (fun m p =>
    let mode := pay8 p.payload 1
    let man := pay32 p.payload 4
    if mode > 3 || !FFmt.f32.isFinite man then m.fail p ST.BAD_PARAM
    else if m.dev.f2 && mode ≠ 3 then m.fail p ST.STATE
    else (m.mod (fun d => (d.ceManWrite (pay8 p.payload 0) man).ceModeWrite (pay8 p.payload 0) mode)).ok p [])) s

/-- TRACE_READ: COUNT records of the trace from ring index FIRST; the ring goes on at its start. -/
def execTraceRead (tag : BitVec 16) (s : State) : Host.Outcome State Fault Refusal :=
  run (fun m => m.cmd 0x0A01 tag.toNat (fun m p =>
    let first := pay16 p.payload 0
    let n := pay16 p.payload 2
    let r := m.dev.traceRec
    if n * r > 32768 then m.fail p ST.BAD_PARAM
    else
      let addrs := (List.range n).map (fun i => ceMem + (first + i) % m.dev.traceCap * r)
      let (m, bad) := addrs.foldl (fun (x : Mach × Bool) a =>
        let (m, e) := x.1.eccRead a r 187 16
        (m, x.2 || e.isSome)) (m, false)
      if bad then m.fail p ST.FAULT else m.ok p (addrs.flatMap (fun a => m.rdBytes a r)))) s

end Sys2Proof.Machine
end

