-- ==== Sys2Proof/Machine/IngestCmd.lean ====
section
/-!
DEFINITION. The commands of the ingest engine (R416 to R444): CSI-2 packets, SENSOR frames, tensors and waiting bindings,
replay samples, and the opening and closing of streams.
-/
namespace Sys2Proof.Machine

/-! ### CSI-2 capture (R422, R423, R428, R429) -/

/-- The data type of a source format (R421, R425); none for the formats that no CSI stream has. -/
def csiType : Nat → Option Nat
  | 0 => some 0x2A
  | 1 => some 0x2B
  | 2 => some 0x2C
  | 3 => some 0x2E
  | 4 => some 0x1E
  | 5 => some 0x24
  | _ => none

/-- Port `p` receives. -/
def Dev.csiOn (d : Dev) (p : Nat) : Bool := d.rfB (Reg.ING_CSIp_CTRL p) Fld.ING_CSIp_CTRL.EN && !d.pwr.pwrFail

/-- The CSI streams that take input on virtual channel `vc` of port `p`, by number. -/
def Dev.csiStreams (d : Dev) (p vc : Nat) : List Nat :=
  (d.streams.filter (fun (x : Nat × StreamSt) =>
    x.2.live && Se.kind x.2.entry == 0 && Se.port x.2.entry == p && Se.vc x.2.entry == vc)).map (fun x => x.1)

def Dev.csiDiscard (d : Dev) (p : Nat) : Dev := d.cnt (Reg.ING_CSIp_DISC p) 1

/-- One line of the frame that stream `n` receives: kept and converted when it is good; else the frame is bad. -/
def Mach.csiLine (m : Mach) (n : Nat) (good : Bool) (line : List Byte) : Mach :=
  match m.dev.stream n with
  | none => m
  | some s =>
    match s.frame with
    | none => m
    | some f =>
      let ok := good && line.length == lineBytes (Se.fmt s.entry) (Se.w s.entry) && decide (f.lines < Se.h s.entry)
      let (m, stored) := match f.buf, ok && !f.bad with
        | some i, true => m.convertLine s.entry (m.bufAddr s.entry i) f.lines line
        | _, _ => (m, true)
      m.mod (fun d => d.setStream n { s with
        frame := some { f with
          lines := f.lines + 1
          bad := f.bad || !ok || !stored } })

/-- The stream that takes packets of a data type on a virtual channel of a port. -/
def Dev.csiFor (d : Dev) (p vc dt : Nat) : Option Nat :=
  (d.csiStreams p vc).find? (fun n => ((d.stream n).bind (fun x => csiType (Se.fmt x.entry))) == some dt)

/-- CSI_PACKET (R422, R423). -/
def execCsiPacket (p vc : Fin 16) (dt : BitVec 6) (eccBad crcOk late : Bool) (line : List Byte) (s : State) :
    Host.Outcome State Fault Refusal :=
  run (fun m =>
    if !m.dev.csiOn p.val then m
    else
      match eccBad, m.dev.csiFor p.val vc.val dt.toNat with
      | false, some n =>
        if (m.dev.stream n).all (fun x => x.frame.isNone) then m.mod (fun d => d.csiDiscard p.val)
        else m.csiLine n (crcOk && !late) line
      | _, _ => m.mod (fun d => d.csiDiscard p.val)) s

/-- A frame of stream `n` begins with a stamp and a number: one in progress is corrupt. -/
def Dev.startFrame (d : Dev) (n stamp number : Nat) : Dev :=
  let d := d.dropFrame n
  match d.stream n with
  | none => d
  | some x =>
    let (d, buf) := d.takeBuf n x
    d.modStream n (fun x => { x with frame := some { buf := buf, stamp := stamp, number := number } })

/-- CSI_FRAME_START (R423, R429): a frame in progress is corrupt; the new one is stamped. -/
def execCsiFrameStart (p vc : Fin 16) (frame : BitVec 16) (s : State) : Host.Outcome State Fault Refusal :=
  runDev (fun _ d =>
    if !d.csiOn p.val then d
    else match d.csiStreams p.val vc.val with
      | [] => d.csiDiscard p.val
      | ns => ns.foldl (fun d n => d.startFrame n d.stamp frame.toNat) d) s

/-- The frame in progress of stream `n` has been received whole: its tensor completes later. -/
def Dev.frameWhole (d : Dev) (n : Nat) : Dev :=
  d.modStream n (fun x => match x.frame with
    | some f => { x with
        frame := none
        ready := if f.buf.isSome then x.ready ++ [f] else x.ready }
    | none => x)

/-- The frame in progress of stream `n` ends: whole, or corrupt. -/
def Dev.endOfFrame (d : Dev) (n : Nat) : Dev :=
  match d.stream n with
  | none => d
  | some x =>
    match x.frame with
    | none => d
    | some f => if f.bad || f.lines ≠ Se.h x.entry then d.dropFrame n else d.frameWhole n

/-- CSI_FRAME_END (R423). -/
def execCsiFrameEnd (p vc : Fin 16) (s : State) : Host.Outcome State Fault Refusal :=
  runDev (fun _ d =>
    if !d.csiOn p.val then d
    else match d.csiStreams p.val vc.val with
      | [] => d.csiDiscard p.val
      | ns => ns.foldl Dev.endOfFrame d) s

/-! ### SENSOR frames (R407, R424) -/

/-- The bytes that FMT, W and H imply, or PP rows for BYTES. -/
def Se.imageBytes (e : List Byte) : Nat :=
  if Se.fmt e = 6 then 64 * Se.pp e else Se.h e * lineBytes (Se.fmt e) (Se.w e)

/-- The frame in progress is corrupt and its buffer is released; later chunks of it are passed over. -/
def Dev.spoilFrame (d : Dev) (n : Nat) : Dev :=
  match (d.stream n).bind (fun s => s.frame) with
  | none => d
  | some f => (d.dropFrame n).modStream n (fun s => { s with frame := some { f with buf := none, bad := true, chunks := [] } })

/-- The sensor frame that the chunks make up: bytes that no chunk has brought are open. -/
def Mach.assembled (m : Mach) (len : Nat) (cs : List (Nat × List Byte)) : Mach × List Byte :=
  let got := fun (i : Nat) => (cs.find? (fun c => decide (c.1 ≤ i) && decide (i < c.1 + c.2.length))).bind (fun c => c.2[i - c.1]?)
  let i0 := m.dev.free
  ({ m with dev := { m.dev with free := i0 + len } },
    (List.range len).map (fun i => (got i).getD (Config.freeByte (i0 + i))))

/-- The tensor of an assembled frame written (R425, R428). -/
def Mach.convertNet (m : Mach) (n : Nat) : Mach :=
  match m.dev.stream n with
  | none => m
  | some s =>
    match s.frame with
    | none => m
    | some f =>
      match f.buf with
      | none => m
      | some i =>
        let e := s.entry
        let base := m.bufAddr e i
        if Se.fmt e = 6 then
          let (m, bs) := m.assembled f.total f.chunks
          m.store (base + 64) (bs ++ List.replicate (Se.imageBytes e - f.total) 0)
        else
          let lb := lineBytes (Se.fmt e) (Se.w e)
          let (m, bs) := m.assembled (Se.imageBytes e) f.chunks
          let (m, ok) := (List.range (Se.h e)).foldl (fun (p : Mach × Bool) y =>
            let (m, ok) := p.1.convertLine e base y ((bs.drop (y * lb)).take lb)
            (m, p.2 && ok)) (m, true)
          if ok then m else m.mod (fun d => d.spoilFrame n)

/-- A chunk of the frame in progress of stream `n` (R424). -/
def Mach.netChunk (m : Mach) (n off total : Nat) (bs : List Byte) (stamp : Option Nat) : Mach :=
  match m.dev.stream n with
  | none => m
  | some s =>
    match s.frame with
    | none => m
    | some f =>
      if f.buf.isNone then m
      else
        let fresh := f.chunks.isEmpty
        let bs := bs.take (total - off)
        let twice := f.chunks.any (fun c => decide (c.1 < off + bs.length) && decide (off < c.1 + c.2.length))
        if (!fresh && total ≠ f.total) || twice || total > Se.maxBytes s.entry || total > Se.imageBytes s.entry then
          m.mod (fun d => d.spoilFrame n)
        else
          let f := { f with
            total := total
            chunks := f.chunks ++ [(off, bs)]
            stamp := stamp.getD f.stamp }
          let m := m.mod (fun d => d.setStream n { s with frame := some f })
          if (f.chunks.foldl (fun k c => k + c.2.length) 0) = total then
            (m.convertNet n).mod (fun d =>
              match (d.stream n).bind (fun s => s.frame) with
              | some g => if g.bad then d else d.frameWhole n
              | none => d)
          else m

/-- The sensor frame that a chunk belongs to is under way at stream `n`: a later one has taken an earlier one's place. -/
def Dev.sensorFrame (d : Dev) (n rx no : Nat) : Dev :=
  match (d.stream n).bind (fun s => s.frame) with
  | none => d.startFrame n rx no
  | some f => if sext 32 (no + 2 ^ 32 - f.number) > 0 then d.startFrame n rx no else d

/-- The open stream of a SENSOR source. -/
def Dev.netStream (d : Dev) (src : Nat) : Option Nat :=
  (d.streams.find? (fun (y : Nat × StreamSt) => y.2.live && Se.kind y.2.entry == 1 && Se.src y.2.entry == src)).map (·.1)

/-- SENSOR (R407, R424): the oldest sorted SENSOR frame of a MAC. -/
def execSensor (m : Fin 4) (s : State) : Host.Outcome State Fault Refusal :=
  run (fun x =>
    match takeKind 3 (x.dev.mac m.val).sorted with
    | none => x
    | some ((rx, p), rest) =>
      let x := x.mod (fun d => d.modMac m.val (fun y => { y with sorted := rest }))
      match x.dev.netStream (beField p 6 2) with
      | none => x.mod (fun d => d.ethCnt m.val 4)
      | some n =>
        if x.dev.pwr.pwrFail then x
        else
          let no := beField p 16 4
          let off := beField p 20 4
          let stamp := if bit (beField p 2 1) 0 then some (beField p 8 8) else if off = 0 then some rx else none
          let x := x.mod (fun d => d.sensorFrame n rx no)
          match (x.dev.stream n).bind (fun s => s.frame) with
          | none => x
          | some f =>
            if f.number ≠ no then x
            else x.netChunk n off (beField p 24 4) (slice p 32 (beField p 28 2)) stamp) s

/-! ### Tensors and waiting bindings (R428, R432) -/

/-- TENSOR_COMPLETE (R428): the oldest frame received whole has its tensor complete. -/
def execTensorComplete (stream : Fin 64) (s : State) : Host.Outcome State Fault Refusal :=
  runDev (fun _ d =>
    let n := stream.val
    match d.stream n with
    | none => d
    | some x =>
      match x.ready with
      | [] => d
      | f :: rest =>
        let x := { x with
          ready := rest
          completions := x.completions + 1 }
        (d.setStream n (x.modBuf (f.buf.getD 0) (fun b => { b with
          phase := .complete
          stamp := f.stamp
          number := f.number
          order := x.completions
          wasBound := false }))).cnt (ingCount n 0) 1) s

/-- WAITNEW_BIND (R432): a binding that waits takes the tensor that has completed since. -/
def execWaitnewBind (stream : Fin 64) (loop : Fin 16) (s : State) : Host.Outcome State Fault Refusal :=
  run (fun m =>
    let n := stream.val
    let waits := (m.dev.loop loop.val).step.bind (fun st => st.bound.find? (fun b => b.stream == n && b.waitNew.isSome))
    match waits, m.dev.stream n with
    | some b, some x =>
      (match b.waitNew, x.newest with
       | some k, some i =>
         if !x.live || x.completions ≤ k then m
         else
           let (m, nb) := m.bindBuf loop.val n x i
           m.mod (fun d => d.modStep loop.val (fun st => { st with
             bound := st.bound.map (fun y => if y.stream == n then nb else y) }))
       | _, _ => m)
    | _, _ => m) s

/-! ### Replay (R435 to R443) -/

/-- SAMPLE_DECODED (R441): the sample drawn at a list position, one of the 64 from the cursor on, has been decoded. -/
def execSampleDecoded (stream : Fin 64) (pos epoch : Nat) (source : SampleSource) (s : State) :
    Host.Outcome State Fault Refusal :=
  run (fun m =>
    let n := stream.val
    match m.dev.stream n with
    | none => m
    | some x =>
      let len := Se.listLen x.entry
      let q := epoch * len + pos
      if !x.live || Se.kind x.entry ≠ 2 || pos ≥ len || q < x.cursor || q ≥ x.cursor + 64
          || (AMap.find x.done q).isSome || m.dev.pwr.pwrFail then m
      else
        let (m, dec) := m.decodeSample x.entry pos source
        m.sampleDone n q dec) s

/-- MISSING_POS (R442): after 256 corrupt samples for one position, the position is filled with zeros. -/
def execMissingPos (stream : Fin 64) (s : State) : Host.Outcome State Fault Refusal :=
  run (fun m =>
    let n := stream.val
    match m.dev.stream n with
    | none => m
    | some x =>
      if x.corruptRun < 256 then m
      else match x.building (m.dev.batchLoops n) with
        | none => m
        | some (x, i) =>
          let e := x.entry
          let np := m.nplane e
          let j := (x.buf i).placed.length
          let m := m.mod (fun d => d.setStream n x)
          let m := m.zero (m.bufAddr e i + 64 * (1 + Se.manifest e + j * np * Se.pp e)) (64 * np * Se.pp e)
          let m := (m.fillPos n i none 0 0 (x.cursor / Se.listLen e) 3).mod (fun d =>
            d.raise 1 Src.INGEST 0x0002 n (j % 256 + (x.cursor % Se.listLen e) % 2 ^ 24 * 2 ^ 32))
          (m.placeReady n 4096).mod Dev.settleOrders) s

def ingCounters : List Nat :=
  (List.range 64).flatMap (fun n => (List.range 8).map (ingCount n)) ++ (List.range 16).map Reg.ING_CSIp_DISC

/-- ING_CNT_CLR (R444). -/
def execIngCntClr (s : State) : Host.Outcome State Fault Refusal := runDev (fun _ d => d.clearRegs ingCounters) s

/-! ### Opening and closing (R416 to R420, R527) -/

/-- A field of a stream entry lies outside its range, or a field that its kind does not use is not zero (R417). -/
def streamFieldsBad (e : List Byte) : Bool :=
  let k := Se.kind e
  let f := Se.fmt e
  let csi := k == 0
  let net := k == 1
  let rep := k == 2
  let bytes := f == 6
  let zero := fun (used : Bool) (o n : Nat) => !used && !zeroAt e o n
  let out := fun (v lo hi : Nat) => decide (v < lo) || decide (v > hi)
  decide (k > 2) || decide (f > 7)
    || zero csi 2 1 || zero csi 3 1 || zero net 4 2 || zero (Se.raw e) 6 1 || decide (Se.cfa e > 3)
    || (csi && (decide (Se.port e > 15) || decide (Se.vc e > 15)))
    || (if rep then decide (Se.mode e > 1) else Se.mode e != 0 && Se.mode e != 2)
    || (if bytes then Se.w e != 0 || Se.h e != 0 || Se.rp e != 0
        else out (Se.w e) 1 16384 || out (Se.h e) 1 16384)
    || (if rep then Se.stale e != 0 else out (Se.stale e) 1 16777215)
    || out (Se.nbuf e) (if rep then 2 else 3) 8
    || !([1, 2, 4, 5, 6].contains (Se.ofmt e))
    || (if rep then out (Se.batch e) 1 256 else Se.batch e != 0)
    || Se.bufBase e % 4096 != 0 || (bytes && Se.norm e != 0)
    || zero rep 0x28 8 || zero rep 0x30 8 || zero rep 0x38 4 || zero rep 0x3C 2 || zero rep 0x3E 1 || !zeroAt e 0x3F 1
    || zero rep 0x40 8 || zero rep 0x48 4 || zero rep 0x4C 2 || zero rep 0x4E 2 || zero (rep || net) 0x50 4
    || (rep && (out (Se.listLen e) 1 16777216 || Se.nauge e == 0 || out (Se.indexLen e) 1 16777216))
    || !zeroAt e 0x54 44

/-- FMT is not one that the kind may have (R425). -/
def streamFmtBad (e : List Byte) : Bool :=
  if Se.fmt e = 6 then Se.kind e != 1 else Se.fmt e == 7 && Se.kind e != 2

/-- The NORM table fails a check of R426. -/
def Mach.normBad (m : Mach) (e : List Byte) : Bool :=
  let a := Se.norm e
  let np := m.nplane e
  Se.fmt e != 6 && (m.rdNat a 1 != np || (Se.fmt e == 7 && np != 1 && np != 3) || m.rdNat (a + 1) 1 != Se.ofmt e
    || (List.range np).any (fun c =>
      let (_, g, o) := m.normRec e c
      !FFmt.f32.isFinite g || !FFmt.f32.isFinite o))

/-- The AUGMENT table fails a check of R439. -/
def Mach.augBad (m : Mach) (e : List Byte) : Bool :=
  let a := Se.aug e
  Se.kind e == 2 && (m.rdNat a 4 != Se.listLen e || m.rdNat (a + 4) 2 != Se.nauge e
    || (List.range (Se.listLen e * Se.nauge e)).any (fun i =>
      let r := a + 16 + 16 * i
      !FFmt.f32.isFinite (m.rdNat (r + 8) 4) || !FFmt.f32.isFinite (m.rdNat (r + 12) 4)
        || (Se.raw e && (m.rdNat r 2 % 2 == 1 || m.rdNat (r + 2) 2 % 2 == 1 || m.rdNat (r + 4) 1 % 4 != 0))))

/-- The open streams of a kind. -/
def Dev.streamsOf (d : Dev) (k : Nat) : List (Nat × StreamSt) :=
  List.filter (fun (x : Nat × StreamSt) => Se.kind x.2.entry == k) d.streams

/-- The last step of R419: what makes a stream entry a bad parameter. -/
def Mach.streamBad (m : Mach) (e : List Byte) : Bool :=
  streamFieldsBad e || streamFmtBad e || (Se.raw e && (Se.w e % 2 == 1 || Se.h e % 2 == 1))
    || decide (Se.rp e < ceilDiv (Se.planeW e * Se.b e) 64)
    || decide (Se.pp e < Se.planeH e * Se.rp e)
    || !((m.streamBufs e :: m.streamTables e).all inHbm)
    || decide (Se.tr e (m.nplane e) > 65535)
    || anyArea (m.streamBufs e) (m.dev.streams.map (fun (x : Nat × StreamSt) => m.streamBufs x.2.entry))
    || anyArea (m.streamBufs e) m.dev.trnAreas
    || (m.streamBufs e :: m.streamTables e).any (fun a => anyArea a m.dev.tarinadyAreas)
    || m.normBad e || m.augBad e
    || (Se.kind e == 2 && (match AMap.find m.dev.flash.regions (Se.region e) with
        | some r => r.kind != 2  -- EPISODE (R375)
        | none => true))
    || (Se.kind e == 0 && (m.dev.streamsOf 0).any (fun x =>
        Se.port x.2.entry == Se.port e && Se.vc x.2.entry == Se.vc e && Se.fmt x.2.entry == Se.fmt e))
    || (Se.kind e == 1 && (m.dev.streamsOf 1).any (fun x => Se.src x.2.entry == Se.src e))

/-- The limit of R416 for the kind is reached. -/
def Dev.streamLimit (d : Dev) (e : List Byte) : Bool :=
  match Se.kind e with
  | 0 => decide ((d.streamsOf 0).length ≥ 48)
      || decide (((d.streamsOf 0).filter (fun x => Se.port x.2.entry == Se.port e)).length ≥ 4)
  | 1 => decide ((d.streamsOf 1).length ≥ 16)
  | _ => false

/-- STREAM_OPEN (R419). -/
def execStreamOpen (tag : BitVec 16) (s : State) : Host.Outcome State Fault Refusal :=
  run (fun m => m.cmd 0x040E tag.toNat (fun m p =>
    let e := slice p.payload 0 128
    if !m.dev.rfB Reg.ING_CTRL Fld.ING_CTRL.EN then m.fail p ST.STATE
    else match (List.range 64).find? (fun n => (m.dev.stream n).isNone) with
      | none => m.fail p ST.TABLE_FULL
      | some n =>
        if m.dev.streamLimit e then m.fail p ST.TABLE_FULL
        else if Se.kind e == 2 && (AMap.find m.dev.flash.regions (Se.region e)).isNone then m.fail p ST.NOT_FOUND
        else if m.streamBad e then m.fail p ST.BAD_PARAM
        else (m.mod (fun d => d.setStream n { entry := e, bufs := List.replicate (Se.nbuf e) {} })).ok p
          (leBytes 4 n))) s

/-- STREAM_CLOSE (R420): from here on the stream takes no input; a frame or a batch that is under way is let go. -/
def execStreamClose (tag : BitVec 16) (s : State) : Host.Outcome State Fault Refusal :=
  run (fun m => m.cmd 0x040F tag.toNat (fun m p =>
    let n := pay8 p.payload 0
    if n ≥ 64 then m.fail p ST.BAD_PARAM
    else match m.dev.stream n with
      | none => m.fail p ST.NOT_FOUND
      | some x =>
        if x.closing then m.fail p ST.STATE
        else
          let held := x.bufs.any (fun b => !b.pins.isEmpty)
          let m := m.mod (fun d => d.modStream n (fun x => { x with
            closing := true
            frame := none
            ready := [] }))
          if held then
            (m.mod (fun d => d.modStream n (fun x => { x with closeTag := some p.tag }))).answer p ST.DEFERRED []
          else (m.mod (fun d => d.finishClose n)).ok p [])) s

end Sys2Proof.Machine
end

