-- ==== Sys2Proof/Machine/SafCmd.lean ====
section
/-!
DEFINITION. Functional safety (R483 to R516): the fault aggregator, start-up error injection, supervisors, the periodic
self-test, the watch agents' reset and fence, the monitors, and the safety command packets.
-/
namespace Sys2Proof.Machine

/-! ### The fault aggregator (R483 to R489) -/

/-- The order in which records of one cycle are numbered (R484). -/
def FaultRec.before (a b : FaultRec) : Bool := decide (a.src < b.src) || (a.src == b.src && decide (a.unit ≤ b.unit))

/-- The class after promotion (R485). -/
def Dev.promoted (d : Dev) (f : FaultRec) : Nat := if f.cls = 1 && bit (d.reg Reg.SAF_PROMOTE) f.src then 2 else f.cls

/-- A record of the fault log (R486). -/
def Dev.logRecord (d : Dev) (seq : Nat) (f : FaultRec) : List Byte :=
  let c := d.promoted f
  leBytes 4 seq ++ leBytes 1 c ++ leBytes 1 f.src ++ leBytes 2 f.code ++ leBytes 2 f.unit ++ leBytes 1 f.loop
    ++ leBytes 1 (b2n (c != f.cls) + 2 * b2n f.safety) ++ List.replicate 4 0 ++ leBytes 8 d.stamp ++ leBytes 8 f.detail

/-- A record put into the ring of 1,024; LOG_LOST counts one that is overwritten. -/
def Dev.logAppend (d : Dev) (r : List Byte) : Dev :=
  let l := d.saf.log
  if l.length ≥ 1024 then { d with saf := { d.saf with log := l.drop 1 ++ [r] } }.cnt (Reg.SAF_CNT_k 4) 1
  else { d with saf := { d.saf with log := l ++ [r] } }

/-- One record numbered, promoted and logged; ALERT_N goes low for F1 and above, and F2 is latched for F2 and above. -/
def Dev.record (d : Dev) (f : FaultRec) : Dev :=
  let c := d.promoted f
  let seq := (d.reg Reg.SAF_SEQ + 1) % 2 ^ 32
  let r := d.logRecord seq f
  let d := ((d.setReg Reg.SAF_SEQ seq).logAppend r).cnt (Reg.SAF_CNT_k (min 3 c)) 1
  let d := if f.src = Src.TILE && f.unit < 96 then
      { d with saf := { d.saf with
        captured := AMap.set d.saf.captured f.unit (((AMap.find d.saf.captured f.unit).map (·.1)).getD r, r) } } else d
  let d := if c ≥ 1 then
      { d with saf := { d.saf with alertSeq := some seq } }.wf Reg.SAF_STAT Fld.SAF_STAT.ALERT 1 else d
  let d := if c ≥ 2 && !d.f2 then (d.setReg Reg.SAF_F2_SEQ seq).wf Reg.SAF_STAT Fld.SAF_STAT.F2_LATCHED 1 else d
  if c ≥ 3 then
    d.setReg Reg.SAF_RESET_CAUSE (setBits (setBits (d.reg Reg.SAF_RESET_CAUSE) 31 24 f.src) 15 0 f.code)
  else d

/-- F3_DELAY in microseconds. -/
def Dev.f3Delay (d : Dev) : Nat := max 100 (d.rf Reg.SAF_CTRL Fld.SAF_CTRL.F3_DELAY)

/-- The reaction to F3 (R483, R489): a warm reset is to come, and a third F3 within 600 s sets HOLD. -/
def Dev.reactF3 (d : Dev) : Dev :=
  let now := d.nsNow
  let l := d.saf.f3s.filter (fun t => decide (now ≤ t + 600000000000)) ++ [now]
  let d := { d with saf := { d.saf with
    f3s := l
    resetAt := d.saf.resetAt.orElse (fun _ => some (now + d.f3Delay * 1000)) } }
  let d := d.setReg Reg.SAF_RESET_CAUSE (setBits (d.reg Reg.SAF_RESET_CAUSE) 19 18 (min 3 l.length))
  if l.length ≥ 3 then d.wf Reg.SAF_STAT Fld.SAF_STAT.HOLD 1 else d

/-- The records that arrive in one Summit cycle (R484): numbered in order, and the reaction of the highest class. -/
def Mach.aggregate (m : Mach) (fs : List FaultRec) : Mach :=
  let fs := fs.sortLe FaultRec.before
  let was := m.dev.f2
  let top := fs.foldl (fun c f => max c (m.dev.promoted f)) 0
  let m := m.mod (fun d => fs.foldl Dev.record d)
  let m := if top ≥ 2 && !was then m.safeAll else m
  if top ≥ 3 then m.mod Dev.reactF3 else m

/-- FAULT_RECORD (R483): the first `n` faults raised and not yet recorded arrive. -/
def execFaultRecord (n : Nat) (s : State) : Host.Outcome State Fault Refusal :=
  run (fun m =>
    let fs := m.dev.raised.take n
    (m.mod (fun d => { d with raised := d.raised.drop n })).aggregate fs) s

/-- ALERT_N after SAF_ACK has moved (R487). -/
def Dev.alertAfterAck (d : Dev) : Dev :=
  let low := match d.saf.alertSeq with
    | some q => decide (sext 32 (q + 2 ^ 32 - d.reg Reg.SAF_ACK) > 0)
    | none => false
  d.wf Reg.SAF_STAT Fld.SAF_STAT.ALERT (b2n low)

/-- FAULT_LOG (R486): up to COUNT records with SEQ at or after FROM, oldest first. -/
def execFaultLog (tag : BitVec 16) (s : State) : Host.Outcome State Fault Refusal :=
  run (fun m => m.cmd 0x0801 tag.toNat (fun m p =>
    let from_ := pay32 p.payload 0
    let n := pay16 p.payload 4
    if n = 0 || n > 1000 then m.fail p ST.BAD_PARAM
    else
      let rs := (m.dev.saf.log.filter (fun r => decide (sext 32 (field r 0 4 + 2 ^ 32 - from_) ≥ 0))).take n
      m.ok p (rs.flatMap id))) s

/-- FAULT_ACK (R487). -/
def execFaultAck (tag : BitVec 16) (s : State) : Host.Outcome State Fault Refusal :=
  run (fun m => m.cmd 0x0802 tag.toNat (fun m p =>
    let q := pay32 p.payload 0
    let diff := fun (a b : Nat) => sext 32 (a + 2 ^ 32 - b)
    if diff q (m.dev.reg Reg.SAF_SEQ) > 0 || diff q (m.dev.reg Reg.SAF_ACK) < 0 then m.fail p ST.BAD_PARAM
    else (m.mod (fun d => (d.setReg Reg.SAF_ACK q).alertAfterAck)).ok p [])) s

/-- SAFETY_CLEAR (R488); a package that has lost the lead returns to normal operation only by a reset (R345). -/
def execSafetyClear (tag : BitVec 16) (f2 : Bool) (s : State) : Host.Outcome State Fault Refusal :=
  run (fun m => m.cmd 0x0803 tag.toNat (fun m p =>
    let behind := decide (sext 32 (m.dev.reg Reg.SAF_ACK + 2 ^ 32 - m.dev.reg Reg.SAF_F2_SEQ) < 0)
    if behind || m.dev.saf.missF2 || m.dev.col.lost || !m.dev.rfB Reg.SAF_STAT Fld.SAF_STAT.OUT_EN || f2 then m.fail p ST.STATE
    else (m.mod (fun d => (d.wf Reg.SAF_STAT Fld.SAF_STAT.F2_LATCHED 0).wf Reg.CE_STAT Fld.CE_STAT.SAFE_ALL 0)).ok p [])) s

/-- RESET: the reply, then F3 (R563). -/
def execReset (tag : BitVec 16) (s : State) : Host.Outcome State Fault Refusal :=
  run (fun m => m.cmd 0x0103 tag.toNat (fun m p =>
    if pay32 p.payload 0 ≠ 0x52535421 then m.fail p ST.BAD_PARAM
    else (m.ok p []).mod (fun d => d.raise 3 Src.COMMAND 0x0001 0xFFFF p.tag))) s

/-- SAF_CNT_CLR (R516). -/
def execSafCntClr (s : State) : Host.Outcome State Fault Refusal :=
  runDev (fun _ d => d.clearRegs ((List.range 12).map Reg.SAF_CNT_k)) s

/-! ### Start-up error injection (R493 to R495) -/

/-- The result of one step of R493. -/
def Dev.injectStep (d : Dev) (i : Nat) (r : InjectResult) : Dev :=
  let wide := fun (d : Dev) => (d.wf Reg.SAF_STAT Fld.SAF_STAT.INJ_FAIL 1).raise 1 Src.INJECT i 0xFFFF 0
  match r with
  | .passed => d.setReg Reg.SAF_INJ_STAT (setBits (d.reg Reg.SAF_INJ_STAT) i i 1)
  | .failed => wide d
  | .failedTiles ts =>
    if i = 4 || i = 5 then ts.foldl (fun (d : Dev) t => (d.dropTileOk t.val).raise 1 Src.INJECT i t.val 0) d else wide d

/-- What follows start-up injection: a retired part stops with its port open over memory (R535), a package with the
COL_BOOT strap waits for images (R340, R528), and any other mounts its flash at the places of R526. -/
def Dev.afterInjection (d : Dev) : Dev :=
  if d.boot.fuses.lcs = 4 then
    { ((d.wf Reg.DBG_STAT Fld.DBG_STAT.OPEN 1).wf Reg.DBG_STAT Fld.DBG_STAT.SCOPE 4) with
      boot := { d.boot with phase := .stopped } }
  else if d.rfB Reg.COL_GRP Fld.COL_GRP.BOOT_COL then { d with boot := { d.boot with phase := .colBoot } }
  else
    let d := { d with boot := { d.boot with phase := .mounting } }
    ((d.setReg Reg.FL_MAP_BASE 0x2F).setReg Reg.FL_WB_BASE 0x5DF).flEnWrite true

/-- ERROR_INJECTION (R493): the sequence ends, and OUT_EN follows (R495). -/
def execErrorInjection (results : List InjectResult) (s : State) : Host.Outcome State Fault Refusal :=
  runDev (fun _ d =>
    if d.boot.phase ≠ .injecting then d
    else
      let d := (List.range 11).foldl (fun (d : Dev) i => d.injectStep i (results.getD i .failed)) d
      let d := d.wf Reg.SAF_STAT Fld.SAF_STAT.INJ_DONE 1
      let d := d.wf Reg.SAF_STAT Fld.SAF_STAT.OUT_EN (1 - d.rf Reg.SAF_STAT Fld.SAF_STAT.INJ_FAIL)
      d.afterInjection) s

/-! ### Supervision (R496 to R501) -/

/-- STEP_SUPERVISOR_EXPIRE (R496, R500). -/
def execStepSupervisorExpire (loop : Fin 16) (beats : Nat) (s : State) : Host.Outcome State Fault Refusal :=
  run (fun m =>
    match (m.dev.loop loop.val).step with
    | none => m
    | some st =>
      if st.phase != .running || m.dev.dbgHalted loop.val || st.budget > 0 then m
      else m.superviseAbort loop.val 0x0000 0xFFFF 0 (some beats)) s

/-- SEGMENT_EXPIRE (R498, R500). -/
def execSegmentExpire (l : ListId) (beats : Nat) (s : State) : Host.Outcome State Fault Refusal :=
  run (fun m =>
    let key := listKey l
    match m.dev.list key with
    | none => m
    | some x =>
      let running := match (m.dev.loop x.loop).step with
        | some st => st.phase == .running
        | none => false
      match x.segment with
      | none => m
      | some b =>
        if !running || m.dev.dbgHalted x.loop || b > 0 then m
        else m.superviseAbort x.loop 0x0001 (listUnit key) (x.next % 2 ^ 20) (some beats)) s

/-! ### The watch agents (R23 to R26, R492) -/

/-- A tile reset: sequencer, spur core and arrays; memory and counters stay. -/
def Dev.tileReset (d : Dev) (t : Nat) : Dev :=
  d.modTile t (fun x => { x with
    larr := List.replicate 4 {}
    parr := List.replicate 4 {}
    remap := []
    slots := List.replicate 6 {}
    sptr := 0
    fillq := []
    nextFill := 0
    fills := []
    spur := {}
    faulted := false })

/-- The array self-test of a tile reset (R112, R116): arrays that pass, with any repair they need, return to service; the
others are retired with cause REPAIR. -/
def Dev.resetArrays (d : Dev) (t : Nat) (f : ArrayFaults) : Dev :=
  let (d, failing) := d.testArrays t (d.tileBound t) f
  let back := (List.range 4).filter (fun p => d.isRetired t p && !failing.contains p)
  let d := back.foldl (fun d p =>
    let st := Reg.TILE_ARRn_STAT t p
    d.setReg st (setBits (d.reg st) 31 29 0)) d
  let left := (List.range 4).foldl (fun v p => if d.isRetired t p && !back.contains p then v + 2 ^ p else v) 0
  let d := d.setReg (Reg.TILE_ARR_MAP t) (arrMap left)
  let d := failing.foldl (fun d p =>
    let st := Reg.TILE_ARRn_STAT t p
    if d.isRetired t p then d.setReg st (setBits (d.reg st) 30 29 3) else d.retire 16 t p 3 0) d
  d.modTile t (fun x => { x with remap := [] })

/-- HALT_TIMEOUT (R492): a tile that has not halted 10 µs after its halt is reset. -/
def execHaltTimeout (t : Fin 96) (found : ArrayFaults) (s : State) : Host.Outcome State Fault Refusal :=
  runDev (fun _ d =>
    if !d.saf.halting.contains t.val then d
    else
      let d := { d with saf := { d.saf with
        halting := d.saf.halting.filter (· != t.val)
        wasReset := d.saf.wasReset.filter (· != t.val) ++ [t.val] } }
      ((d.raise 1 Src.WATCH 0x0003 t.val 0).tileReset t.val).resetArrays t.val found) s

/-- FENCE (R492): a tile still not halted 10 µs after its reset; its landing queues are fenced with it (R26). -/
def execFence (t : Fin 96) (s : State) : Host.Outcome State Fault Refusal :=
  runDev (fun _ d =>
    if !d.saf.wasReset.contains t.val then d
    else
      let d := { d with saf := { d.saf with wasReset := d.saf.wasReset.filter (· != t.val) } }
      (d.wf (Reg.TILE_STAT t.val) Fld.TILE_STAT.FENCED 1).raise 1 Src.WATCH 0x0004 t.val 0) s

/-- RING_BREAK (R25): the other members are reached the other way round. -/
def execRingBreak (dom : Fin 4) (mem : Fin 24) (s : State) : Host.Outcome State Fault Refusal :=
  runDev (fun _ d => if d.ridgeOn mem.val then d.raise 1 Src.WATCH 0x0001 dom.val mem.val else d) s

/-- PARITY (R490). -/
def execParity (dom : Fin 4) (mem : Fin 24) (s : State) : Host.Outcome State Fault Refusal :=
  runDev (fun _ d => if d.ridgeOn mem.val then d.raise 1 Src.WATCH 0x0002 dom.val mem.val else d) s

/-- XBAR_FAULT (RDG_STAT, R597). -/
def execXbarFault (r : Fin 24) (s : State) : Host.Outcome State Fault Refusal :=
  runDev (fun _ d =>
    if d.ridgeOn r.val then (d.wf (Reg.RDG_STAT r.val) Fld.RDG_STAT.XBAR_FAULT 1).raise 1 Src.RIDGE 0x0001 r.val 0 else d) s

/-! ### The periodic self-test (R507 to R512) -/

/-- The row at `u` lies in the bank that MEM chunk `k` of a tile reads: 16 activation banks (R121), four partial-sum banks
(R126) and the two banks of each weight slot (R128), in the order of R507. -/
def chunkReads (t k u : Nat) : Bool :=
  let (t', mem, row) := tileMemRow u
  t' == t && (if k < 20 then mem == 0 && row % 16 == k - 4
    else if k < 24 then mem == 2 && row % 4 == k - 20
    else mem == 1 && row / 2048 == (k - 24) / 2 && row % 2 == (k - 24) % 2)

/-- A MEM chunk: single-bit errors of the bank are corrected, and each uncorrectable row is recorded and raises an F1
(R512). -/
def Dev.readVerify (d : Dev) (t k : Nat) : Dev :=
  let d := ((d.ce.filter (chunkReads t k)).sortLe (· ≤ ·)).foldl Dev.corrected d
  ((d.ue.filter (chunkReads t k)).sortLe (· ≤ ·)).foldl (fun d u =>
    (d.uncorrectable u 0xFF 16).raise 1 Src.SELFTEST 0x0002 t (k + (tileMemRow u).2.2 * 2 ^ 32)) d

/-- The outcome of a chunk (R512). -/
def Dev.chunkOutcome (d : Dev) (t k : Nat) (r : ChunkResult) : Dev :=
  if 4 ≤ k && k < 36 then d.readVerify t k
  else match r with
    | .passed => d
    | .failed =>
      if k < 4 then d.retire 16 t k 2 0
      else ((d.wf (Reg.TILE_STAT t) Fld.TILE_STAT.FENCED 1).wf (Reg.SAF_TILEt_ST t) Fld.SAF_TILEt_ST.FAILED 1).raise 1
        Src.SELFTEST 0x0003 t 0

/-- CHUNK_DONE (R507): the chunk counts as done, an ARRAY chunk leaves tallies and stationary registers zero, and a failure
has its outcome. -/
def execChunkDone (t : Fin 96) (result : ChunkResult) (upsets : List Upset) (s : State) : Host.Outcome State Fault Refusal :=
  run (fun m =>
    let i := t.val
    let m := m.upsets upsets
    match (m.dev.tile i).chunk with
    | none => m
    | some k =>
      m.mod (fun d =>
        let carried := (List.range 4).filter (fun l => d.carrier i l == k)
        let d := d.modTile i (fun x => { x with
          chunk := none
          doneChunks := x.doneChunks ++ [k]
          larr := if k < 4 then (List.range 4).map (fun l => if carried.contains l then {} else x.larr.getD l {}) else x.larr })
        ((d.cnt (Reg.SAF_CNT_k 9) 1).wf (Reg.SAF_TILEt_ST i) Fld.SAF_TILEt_ST.DONE (d.tile i).doneChunks.length).endCycle i
          |>.chunkOutcome i k result)) s

/-- SELFTEST_FORCE (R510): bulk steps that hold the tile's ridge are called for pre-emption, and the ridge goes to chunks
first. -/
def execSelftestForce (t : Fin 96) (s : State) : Host.Outcome State Fault Refusal :=
  runDev (fun _ d =>
    if !d.tileOn t.val || !d.rfB Reg.SAF_CTRL Fld.SAF_CTRL.ST_EN || !d.rfB Reg.SAF_STAT Fld.SAF_STAT.OUT_EN then d
    else
      let d := d.modTile t.val (fun x => { x with forced := true })
      match d.ridgeLoop (t.val / 4) with
      | some n => if d.loopClass n = 0 then d.callPreempt n none else d
      | none => d) s

/-- LATE (R511): the interval has ended with the cycle incomplete; a new one begins. -/
def execLate (t : Fin 96) (s : State) : Host.Outcome State Fault Refusal :=
  runDev (fun _ d =>
    if !d.tileOn t.val || !d.rfB Reg.SAF_STAT Fld.SAF_STAT.OUT_EN then d
    else
      let d := (d.modTile t.val (fun x => { x with forced := false })).wf (Reg.SAF_TILEt_ST t.val) Fld.SAF_TILEt_ST.LATE 1
      d.raise 1 Src.SELFTEST 0x0001 t.val (d.tile t.val).doneChunks.length) s

/-! ### Lockstep and monitors (R490, R513, R592, R594) -/

/-- MISMATCH (R513): the record reaches the aggregator at once. -/
def execMismatch (pair : Fin 4) (s : State) : Host.Outcome State Fault Refusal :=
  run (fun m => m.aggregate [{ cls := 3, src := Src.LOCKSTEP, code := 0x0001, unit := pair.val }]) s

/-- CLOCK (R594). -/
def execClock (s : State) : Host.Outcome State Fault Refusal :=
  runDev (fun _ d => d.raise 3 Src.MONITOR 0x0008 0xFFFF 0) s

/-- The nominal voltage of a rail in mV and its tolerance in percent (R577); VDD_FAB at its setpoint. -/
def Dev.railLimits (d : Dev) (r : Nat) : Nat × Nat :=
  ([(1800, 3), (1800, 5), (3300, 5), (1800, 5), (800, 3), (1100, 3), (1200, 3), (1200, 5), (750, 3), (750, 3), (400, 5)]
    : List (Nat × Nat)).getD r (d.vfab, 5)

/-- RAIL (R490): a supply outside its tolerance. -/
def execRail (r : Fin 12) (mv : BitVec 16) (s : State) : Host.Outcome State Fault Refusal :=
  runDev (fun _ d =>
    let (nom, tol) := d.railLimits r.val
    let v := mv.toNat
    if 100 * v < nom * (100 - tol) || 100 * v > nom * (100 + tol) then d.raise 2 Src.MONITOR 0x0009 r.val v else d) s

/-! ### Cairn (R502) -/

/-- A Cairn descriptor that is refused with ST_BAD_PARAM (R502). -/
def Mach.cairnBad (m : Mach) (c : List Byte) : Bool :=
  let n := field c 0 1
  let nin := field c 1 1
  let nsig := field c 2 1
  let out := fun (v lo hi : Nat) => decide (v < lo) || decide (v > hi)
  let ins := cairnIns c
  out nin 1 4 || out nsig 1 8 || field c 3 1 == 0 || decide (field c 4 1 < field c 3 1) || !zeroAt c 5 3
    || out (field c 8 4) 2 65535 || !zeroAt c 0xC 4 || !zeroAt c 0xD0 48 || decide (n > 15)
    || (List.range nin).any (fun i => decide (field c (0x10 + 16 * i) 1 > 63) || !zeroAt c (0x11 + 16 * i) 7)
    || (List.range nsig).any (fun i => decide (field c (0x51 + 16 * i) 1 > 15) || !zeroAt c (0x52 + 16 * i) 6)
    || ins.any (fun p =>
        let rows := match m.dev.stream p.1 with
          | some s => Se.tr s.entry (m.nplane s.entry)
          | none => 1
        !inHbm (p.2, 64 * rows))
    || m.dev.loopClass n != 2
    || (match (m.dev.loop n).binding with
        | none => true
        | some b =>
          !b.route.safety || b.route.hasTarn || b.route.hasCol || b.route.hasSpec || b.hasCarry
            || b.route.res.any (fun r => r.kind == 0 && r.shared)
            || (List.range nsig).any (fun i => decide (field c (0x50 + 16 * i) 1 ≥ 4 * b.route.nridges))
            || (m.ingestStreams b.route).any (fun k => !(ins.any (fun p => p.1 == k))
                || (match m.dev.stream k with
                    | some s => Se.kind s.entry == 2
                    | none => false)))

/-- CAIRN_CONFIG (R502). -/
def execCairnConfig (tag : BitVec 16) (s : State) : Host.Outcome State Fault Refusal :=
  run (fun m => m.cmd 0x0804 tag.toNat (fun m p =>
    let c := slice p.payload 0 256
    if m.dev.rfB Reg.SAF_CTRL Fld.SAF_CTRL.CAIRN_EN then m.fail p ST.STATE
    else if m.cairnBad c then m.fail p ST.BAD_PARAM
    else (m.mod (fun d => { d with cairn := some c })).ok p [])) s

end Sys2Proof.Machine
end

