-- ==== Sys2Proof/Machine/SdioCore.lean ====
section
/-!
DEFINITION. The command side of the SDIO function: the checks that every packet passes (R554), the scan for a header
(R555), and the command buffer (R549, R551).
-/
namespace Sys2Proof.Machine

/-- The payload lengths of R563: the opcode, the length of the fixed part, and how many units of how many bytes may
follow. -/
def opLengths : List (Nat × Nat × Nat × Nat × Nat) :=
  [(0x0101, 0, 0, 0, 1), (0x0102, 0, 0, 32768, 1), (0x0103, 4, 0, 0, 1),
   (0x0201, 12, 0, 0, 1), (0x0202, 12, 1, 1024, 4), (0x0203, 16, 0, 0, 1),
   (0x0301, 12, 0, 0, 1), (0x0302, 12, 1, 32756, 1), (0x0303, 20, 0, 0, 1), (0x0304, 16, 0, 0, 1),
   (0x0401, 8, 0, 0, 1), (0x0402, 4, 0, 0, 1), (0x0403, 72, 0, 0, 1), (0x0404, 4, 0, 0, 1)]
  ++ [(0x0405, 32, 0, 0, 1), (0x0406, 4, 0, 0, 1), (0x0407, 40, 0, 0, 1), (0x0408, 24, 0, 0, 1),
   (0x0409, 4, 0, 0, 1), (0x040A, 4, 0, 0, 1), (0x040B, 8, 0, 0, 1), (0x040C, 4, 0, 0, 1),
   (0x040D, 4, 0, 256, 2), (0x040E, 128, 0, 0, 1), (0x040F, 4, 0, 0, 1)]
  ++ [(0x0501, 8, 0, 0, 1), (0x0502, 4, 0, 0, 1), (0x0503, 24, 0, 0, 1), (0x0504, 24, 0, 0, 1),
   (0x0505, 16, 0, 0, 1), (0x0506, 4, 0, 0, 1), (0x0507, 0, 0, 0, 1), (0x0508, 4, 0, 0, 1),
   (0x0509, 4, 0, 0, 1), (0x050A, 4, 0, 0, 1), (0x0601, 0, 0, 0, 1), (0x0602, 12, 0, 0, 1)]
  ++ [(0x0701, 4, 0, 0, 1), (0x0702, 0, 0, 0, 1), (0x0703, 4, 1, 256, 16), (0x0704, 8, 0, 0, 1),
   (0x0801, 8, 0, 0, 1), (0x0802, 4, 0, 0, 1), (0x0803, 0, 0, 0, 1), (0x0804, 256, 0, 0, 1),
   (0x0901, 0, 0, 0, 1), (0x0902, 32, 0, 0, 1), (0x0903, 0, 0, 0, 1), (0x0904, 288, 0, 0, 1),
   (0x0905, 288, 0, 0, 1), (0x0906, 100, 0, 0, 1), (0x0907, 8, 1, 32760, 1), (0x0A01, 4, 0, 0, 1)]

def opLength (op : Nat) : Option (Nat × Nat × Nat × Nat × Nat) := opLengths.find? (fun x => x.1 == op)

/-- The COUNT field of the opcodes whose payload repeats a unit, and its greatest value. -/
def opCount (op : Nat) (p : List Byte) : Option (Nat × Nat × Nat) :=
  if op = 0x0202 then some (field p 8 4, 1, 1024)
  else if op = 0x040D then some (field p 2 2, 0, 256)
  else if op = 0x0703 then some (field p 0 2, 1, 256)
  else none

/-- Check 9: a length that the opcode allows, and the one that its COUNT gives where COUNT is in range. -/
def lengthOk (op : Nat) (p : List Byte) : Bool :=
  match opLength op with
  | none => false
  | some (_, base, lo, hi, unit) =>
    decide (base ≤ p.length) && (p.length - base) % unit == 0 && decide (lo ≤ (p.length - base) / unit)
      && decide ((p.length - base) / unit ≤ hi)
      && (match opCount op p with
        | some (n, l, h) => n < l || h < n || p.length == base + n * unit
        | none => true)

/-- A reply of the function itself to a packet that it refuses. -/
def Dev.refuse (d : Dev) (h : List Byte) (status flags : Nat) (counted : Bool) : Dev :=
  (if counted then d else d.cnt (Reg.SDIO_CNT_k 7) 1).place
    (mkPacket (field h 2 2) (field h 4 2) (1 + flags) (field h 7 1) status []) none

/-- Checks 4 to 12 of R554 on a whole packet. -/
def Dev.checkPacket (d : Dev) (h payload pcrc : List Byte) (stamp : Nat) : Dev :=
  let op := field h 2 2
  let tag := field h 4 2
  let fl := field h 6 1
  let pkg := field h 7 1
  if !payload.isEmpty && crc32c payload != leNat pcrc then
    (d.cnt (Reg.SDIO_CNT_k 2) 1).refuse h ST.BAD_CHECK 0 true
  else if (fl ≠ 0 && fl ≠ 2) || field h 12 2 ≠ 0 then d.refuse h ST.BAD_PARAM 0 false
  else if d.sdio.outstanding.any (fun x => x.tag == tag) || d.sdio.deferred.any (fun x => x.1 == tag) then
    d.refuse h ST.BAD_PARAM 8 false
  else if d.sdio.outstanding.length ≥ 32 then (d.cnt (Reg.SDIO_CNT_k 6) 1).refuse h ST.BUSY 0 true
  else if (opLength op).isNone then d.refuse h ST.BAD_OPCODE 0 false
  else if !lengthOk op payload then d.refuse h ST.BAD_LENGTH 0 false
  else if pkg ≥ d.grp then d.refuse h ST.BAD_PARAM 0 false
  else if !d.reachable pkg then d.refuse h ST.LINK_DOWN 0 false
  else if d.boot.phase == .recovery && !recoveryOps.contains op then d.refuse h ST.STATE 0 false
  else
    ({ d with sdio := { d.sdio with
      outstanding := d.sdio.outstanding ++ [⟨op, tag, bit fl 1, pkg, payload, stamp⟩] } } : Dev).pumpRemote

/-- One byte discarded by the scan of R555. -/
def Dev.scanByte (d : Dev) : Dev :=
  let first := !d.sdio.scanning
  let d := { d with sdio := { d.sdio with cmd := d.sdio.cmd.drop 1, scanning := true, hdr := none } }.cnt (Reg.SDIO_CNT_k 3) 1
  if first then (d.wf Reg.SDIO_INT_STAT Fld.SDIO_INT_STAT.HDR_ERR 1).raise 0 Src.COMMAND 0x0002 0xFFFF 0 else d

/-- One move of the function on the command buffer; none when it waits for bytes or takes no packet (R547). -/
def Dev.scanStep (d : Dev) : Option Dev :=
  let s := d.sdio
  let b := s.cmd
  let len := field b 8 4
  if !s.ior1 || !s.ioe1 || b.isEmpty then none
  else if s.skip > 0 then
    some { d with sdio := { s with cmd := b.drop s.skip, skip := s.skip - min s.skip b.length } }
  else match s.hdr with
    | none =>
      if field b 0 1 ≠ 0x5A then some d.scanByte
      else if b.length < 16 then (if s.cut then some d.scanByte else none)
      else if crc16 (b.take 14) ≠ field b 14 2 then some d.scanByte
      else
        let d := { d with sdio := { s with scanning := false } }.cnt (Reg.SDIO_CNT_k 0) 1
        let skip := fun n => ({ d with sdio := { d.sdio with cmd := b.drop 16, skip := n } } : Dev)
        if field b 1 1 ≠ 1 then some ((skip (if len = 0 then 0 else len + 4)).refuse b ST.BAD_OPCODE 0 false)
        else if len > 32768 then some ((skip (len + 4)).refuse b ST.BAD_LENGTH 0 false)
        else some { d with sdio := { d.sdio with hdr := some d.stamp } }
    | some stamp =>
      let n := 16 + len + (if len = 0 then 0 else 4)
      if b.length < n then (if s.cut then some d.scanByte else none)
      else some (({ d with sdio := { s with cmd := b.drop n, hdr := none } } : Dev).checkPacket (b.take 16)
        ((b.drop 16).take len) ((b.drop (16 + len)).take 4) stamp)

def Dev.scanLoop (d : Dev) : Nat → Dev
  | 0 => d
  | fuel + 1 => match d.scanStep with
    | none => d
    | some d => d.scanLoop fuel

def Dev.cmdSpace (d : Dev) : Nat := 65536 - d.sdio.cmd.length
/-- SPACE_THR in bytes; 0 acts as 1. -/
def Dev.spaceThr (d : Dev) : Nat := max 1 (d.rf Reg.SDIO_CTRL Fld.SDIO_CTRL.SPACE_THR) * 256

/-- The packets that the command buffer holds are taken; SPACE is set when its free room rises to the threshold (R571). -/
def Dev.sdioScan (d : Dev) : Dev :=
  let low := d.cmdSpace
  let d := d.scanLoop (2 * d.sdio.cmd.length + 4)
  let d := if d.sdio.cmd.isEmpty then { d with sdio := { d.sdio with cut := false } } else d
  if low < d.spaceThr && d.spaceThr ≤ d.cmdSpace then d.wf Reg.SDIO_INT_STAT Fld.SDIO_INT_STAT.SPACE 1 else d

/-- Bytes written to the command window, in the order of the bus: those beyond the room are discarded (R549, R551). -/
def Dev.sdioFeed : Nat → List Byte → Dev → Dev
  | 0, _, d => d
  | fuel + 1, bs, d =>
    let room := d.cmdSpace
    if bs.isEmpty then d
    else if room = 0 then
      (({ d with sdio := { d.sdio with cut := true } } : Dev).cnt (Reg.SDIO_CNT_k 4) bs.length).wf Reg.SDIO_INT_STAT
        Fld.SDIO_INT_STAT.OVERRUN 1
    else
      Dev.sdioFeed fuel (bs.drop room) (({ d with sdio := { d.sdio with cmd := d.sdio.cmd ++ bs.take room } } : Dev).sdioScan)

end Sys2Proof.Machine
end

