-- ==== Sys2Proof/Machine/Boot.lean ====
section
/-!
DEFINITION. Firmware images and slots, the boot sequence and recovery (R517 to R529), booting over Col (R340), and the
resets (R483, R579, R580).
-/
namespace Sys2Proof.Machine

def Dev.modBoot (d : Dev) (f : BootSt → BootSt) : Dev := { d with boot := f d.boot }
/-- The lifecycle state of R534 as SEC_LCS shows it. -/
def Dev.lcs (d : Dev) : Nat := d.rf Reg.SEC_LCS Fld.SEC_LCS.STATE
def Dev.dbgOpen (d : Dev) : Bool := d.rfB Reg.DBG_STAT Fld.DBG_STAT.OPEN
def Dev.bootOnly (d : Dev) : Bool := d.rfB Reg.PWR_STAT Fld.PWR_STAT.BOOT_ONLY
def Dev.setStage (d : Dev) (v : Nat) : Dev := d.wf Reg.SEC_BOOT Fld.SEC_BOOT.STAGE v

/-! ### Images (R520, R521) -/

/-- Fields of an image header. -/
def Ih.svn (h : List Byte) : Nat := field h 0x08 4
def Ih.release (h : List Byte) : Nat := field h 0x0C 4
def Ih.load (h : List Byte) : Nat := field h 0x10 8
def Ih.bodyLen (h : List Byte) : Nat := field h 0x20 4
def Ih.keySlot (h : List Byte) : Nat := field h 0x30 1
def Ih.pubKey (h : List Byte) : List Byte := slice h 0x70 97

/-- 0x01 MAGIC: the magic, the version or a field shown as zero is wrong. -/
def magicBad (h : List Byte) : Bool :=
  field h 0 4 != 0x5A564657 || field h 4 2 != 1
    || !(zeroAt h 0x24 4 && zeroAt h 0x32 14 && zeroAt h 0xD1 15 && zeroAt h 0x140 192)

/-- The HBM region of a Tarinady image (R527). -/
def tarinadyArea (load len : Nat) : Nat × Nat := (load, ceilDiv len 0x200000 * 0x200000)

/-- 0x02 LENGTH, for an image of kind `kind` in a place of `room` bytes: a stage-1 body has at most 1 MiB and lies in Summit
RAM; a Tarinady body lies 2 MiB aligned in HBM, clear of the flash map and the write buffer. -/
def lengthBad (h : List Byte) (kind room : Nat) : Bool :=
  let n := Ih.bodyLen h
  let a := Ih.load h
  n == 0 || n % 16 != 0 || decide (512 + n > room)
    || (if kind = 1 then decide (n > 0x100000) || decide (a < summitRam) || decide (a + n > summitRam + 0x200000)
        else
          let t := tarinadyArea a n
          a % 0x200000 != 0 || decide (t.1 + t.2 > hbmSize)
            || (decide (t.1 < 0x1800000000) && decide (0x177C000000 < t.1 + t.2)))

/-- A fused key slot holds the key, and is not revoked (R518). -/
def Dev.keyOk (d : Dev) (slot : Nat) (key : List Byte) : Bool :=
  let f := d.boot.fuses
  bit f.present slot && !bit f.revoked slot && sha384 key == f.hashes.getD slot []

/-- The first failing check of R521 on a header, up to SIGNATURE. -/
def Dev.headerFail (d : Dev) (h : List Byte) (kind room : Nat) : Option Nat :=
  if magicBad h then some 0x01
  else if lengthBad h kind room then some 0x02
  else if field h 6 2 ≠ kind then some 0x03
  else if !bit (field h 0x31 1) d.lcs then some 0x04
  else if field h 0x28 8 ≠ 0 && field h 0x28 8 ≠ d.boot.fuses.uid.toNat then some 0x05
  else if !(Ih.keySlot h == 0 || Ih.keySlot h == 3) || !d.keyOk (Ih.keySlot h) (Ih.pubKey h) then some 0x06
  else if !ecdsaOk (Ih.pubKey h) (slice h 0xE0 96) (h.take 0xE0) then some 0x07
  else none

/-- The checks that follow, on the body. -/
def Dev.bodyFail (d : Dev) (h body : List Byte) : Option Nat :=
  if sha384 body ≠ slice h 0x40 48 then some 0x08
  else if Ih.svn h < d.boot.fuses.svnMin then some 0x09
  else none

/-- A verified image, with the hash over header and body. -/
def imgRec (h body : List Byte) : ImgRec :=
  ⟨sha384 (h ++ body), Ih.release h, Ih.svn h, Ih.load h, Ih.load h + Ih.bodyLen h⟩

/-- An image given whole, verified; with `place`, its body is loaded before its hash is checked.  A body whose last burst
cannot be written (R351) fails that check. -/
def Mach.verify (m : Mach) (img : List Byte) (kind room : Nat) (place : Bool) : Mach × Sum Nat ImgRec :=
  let h := slice img 0 512
  match m.dev.headerFail h kind room with
  | some r => (m, .inl r)
  | none =>
    let body := slice img 512 (Ih.bodyLen h)
    let (m, bad) := if place then m.rmwCheck (Ih.load h) body.length 0xFF 0xFF else (m, none)
    let m := if place && bad.isNone then m.store (Ih.load h) body else m
    match if bad.isSome then some 0x08 else m.dev.bodyFail h body with
    | some r => (m, .inl r)
    | none => (m, .inr (imgRec h body))

/-- A flash read of a firmware slot failed (R362, R521). -/
def Mach.slotReadFails (m : Mach) (r : RegionRec) (off : Nat) : Mach :=
  let u := r.first + off / unitSize
  (m.nandRead u (m.dev.flash.blockOf u) .failed).1

/-- The image at an offset of a slot, read from flash and verified. -/
def Mach.slotImage (m : Mach) (r : RegionRec) (off kind : Nat) (readFails place : Bool) : Mach × Sum Nat ImgRec :=
  if readFails then (m.slotReadFails r off, .inl 0x0A)
  else
    let room := r.units * unitSize - off
    let (m, h) := m.regionBytes r off 512
    match m.dev.headerFail h kind room with
    | some x => (m, .inl x)
    | none =>
      let (m, img) := m.regionBytes r off (512 + Ih.bodyLen h)
      m.verify img kind room place

/-- The offset of the Tarinady image, after a stage-1 image of `n` body bytes (R519). -/
def tarinadyOffset (n : Nat) : Nat := ceilDiv (0x4000 + 512 + n) 0x4000 * 0x4000

/-- Both images of a slot: the first failure, or the two (R519, R524). -/
def Mach.slotImages (m : Mach) (s : Nat) (fails : List (Fin 2 × Fin 3)) (place : Bool) (mid : Dev → Dev) :
    Mach × Sum Nat (ImgRec × ImgRec) :=
  let bad := fun (k : Nat) => fails.any (fun x => x.1.val == s && x.2.val == k)
  match AMap.find m.dev.flash.regions s with
  | none => (m, .inl 0x0A)
  | some r =>
    match m.slotImage r 0x4000 1 (bad 1) place with
    | (m, .inl x) => (m, .inl x)
    | (m, .inr one) =>
      let m := m.mod mid
      match m.slotImage r (tarinadyOffset (one.stop - one.load)) 2 (bad 2) place with
      | (m, .inl x) => (m, .inl x)
      | (m, .inr two) => (m, .inr (one, two))

/-! ### Boot records (R522, R523) -/

/-- A boot record. -/
structure BootRec where
  seq : Nat
  state : Nat
  tries : Nat
deriving DecidableEq, Repr

def parseBootRec (bs : List Byte) : Option BootRec :=
  if field bs 0 4 = 0x5A564252 && field bs 12 4 = crc32c (bs.take 12) then some ⟨field bs 4 4, field bs 8 1, field bs 9 1⟩
  else none

/-- A record with the zeros to the end of its unit. -/
def BootRec.bytes (r : BootRec) : List Byte :=
  let h := leBytes 4 0x5A564252 ++ leBytes 4 r.seq ++ leBytes 1 r.state ++ leBytes 1 r.tries ++ leBytes 2 0
  h ++ leBytes 4 (crc32c h) ++ List.replicate (unitSize - 16) 0

/-- The record of a slot; none when it is invalid or its region is absent. -/
def Mach.bootRec (m : Mach) (s : Nat) : Mach × Option BootRec :=
  match AMap.find m.dev.flash.regions s with
  | none => (m, none)
  | some r => let (m, bs) := m.regionBytes r 0 16; (m, parseBootRec bs)

/-- A record written, while the subsystem takes writes. -/
def Mach.writeBootRec (m : Mach) (s : Nat) (x : BootRec) : Mach :=
  match AMap.find m.dev.flash.regions s with
  | none => m
  | some r => if m.dev.flState = FL.READY then m.regionStore r 0 x.bytes else m

def Dev.setReason (d : Dev) (s v : Nat) : Dev :=
  d.wf Reg.SEC_BOOT (if s = 0 then Fld.SEC_BOOT.REASON0 else Fld.SEC_BOOT.REASON1) v

/-- `a` is the greater of two SEQ values by signed difference. -/
def seqAfter (a b : Nat) : Bool := decide (sext 32 ((a + 2 ^ 32 - b) % 2 ^ 32) > 0)

/-! ### Starting (R523, R526 to R529) -/

/-- Tarinady runs, and enables the SDIO function of the lead package (R338, R526, R547). -/
def Dev.startTarinady (d : Dev) (slot : Option Nat) (one two : ImgRec) : Dev :=
  let d := (d.setStage 3).modBoot (fun b => { b with
    phase := .running
    slot := slot
    stage1 := some one
    tarinady := some two
    recovery := [] })
  if d.pkg = 0 then ({ d with sdio := { d.sdio with ior1 := true } } : Dev).sdioScan else d

/-- Recovery (R529). -/
def Dev.enterRecovery (d : Dev) : Dev :=
  let d := ((d.wf Reg.SEC_LCS Fld.SEC_LCS.RECOVERY 1).wf Reg.SEC_LCS Fld.SEC_LCS.SLOT 0).setStage 1
  let d := (d.raise 1 Src.SECURITY 0x0003 0xFFFF 0).modBoot (fun b => { b with
    phase := .recovery
    slot := none
    recovery := [] })
  if d.pkg = 0 then ({ d with sdio := { d.sdio with ior1 := true } } : Dev).sdioScan else d

/-- One candidate slot tried: TRIES, both images, and on a failure the record marked BAD with its F1. -/
def Mach.trySlot (m : Mach) (s : Nat) (x : BootRec) (fails : List (Fin 2 × Fin 3)) : Mach × Bool :=
  let x := if x.state = 0 then { x with tries := x.tries + 1 } else x
  let m := if x.state = 0 then m.writeBootRec s x else m
  let m := m.mod (fun d => d.wf Reg.SEC_LCS Fld.SEC_LCS.SLOT s)
  match m.slotImages s fails true (fun d => d.setStage 2) with
  | (m, .inr (one, two)) => (m.mod (fun d => d.startTarinady (some s) one two), true)
  | (m, .inl r) =>
    let m := m.mod (fun d => d.setReason s r)
    let m := m.writeBootRec s { x with state := 2 }
    (m.mod (fun d => (d.setStage 1).raise 1 Src.SECURITY 0x0001 0xFFFF 0), false)

/-- The candidates in order; none that verifies leads to recovery. -/
def Mach.trySlots (m : Mach) (first : Option Nat) (fails : List (Fin 2 × Fin 3)) : List (Nat × BootRec) → Mach
  | [] => m.mod Dev.enterRecovery
  | (s, x) :: rest =>
    match m.trySlot s x fails with
    | (m, true) => if first = some s then m else m.mod (fun d => d.raise 1 Src.SECURITY 0x0002 0xFFFF 0)
    | (m, false) => Mach.trySlots m first fails rest

/-- The boot from flash (R523). -/
def Mach.bootFlash (m : Mach) (fails : List (Fin 2 × Fin 3)) : Mach :=
  if !m.dev.flServing then m.mod Dev.enterRecovery
  else
    let (m, recs) := [0, 1].foldl (fun (p : Mach × List (Nat × BootRec)) s =>
      let m := p.1
      let unread := fails.any (fun x => x.1.val == s && x.2.val == 0)
      match AMap.find m.dev.flash.regions s with
      | none => (m.mod (fun d => d.setReason s 0x0A), p.2)
      | some r =>
        if unread then ((m.slotReadFails r 0).mod (fun d => d.setReason s 0x0A), p.2)
        else match m.bootRec s with
          | (m, some x) => (m, p.2 ++ [(s, x)])
          | (m, none) => (m, p.2)) (m, [])
    let ordered := match recs with
      | [(a, x), (b, y)] => if seqAfter y.seq x.seq then [(b, y), (a, x)] else [(a, x), (b, y)]
      | l => l
    let spent := fun (x : BootRec) => x.state == 0 && decide (x.tries ≥ 3)
    let m := ordered.foldl (fun (m : Mach) (p : Nat × BootRec) =>
      if spent p.2 then (m.mod (fun d => d.setReason p.1 0x0B)).writeBootRec p.1 { p.2 with state := 2 } else m) m
    m.trySlots (ordered.head?.map (·.1)) fails (ordered.filter (fun p => !(p.2.state == 2) && !spent p.2))

/-- The images that the lead sends to a package that asks for them: those of its own slot, header and body, the stage-1 image
first (R340; log 11). -/
def Mach.imagesFor (m : Mach) (first : Nat) : Mach × List Byte :=
  match m.dev.boot.slot.bind (AMap.find m.dev.flash.regions) with
  | none => (m, [])
  | some r =>
    let image := fun (m : Mach) (o : Nat) =>
      let (m, h) := m.regionBytes r o 512
      m.regionBytes r o (512 + Ih.bodyLen h)
    let (m, one) := image m 0x4000
    let (m, two) := image m (tarinadyOffset (one.length - 512))
    (m, if first = 2 then two else one ++ two)

/-- The lead sends images once its own boot is complete (R340). -/
def Mach.feedPeers (m : Mach) : Mach :=
  if m.dev.pkg ≠ 0 || m.dev.boot.phase != .running then m
  else
    let m' := m.mod (fun d => { d with col := { d.col with booting := [] } })
    m.dev.col.booting.foldl (fun m x =>
      let (m, bs) := m.imagesFor x.2
      m.mod (fun d => d.toPeer x.1 bs bs.length)) m'

/-- MOUNT_DONE (R360, R374); at boot, the slot is then chosen and started. -/
def execMountDone (found : MountFound) (s : State) : Host.Outcome State Fault Refusal :=
  runKeep (fun _ d a => mountKeep d a) (fun m =>
    let was := m.dev.flState
    let m := m.mountDone found
    if was = FL.MOUNTING && m.dev.boot.phase == .mounting then (m.bootFlash found.slotFails).feedPeers else m) s

/-! ### Booting over Col (R340, R528) -/

/-- The restart of a boot over Col that failed: the reaction to class F3, with no record, since R597 lists no code for
it. -/
def Mach.colBootFails (m : Mach) : Mach := m.safeAll.mod (fun d => d.reactF3.modBoot (fun b => { b with recovery := [] }))

/-- The images that have arrived whole are verified and started. -/
def Mach.colBoot (m : Mach) : Mach :=
  let bs := m.dev.boot.recovery
  let whole := fun (bs : List Byte) => decide (bs.length ≥ 512) && decide (bs.length ≥ 512 + Ih.bodyLen (slice bs 0 512))
  let drop := fun (d : Dev) => d.modBoot (fun b => { b with recovery := bs.drop (512 + Ih.bodyLen (slice bs 0 512)) })
  if !whole bs then m
  else match m.dev.boot.stage1 with
    | none =>
      (match m.verify bs 1 0x4000000 true with
       | (m, .inl _) => m.colBootFails
       | (m, .inr one) => m.mod (fun d => (drop d).setStage 2 |>.modBoot (fun b => { b with stage1 := some one })))
    | some one =>
      (match m.verify bs 2 0x4000000 true with
       | (m, .inl _) => m.colBootFails
       | (m, .inr two) => m.mod (fun d => (d.wf Reg.SEC_LCS Fld.SEC_LCS.COL_BOOTED 1).startTarinady none one two))

/-- MGMT: a Summit-to-Summit message; while the package boots over Col, the next bytes of its images, the stage-1 image
first. -/
def execMgmt (p : Fin 6) (s : State) : Host.Outcome State Fault Refusal :=
  run (fun m =>
    let q := p.val
    match m.dev.colMsg q VC.MGMT with
    | (d, none) => { m with dev := d }
    | (d, some msg) =>
      let k := d.peerOf q
      let d := d.colTake q VC.MGMT msg.size
      if d.boot.phase == .colBoot && k = 0 then
        (({ m with dev := d.modBoot (fun b => { b with recovery := b.recovery ++ msg.payload }) } : Mach).colBoot).colBoot
      else
        let d := { d with col := { d.col with mgmt := AMap.set d.col.mgmt k (AMap.getD d.col.mgmt k [] ++ msg.payload) } }
        (({ m with dev := d } : Mach).mgmtItems k 4096).feedPeers.mod (fun d => d.colKick q 1024)) s

/-- COL_BOOT_TIMEOUT (R340): no complete first-stage image 30 s after reset. -/
def execColBootTimeout (s : State) : Host.Outcome State Fault Refusal :=
  run (fun m =>
    if m.dev.boot.phase == .colBoot && m.dev.boot.stage1.isNone then m.colBootFails else m) s

/-! ### Resets (R483, R579, R580) -/

/-- Registers that a part's fuses and straps fix. -/
def fusedRegs : List Nat := [Reg.GEN_ID, Reg.GEN_RIDGE_EN]

/-- The device with its power off: what flash and fuses hold. -/
def Dev.poweredOff (d : Dev) : Dev :=
  { free := d.free
    regs := d.regs.filter (fun p => fusedRegs.contains p.1)
    flash := { d.flash with wb := [], unjournaled := [], records := 0, flipped := [] }
    boot := { fuses := d.boot.fuses } }

/-- PORST_ASSERT (R580): the device resets at once and the flash subsystem closes nothing. -/
def execPorstAssert (s : State) : Host.Outcome State Fault Refusal :=
  match run (fun m => m.flashCut) s with
  | .next t => runKeep (fun _ _ a => decide (a ≥ flashMem)) (fun m => m.mod Dev.poweredOff) t
  | o => o

/-- The registers that show the fuses (R517, R535). -/
def Dev.senseFuses (d : Dev) : Dev :=
  let f := d.boot.fuses
  let d := (d.wf Reg.SEC_LCS Fld.SEC_LCS.STATE f.lcs).wf Reg.SEC_LCS Fld.SEC_LCS.FUSED f.lcs
  let d := (d.wf Reg.SEC_LCS Fld.SEC_LCS.DEBUG_COUNT f.debugCount).wf Reg.SEC_LCS Fld.SEC_LCS.SVN_MIN f.svnMin
  let d := (d.wf Reg.SEC_KEYS Fld.SEC_KEYS.REVOKED f.revoked).wf Reg.SEC_KEYS Fld.SEC_KEYS.PRESENT f.present
  -- in BLANK the debug port is open without a token (R534)
  if f.lcs = 0 then (d.wf Reg.DBG_STAT Fld.DBG_STAT.OPEN 1).wf Reg.DBG_STAT Fld.DBG_STAT.SCOPE 7 else d

/-- The Col ports as reset leaves them: those of used pairs in use and training, but not in boot-only mode (R335, R336,
R593); a package outside its group sets WIRING on every port and enables none (R334). -/
def Dev.resetPorts (d : Dev) : Dev :=
  (List.range 6).foldl (fun (d : Dev) p =>
    let alone := decide (d.pkg ≥ d.grp)
    let used := !alone && decide (d.peerOf p < d.grp)
    let d := if alone then d.wf (Reg.COL_Pp_STAT p) Fld.COL_Pp_STAT.WIRING 1 else d
    let d := d.wf (Reg.COL_Pp_CTRL p) Fld.COL_Pp_CTRL.EN (b2n used)
    d.setPortState p (if used && d.colPower then PS.TRAINING else PS.DISABLED)) d

/-- Boot-only mode (R593): the fabric at 0.65 V with stretch 32/8, and the HBM limit at 25 %. -/
def Dev.enterBootOnly (d : Dev) : Dev :=
  let d := (d.wf Reg.PWR_STAT Fld.PWR_STAT.BOOT_ONLY 1).setStretch 32
  (d.wf Reg.PWR_STAT Fld.PWR_STAT.HBM_LIM 3).commandFab 650

/-- The fused repairs and the power-on self-test of the arrays (R112): repairs in use, and arrays retired. -/
def Dev.arrayRepairs (d : Dev) (env : ReleaseEnv) : Dev :=
  let d := env.arrays.foldl (fun (d : Dev) x =>
    let (d, bad) := d.testArrays x.1.val false x.2
    bad.foldl (fun (d : Dev) p => d.retire 16 x.1.val p 3 0) d) d
  (List.range 96).foldl (fun (d : Dev) t => if (d.tile t).remap.isEmpty then d else d.modTile t (fun x => { x with remap := [] })) d

/-- RESET_RELEASE (R579): the straps are sampled, the fuses sensed, and the boot begins with the fill of HBM (R355, R526). -/
def execResetRelease (env : ReleaseEnv) (s : State) : Host.Outcome State Fault Refusal :=
  run (fun m => m.mod (fun d =>
    if !d.pwr.porst || !env.pwrFailN then d
    else
      let d := { d with
        pwr := { d.pwr with porst := false, fabOn := true }
        boot := { d.boot with phase := .filling } }
      let d := ((d.wf Reg.COL_GRP Fld.COL_GRP.PKG env.pkgId.val).wf Reg.COL_GRP Fld.COL_GRP.GRP env.grpM1.val).wf
        Reg.COL_GRP Fld.COL_GRP.BOOT_COL (b2n env.colBoot)
      let d := if env.coolOk then d else d.enterBootOnly
      (d.senseFuses.resetPorts).arrayRepairs env)) s

/-- The counters that only their CNT_CLR or power-off clears, and the registers that hold through a warm reset as a
whole: the straps and fuses, the power settings (a warm reset changes no rail), and the maps of retired arrays. -/
def warmKept : List Nat :=
  fusedRegs ++ [Reg.COL_GRP, Reg.SEC_LCS, Reg.DBG_STAT, Reg.SAF_RESET_CAUSE, Reg.TB_RATE]
    ++ [Reg.PWR_CTRL, Reg.PWR_STAT, Reg.PWR_MEAS, Reg.PWR_THERM, Reg.PWR_INLET] ++ (List.range 4).map Reg.PWR_CNT_k
    ++ (List.range 96).flatMap (fun t => Reg.TILE_ARR_MAP t :: arrCounters t ++ convCounters t ++ specCounters t ++ memCounters t)
    ++ (List.range 24).flatMap rdgCounters ++ trnCounters ++ schCounters ++ arbCounters ++ colCounters ++ hbmCounters
    ++ tbCounters ++ (List.range 4).flatMap ethCounters ++ (List.range 4).flatMap canCounters ++ ingCounters ++ ceCounters

/-- A register after a warm reset, when something of it is kept. -/
def warmReg (a v : Nat) : Option Nat :=
  if warmKept.contains a then some v
  else
    let stat := (List.range 96).any (fun t => (List.range 4).any (fun p => Reg.TILE_ARRn_STAT t p == a))
    let tile := (List.range 96).any (fun t => Reg.TILE_STAT t == a)
    if stat then some (bits v 31 16 * 2 ^ 16)
    else if tile then some (setBits 0 Fld.TILE_STAT.FENCED.hi Fld.TILE_STAT.FENCED.lo (bits v Fld.TILE_STAT.FENCED.hi Fld.TILE_STAT.FENCED.lo))
    else none

/-- The device right after a warm reset: everything starts afresh but what the manual keeps (R489, R513, R516, R545,
R579, R596). -/
def Dev.warmed (d : Dev) : Dev :=
  let r : Dev :=
    { free := d.free
      regs := d.regs.filterMap (fun p => (warmReg p.1 p.2.toNat).map (fun v => (p.1, BitVec.ofNat 32 v)))
      tb := { d.tb with frac := d.tb.frac }
      flash := { d.flash with wb := [], unjournaled := [], records := 0 }
      sdio := { ioe1 := d.sdio.ioe1 }
      boot := { phase := .filling, fuses := d.boot.fuses, challenge := d.boot.challenge }
      pwr := d.pwr
      -- accounts are cleared only by a bind (R313)
      loops := List.map (fun (x : Nat × LoopSt) => (x.1, { acct := x.2.acct })) d.loops
      saf := { f3s := d.saf.f3s }
      ue := d.ue
      ce := d.ce
      wb := d.wb
      off := d.off }
  let lcs := d.reg Reg.SEC_LCS
  let openByToken := d.rf Reg.SEC_LCS Fld.SEC_LCS.STATE == 3
  let r := (r.setReg Reg.SEC_LCS 0).senseFuses
  let r := (r.wf Reg.SEC_LCS Fld.SEC_LCS.ID_BLOCK (bits lcs 25 25)).wf Reg.SEC_LCS Fld.SEC_LCS.DEBUG_THIS_BOOT (bits lcs 24 24)
  let r := if openByToken then
      (r.wf Reg.SEC_LCS Fld.SEC_LCS.STATE 3).wf Reg.SAF_STAT Fld.SAF_STAT.DEBUG_HOLD 1 else r
  let r := r.wf Reg.SAF_STAT Fld.SAF_STAT.HOLD (d.rf Reg.SAF_STAT Fld.SAF_STAT.HOLD)
  -- a warm reset changes no rail: a fall of the fabric rail goes on, with its fallback (R33, R579)
  let r := if d.rfB Reg.GEN_PACE_SLOW Fld.GEN_PACE_SLOW.FALLING then
      (r.wf Reg.GEN_PACE_SLOW Fld.GEN_PACE_SLOW.FALLING 1).paceSlow else r
  let r := (List.range 96).foldl (fun (r : Dev) t => if r.retiredCount t ≥ 2 then r.dropTileOk t else r) r
  r.resetPorts

/-- WARM_RESET (R483): F3_DELAY after an F3, with a cut of flash writes that no journal page holds; the boot ROM zeroes
Summit RAM (R526). -/
def execWarmReset (s : State) : Host.Outcome State Fault Refusal :=
  match s.dev.saf.resetAt with
  | none => .next s
  | some t =>
    match run (fun m => (m.mod (fun d => d.reach (nsStamp t))).flashCut) s with
    | .next u => runKeep (fun _ _ a => decide (a < summitRam) || decide (a ≥ summitRam + 0x200000)) (fun m => m.mod Dev.warmed) u
    | o => o

end Sys2Proof.Machine
end

