-- ==== Sys2Proof/Machine/Sec.lean ====
section
/-!
DEFINITION. Identity and attestation (R530 to R533), the lifecycle (R534, R535), and the debug port (R536 to R545);
recovery-load, firmware activate and commit (R524, R525, R529).
-/
namespace Sys2Proof.Machine

def Dev.modFuses (d : Dev) (f : FuseSt → FuseSt) : Dev := d.modBoot (fun b => { b with fuses := f b.fuses })

/-- `n` bytes that the random source or the signing engine gives: open values. -/
def Dev.freeBytes : Dev → Nat → List Byte × Dev
  | d, 0 => ([], d)
  | d, n + 1 =>
    let (i, d) := d.fresh
    let (r, d) := Dev.freeBytes d n
    (Config.freeByte i :: r, d)

/-- The status of a failed verification (R524). -/
def verifyStatus (reason : Nat) : Nat := if reason = 0x06 || reason = 0x07 then ST.SIGNATURE else ST.BAD_PARAM

/-! ### Firmware (R524, R525, R529) -/

/-- FW_ACTIVATE (R524). -/
def execFwActivate (tag : BitVec 16) (slotFails : List (Fin 2 × Fin 3)) (s : State) : Host.Outcome State Fault Refusal :=
  run (fun m => m.cmd 0x0509 tag.toNat (fun m p =>
    let n := pay8 p.payload 0
    if n > 1 then m.fail p ST.BAD_PARAM
    else if m.dev.boot.slot = some n || m.dev.flState ≠ FL.READY then m.fail p ST.STATE
    else match m.slotImages n slotFails false id with
      | (m, .inl r) => m.fail p (verifyStatus r)
      | (m, .inr _) =>
        let (m, other) := m.bootRec (1 - n)
        let seq := match other with
          | some x => (x.seq + 1) % 2 ^ 32
          | none => 1
        (m.writeBootRec n ⟨seq, 0, 0⟩).ok p [])) s

/-- FW_COMMIT (R525). -/
def execFwCommit (tag : BitVec 16) (s : State) : Host.Outcome State Fault Refusal :=
  run (fun m => m.cmd 0x050A tag.toNat (fun m p =>
    match m.dev.boot.slot with
    | none => m.fail p ST.STATE
    | some n =>
      if pay8 p.payload 0 > 1 then m.fail p ST.BAD_PARAM
      else if !m.dev.flServing then m.fail p ST.STATE
      else
        let (m, rec) := m.bootRec n
        let pending := rec.filter (fun x => x.state != 1)
        if pending.isSome && m.dev.flState ≠ FL.READY then m.fail p ST.STATE else
        let m := match pending with
          | some x => m.writeBootRec n { x with state := 1 }
          | none => m
        let svn := match m.dev.boot.stage1, m.dev.boot.tarinady with
          | some a, some b => min a.svn b.svn
          | _, _ => 0
        let m := if pay8 p.payload 0 = 1 then
            m.mod (fun d =>
              let v := max d.boot.fuses.svnMin (min 64 svn)
              (d.modFuses (fun f => { f with svnMin := v })).wf Reg.SEC_LCS Fld.SEC_LCS.SVN_MIN v) else m
        m.ok p [])) s

/-- RECOVERY_LOAD (R529, R564). -/
def execRecoveryLoad (tag : BitVec 16) (s : State) : Host.Outcome State Fault Refusal :=
  run (fun m => m.cmd 0x0907 tag.toNat (fun m p =>
    let have_ := m.dev.boot.recovery
    let keep := fun (bs : List Byte) (m : Mach) => m.mod (fun d => d.modBoot (fun b => { b with recovery := bs }))
    if pay32 p.payload 0 ≠ have_.length then (keep [] m).fail p ST.BAD_PARAM
    else
      let bs := have_ ++ p.payload.drop 8
      if !bit (pay32 p.payload 4) 0 then (keep bs m).ok p []
      else match m.verify bs 1 bs.length false with
        -- a failing reply leaves the chunks accepted before it (R17)
        | (m, .inl r) => m.fail p (verifyStatus r)
        | (m, .inr one) =>
          (((keep [] m).store one.load (slice bs 512 (one.stop - one.load))).ok p []).mod (fun d => (d.setStage 2).modBoot (fun b => { b with stage1 := some one })))) s

/-! ### Identity and attestation (R530 to R533, R598) -/

/-- ID_CERT (R530). -/
def execIdCert (tag : BitVec 16) (s : State) : Host.Outcome State Fault Refusal :=
  run (fun m => m.cmd 0x0901 tag.toNat (fun m p => m.ok p (m.dev.boot.fuses.cert.take 1024))) s

/-- SAF_CFG_CRC (R598). -/
def Mach.safCfgCrc (m : Mach) : Nat :=
  let d := m.dev
  let cairn := match d.cairn with
    | some c => (c ++ List.replicate 256 0).take 256
    | none => List.replicate 256 0
  crc32c (leBytes 4 (bits (d.reg Reg.SAF_CTRL) 30 0) ++ leBytes 4 (d.reg Reg.SAF_PROMOTE) ++ leBytes 4 (d.reg Reg.SAF_DTI)
    ++ leBytes 4 (d.reg Reg.SAF_ST_CFG) ++ cairn ++ m.rdBytes (bankBase d.bank) 262144)

/-- The report of R532 up to its signature. -/
def Mach.report (m : Mach) (nonce : List Byte) : List Byte :=
  let d := m.dev
  let f := d.boot.fuses
  let hash := fun (i : Option ImgRec) => match i with
    | some x => x.hash
    | none => List.replicate 48 0
  let rel := fun (i : Option ImgRec) => match i with
    | some x => x.release
    | none => 0
  let flags := d.rf Reg.SEC_LCS Fld.SEC_LCS.DEBUG_THIS_BOOT + 2 * d.rf Reg.SAF_STAT Fld.SAF_STAT.OUT_EN
    + 4 * d.rf Reg.SEC_LCS Fld.SEC_LCS.RECOVERY
  leBytes 4 0x5A564154 ++ leBytes 2 1 ++ leBytes 2 0x200 ++ leBytes 8 f.uid.toNat ++ leBytes 4 (d.reg Reg.GEN_ID)
    ++ leBytes 1 d.lcs ++ leBytes 1 (d.boot.slot.getD 0xFF) ++ leBytes 1 flags ++ leBytes 1 f.debugCount
    ++ leBytes 1 f.svnMin ++ List.replicate 7 0 ++ leBytes 8 d.stamp ++ List.replicate 8 0 ++ nonce
    ++ hash d.boot.stage1 ++ hash d.boot.tarinady ++ leBytes 4 (rel d.boot.stage1) ++ leBytes 4 (rel d.boot.tarinady)
    ++ d.boot.measure ++ leBytes 4 m.safCfgCrc ++ List.replicate 20 0

/-- ATTEST (R532, R533): the signature is an open value, since the identity key and the signing nonce are random. -/
def execAttest (tag : BitVec 16) (s : State) : Host.Outcome State Fault Refusal :=
  run (fun m => m.cmd 0x0902 tag.toNat (fun m p =>
    let d := m.dev
    if d.rfB Reg.SEC_LCS Fld.SEC_LCS.ID_BLOCK || d.boot.fuses.lcs = 0 || d.boot.fuses.lcs = 4 then m.fail p ST.STATE
    else
      let r := m.report (slice p.payload 0 32)
      let (sig, d) := d.freeBytes 96
      ({ m with dev := d } : Mach).ok p (r ++ sig ++ List.replicate 160 0))) s

/-! ### Challenges and tokens (R537 to R540) -/

def Dev.tokenFails (d : Dev) : Nat := d.rf Reg.DBG_STAT Fld.DBG_STAT.FAILS

/-- A fresh challenge: its 64 bytes; after three failed tokens, zeros. -/
def Dev.issueChallenge (d : Dev) : List Byte × Dev :=
  if d.tokenFails ≥ 3 then (List.replicate 64 0, d)
  else
    let (nonce, d) := d.freeBytes 32
    let bs := leBytes 8 d.boot.fuses.uid.toNat ++ leBytes 1 d.lcs ++ List.replicate 7 0 ++ nonce ++ leBytes 8 d.stamp
      ++ List.replicate 8 0
    (bs, d.modBoot (fun b => { b with challenge := some (nonce, d.stamp, d.nsNow) }))

/-- TAP_CHAL (R537): the challenge is shifted out. -/
def execTapChal (s : State) : Host.Outcome State Fault Refusal :=
  runDev (fun _ d => if d.pwr.porst then d else d.issueChallenge.2) s

/-- DEBUG_CHALLENGE (R537). -/
def execDebugChallenge (tag : BitVec 16) (s : State) : Host.Outcome State Fault Refusal :=
  run (fun m => m.cmd 0x0903 tag.toNat (fun m p =>
    let (bs, d) := m.dev.issueChallenge
    ({ m with dev := d } : Mach).ok p bs)) s

/-- CHALLENGE_EXPIRE (R537): 60 s after it was issued. -/
def execChallengeExpire (s : State) : Host.Outcome State Fault Refusal :=
  runDev (fun _ d =>
    match d.boot.challenge with
    | none => d
    | some (_, _, t) => (d.reach (nsStamp (t + 60000000000))).modBoot (fun b => { b with challenge := none })) s

/-- The slots whose key may sign a token of this device now (R517, R535, R538). -/
def Dev.tokenSlots (d : Dev) (lifecycle : Bool) : List Nat :=
  let owner := bit d.boot.fuses.present 2
  if d.lcs = 2 && !lifecycle then (if owner then [2] else [1]) else if owner then [1, 2] else [1]

/-- The status of a token (R538, R540): ST_OK when it verifies. -/
def Dev.tokenStatus (d : Dev) (t : List Byte) (lifecycle : Bool) : Nat :=
  let live := match d.boot.challenge with
    | some (nonce, _, at_) => decide (d.nsNow < at_ + 60000000000) && slice t 0x10 32 == nonce
    | none => false
  let slot := field t 4 1
  if t.length ≠ 288 || field t 0 4 ≠ 0x5A56554C || !(slot == 1 || slot == 2) || !zeroAt t 5 3
      || field t 8 8 ≠ d.boot.fuses.uid.toNat || !live || bits (field t 0x30 4) 30 3 ≠ 0
      || bit (field t 0x30 4) 31 != lifecycle || !zeroAt t 0x34 12 || !zeroAt t 0xA1 31 then ST.BAD_PARAM
  else if !(d.tokenSlots lifecycle).contains slot || !d.keyOk slot (slice t 0x40 97)
      || !ecdsaOk (slice t 0x40 97) (slice t 0xC0 96) (t.take 0xC0) then ST.SIGNATURE
  else ST.OK

/-- A token tried: the challenge is void, and a failure is counted and raised. -/
def Dev.tryToken (d : Dev) (t : List Byte) (lifecycle : Bool) : Nat × Dev :=
  let st := d.tokenStatus t lifecycle
  let d := d.modBoot (fun b => { b with challenge := none })
  (st, if st = ST.OK then d else (d.inc Reg.DBG_STAT Fld.DBG_STAT.FAILS 1).raise 1 Src.SECURITY 0x0004 0xFFFF 0)

/-- The opening of the port, in the order of R539. -/
def Mach.openPort (m : Mach) (scope : Nat) : Mach :=
  let m := m.mod (fun d =>
    let n := min 64 (d.boot.fuses.debugCount + 1)
    (d.modFuses (fun f => { f with debugCount := n })).wf Reg.SEC_LCS Fld.SEC_LCS.DEBUG_COUNT n)
  let m := (m.zero (summitRam + 0x1C0000) 0x40000).mod (fun d => d.wf Reg.SEC_LCS Fld.SEC_LCS.ID_BLOCK 1)
  m.mod (fun d =>
    let d := d.raise 2 Src.SECURITY 0x0005 0xFFFF 0
    let d := (d.wf Reg.SEC_LCS Fld.SEC_LCS.STATE 3).wf Reg.SEC_LCS Fld.SEC_LCS.DEBUG_THIS_BOOT 1
    let d := (d.wf Reg.DBG_STAT Fld.DBG_STAT.OPEN 1).wf Reg.DBG_STAT Fld.DBG_STAT.SCOPE scope
    d.wf Reg.SAF_STAT Fld.SAF_STAT.DEBUG_HOLD 1)

/-- A debug token from either side: its status and what it does (R539, R540). -/
def Mach.debugToken (m : Mach) (t : List Byte) : Nat × Mach :=
  if m.dev.tokenFails ≥ 3 then (ST.AUTH_FAIL, m)
  else if m.dev.dbgOpen then (ST.STATE, m)
  else
    let (st, d) := m.dev.tryToken t false
    let m := { m with dev := d }
    if st = ST.OK then (ST.OK, m.openPort (bits (field t 0x30 4) 2 0)) else (st, m)

/-- TAP_TOKEN (R539). -/
def execTapToken (token : List Byte) (s : State) : Host.Outcome State Fault Refusal :=
  run (fun m => if m.dev.pwr.porst then m else (m.debugToken token).2) s

/-- DEBUG_TOKEN (R539, R540). -/
def execDebugToken (tag : BitVec 16) (s : State) : Host.Outcome State Fault Refusal :=
  run (fun m => m.cmd 0x0904 tag.toNat (fun m p =>
    let (st, m) := m.debugToken (slice p.payload 0 288)
    m.answer p st [])) s

/-! ### Lifecycle (R535) -/

/-- Every good block of flash erased. -/
def Mach.eraseFlash (m : Mach) : Mach :=
  let m := m.dev.flash.map.foldl (fun (m : Mach) (p : Nat × Nat) => m.zero (flashMem + p.1 * unitSize) unitSize) m
  m.mod (fun d => ((d.flash.used.foldl Dev.eraseBlock d).modFlash (fun f =>
    { bad := f.bad, flipped := f.flipped, geom := f.geom, erases := f.erases })).setFlState FL.BLANK)

/-- The last steps of retirement: the identity key and the device secret blown to all ones, then the RETIRED fuse. -/
def FuseSt.retire (f : FuseSt) : FuseSt :=
  { f with
    identity := 2 ^ 384 - 1
    secret := BitVec.allOnes 256
    lcs := 4 }

/-- LIFECYCLE (R535). -/
def execLifecycle (tag : BitVec 16) (s : State) : Host.Outcome State Fault Refusal :=
  run (fun m => m.cmd 0x0905 tag.toNat (fun m p =>
    let t := slice p.payload 0 288
    let target := bits (field t 0x30 4) 2 0
    if m.dev.tokenFails ≥ 3 then m.fail p ST.AUTH_FAIL
    else if !((m.dev.lcs == 1 && target == 2) || ((m.dev.lcs == 1 || m.dev.lcs == 2) && target == 4)) then m.fail p ST.STATE
    else
      let (st, d) := m.dev.tryToken t true
      let m := { m with dev := d }
      if st ≠ ST.OK then m.fail p st
      else
        let m := if target = 4 then m.eraseFlash else m
        (m.mod (fun d => d.modFuses (fun f =>
          if f.lcs = 4 then f else if target = 4 then f.retire else { f with lcs := target }))).ok p [])) s

/-- OWNER_KEY (R535). -/
def execOwnerKey (tag : BitVec 16) (s : State) : Host.Outcome State Fault Refusal :=
  run (fun m => m.cmd 0x0906 tag.toNat (fun m p =>
    if m.dev.lcs ≠ 1 || bit m.dev.boot.fuses.present 2 then m.fail p ST.STATE
    else
      let h := sha384 (slice p.payload 0 97)
      (m.mod (fun d =>
        let d := d.modFuses (fun f => { f with
          hashes := (List.range 4).map (fun i => if i = 2 then h else f.hashes.getD i [])
          present := f.present + 4 })
        d.wf Reg.SEC_KEYS Fld.SEC_KEYS.PRESENT d.boot.fuses.present)).ok p [])) s

/-! ### Route and core debug (R541 to R543) -/

/-- The lists in execution that a TILE field of the DBG block names: a tile's, or every Tarn or ingest list. -/
def Dev.dbgKeys (d : Dev) (tile : Nat) : List Nat := (d.lists.map (·.1)).filter (fun k => listUnit k == tile)

/-- The index of the entry that a list issues next. -/
def ListSt.nextIdx (l : ListSt) : Nat :=
  match l.redo with
  | x :: _ => x.1
  | [] => l.next

/-- Pre-emptions that debug deferred proceed once the lists of their steps have resumed (R543). -/
def Dev.resumeLoops (d : Dev) : Dev := (List.range 16).foldl (fun (d : Dev) n => d.afterRelease n) d

/-- HALT (R542): the lists stop at their next entry boundary; with GROUP, every list of their steps. -/
def Dev.dbgHaltTile (d : Dev) : Dev :=
  if !d.dbgOpen then d
  else (d.dbgKeys (d.rf Reg.DBG_RT_CTRL Fld.DBG_RT_CTRL.TILE)).foldl (fun (d : Dev) k => d.dbgHaltList k) d

/-- STEP (R542): a halted list issues one entry, a breakpoint at it notwithstanding. -/
def Dev.dbgStepTile (d : Dev) : Dev :=
  if !d.dbgOpen then d
  else (d.dbgKeys (d.rf Reg.DBG_RT_CTRL Fld.DBG_RT_CTRL.TILE)).foldl (fun (d : Dev) k =>
    d.modList k (fun l => if l.dbgHalt then
      { l with
        dbgHalt := false
        dbgStep := true
        dbgPassed := some l.nextIdx } else l)) d

/-- RESUME (R542): every list halted by debug goes on. -/
def Dev.dbgResume (d : Dev) : Dev :=
  if !d.dbgOpen then d
  else
    ((d.lists.map (·.1)).foldl (fun (d : Dev) k =>
      d.modList k (fun l => if l.dbgHalt then
        { l with
          dbgHalt := false
          dbgStep := false
          dbgPassed := some l.nextIdx } else l)) d).resumeLoops

def execHalt (s : State) : Host.Outcome State Fault Refusal := runDev (fun _ d => d.dbgHaltTile) s
def execStep (s : State) : Host.Outcome State Fault Refusal := runDev (fun _ d => d.dbgStepTile) s
def execResume (s : State) : Host.Outcome State Fault Refusal := runDev (fun _ d => d.dbgResume) s

/-- One instruction of the halted spur core of tile `t`, whose call a trap ends (R150). -/
def Mach.dmiStep (m : Mach) (t : Nat) : Mach :=
  match m.dev.spurInFlight t with
  | none => m
  | some (n, i) =>
    match m.rvStep n t with
    | (m, none) => m
    | (m, some cause) => m.spurTrapped n t i cause

/-- DMI (R541): harts 0 to 3 are the Summit pairs, 4 + t the spur core of an enabled tile.  A step moves a halted hart by one
instruction; what a Summit pair executes is none of this state. -/
def execDmi (hart : Fin 100) (op : DmiOp) (s : State) : Host.Outcome State Fault Refusal :=
  run (fun m =>
    let h := hart.val
    let d := m.dev
    if !d.dbgOpen || !bit (d.rf Reg.DBG_STAT Fld.DBG_STAT.SCOPE) 0 || (h ≥ 4 && !d.tileOn (h - 4)) then m
    else match op with
      | .halt => m.mod (fun d => if d.harts.contains h then d else { d with harts := d.harts ++ [h] })
      | .step => if h ≥ 4 && d.harts.contains h then m.dmiStep (h - 4) else m
      | .resume => m.mod (fun d => { d with harts := d.harts.filter (· != h) }.resumeLoops)
      | .trigger n v => m.mod (fun d => { d with triggers := AMap.set d.triggers (4 * h + n.val) v })) s

end Sys2Proof.Machine
end

