-- ==== Sys2Proof/Machine/Power.lean ====
section
/-!
DEFINITION. Power caps and the governor (R582 to R587), power failure (R588, R589), and cooling and temperature (R590 to
R593).
-/
namespace Sys2Proof.Machine

/-! ### Caps (R584 to R586) -/

def Dev.capEff (d : Dev) : Nat := d.rf Reg.PWR_STAT Fld.PWR_STAT.CAP_EFF

/-- A write of PWR_CTRL.CAP and BOOST: ignored in boot-only mode, and otherwise the start of a transition when none is in
progress and it asks for one. -/
def Dev.capWrite (d : Dev) (cap : Nat) (boost : Bool) : Dev :=
  if d.bootOnly then d.wf Reg.PWR_STAT Fld.PWR_STAT.CFG_LOCKED_WRITE 1
  else
    let wasBoost := d.rfB Reg.PWR_CTRL Fld.PWR_CTRL.BOOST
    let d := (d.wf Reg.PWR_CTRL Fld.PWR_CTRL.CAP cap).wf Reg.PWR_CTRL Fld.PWR_CTRL.BOOST (b2n boost)
    if d.pwr.change.isSome || !d.pwr.fabOn then d
    else if cap ≠ d.capEff || (cap = 3 && boost != wasBoost) then d.startCap cap boost
    else d

/-- CAP_WRITE (R585, R586). -/
def execCapWrite (cap : BitVec 2) (s : State) : Host.Outcome State Fault Refusal :=
  runDev (fun _ d => d.capWrite cap.toNat (d.rfB Reg.PWR_CTRL Fld.PWR_CTRL.BOOST)) s

/-- BOOST_WRITE (R584, R586). -/
def execBoostWrite (boost : Bool) (s : State) : Host.Outcome State Fault Refusal :=
  runDev (fun _ d => d.capWrite (d.rf Reg.PWR_CTRL Fld.PWR_CTRL.CAP) boost) s

/-! ### The governor (R587) -/

/-- A cap in units of 0.1 W. -/
def capPower (cap : Nat) : Nat := if cap = 3 then 4800 else if cap = 2 then 3500 else if cap = 1 then 2500 else 1500

/-- The governor's ceiling in eighths. -/
def Dev.govMax (d : Dev) : Nat :=
  max (capRow d.capEff false).2.1 (min 32 (d.rf Reg.PWR_CTRL Fld.PWR_CTRL.GOV_MAX))

/-- The reaction to a measurement. -/
def Dev.govern (d : Dev) (avg : Nat) : Dev :=
  let s := d.stretch
  let isOver := decide (avg > capPower d.capEff)
  let fixed := d.bootOnly || d.pwr.fabThrottle || d.pwr.change.isSome || !d.pwr.fabOn
  let d := { d with pwr := { d.pwr with
    sinceRaise := min 10 (d.pwr.sinceRaise + 1)
    below := if avg * 10 < capPower d.capEff * 9 then d.pwr.below + 1 else 0 } }
  if isOver && decide (s ≥ d.govMax) then
    if d.pwr.overEp then d
    else
      { (d.wf Reg.PWR_STAT Fld.PWR_STAT.OVERCAP 1).raise 1 Src.MONITOR 0x0007 0xFFFF avg with
        pwr := { d.pwr with overEp := true } }
  else
    let d := { d with pwr := { d.pwr with overEp := false } }
    if fixed then d
    else if isOver then
      if d.pwr.sinceRaise < 10 then d
      else
        ({ d with pwr := { d.pwr with sinceRaise := 0 } }.setStretch (s + 1)).cnt (Reg.PWR_CNT_k 1) 1
    else if d.pwr.below ≥ 100 && decide (s > (capRow d.capEff false).2.1) then
      { d with pwr := { d.pwr with below := 0 } }.setStretch (s - 1)
    else d

/-- GOVERNOR: one measurement of the 1 ms average, taken every 100 µs. -/
def execGovernor (avg : BitVec 16) (s : State) : Host.Outcome State Fault Refusal :=
  runDev (fun _ d =>
    if d.pwr.porst then d
    else
      let d := (d.wf Reg.PWR_MEAS Fld.PWR_MEAS.AVG avg.toNat).wf Reg.PWR_MEAS Fld.PWR_MEAS.PEAK
        (max avg.toNat (d.rf Reg.PWR_MEAS Fld.PWR_MEAS.PEAK))
      d.govern avg.toNat) s

def pwrCounters : List Nat := (List.range 4).map Reg.PWR_CNT_k

/-- PWR_CNT_CLR (R596): the counters, and PEAK, which holds the highest average since CNT_CLR. -/
def Dev.pwrCntClr (d : Dev) : Dev := (d.clearRegs pwrCounters).wf Reg.PWR_MEAS Fld.PWR_MEAS.PEAK 0

def execPwrCntClr (s : State) : Host.Outcome State Fault Refusal := runDev (fun _ d => d.pwrCntClr) s

/-! ### Power failure and cooling (R588, R589, R593) -/

/-- Every step running, saving or restoring aborts (R588 step 2). -/
def Mach.abortRunning (m : Mach) : Mach :=
  (List.range 16).foldl (fun (m : Mach) n =>
    match (m.dev.loop n).step with
    | some st => if st.phase == .preempted then m else m.abortStep n
    | none => m) m

/-- The Col ports in use leave service for `next`. -/
def Mach.portsDown (m : Mach) (next : Nat) : Mach :=
  (List.range 6).foldl (fun (m : Mach) p =>
    if m.dev.linkUp p then m.portDown p next
    else if m.dev.portState p = PS.DISABLED then m
    else m.mod (fun d => d.setPortState p next)) m

/-- POWER_FAIL (R588). -/
def execPowerFail (s : State) : Host.Outcome State Fault Refusal :=
  run (fun m =>
    if m.dev.pwr.porst || m.dev.pwr.pwrFail then m
    else
      let m := m.mod (fun d => (d.cnt (Reg.PWR_CNT_k 3) 1).raise 2 Src.MONITOR 0x0001 0xFFFF 0)
      let m := (m.abortRunning).portsDown PS.DOWN
      m.mod (fun d =>
        let d := (d.wf Reg.PWR_STAT Fld.PWR_STAT.TRANS 0).flClose
        let d := d.streams.foldl (fun (d : Dev) (p : Nat × StreamSt) => d.dropFrame p.1) d
        { d.fabDown with pwr := { d.fabDown.pwr with pwrFail := true } })) s

/-- The fabric's voltage, stretch and HBM limit as the cap in effect, boot-only mode and the throttles have them. -/
def Dev.applyCap (d : Dev) : Dev :=
  let (mv, least, lim) := capRow d.capEff (d.rfB Reg.PWR_CTRL Fld.PWR_CTRL.BOOST)
  let slow := d.bootOnly || d.pwr.fabThrottle
  let lim := if d.pwr.hbmHot.isEmpty then lim else max 2 lim
  let d := (d.setStretch (if slow then 32 else least)).wf Reg.PWR_STAT Fld.PWR_STAT.HBM_LIM (if d.bootOnly then 3 else lim)
  d.commandFab (if slow then 650 else mv)

/-- POWER_RESTORE (R589): VDD_FAB at the cap in effect, and the flash subsystem as R373; a cap written meanwhile then
starts its change. -/
def execPowerRestore (s : State) : Host.Outcome State Fault Refusal :=
  runDev (fun _ d =>
    if !d.pwr.pwrFail then d
    else
      let d := { d with pwr := { d.pwr with
        pwrFail := false
        fabOn := !d.pwr.tripped } }.applyCap
      let d := if d.flEnabled && (d.flState = FL.CLOSING || d.flState = FL.CLOSED) then d.flServe else d
      let want := d.rf Reg.PWR_CTRL Fld.PWR_CTRL.CAP
      if want ≠ d.capEff && !d.bootOnly then d.startCap want (d.rfB Reg.PWR_CTRL Fld.PWR_CTRL.BOOST) else d) s

/-- COOLING (R593): COOL_OK falls while the device runs. -/
def execCooling (s : State) : Host.Outcome State Fault Refusal :=
  run (fun m =>
    if m.dev.pwr.porst || m.dev.bootOnly then m
    else
      let m := m.mod (fun d => d.raise 2 Src.MONITOR 0x0002 0xFFFF 0)
      let m := (m.abortRunning).portsDown PS.DISABLED
      m.mod (fun d =>
        let d := { d with pwr := { d.pwr with change := none } }.wf Reg.PWR_STAT Fld.PWR_STAT.TRANS 0
        d.enterBootOnly)) s

/-! ### Temperature (R356, R592) -/

/-- The fabric's checks: the throttle above 105 °C, and the F2 above 110 °C for 1 ms. -/
def Dev.fabThermal (d : Dev) (t : Int) : Dev :=
  let d := if decide (t > 105) && !d.pwr.fabThrottle then
      let d := (d.raise 1 Src.MONITOR 0x0003 0xFFFF (wrap 64 t)).cnt (Reg.PWR_CNT_k 2) 1
      { d with pwr := { d.pwr with
        fabThrottle := true
        fabCool := 0 } }.applyCap
    else if !d.pwr.fabThrottle then d
    else
      let n := if t ≤ 100 then d.pwr.fabCool + 1 else 0
      if n < 100 then { d with pwr := { d.pwr with fabCool := n } }
      else
        { d with pwr := { d.pwr with
          fabThrottle := false
          fabCool := 0 } }.applyCap
  let n := if t > 110 then d.pwr.fabHot + 1 else 0
  let d := { d with pwr := { d.pwr with fabHot := n } }
  if n = 2 then d.raise 2 Src.MONITOR 0x0004 0xFFFF (wrap 64 t) else d

/-- One stack's checks: the HBM limit above 95 °C until it has been at or below 90 °C for 100 checks, and the F2 above
105 °C. -/
def Dev.hbmThermal (d : Dev) (i : Nat) (t : Int) : Dev :=
  let d := match AMap.find d.pwr.hbmHot i with
    | none =>
      if t > 95 then
        let d := (d.raise 1 Src.MONITOR 0x0005 i (wrap 64 t)).cnt (Reg.PWR_CNT_k 2) (b2n d.pwr.hbmHot.isEmpty)
        { d with pwr := { d.pwr with hbmHot := AMap.set d.pwr.hbmHot i 0 } }
      else d
    | some n =>
      let n := if t ≤ 90 then n + 1 else 0
      { d with pwr := { d.pwr with hbmHot := if n ≥ 100 then AMap.erase d.pwr.hbmHot i else AMap.set d.pwr.hbmHot i n } }
  if t > 105 then
    if d.pwr.hbmOver.contains i then d
    else { d.raise 2 Src.MONITOR 0x0006 i (wrap 64 t) with pwr := { d.pwr with hbmOver := d.pwr.hbmOver ++ [i] } }
  else { d with pwr := { d.pwr with hbmOver := d.pwr.hbmOver.filter (· != i) } }

/-- THERMAL_CHECK (R592): every 1 ms. -/
def execThermalCheck (fab : Int) (hbm : List Int) (s : State) : Host.Outcome State Fault Refusal :=
  runDev (fun _ d =>
    if d.pwr.porst then d
    else
      let hottest := hbm.foldl (fun (a : Option Int) t => some (match a with
        | some x => max x t
        | none => t)) none
      let d := d.wf Reg.PWR_THERM Fld.PWR_THERM.FAB_MAX (wrap 8 fab)
      let d := match hottest with
        | some t => (d.wf Reg.PWR_THERM Fld.PWR_THERM.HBM_MAX (wrap 8 t)).wf Reg.HBM_STAT Fld.HBM_STAT.HOT (hotBits hbm)
        | none => d
      let d := d.fabThermal fab
      let was := d.pwr.hbmHot.isEmpty
      let d := ((List.range 4).zip hbm).foldl (fun (d : Dev) p => d.hbmThermal p.1 p.2) d
      if was == d.pwr.hbmHot.isEmpty then d
      else
        let lim := (capRow d.capEff false).2.2
        d.wf Reg.PWR_STAT Fld.PWR_STAT.HBM_LIM
          (if d.bootOnly then 3 else if d.pwr.hbmHot.isEmpty then lim else max 2 lim)) s

/-- THERMTRIP (R592): above 120 °C, in hardware: THERMTRIP_N and SAFE_REQ_N low, and the fabric halted. -/
def execThermtrip (s : State) : Host.Outcome State Fault Refusal :=
  runDev (fun _ d => if d.pwr.porst then d else { d with pwr := { d.pwr with tripped := true } }) s

end Sys2Proof.Machine
end

