-- ==== Sys2Proof/Machine/RouteCmd.lean ====
section
/-!
DEFINITION. The route commands of the command interface (R197 to R202, R292, R491, R531, R599).
-/
namespace Sys2Proof.Machine

/-- A route handle that a loop's binding names. -/
def Dev.boundTo (d : Dev) (h : Nat) : Option Nat :=
  (List.range 16).find? (fun n => (d.loop n).binding.any (fun b => b.handle == h))
/-- A loop on whose step's end a bind of the handle waits. -/
def Dev.pendingTo (d : Dev) (h : Nat) : Option Nat :=
  (List.range 16).find? (fun n => (d.loop n).deferred.any (fun x => match x with
    | .bind _ b => b.handle == h
    | _ => false))

/-! ### Load and unload -/

/-- ROUTE_LOAD (R197, R198, R531): a failing reply carries handle 0xFF and SCH_RT_VERR (R564). -/
def execRouteLoad (tag : BitVec 16) (s : State) : Host.Outcome State Fault Refusal :=
  run (fun m => m.cmd 0x0401 tag.toNat (fun m p =>
    let failing := fun (m : Mach) (st verr : Nat) => m.answer p st (leBytes 1 0xFF ++ leBytes 3 0 ++ leBytes 4 verr)
    let a := pay64 p.payload 0
    match (List.range 64).find? (fun h => (AMap.find m.dev.routes h).isNone) with
    | none => failing m ST.TABLE_FULL (m.dev.reg Reg.SCH_RT_VERR)
    | some h =>
      match validate m a with
      | .inl f =>
        let m := m.mod (fun d => d.setVerr f)
        failing m (if f.1 = 3 then ST.BAD_CHECK else ST.BAD_PARAM) (m.dev.reg Reg.SCH_RT_VERR)
      | .inr r =>
        let image := m.rdBytes a r.len
        let m := m.mod (fun d =>
          { d with routes := AMap.set d.routes h r }.modBoot (fun b => { b with measure := sha384 (b.measure ++ sha384 image) }))
        m.ok p (leBytes 1 h ++ leBytes 3 0 ++ leBytes 4 0))) s

/-- ROUTE_UNLOAD (R202). -/
def execRouteUnload (tag : BitVec 16) (s : State) : Host.Outcome State Fault Refusal :=
  run (fun m => m.cmd 0x0402 tag.toNat (fun m p =>
    let h := pay8 p.payload 0
    if h ≥ 64 then m.fail p ST.BAD_PARAM
    else if (AMap.find m.dev.routes h).isNone then m.fail p ST.NOT_FOUND
    else if (m.dev.boundTo h).isSome || (m.dev.pendingTo h).isSome then m.fail p ST.STATE
    else (m.mod (fun d => { d with routes := AMap.erase d.routes h })).ok p [])) s

/-! ### Bind and unbind -/

/-- The binding that a bind command's payload asks for (R199). -/
def Dev.askedBinding (d : Dev) (h : Nat) (r : Route) (p : List Byte) : Binding :=
  { handle := h
    route := r
    ridges := ((List.range 24).filter (fun i => bit (pay32 p 4) i && d.ridgeOn i)).take r.nridges
    bases := (List.range 8).map (fun i => pay64 p (8 + 8 * i))
    pmap := (List.range 4).map (fun i => bits (pay8 p 3) (2 * i + 1) (2 * i))
    spec := pay8 p 2 == 1 }

/-- The package map breaks R199. -/
def Dev.pmapBad (d : Dev) (b : Binding) : Bool :=
  let ps := b.pmap.take b.route.npkg
  ps.any (fun k => decide (k ≥ d.grp)) || ps.eraseDups.length != ps.length || !ps.contains d.pkg

/-- The HBM ranges that the PLAIN fetches and the experts of a route read under base values (R136, R167, R200). -/
def Mach.fetchAreas (m : Mach) (b : Binding) : List Area :=
  let r := b.route
  let base := fun (i : Nat) => b.bases.getD i 0
  let plain := (routeLists m r).flatMap (fun l => if !isTileList l.1 then [] else
    l.2.filterMap (fun e => if Ent.kind e.2 = K.WFETCH && Wf.mode e.2 = 0 then
      some (base (Wf.base e.2) + Wf.offset e.2, 64 * Wf.len e.2) else none))
  let table := fun (t : TabRec) (chunk rows : Nat) =>
    let h := m.rdBytes t.addr 16
    (List.range (field h 0 2)).map (fun i =>
      (base (field h 2 1) + m.rdNat (t.addr + 16 + 8 * i) 8 + chunk * field h 8 8, 64 * rows))
  let chunks := (routeLists m r).flatMap (fun l => if !isTileList l.1 then [] else
    l.2.flatMap (fun e => if Ent.kind e.2 = K.WFETCH && Wf.mode e.2 > 0 then
      (match r.tabs[Wf.xtab e.2]? with
       | some t => if t.kind = 5 then table t (Wf.chunk e.2) (Wf.xlen e.2) else []
       | none => []) else []))
  let experts := chunks ++ (r.tabs.filter (fun t => t.kind == 5)).flatMap (fun t => table t 0 1)
  plain ++ experts

/-- The QUEUE checks of R599 that a bind makes: where the first one fails. -/
def Mach.bindQueueBad (m : Mach) (b : Binding) (own : Nat) : Option (Nat × Nat) :=
  let r := b.route
  if r.npkg ≤ 1 then none
  else match queueProducersBad r own with
    | some lt => some (lt, 0)
    | none => firstEntry (routeLists m r) (fun l _ e => sendBad r own l e)

/-- The binding's spur section overlaps that of another loop's binding in some tile (R200). -/
def Dev.spurOverlap (d : Dev) (n : Nat) (b : Binding) : Bool :=
  (List.range 16).any (fun k => k != n && (d.loop k).binding.any (fun o =>
    b.usedTiles.any (fun t => o.usedTiles.contains t)
      && decide (0 < b.route.spurLen) && decide (0 < o.route.spurLen)
      && decide (b.route.spurBase < o.route.spurBase + o.route.spurLen)
      && decide (o.route.spurBase < b.route.spurBase + b.route.spurLen)))

/-- Another bound route gives one of the resources another RANK (R292): the same semaphore, or the same Col credit pool once
each bind has translated it (R329). -/
def Dev.rankClash (d : Dev) (n : Nat) (b : Binding) : Bool :=
  (List.range 16).any (fun k => k != n && (d.loop k).binding.any (fun o =>
    o.route.res.any (fun x => b.route.res.any (fun y => d.poolKey o x == d.poolKey b y && x.rank != y.rank))))

/-- A safety route asks for a ridge mask that holds a tile whose SAF_TILE_OK bit is clear (R491). -/
def Dev.unsafeTile (d : Dev) (b : Binding) (mask : Nat) : Bool :=
  b.route.safety && (List.range 96).any (fun t =>
    bit mask (t / 4) && d.ridgeOn (t / 4) && !bit (d.reg (Reg.SAF_TILE_OK_k (t / 32))) (t % 32))

/-- The binding would hold a tile with no physical array in service (R115; the status is DEDUCED, log 57). -/
def Dev.deadTile (d : Dev) (b : Binding) : Bool :=
  (List.range 96).any (fun t => b.holdsTile t && (d.inService t).isEmpty)

/-- ROUTE_BIND (R199 to R201). -/
def execRouteBind (tag : BitVec 16) (s : State) : Host.Outcome State Fault Refusal :=
  run (fun m => m.cmd 0x0403 tag.toNat (fun m p =>
    let h := pay8 p.payload 0
    let n := pay8 p.payload 1
    if h ≥ 64 || n ≥ 16 || pay8 p.payload 2 > 1 then m.fail p ST.BAD_PARAM
    else match AMap.find m.dev.routes h with
      | none => m.fail p ST.NOT_FOUND
      | some r =>
        let b := m.dev.askedBinding h r p.payload
        if b.ridges.length < r.nridges || m.dev.pmapBad b then m.fail p ST.BAD_PARAM
        else if (m.fetchAreas b).any (fun a => !inHbm a || anyArea a m.dev.tarinadyAreas) then m.fail p ST.BAD_PARAM
        else match m.bindQueueBad b (b.own m.dev.pkg) with
          | some f => (m.mod (fun d => d.setVerr (7, f))).fail p ST.BAD_PARAM
          | none =>
            let other := fun (k : Option Nat) => k.any (· != n)
            if m.dev.spurOverlap n b || other (m.dev.boundTo h) || other (m.dev.pendingTo h) || m.dev.rankClash n b
                || m.dev.unsafeTile b (pay32 p.payload 4) || m.dev.deadTile b then m.fail p ST.STATE
            else
              let l := m.dev.loop n
              if l.step.isSome || !l.deferred.isEmpty then
                (m.mod (fun d => d.modLoop n (fun l => { l with deferred := l.deferred ++ [.bind p.tag b] }))).answer p
                  ST.DEFERRED []
              else (m.bindNow n b).ok p [])) s

/-- A pre-empted step is discarded: it counts ABORTS, and what waits for its end applies (R563). -/
def Mach.discardStep (m : Mach) (n : Nat) : Mach := m.abortStep n

/-- ROUTE_UNBIND (R563): a step running, saving or restoring, or a command that already waits, defers it; a pre-empted step
is discarded. -/
def execRouteUnbind (tag : BitVec 16) (s : State) : Host.Outcome State Fault Refusal :=
  run (fun m => m.cmd 0x0404 tag.toNat (fun m p =>
    let n := pay8 p.payload 0
    if n ≥ 16 then m.fail p ST.BAD_PARAM
    else
      let l := m.dev.loop n
      let bindWaits := l.deferred.any (fun x => match x with
        | .bind _ _ => true
        | _ => false)
      if l.binding.isNone && !bindWaits then m.fail p ST.STATE
      else if l.step.any (fun st => st.phase != .preempted) || !l.deferred.isEmpty then
        (m.mod (fun d => d.modLoop n (fun l => { l with deferred := l.deferred ++ [.unbind p.tag] }))).answer p ST.DEFERRED []
      else
        let m := if l.step.isSome then m.discardStep n else m
        (m.unbindNow n).ok p [])) s

end Sys2Proof.Machine
end

