-- ==== Sys2Proof/Machine/Regs.lean ====
section
/-!
DEFINITION. Register accesses (R10 to R15): what each register reads as, and what a write of a whole register does.

Registers that only show another part of the state are worked out when they are read; every other register reads as it
stands.
-/
namespace Sys2Proof.Machine

/-- The number of a repeated register: `cnt` of them, `stride` bytes apart from `base`. -/
def regIdx (a base stride cnt : Nat) : Option Nat :=
  if base ≤ a && (a - base) % stride == 0 && (a - base) / stride < cnt then some ((a - base) / stride) else none

/-- Bit `i` of a number set for each element of a list. -/
def bitSum (l : List Nat) : Nat := l.foldl (fun v i => setBits v i i 1) 0

/-! ### Tiles and ridges (R119, R156, R157) -/

/-- TILE_STAT.STATE. -/
def Dev.tileState (d : Dev) (t : Nat) : Nat :=
  let halted := (match d.list t with
    | some l => l.dbgHalt
    | none => false) || d.saf.halting.contains t
  if halted then 4
  else if ((d.tile t).faulted && d.tileBound t) || (d.inService t).isEmpty then 5
  else match d.tileLoop t with
    | some n => (match (d.loop n).step with
      | some st => if st.phase == .running then 2 else 3
      | none => 2)
    | none => if d.tileBound t then 1 else 0

/-- The logical array whose front parity and back state TILE_ARRn_STAT shows: of those that a physical array carries, the one
with an open pass, else the lowest (DESIGN CHOICE, log 41). -/
def Dev.shownArray (d : Dev) (t p : Nat) : Option Nat :=
  let ls := (List.range 4).filter (fun l => d.carrier t l == p)
  match ls.find? (fun l => (d.larr t l).pass.isSome) with
  | some l => some l
  | none => ls.head?

def Dev.readTile (d : Dev) (a : Nat) : Nat :=
  let t := (a - 0x010000000000) / 0x400000
  let v := d.reg a
  if a = Reg.TILE_STAT t then
    let x := setBits (setBits v 31 29 (d.tileState t)) 27 27 (b2n (d.tile t).spur.call.isSome)
    setBits x 19 0 (match d.list t with
      | some l => l.nextIdx
      | none => 0)
  else match regIdx a (Reg.TILE_ARRn_STAT t 0) 4 4 with
    | some p =>
      let r := match (d.parr t p).ramp with
        | .idle => 0
        | .up => 1
        | .active => 2
        | .down => 3
      let x := setBits v 15 14 r
      (match d.shownArray t p with
        | some l =>
          let la := d.larr t l
          setBits (setBits x 13 12 (if la.back.isSome then 2 else 0)) 11 11 (b2n la.parity)
        | none => x)
    | none => v

/-- RDG_STAT: the fences of the tiles, and the mesh links that the ridge has. -/
def Dev.readRidge (d : Dev) (a : Nat) : Nat :=
  let r := (a - 0x040000200000) / 0x10000
  if a = Reg.RDG_STAT r then
    let fences := bitSum ((List.range 4).filter (fun i => d.fenced (4 * r + i)))
    let links := 8 * b2n (decide (r ≥ 6)) + 4 * b2n (r % 6 != 5) + 2 * b2n (decide (r < 18)) + b2n (r % 6 != 0)
    setBits (setBits (d.reg a) 31 28 fences) 27 24 links
  else d.reg a

/-! ### The scheduler and the arbiters (R312, R599) -/

/-- SCH_LOOPn_STAT.STATE. -/
def Mach.loopState (m : Mach) (n : Nat) : Nat :=
  let l := m.dev.loop n
  match l.step with
  | some st => (match st.phase with
    | .running => 4
    | .saving => 5
    | .preempted => 6
    | .restoring => 7)
  | none =>
    if l.binding.isNone then 0
    else if !m.dev.loopEn n then 1
    else if m.waitCode n = 0 then 3 else 2

/-- SCH_RTh_STAT. -/
def Dev.routeStat (d : Dev) (h : Nat) : Nat :=
  match AMap.find d.routes h with
  | none => 0
  | some r =>
    let isBind := fun (x : Deferred) => match x with
      | .bind _ b => b.handle == h
      | _ => false
    let waits := (List.range 16).any (fun n => (d.loop n).deferred.any isBind)
    let own := (List.range 16).find? (fun n => match (d.loop n).binding with
      | some b => b.handle == h
      | none => false)
    let base := 2 ^ 31 + b2n waits * 2 ^ 28 + r.nridges * 2 ^ 19 + r.runAhead * 2 ^ 16
    match own with
    | none => base
    | some n =>
      let spec := match (d.loop n).binding with
        | some b => b.spec
        | none => false
      base + 2 ^ 30 + b2n spec * 2 ^ 29 + n * 2 ^ 24

/-- The resource that SCH_SEMA_QUERY names. -/
def Dev.queryKey (d : Dev) : Nat :=
  let n := d.rf Reg.SCH_SEMA_QUERY Fld.SCH_SEMA_QUERY.NUMBER
  if d.rfB Reg.SCH_SEMA_QUERY Fld.SCH_SEMA_QUERY.POOL then 1024 + n else n

/-- The rank that the bound routes give a resource; 0 when none declares it. -/
def Dev.resRank (d : Dev) (key : Nat) : Nat :=
  let recs := (List.range 16).flatMap (fun n => match (d.loop n).binding with
    | some b => b.route.res.map (fun r => (if r.kind = 0 then r.number else d.poolKey b r, r.rank))
    | none => [])
  match recs.find? (fun x => x.1 == key) with
  | some x => x.2
  | none => 0

/-- SCH_SEMA_OWNER. -/
def Dev.semaOwner (d : Dev) : Nat :=
  let key := d.queryKey
  let r := d.resOf key
  let loop := match r.holder with
    | some h => h.2
    | none => r.lastLoop.getD 0
  let steps := ((r.waiters.map (·.loop)).eraseDups).length
  b2n r.holder.isSome * 2 ^ 31 + (loop % 16) * 2 ^ 24 + min 255 steps * 2 ^ 16 + d.resRank key % 2 ^ 16

/-- ARB_STATa. -/
def Dev.arbStat (d : Dev) (a : Nat) : Nat :=
  let x := d.arb a
  let cls := match x.owner with
    | none => 0
    | some o => if o.promoted then 3 else (match d.arbClass a o with
      | .bulk => 0
      | .paced => 1
      | .safety => 2)
  b2n x.owner.isSome * 2 ^ 31 + cls * 2 ^ 29 + b2n (d.arbFrozen a) * 2 ^ 28 + min 255 x.waiting.length * 2 ^ 16
    + min 255 x.removed.length * 2 ^ 8 + (match x.owner with
      | some o => o.req % 256
      | none => 0)

/-- One byte of SCH_RIDGE_OWN_k. -/
def Dev.ridgeOwn (d : Dev) (r : Nat) : Nat :=
  let inside := (List.range 16).any (fun n =>
    d.loopClass n == 2 && ((d.loop n).guard || (d.loop n).window) && (d.bindRidges n).contains r)
  let guard := b2n inside * 64
  match d.ridgeLoop r with
  | some n => 128 + guard + n
  | none => guard

def Mach.readSch (m : Mach) (a : Nat) : Nat :=
  let d := m.dev
  let v := d.reg a
  let loaded := bitSum (d.routes.map (fun (p : Nat × Route) => p.1))
  if a = Reg.SCH_STAT then
    setBits v 15 0 (bitSum ((List.range 16).filter (fun n => (d.holding n).isSome)))
  else if a = Reg.SCH_RT_LOADED_LO then loaded % 2 ^ 32
  else if a = Reg.SCH_RT_LOADED_HI then loaded / 2 ^ 32 % 2 ^ 32
  else if a = Reg.SCH_COLPOOL_HELD then bitSum ((List.range 24).filter (fun i => (d.resOf (1024 + i)).holder.isSome))
  else if a = Reg.SCH_SEMA_OWNER then d.semaOwner
  else match regIdx a (Reg.SCH_RIDGE_OWN_k 0) 4 6 with
  | some k => (List.range 4).foldl (fun w i => w + d.ridgeOwn (4 * k + i) * 2 ^ (8 * i)) 0
  | none => match regIdx a (Reg.SCH_RTh_STAT 0) 4 64 with
  | some h => d.routeStat h
  | none => match regIdx a (Reg.SCH_RTh_ID 0) 4 64 with
  | some h => (match AMap.find d.routes h with
    | some r => r.id
    | none => 0)
  | none => match regIdx a (Reg.SCH_SEMA_HELD_k 0) 4 32 with
  | some k => bitSum ((List.range 32).filter (fun i => (d.resOf (32 * k + i)).holder.isSome))
  | none => match (List.range 16).find? (fun n => a == Reg.SCH_LOOPn_STAT n) with
  | some n =>
    let boosted := match (d.loop n).step with
      | some st => st.boosted
      | none => false
    setBits (setBits (setBits v 31 29 (m.loopState n)) 28 28 (b2n boosted)) 25 23 (m.waitCode n)
  | none => match (List.range 16).find? (fun n => a == Reg.SCH_LOOPn_ACCT_LO n) with
  | some n => (d.loop n).acct % 2 ^ 32
  | none => match (List.range 16).find? (fun n => a == Reg.SCH_LOOPn_ACCT_HI n) with
  | some n => (d.loop n).acct / 2 ^ 32 % 2 ^ 32
  | none => v

def Dev.readArb (d : Dev) (a : Nat) : Nat :=
  match regIdx a (Reg.ARB_STATa 0) 4 256 with
  | some x => if arbUsed x then d.arbStat x else 0
  | none => match regIdx a (Reg.ARB_DRAINED_k 0) 4 8 with
    | some k => bitSum ((List.range 32).filter (fun i => d.arbFrozen (32 * k + i) && (d.arb (32 * k + i)).owner.isNone))
    | none => d.reg a

/-! ### Tarn and ingest (R270, R443) -/

def Dev.readTrn (d : Dev) (a : Nat) : Nat :=
  let v := d.reg a
  if a = Reg.TRN_STAT then setBits v 12 0 d.tarn.openSlots.length
  else if a = Reg.TRN_FREE_NODES then 1048576 - d.tarn.nodeNext + d.tarn.nodeFree.length
  else if a = Reg.TRN_FREE_DESC then
    d.tarn.ns.foldl (fun n (p : Nat × NsRec) => n + (p.2.ndesc - (p.2.runs - p.2.freeRuns) * p.2.nl)) 0
  else if a = Reg.TRN_EDITQ then d.tarn.edits.length
  else match regIdx a (Reg.TRN_NSn_FREE 0) 4 16 with
    | some n => (match d.nsRec n with
      | some r => r.freeFrames
      | none => 0)
    | none => v

/-- The streams that are open, one that is closing included, by kind of R416. -/
def Dev.openKind (d : Dev) (k : Nat) : Nat := (d.streams.filter (fun (p : Nat × StreamSt) => Se.kind p.2.entry == k)).length

def Dev.streamStat (d : Dev) (n : Nat) : Nat :=
  match d.stream n with
  | none => 0
  | some s =>
    let idx := List.range s.bufs.length
    (if s.closing then 2 else 1) * 2 ^ 30 + (Se.kind s.entry % 4) * 2 ^ 28 + b2n (Se.ordered s.entry) * 2 ^ 27
      + bitSum (idx.filter (fun i => !(s.buf i).pins.isEmpty)) % 256 * 2 ^ 16
      + bitSum (idx.filter (fun i => (s.buf i).phase == .complete)) % 256 * 2 ^ 8 + (s.newest.getD 0) % 16

def Dev.readIng (d : Dev) (a : Nat) : Nat :=
  let v := d.reg a
  if a = Reg.ING_STAT then
    setBits (setBits (setBits v 22 16 d.streams.length) 12 8 (d.openKind 1)) 5 0 (d.openKind 0)
  else match regIdx a (Reg.ING_Sn_STAT 0) 4 64 with
    | some n => d.streamStat n
    | none => v

/-! ### Timebase, networks and the other blocks -/

def Dev.readTb (d : Dev) (a : Nat) : Nat :=
  let v := d.reg a
  if a = Reg.TB_STAT then setBits (setBits v 27 26 d.tbSource) 25 24 (if d.tbSource = 1 then d.slaveMac.getD 0 else 0)
  else if a = Reg.TB_NOW_LO then d.stamp % 2 ^ 32
  else if a = Reg.TB_NOW_HI then d.stamp / 2 ^ 32 % 2 ^ 32
  else if a = Reg.TB_NOW_EXT then (d.tb.sec / 2 ^ 34 % 2 ^ 14) * 2 ^ 18 + d.tb.frac / 2 ^ 24 % 2 ^ 16
  else v

def Dev.readEth (d : Dev) (a : Nat) : Nat :=
  match (List.range 4).find? (fun m => a == Reg.ETH_STAT m) with
  | some m => setBits (setBits (setBits (d.reg a) 31 31 (b2n (d.macUp m))) 29 29 (b2n (d.macBad m))) 27 27
      (b2n (d.mac m).pend.isSome)
  | none => d.reg a

/-- COL_GRP.PEER_UP (R338). -/
def Dev.readCol (d : Dev) (a : Nat) : Nat :=
  if a = Reg.COL_GRP then
    setBits (d.reg a) 23 20 (bitSum ((List.range 4).filter (fun k => k < d.grp && d.reachable k)))
  else d.reg a

def Mach.readSaf (m : Mach) (a : Nat) : Nat :=
  let d := m.dev
  if a = Reg.SAF_CFG_CRC then m.safCfgCrc
  else if a = Reg.SAF_RESET_CAUSE then
    setBits (d.reg a) 19 18 (min 3 (d.saf.f3s.filter (fun t => decide (d.nsNow ≤ t + 600000000000))).length)
  else match regIdx a (Reg.SAF_TILE_OK_k 0) 4 3 with
    | some k => (List.range 32).foldl (fun v i => if d.tileOn (32 * k + i) then v else setBits v i i 0) (d.reg a)
    | none => d.reg a

def Dev.readDbg (d : Dev) (a : Nat) : Nat :=
  match regIdx a (Reg.DBG_RT_HALTED_k 0) 4 3 with
  | some k => bitSum ((List.range 32).filter (fun i => match d.list (32 * k + i) with
    | some l => l.dbgHalt
    | none => false))
  | none => d.reg a

/-- The whole length of the packet at the head of the reply buffer. -/
def Dev.replyLen (d : Dev) : Nat := match d.sdio.replies with
  | r :: _ => r.length
  | [] => 0

def Dev.readSdio (d : Dev) (a : Nat) : Nat :=
  let v := d.reg a
  if a = Reg.SDIO_STAT then
    b2n (d.sdio.ior1 && d.sdio.ioe1) * 2 ^ 31 + b2n (d.boot.phase == .recovery) * 2 ^ 30
      + min 32 d.sdio.outstanding.length * 2 ^ 16 + d.sdio.deferred.length % 2 ^ 16
  else if a = Reg.SDIO_INT_STAT then
    setBits (setBits v 4 4 (d.rf Reg.SAF_STAT Fld.SAF_STAT.ALERT)) 0 0 (b2n (!d.sdio.replies.isEmpty))
  else if a = Reg.SDIO_CMD_SPACE then d.cmdSpace
  else if a = Reg.SDIO_REPLY_LEN then d.replyLen
  else v

/-- The coolant inlet temperature band (R591). -/
def inletBand (t : Nat) : Nat := if 15 ≤ t && t ≤ 45 then min ((t - 15) / 5) 5 else 15

def Dev.readPwr (d : Dev) (a : Nat) : Nat :=
  if a = Reg.PWR_INLET then setBits (d.reg a) 11 8 (inletBand (d.rf a Fld.PWR_INLET.INLET)) else d.reg a

/-- The value of a register as a read finds it. -/
def Mach.regValue (m : Mach) (a : Nat) : Nat :=
  let d := m.dev
  if a < regSpace then d.readTile a
  else if regSpace + 0x200000 ≤ a then d.readRidge a
  else match (a - regSpace) / 0x10000 with
    | 1 => d.readPwr a
    | 2 => m.readSch a
    | 3 => d.readArb a
    | 4 => d.readTrn a
    | 5 => d.readIng a
    | 6 => d.readTb a
    | 7 => d.readEth a
    | 9 => if a = Reg.CE_SLOT_CYC then d.slotCycles else d.reg a
    | 13 => d.readCol a
    | 14 => m.readSaf a
    | 16 => d.readDbg a
    | 17 => d.readSdio a
    | _ => d.reg a

/-! ### Reads (R10) -/

/-- The number by which the model keeps an agent's latched words. -/
def agentId : Agent → Nat
  | .summit => 0
  | .command => 1
  | .debug => 2
  | .spur t => 3 + t.val
  | .remote p => 99 + p.val

/-- The low words of the 64-bit quantities (R10, R15), by the first register of their headings. -/
def pairLows : List Nat :=
  [Reg.GEN_ND_TOTAL_LO, Reg.TILE_SPUR_EPC_LO 0, Reg.SCH_RT_LOADED_LO, Reg.TRN_HBM_BASE_LO, Reg.SCH_LOOPn_SAVE_LO 0,
   Reg.SCH_LOOPn_ACCT_LO 0, Reg.HBM_UE_ADDR_LO, Reg.CV_Un_VAL_LO 0, Reg.CV_Un_CNT_LO 0, Reg.TB_NOW_LO, Reg.TB_STEP_LO]
  ++ [Reg.TB_CMPn_LO 0, Reg.TB_EVTn_LO 0, Reg.ETH_ADDR_LO 0, Reg.ETH_QBV_BASE_LO 0, Reg.ING_SCREE_BASE_LO,
   Reg.ING_CACHE_BASE_LO, Reg.CE_BASE_LO, Reg.CE_FRAME_LO, Reg.CE_JOFF_LO, Reg.CE_TR_STAMP_LO]

/-- The register is the low word of a 64-bit quantity. -/
def isPairLow (a : Nat) : Bool := match regDesc a with
  | some r => pairLows.contains r.base
  | none => false
/-- The register is the high word of a 64-bit quantity. -/
def isPairHigh (a : Nat) : Bool := 4 ≤ a && isPairLow (a - 4)

/-- A register with a field that a write sets. -/
def isWritable (a : Nat) : Bool := match regDesc a with
  | some r => r.fields.any (fun f => f.acc == .RW || f.acc == .RWL || f.acc == .RWS)
  | none => false

/-- A read of a register by an agent: a low word latches the words that belong with it, and the next read of those takes
the latched value.  A read of TB_EVTn_LO marks the stamp as read (R397). -/
def Mach.regRead (m : Mach) (who : Nat) (a : Nat) : Mach × Nat :=
  let key := fun (b : Nat) => who * 2 ^ 48 + b
  match AMap.find m.dev.latch (key a) with
  | some w =>
    (if a = Reg.TB_NOW_HI || a = Reg.TB_NOW_EXT then m
     else m.mod (fun d => { d with latch := AMap.erase d.latch (key a) }), w.toNat)
  | none =>
    let v := m.regValue a
    let highs := if a = Reg.TB_NOW_LO then [a + 4, a + 8] else if isPairLow a then [a + 4] else []
    let m1 := highs.foldl (fun (x : Mach) (h : Nat) =>
      let w := BitVec.ofNat 32 (m.regValue h)
      x.mod (fun d => { d with latch := AMap.set d.latch (key h) w })) m
    let m1 := match regIdx a (Reg.TB_EVTn_LO 0) 8 4 with
      | some n => m1.mod (fun d => { d with sync := { d.sync with evtUnread := setBits d.sync.evtUnread n n 0 } })
      | none => m1
    (m1, v)

/-! ### Locks (R13) -/

/-- A loop whose save-area fields are locked. -/
def Dev.loopLocked (d : Dev) (n : Nat) : Bool := (d.loop n).step.isSome

/-- For a register with RWL fields: whether its block is active, and where its sticky CFG_LOCKED_WRITE stands. -/
def Dev.lockAt (d : Dev) (a : Nat) : Option (Bool × Nat × Fd) :=
  if a < regSpace then none
  else match (a - regSpace) / 0x10000 with
    | 2 =>
      (match (List.range 16).find? (fun n => [Reg.SCH_LOOPn_SAVE_LO n, Reg.SCH_LOOPn_SAVE_HI n, Reg.SCH_LOOPn_SAVE_SIZE n].contains a) with
      | some n => some (d.loopLocked n, Reg.SCH_STAT, Fld.SCH_STAT.CFG_LOCKED_WRITE)
      | none => none)
    | 4 => some (!d.tarn.openSlots.isEmpty, Reg.TRN_STAT, Fld.TRN_STAT.CFG_LOCKED_WRITE)
    | 5 =>
      (match regIdx a (Reg.ING_CSIp_CTRL 0) 4 16 with
      | some p => some (d.streams.any (fun (x : Nat × StreamSt) => Se.kind x.2.entry == 0 && Se.port x.2.entry == p),
          Reg.ING_STAT, Fld.ING_STAT.CFG_LOCKED_WRITE)
      | none => some (!d.streams.isEmpty, Reg.ING_STAT, Fld.ING_STAT.CFG_LOCKED_WRITE))
    | 7 =>
      let k := (a - Reg.ETH_CTRL 0) / 0x4000
      some (d.rfB (Reg.ETH_CTRL k) Fld.ETH_CTRL.EN, Reg.ETH_STAT k, Fld.ETH_STAT.CFG_LOCKED_WRITE)
    | 8 =>
      (match (List.range 4).find? (fun n => decide (Reg.CAN_CTRL n ≤ a) && decide (a < Reg.CAN_CTRL (n + 1))) with
      | some n => some (d.rfB (Reg.CAN_CTRL n) Fld.CAN_CTRL.EN, Reg.CAN_STAT n, Fld.CAN_STAT.CFG_LOCKED_WRITE)
      | none => none)
    | 9 =>
      let trace := decide (Reg.CE_TR_CTRL ≤ a)
      some (if trace then d.traceState == 1 || d.traceState == 2 else d.ceRun, Reg.CE_STAT, Fld.CE_STAT.CFG_LOCKED_WRITE)
    | 12 => some (d.flState != FL.OFF, Reg.FL_STAT, Fld.FL_STAT.CFG_LOCKED_WRITE)
    | 14 => some (d.rfB Reg.SAF_CTRL Fld.SAF_CTRL.CAIRN_EN
        || (List.range 16).any (fun n => d.loopClass n == 2 && d.loopEn n), Reg.SAF_STAT, Fld.SAF_STAT.CFG_LOCKED_WRITE)
    | _ => none

/-! ### Writes (R11, R12) -/

/-- A field after a write of `v` to its register: in place, by its access code. -/
def fieldNext (f : FieldDesc) (old v : Nat) (locked : Bool) : Nat :=
  let o := bits old f.hi f.lo
  let n := bits v f.hi f.lo
  let w := f.hi + 1 - f.lo
  (match f.acc with
    | .RO => o
    | .RW => n
    | .RWS => n
    | .RWL => if locked then o else n
    | .W1C => Nat.land o (2 ^ w - 1 - n)
    | .WO => 0) * 2 ^ f.lo

/-- A register after a write, its reserved bits zero. -/
def regNext (r : RegDesc) (old v : Nat) (locked : Bool) : Nat :=
  r.fields.foldl (fun w f => w + fieldNext f old v locked) 0

def regHasLock (r : RegDesc) : Bool := r.fields.any (fun f => f.acc == .RWL)

/-- A field of a value replaced by that of another. -/
def keepField (f : Fd) (old new : Nat) : Nat := setBits new f.hi f.lo (bits old f.hi f.lo)

/-- CFG_LOCKED_WRITE set where a lock says. -/
def Dev.flagLock (d : Dev) (l : Option (Bool × Nat × Fd)) : Dev :=
  match l with
  | some (_, a, f) => d.wf a f 1
  | none => d

/-- A plain write of a register: each field by its access code, but those of `keep`; with the lock that was hit. -/
def Dev.plainWrite (d : Dev) (a v : Nat) (keep : List Fd) : Dev × Bool :=
  match regDesc a with
  | none => (d, false)
  | some r =>
    let lock := d.lockAt a
    let locked := match lock with
      | some (on, _) => on
      | none => false
    let old := d.reg a
    let new := keep.foldl (fun x f => keepField f old x) (regNext r old v locked)
    let hit := locked && regHasLock r
    let d := d.setReg a new
    (if hit then d.flagLock lock else d, hit)

/-- A plain write of a register of a block with RWL fields that a field outside the lock's rule may still change: the
lock applies, but not to the fields of `free`. -/
def Dev.writeFree (d : Dev) (a v : Nat) (keep free : List Fd) : Dev × Bool :=
  let (d, hit) := d.plainWrite a v keep
  (free.foldl (fun (d : Dev) f => d.wf a f (bits v f.hi f.lo)) d, hit)

/-- The low word of a 64-bit quantity: held until the high word comes (R15); ignored while the block is active. -/
def Dev.writeLow (d : Dev) (a v : Nat) : Dev × Bool :=
  match regDesc a with
  | none => (d, false)
  | some r =>
    let lock := d.lockAt a
    if regHasLock r && (match lock with
      | some (on, _) => on
      | none => false) then (d.flagLock lock, true)
    else (d.holdLow a (regNext r 0 v false), false)

/-- The high word: the whole value applies; while the block is active both words are discarded (R15). -/
def Dev.writeHigh (d : Dev) (a v : Nat) : Dev × Bool :=
  match regDesc a with
  | none => (d, false)
  | some r =>
    let lock := d.lockAt a
    if regHasLock r && (match lock with
      | some (on, _) => on
      | none => false) then ((d.dropLow (a - 4)).flagLock lock, true)
    else (d.applyHigh (a - 4) (regNext r 0 v false), false)

/-- A write of a register whose RWS fields wait for a boundary. -/
def Dev.shadowWrite (d : Dev) (a v : Nat) : Dev :=
  match regDesc a with
  | none => d
  | some r => d.setShadow a (regNext r (d.reg a) v false)

/-- Counters cleared when bit `i` of the value written is 1. -/
def Dev.clearIf (d : Dev) (v i : Nat) (as : List Nat) : Dev := if bit v i then d.clearRegs as else d

/-! ### Writes, block by block -/

def Dev.writeGen (d : Dev) (a v : Nat) : Dev :=
  if a = Reg.GEN_PACE_CTRL then (if bit v 28 then d.clrPeak else d)
  else if a = Reg.GEN_ND_CTRL then d.clearIf v 0 ndCounters
  else (d.plainWrite a v []).1

def Dev.writeTile (d : Dev) (a v : Nat) : Dev :=
  let t := (a - 0x010000000000) / 0x400000
  if a = Reg.TILE_ARR_CTRL t then ((d.clearIf v 31 (arrCounters t)).shadowWrite a v)
  else if a = Reg.TILE_MEM_CTRL t then d.clearIf v 31 (memCounters t)
  else if a = Reg.TILE_SPEC_CTRL t then d.clearIf v 31 (specCounters t)
  else if a = Reg.TILE_CONV_CTRL t then d.clearIf v 31 (convCounters t)
  else (d.plainWrite a v []).1

def Dev.writeRidge (d : Dev) (a v : Nat) : Dev :=
  let r := (a - 0x040000200000) / 0x10000
  if a = Reg.RDG_CTRL r then d.clearIf v 31 (rdgCounters r) else (d.plainWrite a v []).1

def Dev.writePwr (d : Dev) (a v : Nat) : Dev :=
  if a = Reg.PWR_CTRL then
    let d := if bit v 31 then d.pwrCntClr else d
    (d.wf a Fld.PWR_CTRL.GOV_MAX (bits v 21 16)).capWrite (bits v 29 28) (bit v 30)
  else (d.plainWrite a v []).1

/-- SCH_LOOPn_CFG: EN at once, the other fields at the loop's next step start while it has a step; CLASS 0b11 leaves CLASS
unchanged (R312). -/
def Dev.writeLoopCfg (d : Dev) (n a v : Nat) : Dev :=
  let v := if bits v 31 30 = 3 then keepField Fld.SCH_LOOPn_CFG.CLASS (d.reg a) v else v
  (if (d.loop n).step.isSome then d.shadowWrite a v else ((d.plainWrite a v []).1.applyShadow a)).retime d n

def Dev.writeSch (d : Dev) (a v : Nat) : Dev × Bool :=
  if a = Reg.SCH_CTRL then ((d.clearIf v 31 schCounters).schEnWrite (bit v 0), false)
  else match (List.range 16).find? (fun n => a == Reg.SCH_LOOPn_CFG n) with
  | some n => (d.writeLoopCfg n a v, false)
  | none => match (List.range 16).find? (fun n => [Reg.SCH_LOOPn_PERIOD n, Reg.SCH_LOOPn_PHASE n, Reg.SCH_LOOPn_WIN n].contains a) with
  | some n => ((if (d.loop n).step.isSome then d.shadowWrite a v else ((d.plainWrite a v []).1.applyShadow a)).retime d n,
      false)
  | none => d.plainWrite a v []

def Mach.writeTrn (m : Mach) (a v : Nat) : Mach × Bool :=
  if a = Reg.TRN_CTRL then
    ((m.mod (fun d => d.clearIf v 31 trnCounters)).trnEnWrite (bit v 0), !m.dev.tarn.openSlots.isEmpty)
  else
    let (d, hit) := m.dev.plainWrite a v []
    ({ m with dev := d }, hit)

def Dev.writeTb (d : Dev) (a v : Nat) : Dev :=
  if a = Reg.TB_CTRL then
    let d := (d.plainWrite a v []).1
    let d := d.clearIf v 30 tbCounters
    if bit v 31 then d.restep else d
  else (d.plainWrite a v []).1

/-- A write to the admin gate list or its parameters: ignored while a change is pending (R402). -/
def Dev.qbvLocked (d : Dev) (k : Nat) : Bool := (d.mac k).pend.isSome

def Dev.writeEth (d : Dev) (a v : Nat) : Dev × Bool :=
  let k := (a - Reg.ETH_CTRL 0) / 0x4000
  let flag := fun (d : Dev) => d.wf (Reg.ETH_STAT k) Fld.ETH_STAT.CFG_LOCKED_WRITE 1
  if a = Reg.ETH_CTRL k then
    let (d, hit) := d.writeFree a v [Fld.ETH_CTRL.PTP_ROLE] [Fld.ETH_CTRL.EN]
    ((d.clearIf v 31 (ethCounters k)).ptpRoleWrite k (bits v 26 25), hit)
  else if a = Reg.ETH_QBV_CTRL k then
    let d := if d.qbvLocked k then flag (d.plainWrite a v [Fld.ETH_QBV_CTRL.LEN]).1 else (d.plainWrite a v []).1
    (if bit v 31 then d.gclChange k else d, false)
  else if d.qbvLocked k && (a == Reg.ETH_QBV_CYCLE k || decide (Reg.ETH_GCL_i k 0 ≤ a)) then (flag d, false)
  else d.plainWrite a v []

def Dev.writeCan (d : Dev) (a v : Nat) : Dev × Bool :=
  match (List.range 4).find? (fun n => a == Reg.CAN_CTRL n) with
  | some n =>
    let (d, hit) := d.writeFree a v [] [Fld.CAN_CTRL.EN]
    let d := d.clearIf v 31 (canCounters n)
    (if bit v 25 then d.canRecover n else d, hit)
  | none => d.plainWrite a v []

def Mach.writeCe (m : Mach) (a v : Nat) : Mach × Bool :=
  let dev := fun (x : Dev) => ({ m with dev := x } : Mach)
  if a = Reg.CE_CTRL then
    let m := m.mod (fun d => d.clearIf v 31 ceCounters)
    let m := if bit v 0 then m.ceEnable.1 else m.ceDisable
    (if bit v 30 then (m.swapRequest none).1 else m, false)
  else if a = Reg.CE_TR_CTRL then
    let (d, hit) := m.dev.plainWrite a v [Fld.CE_TR_CTRL.ARM]
    let d := d.ceArm (bit v 31)
    (dev (if bit v 30 then d.ceForce else d), hit)
  else match regIdx a (Reg.CE_POSTn_CFG 0) 4 16 with
  | some _ => (dev (m.dev.shadowWrite a v), false)
  | none => match regIdx a (Reg.CE_CHn_MODE 0) 4 256 with
  | some c => (dev (m.dev.ceModeWrite c (bits v 31 30)), false)
  | none => match regIdx a (Reg.CE_CHn_MAN 0) 4 256 with
  | some c => (dev (m.dev.ceManWrite c v), false)
  | none =>
    let (d, hit) := m.dev.plainWrite a v []
    (dev d, hit)

/-- CV_Un_SEL: SEL is context and changes only while the unit is claimed; then CLAIM and START (R378, R380). -/
def Dev.writeCvSel (d : Dev) (u a v : Nat) : Dev :=
  let was := d.reg a
  let sel := Fld.CV_Un_SEL.SEL
  let open_ := d.cvClaimed u
  let d := (d.plainWrite a v [sel, Fld.CV_Un_SEL.CLAIM]).1
  let d := if open_ then d.wf a sel (bits v 1 0) else if bits v 1 0 = bits was 1 0 then d else d.cvLocked u
  let d := if bit v 31 != bit was 31 then d.cvClaimWrite u (bit v 31) else d
  if bit v 28 then d.cvStart u else d

/-- The unit of a CV register, and its offset in the unit. -/
def cvUnit (a : Nat) : Option (Nat × Nat) :=
  (List.range 16).findSome? (fun u =>
    if Reg.CV_Un_SEL u ≤ a && a ≤ Reg.CV_Un_DATA u then some (u, a - Reg.CV_Un_SEL u) else none)

def Dev.writeCv (d : Dev) (a v : Nat) : Dev :=
  match cvUnit a with
  | none => (d.plainWrite a v []).1
  | some (u, o) =>
    if o = 0 then d.writeCvSel u a v
    else if a = Reg.CV_Un_VAL_LO u || a = Reg.CV_Un_CNT_LO u then (if d.cvClaimed u then d.holdLow a v else d.cvLocked u)
    else if a = Reg.CV_Un_VAL_HI u then d.cvValHi u v
    else if a = Reg.CV_Un_CNT_HI u then d.cvHigh u (Reg.CV_Un_CNT_LO u) v
    else if a = Reg.CV_Un_DATA u then d.cvDataWrite u v
    else d

def Dev.writeFl (d : Dev) (a v : Nat) : Dev × Bool :=
  if a = Reg.FL_CTRL then ((d.clearIf v 31 flCounters).flEnWrite (bit v 0), false) else d.plainWrite a v []

def Mach.writeCol (m : Mach) (a v : Nat) : Mach :=
  match (List.range 6).find? (fun p => a == Reg.COL_Pp_CTRL p) with
  | some p =>
    let m := m.mod (fun d => (d.plainWrite a v [Fld.COL_Pp_CTRL.EN]).1)
    let m := if bit v 30 != m.dev.rfB a Fld.COL_Pp_CTRL.EN then m.portEnWrite p (bit v 30) else m
    if bit v 31 then m.retrain p else m
  | none => m.mod (fun d =>
    let d := (d.plainWrite a v []).1
    if a = Reg.COL_CTRL then d.clearIf v 31 colCounters else d)

def Dev.writeSaf (d : Dev) (a v : Nat) : Dev × Bool :=
  if a = Reg.SAF_CTRL then
    let was := d.rfB a Fld.SAF_CTRL.CAIRN_EN
    let d := (d.plainWrite a v []).1.clearIf v 31 ((List.range 12).map Reg.SAF_CNT_k)
    (if bit v 30 && !was then (List.range 16).foldl (fun (d : Dev) n =>
      if (d.loop n).winCount = 0 then d else d.modLoop n (fun l => { l with winCount := 0 })) d else d, false)
  else d.plainWrite a v []

/-- The DBG block ignores writes while the port is closed (R544). -/
def Dev.writeDbg (d : Dev) (a v : Nat) : Dev :=
  if !d.dbgOpen then d
  else
    let d := (d.plainWrite a v []).1
    if a = Reg.DBG_RT_CTRL then
      let d := if bit v 28 then d.dbgHaltTile else d
      let d := if bit v 29 then d.dbgStepTile else d
      if bit v 30 then d.dbgResume else d
    else d

def sdioCounters : List Nat := (List.range 8).map Reg.SDIO_CNT_k

/-- A write of a whole register, and whether it met a locked field (R12, R566).  A place of a register block that holds
no register ignores it. -/
def Mach.regWrite (m : Mach) (a v : Nat) : Mach × Bool :=
  let dev := fun (x : Dev) => (({ m with dev := x } : Mach), false)
  let devB := fun (x : Dev × Bool) => (({ m with dev := x.1 } : Mach), x.2)
  let d := m.dev
  let blk := (a - regSpace) / 0x10000
  if (regDesc a).isNone then (m, false)
  else if a < regSpace then dev (d.writeTile a v)
  else if regSpace + 0x200000 ≤ a then dev (d.writeRidge a v)
  else if blk = 10 then dev (d.writeCv a v)
  else if blk = 7 && d.qbvLocked ((a - Reg.ETH_CTRL 0) / 0x4000)
      && (List.range 4).any (fun k => a == Reg.ETH_QBV_BASE_LO k || a == Reg.ETH_QBV_BASE_HI k) then
    let k := (a - Reg.ETH_CTRL 0) / 0x4000
    dev ((d.dropLow (Reg.ETH_QBV_BASE_LO k)).wf (Reg.ETH_STAT k) Fld.ETH_STAT.CFG_LOCKED_WRITE 1)
  else if isPairLow a && isWritable a then devB (d.writeLow a v)
  else if isPairHigh a && isWritable a then
    let (d, hit) := d.writeHigh a v
    let d := match regIdx a (Reg.TB_CMPn_HI 0) 16 8 with
      | some n => d.cmpRearm n
      | none => d
    devB (d, hit)
  else match blk with
    | 0 => dev (d.writeGen a v)
    | 1 => dev (d.writePwr a v)
    | 2 => devB (d.writeSch a v)
    | 3 => dev ((d.plainWrite a v []).1.clearIf (if a = Reg.ARB_CTRL then v else 0) 31 arbCounters).promoteAll
    | 4 => m.writeTrn a v
    | 5 => devB ((((d.plainWrite a v []).1.clearIf (if a = Reg.ING_CTRL then v else 0) 31 ingCounters)), (d.plainWrite a v []).2)
    | 6 => dev (d.writeTb a v)
    | 7 => devB (d.writeEth a v)
    | 8 => devB (d.writeCan a v)
    | 9 => m.writeCe a v
    | 11 => dev ((d.plainWrite a v []).1.clearIf (if a = Reg.HBM_CTRL then v else 0) 31 hbmCounters)
    | 12 => devB (d.writeFl a v)
    | 13 => (m.writeCol a v, false)
    | 14 => devB (d.writeSaf a v)
    | 16 => dev (d.writeDbg a v)
    | 17 => dev ((d.plainWrite a v []).1.clearIf (if a = Reg.SDIO_CTRL then v else 0) 31 sdioCounters)
    | _ => dev (d.plainWrite a v []).1

end Sys2Proof.Machine
end

