-- ==== Sys2Proof/Machine/Access.lean ====
section
/-!
DEFINITION. Accesses to the map by every agent (R38 to R43, R135, R155, R451): unmapped places, registers, the READ and
WRITE messages of a peer (R339), the debug port (R544), and the register and memory command packets (R565 to R570).
-/
namespace Sys2Proof.Machine

/-! ### Unmapped places (R3, R42) -/

/-- An agent as the ACCESS faults number it (R597). -/
def agentUnit : Agent → Nat
  | .summit => 0xFFFF
  | .debug => 0xFFFF
  | .command => 187
  | .spur t => t.val
  | .remote p => 189 + p.val

/-- An access of an agent other than the command interface to an unmapped place: it reads zero, and logs one F0. -/
def Dev.unmapped (d : Dev) (who : Agent) (addr54 : Nat) (write : Bool) : Dev :=
  { d.raise 0 Src.ACCESS (if write then 0x0002 else 0x0001) (agentUnit who) (addr54 % 2 ^ 54) with
    readData := if write then d.readData else 0
    readFlag := if write then d.readFlag else false }

/-- The package-local part of an address, or none when bits 51:48 are not zero (R38). -/
def localOf (addr54 : Nat) : Option Nat := if bits addr54 51 48 = 0 then some (addr54 % 2 ^ 48) else none

/-- The agents that reach an address: a spur core only its own tile's window (R43). -/
def reaches (who : Agent) (a : Nat) : Bool :=
  match who with
  | .spur t => decide (tileBase t.val ≤ a) && decide (a < tileBase t.val + 0x400000)
  | _ => true

/-- A class as ARB_STATa.OWNER_CLASS encodes it (R330). -/
def classCode : LoopClass → Nat
  | .bulk => 0
  | .paced => 1
  | .safety => 2

/-- UNMAPPED_READ (R3, R42): an address of another package goes there over Col. -/
def execUnmappedRead (who : Agent) (addr : BitVec 54) (form : AccessForm) (s : State) : Host.Outcome State Fault Refusal :=
  runDev (fun _ d =>
    let k := bits addr.toNat 53 52
    if who = .command then d
    else if k ≠ d.pkg then (if who = .summit && k < d.grp then
        d.remoteAccess k (classCode form.cls) (addr.toNat % 2 ^ 48) (2 ^ form.size.val) none else d)
    else if who = .debug && !d.dbgOpen then d
    else match localOf addr.toNat with
      | none => d.unmapped who addr.toNat false
      | some a => if d.region a == .unmapped && reaches who a then d.unmapped who addr.toNat false else d) s

/-- UNMAPPED_WRITE (R3, R42). -/
def execUnmappedWrite (who : Agent) (addr : BitVec 54) (data : DWord) (form : AccessForm) (s : State) :
    Host.Outcome State Fault Refusal :=
  runDev (fun _ d =>
    let k := bits addr.toNat 53 52
    if who = .command then d
    else if k ≠ d.pkg then
      (if who = .summit && k < d.grp then
        d.remoteAccess k (classCode form.cls) (addr.toNat % 2 ^ 48) (2 ^ form.size.val)
          (some (leBytes (2 ^ form.size.val) data.toNat))
       else d)
    else if who = .debug && !d.dbgOpen then d
    else match localOf addr.toNat with
      | none => d.unmapped who addr.toNat true
      | some a => if d.region a == .unmapped && reaches who a then d.unmapped who addr.toNat true else d) s

/-! ### Registers (R10 to R15) -/

/-- The SEC block. -/
def inSec (a : Nat) : Bool := decide (regSpace + 0xF0000 ≤ a) && decide (a < regSpace + 0x100000)

/-- An agent may reach the register at `a` (R43). -/
def Dev.mayReach (d : Dev) (who : Agent) (a : Nat) : Bool :=
  d.region a == .reg && a % 4 == 0 && reaches who a && !(who == .command && inSec a && d.lcs != 3)
    && !(who == .debug && !d.dbgOpen)

/-- REGISTER_WRITE (R12 to R15). -/
def execRegisterWrite (who : Agent) (addr : BitVec 48) (value : Word) (s : State) : Host.Outcome State Fault Refusal :=
  run (fun m => if m.dev.mayReach who addr.toNat then (m.regWrite addr.toNat value.toNat).1 else m) s

/-- REGISTER_READ (R10). -/
def execRegisterRead (who : Agent) (addr : BitVec 48) (s : State) : Host.Outcome State Fault Refusal :=
  run (fun m =>
    if !m.dev.mayReach who addr.toNat then m
    else
      let (m, v) := m.regRead (agentId who) addr.toNat
      if who = .command then m else m.mod (fun d => { d with readData := v, readFlag := false })) s

/-- The words from `a`, each read as one register access in ascending order. -/
def Mach.regWords (m : Mach) (who a : Nat) : Nat → Mach × List Nat
  | 0 => (m, [])
  | n + 1 =>
    let (m, v) := m.regRead who a
    let (m, vs) := Mach.regWords m who (a + 4) n
    (m, v :: vs)

/-- Words written from `a` in ascending order; whether one of them met a locked field. -/
def Mach.putWords (m : Mach) (a : Nat) : List Nat → Mach × Bool
  | [] => (m, false)
  | v :: vs =>
    let (m, l) := m.regWrite a v
    let (m, ls) := Mach.putWords m (a + 4) vs
    (m, l || ls)

/-! ### Memory, as every agent meets it -/

/-- The span of contiguous memory that an address lies in: first address and end. -/
def Dev.span (d : Dev) (a : Nat) : Option (Nat × Nat) :=
  match d.region a with
  | .hbm => some (0, hbmSize)
  | .tileAm t | .tileWm t | .tilePs t | .tileSpur t => some (tileBase t, tileBase t + 0x340000)
  | .tarn => some (tarnMem, tarnMem + 0x1000000)
  | .ingest => some (ingCache, ingCache + 0xC00000)
  | .summit => some (summitRam, summitRam + 0x200000)
  | .ce => if a < ceMem + 0x18C000 then some (ceMem, ceMem + 0x18C000) else some (ceMem + 0x1FC000, ceMem + 0x200000)
  | .reg | .unmapped => none

/-- `n` bytes at `a` lie in memory. -/
def Dev.inSpan (d : Dev) (a n : Nat) : Bool := match d.span a with
  | some (_, e) => decide (a + n ≤ e)
  | none => false

/-- The channel law state, whose layout is internal (R477): its bytes read as open values. -/
def lawArea : Area := (ceMem + 0x180000, 0x8000)

/-- Tarn memory beyond the sequence table (R231): the contents of each part are named and their layout is not, so what a
read finds there is open (log 79). -/
def tarnInner : Nat × Nat := (tarnMem + 0x40000, 0xFC0000)

/-- `n` bytes at `a` as an agent reads them. -/
def Mach.memBytes (m : Mach) (a n : Nat) : Mach × List Byte :=
  if areaMeets (a, n) lawArea then
    let (bs, d) := m.dev.freeBytes n
    ({ m with dev := d }, ((List.range n).zip bs).map (fun x =>
      if lawArea.1 ≤ a + x.1 && a + x.1 < lawArea.1 + lawArea.2 then x.2 else m.rd (a + x.1)))
  else if areaMeets (a, n) tarnInner then
    let (bs, d) := m.dev.freeBytes n
    ({ m with dev := d }, ((List.range n).zip bs).map (fun x =>
      if tarnInner.1 ≤ a + x.1 && a + x.1 < tarnInner.1 + tarnInner.2 then x.2 else m.rd (a + x.1)))
  else (m, m.rdBytes a n)

/-- A bound tile's weight memory, one tile after another, that a range meets (R135). -/
def Dev.boundWeights (d : Dev) (a n : Nat) : Option Nat :=
  match d.region a with
  | .tileAm t | .tileWm t | .tilePs t | .tileSpur t =>
    if d.tileBound t && areaMeets (a, n) (tileBase t + 0x200000, 0xC0000) then some t else none
  | _ => none

/-- F0 WM_WRITE. -/
def Dev.weightFault (d : Dev) (t a : Nat) : Dev := d.raise 0 Src.ACCESS 0x0003 t (max a (tileBase t + 0x200000))

/-- The banks of the control engine that no agent may write (R451). -/
def Dev.heldBanks (d : Dev) : List Area :=
  let area := fun (b : Nat) => ((bankBase b, 0x40000) : Area)
  if d.eng.swap.isSome then [area 0, area 1] else [area d.bank]

/-- The requester of memory accesses by the command interface and by the debug port (R306, R354). -/
def dmaReq : Nat := 187

/-- Bytes written by an agent other than the command interface: its status. -/
def Mach.agentWrite (m : Mach) (a : Nat) (bs : List Byte) (req : Nat) : Mach × Nat :=
  match m.dev.boundWeights a bs.length with
  | some t => (m.mod (fun d => d.weightFault t a), ST.LOCKED_WRITE)
  | none =>
    -- no agent but their engine writes Tarn memory (R231, R238) and the trace ring (R474)
    if m.dev.region a == .tarn || anyArea (a, bs.length) ((ceMem, 0x100000) :: m.dev.heldBanks) then (m, ST.LOCKED_WRITE)
    else match m.rmwCheck a bs.length req 16 with
      | (m, none) => ((m.store a bs).mod (fun d => d.dmaRows a bs.length req true), ST.OK)
      | (m, some _) => (m, ST.FAULT)

/-- Rows of activation memory at which an outside write of `n` bytes at `a` met a route read at the same instant (R79, R155,
R156): one event for each such row of a tile that a step holds. -/
def Dev.collide (d : Dev) (rows : List (Nat × Nat)) (a n : Nat) : Dev :=
  let hit := rows.eraseDups.filterMap (fun x => match d.tileLoop x.1 with
    | some k => if areaMeets (a, n) (amAddr x.1 x.2, 64) then some (x.1, k) else none
    | none => none)
  (hit.foldl (fun (d : Dev) x => d.cnt (Reg.TILE_COLLIDE x.1) 1) d).ndEvents (hit.map (fun x => ⟨2, x.2, x.1⟩))

/-! ### Accesses from a peer (R332, R339) -/

/-- A READ or WRITE that R331 and R332 allow. -/
def accessOk (a n : Nat) : Bool := decide (1 ≤ n) && decide (n ≤ 4096) && a / 4096 == (a + n - 1) / 4096

/-- The response on the port that the request came on (R333). -/
def Dev.respond (d : Dev) (p op : Nat) (msg : Msg) (status : Nat) (data : List Byte) : Dev :=
  d.colSend p VC.RESPONSE 16 (mkMsg op (msg.cls % 4) d.pkg (d.peerOf p) msg.tag data.length status msg.addr data)

/-- A peer's READ as a local Summit access: the status and the data. -/
def Mach.peerRead (m : Mach) (p : Fin 6) (a n : Nat) : Mach × Nat × List Byte :=
  match m.dev.region a with
  | .unmapped => (m.mod (fun d => d.unmapped (.remote p) (d.pkg * 2 ^ 52 + a) false), ST.OK, List.replicate n 0)
  | .reg =>
    if a % 4 ≠ 0 || n % 4 ≠ 0 then (m, ST.BAD_PARAM, [])
    else
      let (m, ws) := m.regWords (agentId (.remote p)) a (n / 4)
      (m, ST.OK, ws.flatMap (leBytes 4))
  | _ =>
    match m.eccRead a n (189 + p.val) 16 with
    | (m, some _) => (m, ST.FAULT, [])
    | (m, none) =>
      let (m, bs) := m.memBytes a n
      (m.mod (fun d => d.dmaRows a n (189 + p.val) false), ST.OK, bs)

/-- A peer's WRITE as a local Summit access: the status. -/
def Mach.peerWrite (m : Mach) (p : Fin 6) (a : Nat) (bs : List Byte) : Mach × Nat :=
  match m.dev.region a with
  | .unmapped => (m.mod (fun d => d.unmapped (.remote p) (d.pkg * 2 ^ 52 + a) true), ST.OK)
  | .reg =>
    if a % 4 ≠ 0 || bs.length % 4 ≠ 0 then (m, ST.BAD_PARAM)
    else
      let (m, locked) := m.putWords a ((List.range (bs.length / 4)).map (fun i => field bs (4 * i) 4))
      (m, if locked then ST.LOCKED_WRITE else ST.OK)
  | _ => m.agentWrite a bs (189 + p.val)

/-- COL_READ (R339). -/
def execColRead (p : Fin 6) (upsets : List Upset) (s : State) : Host.Outcome State Fault Refusal :=
  run (fun m =>
    let m := m.upsets upsets
    match m.dev.colMsg p.val VC.REQUEST with
    | (d, none) => { m with dev := d }
    | (d, some msg) =>
      if msg.op ≠ 0x01 then { m with dev := d }
      else
        let m : Mach := { m with dev := d.colTake p.val VC.REQUEST msg.size }
        let a := msg.addr % 2 ^ 48
        if !accessOk a msg.len then m.mod (fun d => d.respond p.val 0x10 msg ST.BAD_PARAM [])
        else
          let (m, st, bs) := m.peerRead p a msg.len
          m.mod (fun d => d.respond p.val 0x10 msg st bs)) s

/-- COL_WRITE (R339). -/
def execColWrite (p : Fin 6) (upsets : List Upset) (s : State) : Host.Outcome State Fault Refusal :=
  run (fun m =>
    let m := m.upsets upsets
    match m.dev.colMsg p.val VC.REQUEST with
    | (d, none) => { m with dev := d }
    | (d, some msg) =>
      if msg.op ≠ 0x02 then { m with dev := d }
      else
        let m : Mach := { m with dev := d.colTake p.val VC.REQUEST msg.size }
        let a := msg.addr % 2 ^ 48
        if !accessOk a msg.len then m.mod (fun d => d.respond p.val 0x11 msg ST.BAD_PARAM [])
        else
          let (m, st) := m.peerWrite p a msg.payload
          m.mod (fun d => d.respond p.val 0x11 msg st [])) s

/-! ### The debug port (R535, R544) -/

/-- What BUSACC reaches: the whole map under SCOPE MEMORY; in RETIRED only HBM and the registers. -/
def Dev.busReaches (d : Dev) (a : Nat) : Bool :=
  d.dbgOpen && bit (d.rf Reg.DBG_STAT Fld.DBG_STAT.SCOPE) 2
    && (d.lcs != 4 || d.region a == .hbm || d.region a == .reg)

/-- A 64-bit read: an uncorrectable row comes raw and flagged. -/
def Mach.busRead (m : Mach) (a : Nat) : Mach :=
  match m.dev.region a with
  | .unmapped => m.mod (fun d => d.unmapped .debug (d.pkg * 2 ^ 52 + a) false)
  | .reg =>
    let (m, ws) := m.regWords (agentId .debug) a 2
    m.mod (fun d => { d with readData := ws.getD 0 0 + 2 ^ 32 * ws.getD 1 0, readFlag := false })
  | _ =>
    let (m, bad) := m.eccRead a 8 dmaReq 16
    let (m, bs) := m.memBytes a 8
    m.mod (fun d => { d.dmaRows a 8 dmaReq false with readData := leNat bs, readFlag := bad.isSome })

/-- A 64-bit write; one that would have to read an uncorrectable row is discarded and flagged. -/
def Mach.busWrite (m : Mach) (a v : Nat) (collide : Bool) : Mach :=
  match m.dev.region a with
  | .unmapped => m.mod (fun d => d.unmapped .debug (d.pkg * 2 ^ 52 + a) true)
  | .reg => (m.putWords a [v % 2 ^ 32, v / 2 ^ 32]).1
  | r =>
    let (m, st) := m.agentWrite a (leBytes 8 v) dmaReq
    let m := m.mod (fun d => { d with readFlag := st == ST.FAULT })
    match r with
    | .tileAm t => if collide && st = ST.OK then m.mod (fun d => d.collide [(t, (a - tileBase t) / 64)] a 8) else m
    | _ => m

/-- BUSACC (R544): the low three bits of the address name no other data. -/
def execBusacc (addr : BitVec 48) (data : Option DWord) (collide : Bool) (upsets : List Upset) (s : State) :
    Host.Outcome State Fault Refusal :=
  run (fun m =>
    let m := m.upsets upsets
    let a := addr.toNat / 8 * 8
    if !m.dev.busReaches a then m
    else match data with
      | none => m.busRead a
      | some v => m.busWrite a v.toNat collide) s

/-! ### Register command packets (R565 to R567) -/

/-- The status that refuses a register range, if one does. -/
def Dev.regRange (d : Dev) (a n : Nat) : Option Nat :=
  let ws := (List.range n).map (fun i => a + 4 * i)
  if a ≥ 2 ^ 48 || a % 4 ≠ 0 || n = 0 || n > 1024 then some ST.BAD_PARAM
  else if ws.any (fun w => d.region w != .reg) then some ST.BAD_PARAM
  else if d.lcs ≠ 3 && ws.any inSec then some ST.AUTH_FAIL
  else none

/-- REG_READ (R565). -/
def execRegRead (tag : BitVec 16) (s : State) : Host.Outcome State Fault Refusal :=
  run (fun m => m.cmd 0x0201 tag.toNat (fun m p =>
    let a := pay64 p.payload 0
    let n := pay32 p.payload 8
    match m.dev.regRange a n with
    | some st => m.fail p st
    | none =>
      let (m, ws) := m.regWords (agentId .command) a n
      m.ok p (ws.flatMap (leBytes 4)))) s

/-- REG_WRITE (R566). -/
def execRegWrite (tag : BitVec 16) (s : State) : Host.Outcome State Fault Refusal :=
  run (fun m => m.cmd 0x0202 tag.toNat (fun m p =>
    let a := pay64 p.payload 0
    let n := pay32 p.payload 8
    match m.dev.regRange a n with
    | some st => m.fail p st
    | none =>
      let (m, locked) := m.putWords a ((List.range n).map (fun i => pay32 p.payload (12 + 4 * i)))
      if locked then m.fail p ST.LOCKED_WRITE else m.ok p [])) s

/-- The W1C bits of a register. -/
def w1cMask (a : Nat) : Nat := match regDesc a with
  | some r => (r.mask .W1C).toNat
  | none => 0

/-- REG_RMW (R567): a locked field refuses the whole write, whose reply then leaves every register as it was (R17). -/
def execRegRmw (tag : BitVec 16) (s : State) : Host.Outcome State Fault Refusal :=
  run (fun m => m.cmd 0x0203 tag.toNat (fun m p =>
    let a := pay64 p.payload 0
    let mask := pay32 p.payload 8
    let value := pay32 p.payload 12
    match m.dev.regRange a 1 with
    | some st => m.fail p st
    | none =>
      let (m1, old) := m.regRead (agentId .command) a
      let kept := Nat.land old (2 ^ 32 - 1 - Nat.lor mask (w1cMask a))
      let (m2, locked) := m1.regWrite a (Nat.lor kept (Nat.land value mask))
      if locked then (m.mod (fun d => d.flagLock (d.lockAt a))).fail p ST.LOCKED_WRITE
      else
        let (m3, new) := m2.regRead (agentId .command) a
        m3.ok p (leBytes 4 old ++ leBytes 4 new))) s

/-! ### Memory command packets (R568 to R570) -/

/-- The lines of R568 that refuse reads. -/
def Dev.readRefusal (d : Dev) (a n : Nat) : Option Nat :=
  if !d.inSpan a n then some ST.BAD_PARAM
  else if d.region a == .summit && d.lcs ≠ 3 then some ST.AUTH_FAIL
  else none

/-- The parts of control-engine memory that a command may not write (R409, R451, R477). -/
def Dev.ceAreas (d : Dev) : List Area :=
  d.heldBanks ++ [(ceMem, 0x100000), lawArea, (ceMem + 0x188000, 0x4000), (ceMem + 0x1FC000, 0x4000)]

/-- The save areas of loops whose step is being saved, is saved or is being restored. -/
def Dev.busySaves (d : Dev) : List Area :=
  ((List.range 16).filter (fun n => match (d.loop n).step with
    | some st => st.phase != .running
    | none => false)).map d.saveArea

/-- Where a live region of a binding stands. -/
def Binding.liveArea (b : Binding) (v : LiveRec) : Area :=
  let t := b.tile v.ltile
  (if v.kind = 1 then psAddr t v.first else amAddr t v.first, 64 * v.nrows)

/-- The live regions of the steps that hold their tiles, and the CARRY regions of the bound routes (R569). -/
def Dev.liveAreas (d : Dev) : List Area :=
  (List.range 16).flatMap (fun n =>
    (match d.holding n with
      | some st => st.b.route.live.map st.b.liveArea
      | none => [])
    ++ (match (d.loop n).binding with
      | some b => (b.route.live.filter (fun v => v.kind == 3)).map b.liveArea
      | none => []))

/-- The lines of R568 that refuse a write, in order. -/
def Mach.writeRefusal (m : Mach) (a n : Nat) (force : Bool) : Option Nat :=
  let d := m.dev
  let r : Area := (a, n)
  match d.readRefusal a n with
  | some st => some st
  | none =>
    if anyArea r d.tarinadyAreas then some ST.LOCKED_WRITE
    else if (d.boundWeights a n).isSome then some ST.LOCKED_WRITE
    else if anyArea r d.imageAreas || d.region a == .tarn || anyArea r d.trnAreas || anyArea r m.streamAreas
        || anyArea r d.ceAreas || anyArea r d.flashAreas || anyArea r d.busySaves then some ST.LOCKED_WRITE
    else if !force && anyArea r d.liveAreas then some ST.LOCKED_WRITE
    else none

/-- A command's write that is refused: a write to a bound tile's weight memory logs its F0 too (R135). -/
def Mach.refuseWrite (m : Mach) (p : Packet) (a n st : Nat) : Mach :=
  let m := match m.dev.readRefusal a n with
    | some _ => m
    | none => if anyArea (a, n) m.dev.tarinadyAreas then m else match m.dev.boundWeights a n with
      | some t => m.mod (fun d => d.weightFault t a)
      | none => m
  m.fail p st

/-- Bytes that the command interface's DMA writes.  `rows` names the rows at which a route read met the write. -/
def Mach.dmaStore (m : Mach) (a : Nat) (bs : List Byte) (rows : List (Nat × Nat)) : Mach :=
  (m.store a bs).mod (fun d => (d.dmaRows a bs.length dmaReq true).collide rows a bs.length)

/-- Bytes written by a command in ascending order; a read-modify-write that meets an uncorrectable error ends it there
(R570). -/
def Mach.commandStore (m : Mach) (a : Nat) (bs : List Byte) (rows : List (Nat × Nat)) : Mach × Bool :=
  let (m, bad) := m.rmwCheck a bs.length dmaReq 16
  let bs := match bad with
    | none => bs
    | some u => bs.take (u - a)
  (m.dmaStore a bs rows, bad.isNone)

/-- The rows that an operand of a command names. -/
def rowNats (rows : List (Fin 96 × Fin 32768)) : List (Nat × Nat) := rows.map (fun x => (x.1.val, x.2.val))

/-- A checked write of a command, with its reply. -/
def Mach.commandWrite (m : Mach) (p : Packet) (a : Nat) (bs : List Byte) (force : Bool) (rows : List (Nat × Nat)) :
    Mach :=
  match m.writeRefusal a bs.length force with
  | some st => m.refuseWrite p a bs.length st
  | none =>
    match m.commandStore a bs rows with
    | (m, true) => m.ok p []
    | (m, false) => m.fail p ST.FAULT

/-- A checked read of a command: the bytes, or the status that ends it. -/
def Mach.commandRead (m : Mach) (a n : Nat) : Mach × Sum Nat (List Byte) :=
  match m.dev.readRefusal a n with
  | some st => (m, .inl st)
  | none =>
    match m.eccRead a n dmaReq 16 with
    | (m, some _) => (m, .inl ST.FAULT)
    | (m, none) =>
      let (m, bs) := m.memBytes a n
      (m.mod (fun d => d.dmaRows a n dmaReq false), .inr bs)

/-- MEM_READ (R568, R570). -/
def execMemRead (tag : BitVec 16) (upsets : List Upset) (s : State) : Host.Outcome State Fault Refusal :=
  run (fun m => (m.upsets upsets).cmd 0x0301 tag.toNat (fun m p =>
    let n := pay32 p.payload 8
    if n = 0 || n > 32768 then m.fail p ST.BAD_PARAM
    else match m.commandRead (pay64 p.payload 0) n with
      | (m, .inl st) => m.fail p st
      | (m, .inr bs) => m.ok p bs)) s

/-- MEM_WRITE (R568 to R570). -/
def execMemWrite (tag : BitVec 16) (collide : List (Fin 96 × Fin 32768)) (upsets : List Upset) (s : State) :
    Host.Outcome State Fault Refusal :=
  run (fun m => (m.upsets upsets).cmd 0x0302 tag.toNat (fun m p =>
    m.commandWrite p (pay64 p.payload 0) (p.payload.drop 12) (bit (pay32 p.payload 8) 0)
      (rowNats collide))) s

/-- MEM_FILL (R568 to R570). -/
def execMemFill (tag : BitVec 16) (collide : List (Fin 96 × Fin 32768)) (upsets : List Upset) (s : State) :
    Host.Outcome State Fault Refusal :=
  run (fun m => (m.upsets upsets).cmd 0x0303 tag.toNat (fun m p =>
    let a := pay64 p.payload 0
    let n := pay32 p.payload 8
    if a % 4 ≠ 0 || n % 4 ≠ 0 || n = 0 then m.fail p ST.BAD_PARAM
    else
      m.commandWrite p a ((List.replicate (n / 4) (leBytes 4 (pay32 p.payload 12))).flatMap id)
        (bit (pay32 p.payload 16) 0) (rowNats collide))) s

/-- MEM_CHECK (R377, R568). -/
def execMemCheck (tag : BitVec 16) (upsets : List Upset) (s : State) : Host.Outcome State Fault Refusal :=
  run (fun m => (m.upsets upsets).cmd 0x0304 tag.toNat (fun m p =>
    let n := pay32 p.payload 8
    let sel := pay8 p.payload 12
    if n = 0 || sel > 3 then m.fail p ST.BAD_PARAM
    else match m.commandRead (pay64 p.payload 0) n with
      | (m, .inl st) => m.fail p st
      | (m, .inr bs) => m.ok p (leBytes 8 ((crcParams sel).check bs)))) s

end Sys2Proof.Machine
end

