-- ==== Sys2Proof/Machine/FlashCmd.lean ====
section
/-!
DEFINITION. The flash command packets (R363, R367, R368, R375, R376, R524, R529, R563).
-/
namespace Sys2Proof.Machine

def Dev.flRegion (d : Dev) (n : Nat) : Option RegionRec := AMap.find d.flash.regions n
def RegionRec.bytes (r : RegionRec) : Nat := r.units * unitSize

/-- A region command: it needs the subsystem in service (with room to write, for one that changes the array) and a region
that exists. -/
def Mach.flashCmd (m : Mach) (op tag : Nat) (changes : Bool) (f : Mach → Packet → Nat → RegionRec → Mach) : Mach :=
  m.cmd op tag (fun m p =>
    let n := pay8 p.payload 0
    if !m.dev.flServing || (changes && m.dev.flState == FL.READONLY) then m.fail p ST.STATE
    else if n > 63 then m.fail p ST.BAD_PARAM
    else match m.dev.flRegion n with
      | none => m.fail p ST.NOT_FOUND
      | some r => f m p n r)

/-- An offset and length that R376 allows in a region. -/
def RegionRec.rangeOk (r : RegionRec) (off len : Nat) : Bool :=
  off % 4096 == 0 && len % 4096 == 0 && decide (off + len ≤ r.bytes)

/-- REGION_CREATE (R363, R376): the lowest free number and the lowest free run of units. -/
def execRegionCreate (tag : BitVec 16) (s : State) : Host.Outcome State Fault Refusal :=
  run (fun m => m.cmd 0x0501 tag.toNat (fun m p =>
    let kind := pay8 p.payload 0
    let units := pay32 p.payload 4
    let f := m.dev.flash
    if m.dev.flState ≠ FL.READY then m.fail p ST.STATE
    else if kind = 0 || kind > 3 || units = 0 || units > 536870912 then m.fail p ST.BAD_PARAM
    else match (List.range 64).find? (fun n => (m.dev.flRegion n).isNone), f.freeRun units with
      | some n, some first =>
        (m.mod (fun d => d.modFlash (fun f =>
          { f with regions := AMap.set f.regions n { kind := kind, first := first, units := units } }))).ok p (leBytes 4 n)
      | _, _ => m.fail p ST.TABLE_FULL)) s

/-- REGION_DELETE (R376): every unit trimmed, then the number is free. -/
def execRegionDelete (tag : BitVec 16) (s : State) : Host.Outcome State Fault Refusal :=
  run (fun m => m.flashCmd 0x0502 tag.toNat true (fun m p n r =>
    if r.kind = 0 then m.fail p ST.STATE
    else
      let mapped := (m.dev.flash.map.map (fun (x : Nat × Nat) => x.1)).filter (fun u =>
        decide (r.first ≤ u) && decide (u < r.first + r.units))
      let m := mapped.foldl (fun (m : Mach) u => m.trimUnit u) m
      (m.mod (fun d => (d.dropCached n).modFlash (fun f => { f with regions := AMap.erase f.regions n }))).ok p [])) s

/-- The mapped units of a range that no buffer slot holds: what a flash read takes from the array. -/
def Mach.readUnits (m : Mach) (r : RegionRec) (off len : Nat) : List Nat :=
  let f := m.dev.flash
  ((List.range (ceilDiv (off % unitSize + len) unitSize)).map (fun i => r.first + off / unitSize + i)).filter (fun u =>
    (AMap.find f.map u).isSome && !f.wb.any (fun w => w.unit == u))

/-- REGION_READ (R362, R376, R568): `outcomes` are those of the units read from the array, in order.  A reply of ST_FAULT leaves memory as
it was (R17): a read-modify-write that would meet an uncorrectable error is looked for before the first byte is written. -/
def execRegionRead (tag : BitVec 16) (outcomes : List NandOutcome) (collide : List (Fin 96 × Fin 32768)) (upsets : List Upset)
    (s : State) : Host.Outcome State Fault Refusal :=
  run (fun m => (m.upsets upsets).flashCmd 0x0503 tag.toNat false (fun m p _ r =>
    let off := pay64 p.payload 4
    let len := pay32 p.payload 12
    let a := pay64 p.payload 16
    if !r.rangeOk off len then m.fail p ST.BAD_PARAM
    else match m.writeRefusal a len false with
      | some st => m.refuseWrite p a len st
      | none =>
        let (m, good) := m.nandReads (m.readUnits r off len) outcomes
        if !good then m.fail p ST.FAULT
        else
          let (m, bs) := m.regionBytes r off len
          match m.rmwCheck a bs.length dmaReq 16 with
          | (m, some _) => m.fail p ST.FAULT
          | (m, none) => (m.dmaStore a bs (rowNats collide)).ok p [])) s

/-- Data appended to a LOG region at its write pointer; the oldest data is overwritten once the region is full. -/
def Mach.logAppend (m : Mach) (n : Nat) (r : RegionRec) (bs : List Byte) : Mach :=
  let off := r.wptr * 4096
  let room := r.bytes - off
  let m := m.regionStore r off (bs.take room)
  let m := if bs.length ≤ room then m else m.regionStore r 0 (bs.drop room)
  m.mod (fun d => d.modFlash (fun f =>
    { f with regions := AMap.set f.regions n { r with wptr := (r.wptr + bs.length / 4096) % (r.units * 4) } }))

/-- REGION_WRITE (R367, R368, R375, R376, R524): a LOG region ignores OFFSET. -/
def execRegionWrite (tag : BitVec 16) (upsets : List Upset) (s : State) : Host.Outcome State Fault Refusal :=
  run (fun m => (m.upsets upsets).flashCmd 0x0504 tag.toNat true (fun m p n r =>
    let off := if r.kind = 3 then 0 else pay64 p.payload 4
    let len := pay32 p.payload 12
    if !r.rangeOk off len then m.fail p ST.BAD_PARAM
    else if r.isSealed || (r.kind = 0 && m.dev.boot.slot = some n) then m.fail p ST.LOCKED_WRITE
    else match m.commandRead (pay64 p.payload 16) len with
      | (m, .inl st) => m.fail p st
      | (m, .inr bs) =>
        let m := if r.kind = 3 then m.logAppend n r bs else m.regionStore r off bs
        (m.mod (fun d => d.dropCached n)).ok p [])) s

/-- REGION_TRIM (R375, R376). -/
def execRegionTrim (tag : BitVec 16) (s : State) : Host.Outcome State Fault Refusal :=
  run (fun m => m.flashCmd 0x0505 tag.toNat true (fun m p n r =>
    let off := pay64 p.payload 4
    let len := pay32 p.payload 12
    if !r.rangeOk off len then m.fail p ST.BAD_PARAM
    else if r.isSealed then m.fail p ST.LOCKED_WRITE
    else ((m.regionTrim r off len).mod (fun d => d.dropCached n)).ok p [])) s

/-- REGION_SEAL (R375). -/
def execRegionSeal (tag : BitVec 16) (s : State) : Host.Outcome State Fault Refusal :=
  run (fun m => m.flashCmd 0x0506 tag.toNat false (fun m p n r =>
    if r.kind ≠ 1 then m.fail p ST.STATE
    else (m.mod (fun d => d.modFlash (fun f =>
      { f with regions := AMap.set f.regions n { r with isSealed := true } }))).ok p [])) s

/-- One record of REGION_LIST. -/
def regionRecord (r : Option RegionRec) : List Byte :=
  match r with
  | none => List.replicate 16 0
  | some r => leBytes 1 r.kind ++ leBytes 1 (1 + 2 * b2n r.isSealed) ++ leBytes 2 0 ++ leBytes 4 r.first
      ++ leBytes 4 r.units ++ leBytes 4 r.wptr

/-- REGION_LIST (R563). -/
def execRegionList (tag : BitVec 16) (s : State) : Host.Outcome State Fault Refusal :=
  run (fun m => m.cmd 0x0507 tag.toNat (fun m p =>
    if !m.dev.flServing then m.fail p ST.STATE
    else m.ok p ((List.range 64).flatMap (fun n => regionRecord (m.dev.flRegion n))))) s

/-- FLASH_FORMAT may run: the key, and a blank array, or recovery with a usable target (R529, R563). -/
def Dev.mayFormat (d : Dev) : Bool :=
  d.flState == FL.BLANK || (d.boot.phase == .recovery && d.flState != FL.FAILED)

/-- The accepted FLASH_FORMAT with that tag is about to format the array. -/
def Dev.willFormat (d : Dev) (tag : Nat) : Bool :=
  match d.sdio.outstanding.find? (fun p => p.tag == tag && p.op == 0x0508 && p.pkg == d.pkg) with
  | none => false
  | some p => !d.harts.any (· < 4) && d.sdio.mayStart p && !d.opRefused 0x0508 && pay32 p.payload 0 == 0x464D5421
      && d.mayFormat

/-- A format empties the array, and the map region holds unmapped entries only. -/
def formatKeep (tag : Nat) (d : Dev) (a : Nat) : Bool :=
  !d.willFormat tag || (decide (a < 2 ^ 60) && (decide (a < d.mapBase) || decide (a ≥ d.mapBase + 2 ^ 31)))

/-- FLASH_FORMAT (R363, R366, R375, R529). -/
def execFlashFormat (tag : BitVec 16) (goodPages spareBlocks : Nat) (s : State) : Host.Outcome State Fault Refusal :=
  runKeep (fun _ d a => formatKeep tag.toNat d a) (fun m => m.cmd 0x0508 tag.toNat (fun m p =>
    if pay32 p.payload 0 ≠ 0x464D5421 then m.fail p ST.BAD_PARAM
    else if !m.dev.mayFormat then m.fail p ST.STATE
    else
      let m := m.mod (fun d => d.modFlash (fun f =>
        FlashSt.format f goodPages spareBlocks))
      (m.placeMap.mod Dev.flServe).ok p [])) s

end Sys2Proof.Machine
end

