-- ==== Sys2Proof/Machine/Sdio.lean ====
section
/-!
DEFINITION. The SDIO function's windows (R547 to R551, R573), and the command packets on identity and time (R6, R386,
R392, R563).
-/
namespace Sys2Proof.Machine

/-- SDIO_WRITE (R549, R551). -/
def execSdioWrite (bytes : List Byte) (s : State) : Host.Outcome State Fault Refusal :=
  runDev (fun _ d => d.sdioFeed (bytes.length + 1) bytes) s

/-- `n` bytes taken from the replies, the first of which has lost `t` already: the replies left, the bytes lost of their
first, and how many bytes were missing. -/
def takeReplies : List (List Byte) → Nat → Nat → List (List Byte) × Nat × Nat
  | [], _, n => ([], 0, n)
  | r :: rs, t, n =>
    if n < r.length - t then (r :: rs, t + n, 0) else takeReplies rs 0 (n - (r.length - t))

/-- SDIO_READ (R550): a byte from an empty buffer is 0x00 and counts UNDERRUN; the room freed lets waiting replies in. -/
def execSdioRead (n : Nat) (s : State) : Host.Outcome State Fault Refusal :=
  runDev (fun _ d =>
    let (rs, t, short) := takeReplies d.sdio.replies d.sdio.taken n
    let d := ({ d with sdio := { d.sdio with replies := rs, taken := t } } : Dev).cnt (Reg.SDIO_CNT_k 5) short
    let x := SdioSt.settle d.sdio d.sdio.waiting
    (({ d with sdio := x } : Dev).cnt (Reg.SDIO_CNT_k 1) (x.replies.length - rs.length)).pumpRemote) s

/-- IOE1_WRITE (R547): a function that is enabled takes the packets that have been written. -/
def execIoe1Write (on : Bool) (s : State) : Host.Outcome State Fault Refusal :=
  runDev (fun _ d => ({ d with sdio := { d.sdio with ioe1 := on } } : Dev).sdioScan) s

/-- SDIO_CNT_CLR (R573). -/
def execSdioCntClr (s : State) : Host.Outcome State Fault Refusal := runDev (fun _ d => d.clearRegs sdioCounters) s

/-- DEV_INFO (R6, R527, R563). -/
def execDevInfo (tag : BitVec 16) (s : State) : Host.Outcome State Fault Refusal :=
  run (fun m => m.cmd 0x0101 tag.toNat (fun m p =>
    let d := m.dev
    let rel := fun (i : Option ImgRec) => match i with
      | some x => x.release
      | none => 0
    m.ok p (leBytes 8 d.boot.fuses.uid.toNat ++ leBytes 4 (d.reg Reg.GEN_ID) ++ leBytes 4 (d.reg Reg.GEN_RIDGE_EN)
      ++ leBytes 4 (rel d.boot.tarinady) ++ leBytes 4 (rel d.boot.stage1) ++ leBytes 1 d.pkg
      ++ leBytes 1 (d.rf Reg.COL_GRP Fld.COL_GRP.GRP) ++ leBytes 1 d.lcs
      ++ leBytes 1 (b2n (d.boot.phase == .recovery) + 2 * d.rf Reg.SAF_STAT Fld.SAF_STAT.OUT_EN)
      ++ leBytes 4 32768 ++ leBytes 2 32 ++ leBytes 1 1 ++ List.replicate 29 0))) s

/-- ECHO (R563). -/
def execEcho (tag : BitVec 16) (s : State) : Host.Outcome State Fault Refusal :=
  run (fun m => m.cmd 0x0102 tag.toNat (fun m p => m.ok p p.payload)) s

/-- TIME_GET (R386, R389). -/
def execTimeGet (tag : BitVec 16) (s : State) : Host.Outcome State Fault Refusal :=
  run (fun m => m.cmd 0x0601 tag.toNat (fun m p =>
    m.ok p (leBytes 8 m.dev.stamp ++ leBytes 4 (m.dev.readTb Reg.TB_NOW_EXT) ++ leBytes 1 m.dev.tbState ++ leBytes 3 0))) s

/-- The timebase set to a stamp and a visible fraction: a step that stays in FREE (R390, R392).  A stamp holds no seconds
above bit 33; those stand. -/
def Dev.setTime (d : Dev) (stamp frac : Nat) : Dev :=
  let sec := d.tb.sec / 2 ^ 34 * 2 ^ 34 + stamp / 2 ^ 30
  let theta : Int := ((sec * 1000000000 + stamp % 2 ^ 30 : Nat) : Int) - ((d.nsNow : Nat) : Int)
  let d := d.tbStep theta
  { d with tb := { sec := sec, ns := stamp % 2 ^ 30, frac := frac * 2 ^ 24 } }

/-- TIME_SET (R392). -/
def execTimeSet (tag : BitVec 16) (s : State) : Host.Outcome State Fault Refusal :=
  run (fun m => m.cmd 0x0602 tag.toNat (fun m p =>
    let stamp := pay64 p.payload 0
    if stamp % 2 ^ 30 ≥ 1000000000 then m.fail p ST.BAD_PARAM
    else if m.dev.tbState ≠ tbFree then m.fail p ST.STATE
    else (m.mod (fun d => d.setTime stamp (pay16 p.payload 8))).ok p [])) s

end Sys2Proof.Machine
end

