-- ==== Sys2Proof/Machine/Spur.lean ====
section
/-!
DEFINITION. Spur calls (R145 to R151).  The core's code runs when the command that ends its call comes: the command says how
many instructions the core has retired by then (log 42).
-/
namespace Sys2Proof.Machine

/-- The core runs `k` instructions and takes a trap of the kind that `p` accepts at the next one, which ends the call. -/
def Mach.spurEvent (m : Mach) (t k : Nat) (p : Nat → Bool) (us : List Upset) : Mach :=
  match m.dev.spurCallOn t with
  | none => m
  | some (n, i) =>
    match Mach.rvRun n t k (m.tileUpsets t us) with
    | (_, some _) => m
    | (m1, none) =>
      match m1.rvStep n t with
      | (_, none) => m
      | (m2, some cause) => if p cause then m2.spurTrapped n t i cause else m

/-- SPUR_CALL (R148, R182). -/
def execSpurCall (t : Fin 96) (s : State) : Host.Outcome State Fault Refusal :=
  run (fun m => m.issue t.val (isKind K.SPUR) (fun m i =>
    let r := i.st.b.route
    let arg := match m.dev.list t.val with
      | some l => m.rdNat (l.addr + 16 * (i.idx + 1)) 16
      | none => 0
    let e := i.word
    let m := m.fly i
    m.mod (fun d =>
      let d := d.modTile t.val (fun x =>
        let c := x.spur
        -- the first call of a step finds every register at zero and the CSRs at their reset (R69, R163)
        let c := if c.called then c else { c with x := [], f := [], v := [], csrs := [], instret := 0, resv := none }
        let regs := [(10, bits arg 31 0), (11, bits arg 63 32), (12, bits arg 95 64), (13, bits arg 127 96),
          (14, (if Spur.ps e then 0x2C0000 else 0) + 64 * Spur.arow e), (15, 64 * Spur.anrows e), (2, r.spurStack)]
        { x with spur := { c with
            x := regs.foldl (fun x p => setX x p.1 p.2) c.x
            pc := 0x300000 + r.spurBase + Spur.code e
            call := some i.idx
            region := ⟨Spur.ps e, Spur.arow e, Spur.anrows e⟩
            called := true } })
      d.wf (Reg.TILE_SPUR_STAT t.val) Fld.TILE_SPUR_STAT.BUSY 1))) s

/-- SPUR_ECALL (R150): the core retires `n` instructions and then traps by an ecall, which ends the call, successfully when
a0 is 0.  Where the code does not do this, nothing changes. -/
def execSpurEcall (t : Fin 96) (n : Nat) (upsets : List Upset) (s : State) : Host.Outcome State Fault Refusal :=
  run (fun m => m.spurEvent t.val n (fun cause => cause == 8) upsets) s

/-- SPUR_TRAP (R150): the core retires `n` instructions and then takes any other trap, which ends the call with a fault. -/
def execSpurTrap (t : Fin 96) (n : Nat) (upsets : List Upset) (s : State) : Host.Outcome State Fault Refusal :=
  run (fun m => m.spurEvent t.val n (fun cause => cause != 8) upsets) s

end Sys2Proof.Machine
end

