-- ==== Sys2Proof/Machine/Dispatch.lean ====
section
/-!
DEFINITION. What each command does: one arm per constructor, each a direct call of the command's meaning.
-/
namespace Sys2Proof.Machine

def exec (i : Instr) (s : State) : Host.Outcome State Fault Refusal :=
  match i with
  | .unmappedRead who addr form => Sys2Proof.Machine.execUnmappedRead who addr form s
  | .unmappedWrite who addr data form => Sys2Proof.Machine.execUnmappedWrite who addr data form s
  | .registerWrite who addr value => Sys2Proof.Machine.execRegisterWrite who addr value s
  | .registerRead who addr => Sys2Proof.Machine.execRegisterRead who addr s
  | .paceSample readings started marked => Sys2Proof.Machine.execPaceSample readings started marked s
  | .paceFrozen m => Sys2Proof.Machine.execPaceFrozen m s
  | .paceRecovered m => Sys2Proof.Machine.execPaceRecovered m s
  | .clrPeak => Sys2Proof.Machine.execClrPeak s
  | .railSettled => Sys2Proof.Machine.execRailSettled s
  | .ndClr => Sys2Proof.Machine.execNdClr s
  | .sload t wait stall upsets => Sys2Proof.Machine.execSload t wait stall upsets s
  | .pass t => Sys2Proof.Machine.execPass t s
  | .arrayRow t l bubble stall flips upsets => Sys2Proof.Machine.execArrayRow t l bubble stall flips upsets s
  | .swapFrontBack t p => Sys2Proof.Machine.execSwapFrontBack t p s
  | .passCompare t l upsets => Sys2Proof.Machine.execPassCompare t l upsets s
  | .arrayRemap t => Sys2Proof.Machine.execArrayRemap t s
  | .drain t stall upsets => Sys2Proof.Machine.execDrain t stall upsets s
  | .arrayRampStep t p => Sys2Proof.Machine.execArrayRampStep t p s
  | .arrayIdle t p => Sys2Proof.Machine.execArrayIdle t p s
  | .arrCntClr t => Sys2Proof.Machine.execArrCntClr t s
  | .wfetchPlain t => Sys2Proof.Machine.execWfetchPlain t s
  | .wfetchSpec t upsets => Sys2Proof.Machine.execWfetchSpec t upsets s
  | .wfetchResolve t upsets => Sys2Proof.Machine.execWfetchResolve t upsets s
  | .streamerFillStart t wait => Sys2Proof.Machine.execStreamerFillStart t wait s
  | .fetchLanded t slot upsets => Sys2Proof.Machine.execFetchLanded t slot upsets s
  | .slotRelease t slot => Sys2Proof.Machine.execSlotRelease t slot s
  | .listFetch l n upsets => Sys2Proof.Machine.execListFetch l n upsets s
  | .send l upsets => Sys2Proof.Machine.execSend l upsets s
  | .landingRow t q upsets => Sys2Proof.Machine.execLandingRow t q upsets s
  | .recv t upsets => Sys2Proof.Machine.execRecv t upsets s
  | .spurCall t => Sys2Proof.Machine.execSpurCall t s
  | .spurEcall t n upsets => Sys2Proof.Machine.execSpurEcall t n upsets s
  | .spurTrap t n upsets => Sys2Proof.Machine.execSpurTrap t n upsets s
  | .eccWriteBack addr => Sys2Proof.Machine.execEccWriteBack addr s
  | .memCntClr t => Sys2Proof.Machine.execMemCntClr t s
  | .rdgCntClr r => Sys2Proof.Machine.execRdgCntClr r s
  | .specCntClr t => Sys2Proof.Machine.execSpecCntClr t s
  | .convCntClr t => Sys2Proof.Machine.execConvCntClr t s
  | .ctap t => Sys2Proof.Machine.execCtap t s
  | .dtap t => Sys2Proof.Machine.execDtap t s
  | .argmax t upsets => Sys2Proof.Machine.execArgmax t upsets s
  | .supply t upsets => Sys2Proof.Machine.execSupply t upsets s
  | .append loop => Sys2Proof.Machine.execAppend loop s
  | .tokens loop => Sys2Proof.Machine.execTokens loop s
  | .decode loop => Sys2Proof.Machine.execDecode loop s
  | .walk loop => Sys2Proof.Machine.execWalk loop s
  | .feed loop => Sys2Proof.Machine.execFeed loop s
  | .mark l => Sys2Proof.Machine.execMark l s
  | .acquire l => Sys2Proof.Machine.execAcquire l s
  | .release l => Sys2Proof.Machine.execRelease l s
  | .sign t upsets => Sys2Proof.Machine.execSign t upsets s
  | .endList l => Sys2Proof.Machine.execEndList l s
  | .stepEnd loop beats => Sys2Proof.Machine.execStepEnd loop beats s
  | .post loop => Sys2Proof.Machine.execPost loop s
  | .graceFree node => Sys2Proof.Machine.execGraceFree node s
  | .pacedRelease loop => Sys2Proof.Machine.execPacedRelease loop s
  | .guardStart loop => Sys2Proof.Machine.execGuardStart loop s
  | .windowOpen loop => Sys2Proof.Machine.execWindowOpen loop s
  | .windowClose loop => Sys2Proof.Machine.execWindowClose loop s
  | .schedDecision nowUs => Sys2Proof.Machine.execSchedDecision nowUs s
  | .preemptHold pkg loop => Sys2Proof.Machine.execPreemptHold pkg loop s
  | .remoteTimeout pkg loop beats => Sys2Proof.Machine.execRemoteTimeout pkg loop beats s
  | .saveDone loop beats saveBeats us stateError spurRan upsets => Sys2Proof.Machine.execSaveDone loop beats saveBeats us stateError spurRan upsets s
  | .restoreDone loop restoreBeats upsets => Sys2Proof.Machine.execRestoreDone loop restoreBeats upsets s
  | .carrySaveDone loop save beats upsets => Sys2Proof.Machine.execCarrySaveDone loop save beats upsets s
  | .arbRequest a req origin reset => Sys2Proof.Machine.execArbRequest a req origin reset s
  | .arbGrant a drop => Sys2Proof.Machine.execArbGrant a drop s
  | .arbWatchdog a => Sys2Proof.Machine.execArbWatchdog a s
  | .arbFreeze k value => Sys2Proof.Machine.execArbFreeze k value s
  | .arbCntClr => Sys2Proof.Machine.execArbCntClr s
  | .schEn en => Sys2Proof.Machine.execSchEn en s
  | .schCntClr => Sys2Proof.Machine.execSchCntClr s
  | .loopEnWrite loop en => Sys2Proof.Machine.execLoopEnWrite loop en s
  | .loopBoundReport pkg loop bound pmap sends queues lists => Sys2Proof.Machine.execLoopBoundReport pkg loop bound pmap sends queues lists s
  | .linkTrain p result => Sys2Proof.Machine.execLinkTrain p result s
  | .linkTrainTimeout p => Sys2Proof.Machine.execLinkTrainTimeout p s
  | .flitRx p flit fec => Sys2Proof.Machine.execFlitRx p flit fec s
  | .replayTimeout p => Sys2Proof.Machine.execReplayTimeout p s
  | .recovery p => Sys2Proof.Machine.execRecovery p s
  | .down p => Sys2Proof.Machine.execDown p s
  | .colRead p upsets => Sys2Proof.Machine.execColRead p upsets s
  | .colWrite p upsets => Sys2Proof.Machine.execColWrite p upsets s
  | .readResp p => Sys2Proof.Machine.execReadResp p s
  | .writeResp p => Sys2Proof.Machine.execWriteResp p s
  | .colStream p => Sys2Proof.Machine.execColStream p s
  | .qcredit p => Sys2Proof.Machine.execQcredit p s
  | .mgmt p => Sys2Proof.Machine.execMgmt p s
  | .remoteAccessTimeout tag => Sys2Proof.Machine.execRemoteAccessTimeout tag s
  | .colTsync => Sys2Proof.Machine.execColTsync s
  | .colBootTimeout => Sys2Proof.Machine.execColBootTimeout s
  | .retrain p => Sys2Proof.Machine.execRetrain p s
  | .portEn p en => Sys2Proof.Machine.execPortEn p en s
  | .colCntClr => Sys2Proof.Machine.execColCntClr s
  | .hbmRead addr len req served upsets => Sys2Proof.Machine.execHbmRead addr len req served upsets s
  | .hbmWrite addr data req served upsets => Sys2Proof.Machine.execHbmWrite addr data req served upsets s
  | .hbmRefresh temps => Sys2Proof.Machine.execHbmRefresh temps s
  | .patrolScrub addr upsets => Sys2Proof.Machine.execPatrolScrub addr upsets s
  | .hbmFillDone trainFail => Sys2Proof.Machine.execHbmFillDone trainFail s
  | .hbmCntClr => Sys2Proof.Machine.execHbmCntClr s
  | .flEn en => Sys2Proof.Machine.execFlEn en s
  | .mountDone found => Sys2Proof.Machine.execMountDone found s
  | .nandOperationDone op => Sys2Proof.Machine.execNandOperationDone op s
  | .journalFlush => Sys2Proof.Machine.execJournalFlush s
  | .checkpoint => Sys2Proof.Machine.execCheckpoint s
  | .retentionScrub block corrected neededRetry => Sys2Proof.Machine.execRetentionScrub block corrected neededRetry s
  | .garbageCollect => Sys2Proof.Machine.execGarbageCollect s
  | .flashClosed => Sys2Proof.Machine.execFlashClosed s
  | .flashResume => Sys2Proof.Machine.execFlashResume s
  | .flCntClr => Sys2Proof.Machine.execFlCntClr s
  | .cvJob req sel data => Sys2Proof.Machine.execCvJob req sel data s
  | .cvSliceEnd u => Sys2Proof.Machine.execCvSliceEnd u s
  | .claim u on => Sys2Proof.Machine.execClaim u on s
  | .cvStart u => Sys2Proof.Machine.execCvStart u s
  | .cvData u value => Sys2Proof.Machine.execCvData u value s
  | .cvValHi u value => Sys2Proof.Machine.execCvValHi u value s
  | .cvCntHi u value => Sys2Proof.Machine.execCvCntHi u value s
  | .tbMeasurement m => Sys2Proof.Machine.execTbMeasurement m s
  | .tbSourceTimeout => Sys2Proof.Machine.execTbSourceTimeout s
  | .restep => Sys2Proof.Machine.execRestep s
  | .tbCntClr => Sys2Proof.Machine.execTbCntClr s
  | .counterCompare => Sys2Proof.Machine.execCounterCompare s
  | .cmpFire n => Sys2Proof.Machine.execCmpFire n s
  | .cmpTargetWrite n hi => Sys2Proof.Machine.execCmpTargetWrite n hi s
  | .evtIn n => Sys2Proof.Machine.execEvtIn n s
  | .ethRx m frame fcsOk => Sys2Proof.Machine.execEthRx m frame fcsOk s
  | .feedback m => Sys2Proof.Machine.execFeedback m s
  | .sensor m => Sys2Proof.Machine.execSensor m s
  | .driveReceived m => Sys2Proof.Machine.execDriveReceived m s
  | .txSelect m => Sys2Proof.Machine.execTxSelect m s
  | .change m => Sys2Proof.Machine.execChange m s
  | .gclApply m => Sys2Proof.Machine.execGclApply m s
  | .ptpRoleWrite m role => Sys2Proof.Machine.execPtpRoleWrite m role s
  | .ethCntClr m => Sys2Proof.Machine.execEthCntClr m s
  | .canRx n frame => Sys2Proof.Machine.execCanRx n frame s
  | .canTx n => Sys2Proof.Machine.execCanTx n s
  | .errorPassive n tec rec => Sys2Proof.Machine.execErrorPassive n tec rec s
  | .busOff n => Sys2Proof.Machine.execBusOff n s
  | .canRecovered n => Sys2Proof.Machine.execCanRecovered n s
  | .recover n => Sys2Proof.Machine.execRecover n s
  | .canCntClr n => Sys2Proof.Machine.execCanCntClr n s
  | .csiPacket p vc dt eccBad crcOk late line => Sys2Proof.Machine.execCsiPacket p vc dt eccBad crcOk late line s
  | .csiFrameStart p vc frame => Sys2Proof.Machine.execCsiFrameStart p vc frame s
  | .csiFrameEnd p vc => Sys2Proof.Machine.execCsiFrameEnd p vc s
  | .tensorComplete stream => Sys2Proof.Machine.execTensorComplete stream s
  | .waitnewBind stream loop => Sys2Proof.Machine.execWaitnewBind stream loop s
  | .sampleDecoded stream pos epoch source => Sys2Proof.Machine.execSampleDecoded stream pos epoch source s
  | .missingPos stream => Sys2Proof.Machine.execMissingPos stream s
  | .ingCntClr => Sys2Proof.Machine.execIngCntClr s
  | .ceInstant => Sys2Proof.Machine.execCeInstant s
  | .channelEval c dupFails => Sys2Proof.Machine.execChannelEval c dupFails s
  | .ceEnWrite en => Sys2Proof.Machine.execCeEnWrite en s
  | .swap => Sys2Proof.Machine.execSwap s
  | .ceModeWrite c mode => Sys2Proof.Machine.execCeModeWrite c mode s
  | .ceManWrite c value => Sys2Proof.Machine.execCeManWrite c value s
  | .arm on => Sys2Proof.Machine.execArm on s
  | .force => Sys2Proof.Machine.execForce s
  | .ceCntClr => Sys2Proof.Machine.execCeCntClr s
  | .faultRecord n => Sys2Proof.Machine.execFaultRecord n s
  | .warmReset => Sys2Proof.Machine.execWarmReset s
  | .errorInjection results => Sys2Proof.Machine.execErrorInjection results s
  | .stepSupervisorExpire loop beats => Sys2Proof.Machine.execStepSupervisorExpire loop beats s
  | .segmentExpire l beats => Sys2Proof.Machine.execSegmentExpire l beats s
  | .chunkDone t result upsets => Sys2Proof.Machine.execChunkDone t result upsets s
  | .selftestForce t => Sys2Proof.Machine.execSelftestForce t s
  | .late t => Sys2Proof.Machine.execLate t s
  | .haltTimeout t found => Sys2Proof.Machine.execHaltTimeout t found s
  | .fence t => Sys2Proof.Machine.execFence t s
  | .ringBreak d m => Sys2Proof.Machine.execRingBreak d m s
  | .mismatch pair => Sys2Proof.Machine.execMismatch pair s
  | .clock => Sys2Proof.Machine.execClock s
  | .rail r mv => Sys2Proof.Machine.execRail r mv s
  | .thermalCheck fab hbm => Sys2Proof.Machine.execThermalCheck fab hbm s
  | .thermtrip => Sys2Proof.Machine.execThermtrip s
  | .safCntClr => Sys2Proof.Machine.execSafCntClr s
  | .resetRelease env => Sys2Proof.Machine.execResetRelease env s
  | .porstAssert => Sys2Proof.Machine.execPorstAssert s
  | .powerFail => Sys2Proof.Machine.execPowerFail s
  | .powerRestore => Sys2Proof.Machine.execPowerRestore s
  | .cooling => Sys2Proof.Machine.execCooling s
  | .capWrite cap => Sys2Proof.Machine.execCapWrite cap s
  | .boostWrite boost => Sys2Proof.Machine.execBoostWrite boost s
  | .governor avg => Sys2Proof.Machine.execGovernor avg s
  | .pwrCntClr => Sys2Proof.Machine.execPwrCntClr s
  | .tapChal => Sys2Proof.Machine.execTapChal s
  | .tapToken token => Sys2Proof.Machine.execTapToken token s
  | .challengeExpire => Sys2Proof.Machine.execChallengeExpire s
  | .busacc addr data collide upsets => Sys2Proof.Machine.execBusacc addr data collide upsets s
  | .halt => Sys2Proof.Machine.execHalt s
  | .step => Sys2Proof.Machine.execStep s
  | .resume => Sys2Proof.Machine.execResume s
  | .sdioWrite bytes => Sys2Proof.Machine.execSdioWrite bytes s
  | .sdioRead n => Sys2Proof.Machine.execSdioRead n s
  | .sdioCntClr => Sys2Proof.Machine.execSdioCntClr s
  | .devInfo tag => Sys2Proof.Machine.execDevInfo tag s
  | .echo tag => Sys2Proof.Machine.execEcho tag s
  | .reset tag => Sys2Proof.Machine.execReset tag s
  | .regRead tag => Sys2Proof.Machine.execRegRead tag s
  | .regWrite tag => Sys2Proof.Machine.execRegWrite tag s
  | .regRmw tag => Sys2Proof.Machine.execRegRmw tag s
  | .memRead tag upsets => Sys2Proof.Machine.execMemRead tag upsets s
  | .memWrite tag collide upsets => Sys2Proof.Machine.execMemWrite tag collide upsets s
  | .memFill tag collide upsets => Sys2Proof.Machine.execMemFill tag collide upsets s
  | .memCheck tag upsets => Sys2Proof.Machine.execMemCheck tag upsets s
  | .routeLoad tag => Sys2Proof.Machine.execRouteLoad tag s
  | .routeUnload tag => Sys2Proof.Machine.execRouteUnload tag s
  | .routeBind tag => Sys2Proof.Machine.execRouteBind tag s
  | .routeUnbind tag => Sys2Proof.Machine.execRouteUnbind tag s
  | .loopConfig tag => Sys2Proof.Machine.execLoopConfig tag s
  | .loopPreempt tag => Sys2Proof.Machine.execLoopPreempt tag s
  | .nsConfig tag => Sys2Proof.Machine.execNsConfig tag s
  | .seqOpen tag => Sys2Proof.Machine.execSeqOpen tag s
  | .seqClose tag => Sys2Proof.Machine.execSeqClose tag s
  | .seqFork tag => Sys2Proof.Machine.execSeqFork tag s
  | .seqTruncate tag => Sys2Proof.Machine.execSeqTruncate tag s
  | .seqDrop tag => Sys2Proof.Machine.execSeqDrop tag s
  | .batchSet tag => Sys2Proof.Machine.execBatchSet tag s
  | .streamOpen tag => Sys2Proof.Machine.execStreamOpen tag s
  | .streamClose tag => Sys2Proof.Machine.execStreamClose tag s
  | .regionCreate tag => Sys2Proof.Machine.execRegionCreate tag s
  | .regionDelete tag => Sys2Proof.Machine.execRegionDelete tag s
  | .regionRead tag outcome collide upsets => Sys2Proof.Machine.execRegionRead tag outcome collide upsets s
  | .regionWrite tag upsets => Sys2Proof.Machine.execRegionWrite tag upsets s
  | .regionTrim tag => Sys2Proof.Machine.execRegionTrim tag s
  | .regionSeal tag => Sys2Proof.Machine.execRegionSeal tag s
  | .regionList tag => Sys2Proof.Machine.execRegionList tag s
  | .flashFormat tag goodPages spareBlocks => Sys2Proof.Machine.execFlashFormat tag goodPages spareBlocks s
  | .fwActivate tag slotFails => Sys2Proof.Machine.execFwActivate tag slotFails s
  | .fwCommit tag => Sys2Proof.Machine.execFwCommit tag s
  | .timeGet tag => Sys2Proof.Machine.execTimeGet tag s
  | .timeSet tag => Sys2Proof.Machine.execTimeSet tag s
  | .ceEnable tag => Sys2Proof.Machine.execCeEnable tag s
  | .ceSwap tag => Sys2Proof.Machine.execCeSwap tag s
  | .ceSetpoint tag => Sys2Proof.Machine.execCeSetpoint tag s
  | .ceMode tag => Sys2Proof.Machine.execCeMode tag s
  | .faultLog tag => Sys2Proof.Machine.execFaultLog tag s
  | .faultAck tag => Sys2Proof.Machine.execFaultAck tag s
  | .safetyClear tag f2 => Sys2Proof.Machine.execSafetyClear tag f2 s
  | .cairnConfig tag => Sys2Proof.Machine.execCairnConfig tag s
  | .idCert tag => Sys2Proof.Machine.execIdCert tag s
  | .attest tag => Sys2Proof.Machine.execAttest tag s
  | .debugChallenge tag => Sys2Proof.Machine.execDebugChallenge tag s
  | .debugToken tag => Sys2Proof.Machine.execDebugToken tag s
  | .lifecycle tag => Sys2Proof.Machine.execLifecycle tag s
  | .ownerKey tag => Sys2Proof.Machine.execOwnerKey tag s
  | .recoveryLoad tag => Sys2Proof.Machine.execRecoveryLoad tag s
  | .traceRead tag => Sys2Proof.Machine.execTraceRead tag s
  | .trnCntClr => Sys2Proof.Machine.execTrnCntClr s
  | .trnEn en => Sys2Proof.Machine.execTrnEn en s
  | .carryIntoSeconds => Sys2Proof.Machine.execCarryIntoSeconds s
  | .ethLinkChange m up => Sys2Proof.Machine.execEthLinkChange m up s
  | .parity d m => Sys2Proof.Machine.execParity d m s
  | .xbarFault r => Sys2Proof.Machine.execXbarFault r s
  | .codewordLock p => Sys2Proof.Machine.execCodewordLock p s
  | .ioe1Write on => Sys2Proof.Machine.execIoe1Write on s
  | .dmi hart op => Sys2Proof.Machine.execDmi hart op s

end Sys2Proof.Machine
end

