-- ==== Sys2Proof/Machine/Pins.lean ====
section
/-!
DEFINITION. The levels of the output pins, worked out from the rest of the state: true is high.
-/
namespace Sys2Proof.Machine

/-- A fault of class F3 has been raised: the blocks that raise it drive SAFE_REQ_N low themselves (R513, R514). -/
def Dev.f3Raised (d : Dev) : Bool := d.raised.any (fun f => decide (f.cls ≥ 3))

/-- SAFE_REQ_N (R482, R495): high only with OUT_EN, no F2 latched, no HOLD, the lifecycle state not DEBUG_OPEN, not in
boot-only mode (R593), not after THERMTRIP (R592), and the device out of reset and not RETIRED (R535). -/
def Dev.safeReqN (d : Dev) : Bool :=
  d.rfB Reg.SAF_STAT Fld.SAF_STAT.OUT_EN && !d.rfB Reg.SAF_STAT Fld.SAF_STAT.F2_LATCHED
    && !d.rfB Reg.SAF_STAT Fld.SAF_STAT.HOLD && !d.rfB Reg.SAF_STAT Fld.SAF_STAT.DEBUG_HOLD
    && !d.rfB Reg.PWR_STAT Fld.PWR_STAT.BOOT_ONLY && !d.pwr.tripped && !d.pwr.porst && !d.f3Raised
    && d.boot.phase != .off && d.boot.phase != .stopped

/-- ALERT_N (R487, R513): low while a record of class F1 or above is not acknowledged, and at once for a lockstep
mismatch. -/
def Dev.alertN (d : Dev) : Bool :=
  !d.rfB Reg.SAF_STAT Fld.SAF_STAT.ALERT && !d.raised.any (fun f => f.src == Src.LOCKSTEP)

/-- THERMTRIP_N (R592). -/
def Dev.thermtripN (d : Dev) : Bool := !d.pwr.tripped

/-- TB_CMP_OUT[n] (R396): high for 1 µs. -/
def Dev.cmpOut (d : Dev) (n : Nat) : Bool :=
  match AMap.find d.sync.cmpRise n with
  | some r => decide (r ≤ d.nsNow) && decide (d.nsNow < r + 1000)
  | none => false

/-- TB_PPS_OUT (R396): high for 1 ms. -/
def Dev.ppsOut (d : Dev) : Bool :=
  match d.sync.ppsRise with
  | some r => decide (r ≤ d.nsNow) && decide (d.nsNow < r + 1000000)
  | none => false

/-- The SDIO card interrupt (R571), where `ien` is the host's enable of function 1's interrupt in the CCCR. -/
def Dev.cardInt (d : Dev) (ien : Bool) : Bool :=
  let stat := setBits (setBits (d.reg Reg.SDIO_INT_STAT) 4 4 (b2n !d.alertN)) 0 0 (b2n (!d.sdio.replies.isEmpty))
  ien && Nat.land stat (setBits (d.reg Reg.SDIO_INT_EN) 4 4 1) != 0

end Sys2Proof.Machine
end

