-- ==== Sys2Proof/Safety.lean ====
section
/-!
DEFINITION. What the claims say of a state.
-/
namespace Sys2Proof

/-- The memory is in its canonical form. -/
def Safety.memOk (s : Machine.State) : Prop := Machine.Memory.wf s.mem = true

/-- Queue and memory stay, and of the rest only registers of the list change. -/
def Safety.onlyRegs (s t : Machine.State) (as : List Nat) : Prop :=
  t = { s with dev := { s.dev with regs := t.dev.regs } } ∧ ∀ a, a ∉ as → t.dev.reg a = s.dev.reg a

/-- The machine that a meaning works on. -/
def Safety.mach (s : Machine.State) : Machine.Mach := ⟨s.mem, [], s.dev⟩

/-- In every state the command answers a next state in which the counters of the list read zero, and nothing else
changes. -/
def Safety.clears (c : Instr) (as : List Nat) : Prop :=
  ∀ s : Machine.State, ∃ t, Machine.exec c s = .next t ∧ (∀ a ∈ as, t.dev.reg a = 0) ∧ Safety.onlyRegs s t as

/-- Queue and memory stay. -/
def Safety.keepsMem (s t : Machine.State) : Prop := t.pending = s.pending ∧ t.mem = s.mem

/-- The packet with this opcode and tag has been accepted for this package, and the code that answers commands may run it
(R529, R541, R557, R558). -/
def Safety.ready (s : Machine.State) (op tag : Nat) (p : Machine.Packet) : Prop :=
  s.dev.sdio.outstanding.find? (fun x => x.tag == tag && x.op == op && x.pkg == s.dev.pkg) = some p
    ∧ s.dev.harts.any (· < 4) = false ∧ s.dev.sdio.mayStart p = true ∧ s.dev.opRefused op = false

/-- The command answers the next state that differs only in the parts other than queue and memory, as given. -/
def Safety.givesDev (c : Instr) (s : Machine.State) (d : Machine.Dev) : Prop := Machine.exec c s = .next { s with dev := d }

/-- The command answers the next state in which the machine `m` has been left: its stores are made, and the queue stays. -/
def Safety.gives (c : Instr) (s : Machine.State) (m : Machine.Mach) : Prop :=
  Machine.exec c s = .next { s with mem := Machine.Memory.writeLog s.mem m.log, dev := m.dev }

/-- The fault record that a command raises beside a step. -/
def Safety.rec (cls src code unit detail : Nat) : Machine.FaultRec :=
  { cls := cls, src := src, code := code, unit := unit, detail := detail }

/-- The memory as the errors that the environment has made by the time of a command leave it. -/
def Safety.upsetMem (s : Machine.State) (us : List Upset) : Machine.Memory :=
  Machine.Memory.writeLog s.mem ((Safety.mach s).upsets us).log

/-- The rest of the device stays, one fault record is raised, and the control engine notes one of class F1 or above. -/
def Safety.raises (d e : Machine.Dev) (f : Machine.FaultRec) : Prop :=
  e = { d with
    raised := d.raised ++ [f]
    eng := { d.eng with faultSeen := d.eng.faultSeen || decide (f.cls ≥ 1) } }

/-- No unit of memory has an error. -/
def Safety.noErrors (s : Machine.State) : Prop := s.dev.ue = [] ∧ s.dev.ce = [] ∧ s.dev.off = [] ∧ s.dev.wb = []

/-- The list with key `k` issues its entry `e`, index `i`: its step runs, nothing halts it, no breakpoint stands there, and
none of the four cases of R186 holds it back. -/
def Safety.issues (s : Machine.State) (k : Nat) (l : Machine.ListSt) (st : Machine.StepSt) (i e : Nat) : Prop :=
  (Safety.mach s).running k = some (l, st) ∧ l.front = some (i, e) ∧ Machine.passedOver e = false
    ∧ (Safety.mach s).atBreak k l i = false ∧ (Safety.mach s).heldBack k l st i e = false ∧ l.bad = none

/-- The machine as the entry at the front of list `k` is issued, and the issue itself. -/
def Safety.issued (s : Machine.State) (k : Nat) (l : Machine.ListSt) : Machine.Mach := ⟨s.mem, [], s.dev.setList k l.take⟩
def Safety.iss (k : Nat) (l : Machine.ListSt) (st : Machine.StepSt) (i e : Nat) : Machine.Iss := ⟨k, l.loop, i, e, st⟩

end Sys2Proof
end

