-- ==== Sys2Proof/Certificates/Slice0/Obligations.lean ====
section
/-!
DEFINITION. The statements for the provers.
-/
open Sys2Proof Sys2Proof.Machine

/-- With a command at the front of the queue a step is that command's effect on the state with the rest of the queue (this row's
order of commands; log 4). -/
def Obligations.StepRunsFrontCommand : Prop :=
  ∀ (c : Instr) (rest : List Instr) (s : State), s.pending = c :: rest → step s = exec c { s with pending := rest }

/-- With no command waiting a step leaves the queue and every memory as they are (the model's own choice of what an empty queue
does; log 53). -/
def Obligations.EmptyQueueIdles : Prop :=
  ∀ s : State, s.pending = [] → ∃ t, step s = .next t ∧ Safety.keepsMem s t
    ∧ (s.dev.boot.phase = .off → t = s)

/-- Every command of the table answers a next state, in every state, and takes nothing from the queue and puts nothing into it.
-/
def Obligations.EveryCommandCompletesAndKeepsQueue : Prop :=
  ∀ (c : Instr) (s : State), ∃ t, exec c s = .next t ∧ t.pending = s.pending

/-- The canonical form of the memories is an invariant of every step (R38 to R40: each address of the map names one byte). The
form itself is the model's choice (log 3). -/
def Obligations.StepKeepsMemoryCanonical : Prop :=
  ∀ s t : State, Safety.memOk s → step s = .next t → Safety.memOk t

/-- The invariant of the memories holds at reset, where no cell is listed. -/
def Obligations.ResetMemoryCanonical : Prop := Safety.memOk State.reset

/-- The CNT_CLR commands of the tiles, the ridges, the scheduler, the arbiters, Tarn, the Col ports, HBM, the flash subsystem
and ingest, and ND_CLR: the counters named read zero, every other register, every memory and every other part of the state stay
(R82, R120, R157, R203, R230, R271, R313, R347, R358, R363, R444). -/
def Obligations.FabricCountersClear : Prop :=
  (∀ t : Fin 96, Safety.clears (.arrCntClr t)
    ((List.range 4).flatMap (fun n => (List.range 8).map (fun k => Reg.TILE_ARRn_CNT_k t.val n k))))
  ∧ (∀ t : Fin 96, Safety.clears (.memCntClr t)
    ((List.range 16).map (fun b => Reg.TILE_AM_CONF_b t.val b) ++ (List.range 4).map (fun b => Reg.TILE_PS_CONF_b t.val b)
      ++ (List.range 3).map (fun m => Reg.TILE_ECC_CE_m t.val m) ++ [Reg.TILE_ECC_UE t.val, Reg.TILE_COLLIDE t.val]
      ++ (List.range 4).map (fun k => Reg.TILE_WR_CNT_k t.val k) ++ [Reg.TILE_SPUR_CALLS t.val]))
  ∧ (∀ r : Fin 24, Safety.clears (.rdgCntClr r) ((List.range 9).map (fun p => Reg.RDG_PORT_ROWS_p r.val p)))
  ∧ (∀ t : Fin 96, Safety.clears (.specCntClr t) ((List.range 5).map (fun k => Reg.TILE_SPEC_CNT_k t.val k)))
  ∧ (∀ t : Fin 96, Safety.clears (.convCntClr t) ((List.range 4).map (fun k => Reg.TILE_CONV_CNT_k t.val k)))
  ∧ Safety.clears .ndClr ([Reg.GEN_ND_TOTAL_LO, Reg.GEN_ND_TOTAL_HI, Reg.GEN_ND_INGEST, Reg.GEN_ND_COLLIDE,
      Reg.GEN_ND_SEMA, Reg.GEN_ND_LAST] ++ (List.range 16).map (fun n => Reg.GEN_ND_LOOP_n n))
  ∧ Safety.clears .arbCntClr [Reg.ARB_BITES]
  ∧ Safety.clears .schCntClr ((List.range 4).map (fun k => Reg.SCH_CNT_k k) ++ (List.range 16).flatMap (fun n =>
      (List.range 4).map (fun k => Reg.SCH_LOOPn_CNT_k n k) ++ [Reg.SCH_LOOPn_PREEMPT_T n, Reg.SCH_LOOPn_BOOST_T n]))
  ∧ Safety.clears .trnCntClr ((List.range 16).map (fun k => Reg.TRN_CNT_k k))
  ∧ Safety.clears .colCntClr ((List.range 6).flatMap (fun p => (List.range 9).map (fun k => Reg.COL_Pp_CNT_k p k)))
  ∧ Safety.clears .hbmCntClr ((List.range 5).map (fun k => Reg.HBM_CNT_k k))
  ∧ Safety.clears .flCntClr ((List.range 8).map (fun k => Reg.FL_CNT_k k))
  ∧ Safety.clears .ingCntClr ((List.range 64).flatMap (fun n => (List.range 8).map (fun k => Reg.ING_Sn_CNT_k n k))
      ++ (List.range 16).map (fun p => Reg.ING_CSIp_DISC p))

/-- The CNT_CLR commands of the timebase, the MACs, the CAN controllers, the control engine, safety, power and the command
interface; PWR_CNT_CLR zeroes PWR_MEAS.PEAK too and keeps AVG (R415, R479, R515, R572, R596). -/
def Obligations.InterfaceCountersClear : Prop :=
  Safety.clears .tbCntClr ((List.range 4).map (fun k => Reg.TB_CNT_k k))
  ∧ (∀ m : Fin 4, Safety.clears (.ethCntClr m) (Reg.ETH_OVERSIZE m.val :: (List.range 7).map (fun k => Reg.ETH_CNT_k m.val k)))
  ∧ (∀ n : Fin 4, Safety.clears (.canCntClr n) ((List.range 6).map (fun k => Reg.CAN_CNT_k n.val k)))
  ∧ Safety.clears .ceCntClr ((List.range 8).map (fun k => Reg.CE_CNT_k k))
  ∧ Safety.clears .safCntClr ((List.range 12).map (fun k => Reg.SAF_CNT_k k))
  ∧ Safety.clears .sdioCntClr ((List.range 8).map (fun k => Reg.SDIO_CNT_k k))
  ∧ (∀ s : State, ∃ t, exec .pwrCntClr s = .next t ∧ (∀ k, k < 4 → t.dev.reg (Reg.PWR_CNT_k k) = 0)
      ∧ t.dev.rf Reg.PWR_MEAS Fld.PWR_MEAS.PEAK = 0
      ∧ t.dev.rf Reg.PWR_MEAS Fld.PWR_MEAS.AVG = s.dev.rf Reg.PWR_MEAS Fld.PWR_MEAS.AVG
      ∧ Safety.onlyRegs s t (Reg.PWR_MEAS :: (List.range 4).map (fun k => Reg.PWR_CNT_k k)))

/-- PACE_SAMPLE, CLR_PEAK, PACE_FROZEN and PACE_RECOVERED on the monitors (R30, R32): a sampling gives each monitor its reading
in CUR and the slowest one since CLR_PEAK in PEAK, while the fabric is powered; CLR_PEAK gives PEAK the value of CUR; a frozen
monitor becomes INVALID with one F1, and one that has been good for 100 samplings valid again with one F0. -/
def Obligations.PaceMonitors : Prop :=
  (∀ (rs : List (BitVec 16)) (started : List (Fin 16)) (marked : List ListId) (s : State), s.dev.pwr.fabOn = true →
    ∃ t, exec (.paceSample rs started marked) s = .next t ∧ Safety.keepsMem s t ∧ ∀ (m : Nat) (r : BitVec 16), m < 28 → rs[m]? = some r →
      t.dev.rf (Reg.GEN_PACE_n m) Fld.GEN_PACE_n.CUR = r.toNat
      ∧ t.dev.rf (Reg.GEN_PACE_n m) Fld.GEN_PACE_n.PEAK = max (s.dev.rf (Reg.GEN_PACE_n m) Fld.GEN_PACE_n.PEAK) r.toNat)
  ∧ (∀ s : State, ∃ t, exec .clrPeak s = .next t ∧ Safety.onlyRegs s t ((List.range 28).map (fun m => Reg.GEN_PACE_n m))
    ∧ ∀ m, m < 28 → t.dev.rf (Reg.GEN_PACE_n m) Fld.GEN_PACE_n.PEAK = s.dev.rf (Reg.GEN_PACE_n m) Fld.GEN_PACE_n.CUR
      ∧ t.dev.rf (Reg.GEN_PACE_n m) Fld.GEN_PACE_n.CUR = s.dev.rf (Reg.GEN_PACE_n m) Fld.GEN_PACE_n.CUR)
  ∧ (∀ (m : Fin 28) (s : State), s.dev.pwr.fabOn = true → 10 ≤ (s.dev.pace m.val).same → s.dev.paceInvalid m.val = false →
    ∃ t, exec (.paceFrozen m) s = .next t ∧ t.dev.paceInvalid m.val = true ∧ t.mem = s.mem
      ∧ t.dev.raised = s.dev.raised ++ [{ cls := 1, src := Src.PACE, code := 0x0001, unit := m.val, detail := s.dev.paceCur m.val }])
  ∧ (∀ (m : Fin 28) (s : State), 100 ≤ (s.dev.pace m.val).good → s.dev.paceInvalid m.val = true →
    ∃ t, exec (.paceRecovered m) s = .next t ∧ t.dev.paceInvalid m.val = false ∧ t.mem = s.mem
      ∧ t.dev.raised = s.dev.raised ++ [{ cls := 0, src := Src.PACE, code := 0x0002, unit := m.val, detail := s.dev.paceCur m.val }])

/-- The monitors and the watch rings raise their faults and change nothing else (R25, R490, R594): the clock monitor F3 with
source MONITOR and code 0x0008; a rail outside its tolerance F2 with code 0x0009, the rail and the voltage in millivolts, and a
rail inside it nothing; the duplicate counter of the timebase F3 with source TIMEBASE and code 0x0002; a ring break F1 with
source WATCH and code 0x0001 and a parity error F1 with code 0x0002, the domain in UNIT and the member in DETAIL. -/
def Obligations.MonitorsRaiseFaults : Prop :=
  (∀ s : State, ∃ d, Safety.givesDev .clock s d ∧ Safety.raises s.dev d (Safety.rec 3 Src.MONITOR 0x0008 0xFFFF 0))
  ∧ (∀ (r : Fin 12) (mv : BitVec 16) (s : State),
      let nom := (s.dev.railLimits r.val).1
      let tol := (s.dev.railLimits r.val).2
      if nom * (100 - tol) ≤ 100 * mv.toNat ∧ 100 * mv.toNat ≤ nom * (100 + tol) then Safety.givesDev (.rail r mv) s s.dev
      else ∃ d, Safety.givesDev (.rail r mv) s d ∧ Safety.raises s.dev d (Safety.rec 2 Src.MONITOR 0x0009 r.val mv.toNat))
  ∧ (∀ s : State, ∃ d, Safety.givesDev .counterCompare s d
      ∧ Safety.raises s.dev d (Safety.rec 3 Src.TIMEBASE 0x0002 0xFFFF 0))
  ∧ (∀ (dom : Fin 4) (mem : Fin 24) (s : State), s.dev.ridgeOn mem.val = true →
      ∃ d, Safety.givesDev (.ringBreak dom mem) s d ∧ Safety.raises s.dev d (Safety.rec 1 Src.WATCH 0x0001 dom.val mem.val))
  ∧ (∀ (dom : Fin 4) (mem : Fin 24) (s : State), s.dev.ridgeOn mem.val = true →
      ∃ d, Safety.givesDev (.parity dom mem) s d ∧ Safety.raises s.dev d (Safety.rec 1 Src.WATCH 0x0002 dom.val mem.val))

/-- The watch agents' reactions to a tile that does not halt (R492): 10 µs after its halt the tile is reset and WATCH 0x0003 is
raised; 10 µs after that it is fenced, TILE_STAT.FENCED is set and WATCH 0x0004 is raised; a crossbar fault sets
RDG_STAT.XBAR_FAULT and raises RIDGE 0x0001. After the reset the tile's arrays hold nothing, and memory stays. -/
def Obligations.WatchAgentsResetAndFence : Prop :=
  (∀ (t : Fin 96) (found : ArrayFaults) (s : State), s.dev.saf.halting.contains t.val = true →
    ∃ u, exec (.haltTimeout t found) s = .next u
      ∧ Safety.keepsMem s u ∧ u.dev.saf.wasReset.contains t.val = true ∧ u.dev.saf.halting.contains t.val = false
      ∧ Safety.rec 1 Src.WATCH 0x0003 t.val 0 ∈ u.dev.raised ∧ (∀ l, l < 4 → u.dev.larr t.val l = {}))
  ∧ (∀ (t : Fin 96) (s : State), s.dev.saf.wasReset.contains t.val = true → ∃ u, exec (.fence t) s = .next u
      ∧ Safety.keepsMem s u ∧ u.dev.rf (Reg.TILE_STAT t.val) Fld.TILE_STAT.FENCED = 1
      ∧ u.dev.saf.wasReset.contains t.val = false
      ∧ u.dev.raised = s.dev.raised ++ [Safety.rec 1 Src.WATCH 0x0004 t.val 0])
  ∧ (∀ (r : Fin 24) (s : State), s.dev.ridgeOn r.val = true → ∃ u, exec (.xbarFault r) s = .next u
      ∧ Safety.keepsMem s u ∧ u.dev.rf (Reg.RDG_STAT r.val) Fld.RDG_STAT.XBAR_FAULT = 1
      ∧ u.dev.raised = s.dev.raised ++ [Safety.rec 1 Src.RIDGE 0x0001 r.val 0]
      ∧ (∀ a, a ≠ Reg.RDG_STAT r.val → u.dev.reg a = s.dev.reg a))

/-- Power caps and the governor (R584 to R587): a cap or a boost written outside boot-only mode is held in PWR_CTRL, and when the
fabric is powered, no change is in progress and it asks for one, a change begins, with TRANS set; in boot-only mode the write is
refused by CFG_LOCKED_WRITE. When the rail has settled, the change asked for is in effect and TRANS is clear, or, where another
has been written meanwhile, that one begins; PWR_CNT_0 counts a change of cap. Outside PORST a measurement gives AVG, and PEAK
keeps the highest. -/
def Obligations.PowerCapsAndGovernor : Prop :=
  (∀ (cap : BitVec 2) (s : State), s.dev.bootOnly = true →
      Safety.givesDev (.capWrite cap) s (s.dev.wf Reg.PWR_STAT Fld.PWR_STAT.CFG_LOCKED_WRITE 1))
  ∧ (∀ (boost : Bool) (s : State), s.dev.bootOnly = true →
      Safety.givesDev (.boostWrite boost) s (s.dev.wf Reg.PWR_STAT Fld.PWR_STAT.CFG_LOCKED_WRITE 1))
  ∧ (∀ (cap : BitVec 2) (s : State), s.dev.bootOnly = false →
      (s.dev.pwr.fabOn = false ∨ s.dev.pwr.change ≠ none ∨ cap.toNat = s.dev.capEff) →
      ∃ t, exec (.capWrite cap) s = .next t ∧ t.dev.rf Reg.PWR_CTRL Fld.PWR_CTRL.CAP = cap.toNat
        ∧ Safety.onlyRegs s t [Reg.PWR_CTRL])
  ∧ (∀ (boost : Bool) (s : State), s.dev.bootOnly = false → (s.dev.pwr.fabOn = false ∨ s.dev.pwr.change ≠ none
      ∨ (s.dev.rf Reg.PWR_CTRL Fld.PWR_CTRL.CAP = s.dev.capEff
        ∧ (s.dev.capEff ≠ 3 ∨ s.dev.rfB Reg.PWR_CTRL Fld.PWR_CTRL.BOOST = boost))) →
      ∃ t, exec (.boostWrite boost) s = .next t ∧ t.dev.rf Reg.PWR_CTRL Fld.PWR_CTRL.BOOST = b2n boost
        ∧ Safety.onlyRegs s t [Reg.PWR_CTRL])
  ∧ (∀ (cap : BitVec 2) (s : State), s.dev.bootOnly = false → s.dev.pwr.fabOn = true → s.dev.pwr.change = none →
      cap.toNat ≠ s.dev.capEff → ∃ t, exec (.capWrite cap) s = .next t ∧ Safety.keepsMem s t
        ∧ t.dev.rf Reg.PWR_CTRL Fld.PWR_CTRL.CAP = cap.toNat ∧ t.dev.rf Reg.PWR_STAT Fld.PWR_STAT.TRANS = 1
        ∧ t.dev.pwr.change = some (cap.toNat, s.dev.rfB Reg.PWR_CTRL Fld.PWR_CTRL.BOOST))
  ∧ (∀ (boost : Bool) (s : State), s.dev.bootOnly = false → s.dev.pwr.fabOn = true → s.dev.pwr.change = none →
      s.dev.rf Reg.PWR_CTRL Fld.PWR_CTRL.CAP = 3 → s.dev.capEff = 3 → s.dev.rfB Reg.PWR_CTRL Fld.PWR_CTRL.BOOST ≠ boost →
      ∃ t, exec (.boostWrite boost) s = .next t ∧ Safety.keepsMem s t
        ∧ t.dev.rf Reg.PWR_CTRL Fld.PWR_CTRL.BOOST = b2n boost ∧ t.dev.rf Reg.PWR_STAT Fld.PWR_STAT.TRANS = 1
        ∧ t.dev.pwr.change = some (3, boost))
  ∧ (∀ (cap : Nat) (boost : Bool) (s : State), cap < 4 → s.dev.pwr.change = some (cap, boost) →
      s.dev.rf Reg.PWR_CTRL Fld.PWR_CTRL.CAP = cap → (cap ≠ 3 ∨ s.dev.rfB Reg.PWR_CTRL Fld.PWR_CTRL.BOOST = boost) →
      ∃ t, exec .railSettled s = .next t ∧ Safety.keepsMem s t ∧ t.dev.pwr.change = none
        ∧ t.dev.rf Reg.PWR_STAT Fld.PWR_STAT.TRANS = 0 ∧ t.dev.capEff = cap
        ∧ t.dev.reg (Reg.PWR_CNT_k 0) = satAdd 32 (s.dev.reg (Reg.PWR_CNT_k 0)) (b2n (cap != s.dev.capEff)))
  ∧ (∀ (cap : Nat) (boost : Bool) (s : State), cap < 4 → s.dev.pwr.change = some (cap, boost) →
      (s.dev.rf Reg.PWR_CTRL Fld.PWR_CTRL.CAP ≠ cap ∨ (cap = 3 ∧ s.dev.rfB Reg.PWR_CTRL Fld.PWR_CTRL.BOOST ≠ boost)) →
      ∃ t, exec .railSettled s = .next t ∧ Safety.keepsMem s t
        ∧ t.dev.pwr.change = some (s.dev.rf Reg.PWR_CTRL Fld.PWR_CTRL.CAP, s.dev.rfB Reg.PWR_CTRL Fld.PWR_CTRL.BOOST)
        ∧ t.dev.rf Reg.PWR_STAT Fld.PWR_STAT.TRANS = 1 ∧ t.dev.capEff = cap)
  ∧ (∀ s : State, s.dev.pwr.change = none → ∃ t, exec .railSettled s = .next t ∧ Safety.keepsMem s t
      ∧ t.dev.regs = s.dev.regs ∧ t.dev.pwr.moving = none)
  ∧ (∀ (avg : BitVec 16) (s : State), s.dev.pwr.porst = false → ∃ t, exec (.governor avg) s = .next t ∧ Safety.keepsMem s t
        ∧ t.dev.rf Reg.PWR_MEAS Fld.PWR_MEAS.AVG = avg.toNat
        ∧ t.dev.rf Reg.PWR_MEAS Fld.PWR_MEAS.PEAK = max avg.toNat (s.dev.rf Reg.PWR_MEAS Fld.PWR_MEAS.PEAK))

/-- The fabric loses its power and gets it back (R588, R589, R593): outside PORST, POWER_FAIL leaves VDD_FAB off with no change of
cap in progress; POWER_RESTORE after it switches VDD_FAB on again, unless THERMTRIP has halted the fabric; COOLING enters
boot-only mode, with the stretch at 32/8 and the HBM limit at 3. Where its event does not apply, each changes nothing. -/
def Obligations.PowerFailureAndCooling : Prop :=
  (∀ s : State, s.dev.pwr.porst = false → s.dev.pwr.pwrFail = false → ∃ t, exec .powerFail s = .next t
    ∧ t.pending = s.pending ∧ t.dev.pwr.pwrFail = true ∧ t.dev.pwr.fabOn = false ∧ t.dev.pwr.change = none)
  ∧ (∀ s : State, s.dev.pwr.pwrFail = true → ∃ t, exec .powerRestore s = .next t ∧ Safety.keepsMem s t
    ∧ t.dev.pwr.pwrFail = false ∧ t.dev.pwr.fabOn = !s.dev.pwr.tripped)
  ∧ (∀ s : State, s.dev.pwr.porst = false → s.dev.bootOnly = false → ∃ t, exec .cooling s = .next t
    ∧ t.pending = s.pending ∧ t.dev.bootOnly = true ∧ t.dev.stretch = 32
    ∧ t.dev.rf Reg.PWR_STAT Fld.PWR_STAT.HBM_LIM = 3)
  ∧ (∀ s : State, (s.dev.pwr.porst = true ∨ s.dev.pwr.pwrFail = true → Safety.givesDev .powerFail s s.dev)
    ∧ (s.dev.pwr.pwrFail = false → Safety.givesDev .powerRestore s s.dev)
    ∧ (s.dev.pwr.porst = true ∨ s.dev.bootOnly = true → Safety.givesDev .cooling s s.dev))

/-- Temperature (R592), outside PORST: a check shows the fabric's temperature in PWR_THERM.FAB_MAX, and above 105 °C the fabric is
throttled; THERMTRIP drives THERMTRIP_N and SAFE_REQ_N low and changes nothing else. In PORST neither does anything. -/
def Obligations.ThermalLimits : Prop :=
  (∀ (fab : Int) (hbm : List Int) (s : State), s.dev.pwr.porst = false → ∃ t, exec (.thermalCheck fab hbm) s = .next t
    ∧ Safety.keepsMem s t ∧ t.dev.rf Reg.PWR_THERM Fld.PWR_THERM.FAB_MAX = wrap 8 fab
    ∧ (fab > 105 → t.dev.pwr.fabThrottle = true))
  ∧ (∀ s : State, s.dev.pwr.porst = false → ∃ t, exec .thermtrip s = .next t ∧ t.dev.thermtripN = false
    ∧ t.dev.safeReqN = false ∧ t = { s with dev := { s.dev with pwr := { s.dev.pwr with tripped := true } } })
  ∧ (∀ (fab : Int) (hbm : List Int) (s : State), s.dev.pwr.porst = true →
    Safety.givesDev (.thermalCheck fab hbm) s s.dev ∧ Safety.givesDev .thermtrip s s.dev)

/-- A fault record that reaches the aggregator (R483 to R487): it gets the next sequence number and is written to the log with
its class after promotion; of class F1 or above it holds ALERT_N low, of F2 or above SAFE_REQ_N, and of F3 it schedules the warm
reset; records that arrive together are aggregated as R484 orders them. A lockstep mismatch is such a record of class F3. -/
def Obligations.FaultRecordIsLoggedAndActs : Prop :=
  (∀ (f : FaultRec) (rest : List FaultRec) (s : State), s.dev.raised = f :: rest → ∃ t, exec (.faultRecord 1) s = .next t
    ∧ t.dev.reg Reg.SAF_SEQ = (s.dev.reg Reg.SAF_SEQ + 1) % 2 ^ 32
    ∧ t.dev.saf.log.getLast? = some (s.dev.logRecord ((s.dev.reg Reg.SAF_SEQ + 1) % 2 ^ 32) f)
    ∧ (s.dev.promoted f ≥ 1 → t.dev.alertN = false) ∧ (s.dev.promoted f ≥ 2 → t.dev.safeReqN = false)
    ∧ (s.dev.promoted f ≥ 3 → t.dev.saf.resetAt.isSome = true))
  ∧ (∀ (n : Nat) (s : State), Safety.gives (.faultRecord n) s
    (((Safety.mach s).mod (fun d => { d with raised := d.raised.drop n })).aggregate (s.dev.raised.take n)))
  ∧ (∀ (pair : Fin 4) (s : State), ∃ t, exec (.mismatch pair) s = .next t
    ∧ t.dev.reg Reg.SAF_SEQ = (s.dev.reg Reg.SAF_SEQ + 1) % 2 ^ 32
    ∧ t.dev.alertN = false ∧ t.dev.safeReqN = false ∧ t.dev.saf.resetAt.isSome = true)

/-- Start-up error injection ends (R493, R495, R526, R535): INJ_DONE is set, and OUT_EN is set exactly when INJ_FAIL is clear; a
retired part stops, a package with the COL_BOOT strap waits for its images, and any other mounts its flash. -/
def Obligations.InjectionEndsStartUp : Prop :=
  ∀ (rs : List InjectResult) (s : State), s.dev.boot.phase = .injecting → ∃ t, exec (.errorInjection rs) s = .next t
    ∧ Safety.keepsMem s t ∧ t.dev.rf Reg.SAF_STAT Fld.SAF_STAT.INJ_DONE = 1
    ∧ t.dev.rf Reg.SAF_STAT Fld.SAF_STAT.OUT_EN = 1 - t.dev.rf Reg.SAF_STAT Fld.SAF_STAT.INJ_FAIL
    ∧ (s.dev.boot.fuses.lcs = 4 → t.dev.boot.phase = .stopped)
    ∧ (s.dev.boot.fuses.lcs ≠ 4 → t.dev.boot.phase = (if s.dev.rf Reg.COL_GRP Fld.COL_GRP.BOOT_COL = 1 then .colBoot
      else .mounting))

/-- Timing supervision (R496, R498, R500): a budget at or below 0 aborts the running step, unless debug halts it, with the fault of
the step supervisor or of the segment; a budget above 0 aborts nothing. -/
def Obligations.SupervisionExpires : Prop :=
  (∀ (loop : Fin 16) (beats : Nat) (st : StepSt) (s : State), (s.dev.loop loop.val).step = some st → st.phase = .running →
    s.dev.dbgHalted loop.val = false → st.budget ≤ 0 →
    Safety.gives (.stepSupervisorExpire loop beats) s ((Safety.mach s).superviseAbort loop.val 0 0xFFFF 0 (some beats)))
  ∧ (∀ (l : ListId) (beats : Nat) (x : ListSt) (st : StepSt) (b : Rat) (s : State), s.dev.list (listKey l) = some x →
    (s.dev.loop x.loop).step = some st → st.phase = .running → s.dev.dbgHalted x.loop = false → x.segment = some b → b ≤ 0 →
    Safety.gives (.segmentExpire l beats) s
      ((Safety.mach s).superviseAbort x.loop 1 (listUnit (listKey l)) (x.next % 2 ^ 20) (some beats)))
  ∧ (∀ (loop : Fin 16) (beats : Nat) (st : StepSt) (s : State), (s.dev.loop loop.val).step = some st → 0 < st.budget →
    Safety.givesDev (.stepSupervisorExpire loop beats) s s.dev)
  ∧ (∀ (l : ListId) (beats : Nat) (x : ListSt) (b : Rat) (s : State), s.dev.list (listKey l) = some x →
    x.segment = some b → 0 < b → Safety.givesDev (.segmentExpire l beats) s s.dev)

/-- The periodic self-test (R507, R510, R511): a chunk that is done is counted and no longer runs; a forced tile takes the next
hole; an interval that ends with the cycle incomplete sets LATE and raises an F1 with the chunks done. -/
def Obligations.SelfTestProgress : Prop :=
  (∀ (t : Fin 96) (k : Nat) (r : ChunkResult) (s : State), (s.dev.tile t.val).chunk = some k →
    ∃ u, exec (.chunkDone t r []) s = .next u
    ∧ Safety.keepsMem s u ∧ (u.dev.tile t.val).chunk = none
    ∧ u.dev.reg (Reg.SAF_CNT_k 9) = satAdd 32 (s.dev.reg (Reg.SAF_CNT_k 9)) 1)
  ∧ (∀ (t : Fin 96) (s : State), s.dev.tileOn t.val = true → s.dev.rfB Reg.SAF_CTRL Fld.SAF_CTRL.ST_EN = true →
    s.dev.rfB Reg.SAF_STAT Fld.SAF_STAT.OUT_EN = true → ∃ u, exec (.selftestForce t) s = .next u ∧ Safety.keepsMem s u
    ∧ (u.dev.tile t.val).forced = true)
  ∧ (∀ (t : Fin 96) (s : State), s.dev.tileOn t.val = true → s.dev.rfB Reg.SAF_STAT Fld.SAF_STAT.OUT_EN = true →
    ∃ u, exec (.late t) s = .next u ∧ Safety.keepsMem s u
    ∧ u.dev.rf (Reg.SAF_TILEt_ST t.val) Fld.SAF_TILEt_ST.LATE = 1 ∧ (u.dev.tile t.val).forced = false
    ∧ u.dev.raised = s.dev.raised
        ++ [Safety.rec 1 Src.SELFTEST 1 t.val ((s.dev.tile t.val).doneChunks.length % 2 ^ 64)])

/-- Challenges and tokens (R537 to R540): with three tokens failed a challenge is zeros; below three it is fresh and live from
now; a token of the port that does not verify is one failure more and voids the challenge, and one that verifies opens the port
with its scope and blocks the identity; after 60 s no challenge is live. -/
def Obligations.ChallengesAndTokens : Prop :=
  (∀ s : State, s.dev.tokenFails ≥ 3 → s.dev.issueChallenge = (List.replicate 64 0, s.dev) ∧ Safety.givesDev .tapChal s s.dev)
  ∧ (∀ s : State, s.dev.pwr.porst = false → s.dev.tokenFails < 3 → ∃ t, exec .tapChal s = .next t ∧ Safety.keepsMem s t
    ∧ t = { s with dev := s.dev.issueChallenge.2 }
    ∧ ∃ nonce, t.dev.boot.challenge = some (nonce, s.dev.stamp, s.dev.nsNow))
  ∧ (∀ (tok : List Byte) (s : State), s.dev.pwr.porst = false → s.dev.tokenFails < 3 → s.dev.dbgOpen = false →
    s.dev.tokenStatus tok false ≠ ST.OK → ∃ t, exec (.tapToken tok) s = .next t ∧ Safety.keepsMem s t
    ∧ t.dev.boot.challenge = none ∧ t.dev.tokenFails = s.dev.tokenFails + 1 ∧ t.dev.dbgOpen = false
    ∧ t.dev.raised = s.dev.raised ++ [Safety.rec 1 Src.SECURITY 4 0xFFFF 0])
  ∧ (∀ (tok : List Byte) (s : State), s.dev.pwr.porst = false → s.dev.tokenFails < 3 → s.dev.dbgOpen = false →
    s.dev.tokenStatus tok false = ST.OK → ∃ t, exec (.tapToken tok) s = .next t
    ∧ t.dev.dbgOpen = true ∧ t.dev.rf Reg.DBG_STAT Fld.DBG_STAT.SCOPE = bits (field tok 0x30 4) 2 0
    ∧ t.dev.boot.fuses.debugCount = min 64 (s.dev.boot.fuses.debugCount + 1)
    ∧ t.dev.rf Reg.SEC_LCS Fld.SEC_LCS.ID_BLOCK = 1
    ∧ t.dev.raised = s.dev.raised ++ [Safety.rec 2 Src.SECURITY 5 0xFFFF 0])
  ∧ (∀ (tok : List Byte) (s : State), s.dev.pwr.porst = true ∨ s.dev.tokenFails ≥ 3 ∨ s.dev.dbgOpen = true →
    Safety.givesDev (.tapToken tok) s s.dev)
  ∧ (∀ s : State, s.dev.boot.challenge ≠ none → ∃ t, exec .challengeExpire s = .next t ∧ Safety.keepsMem s t
    ∧ t.dev.boot.challenge = none)

/-- A reply placed while no other waits and there is room for it (R550, R556, R559, R564): the reply buffer gets the packet at
its end, the command is no longer outstanding, REPLIES counts, and REFUSED counts a status other than ST_OK. -/
def Obligations.ReplyEntersBuffer : Prop :=
  ∀ (d : Dev) (p : Packet) (st : Nat) (pl : List Byte), d.servedFor p.tag = none → d.sdio.waiting = [] → st ≠ ST.DEFERRED →
    d.sdio.replyBytes + (mkPacket p.op p.tag 1 p.pkg st pl).length ≤ 65536 → (∀ x ∈ d.sdio.outstanding, x.pkg = d.pkg) →
    (d.reply p st pl).sdio = { d.sdio with
        replies := d.sdio.replies ++ [mkPacket p.op p.tag 1 p.pkg st pl]
        outstanding := d.sdio.outstanding.filter (fun x => x.tag != p.tag) }
      ∧ (d.reply p st pl).reg (Reg.SDIO_CNT_k 1) = satAdd 32 (d.reg (Reg.SDIO_CNT_k 1)) 1
      ∧ (st ≠ ST.OK → (d.reply p st pl).reg (Reg.SDIO_CNT_k 7) = satAdd 32 (d.reg (Reg.SDIO_CNT_k 7)) 1)

/-- Identity, echo and time (R6, R386, R389, R392, R530, R563): each replies ST_OK with its payload; TIME_SET moves a timebase
in FREE to the stamp of its payload, and outside FREE it is refused with ST_STATE. -/
def Obligations.IdentityEchoAndTimePackets : Prop :=
  (∀ (tag : BitVec 16) (p : Packet) (s : State), Safety.ready s 0x0101 tag.toNat p → ∃ out : List Byte,
    Safety.givesDev (.devInfo tag) s (s.dev.reply p ST.OK out) ∧ out.length = 64
    ∧ field out 0 8 = s.dev.boot.fuses.uid.toNat ∧ field out 8 4 = s.dev.reg Reg.GEN_ID
    ∧ field out 12 4 = s.dev.reg Reg.GEN_RIDGE_EN)
  ∧ (∀ (tag : BitVec 16) (p : Packet) (s : State), Safety.ready s 0x0102 tag.toNat p →
    Safety.givesDev (.echo tag) s (s.dev.reply p ST.OK p.payload))
  ∧ (∀ (tag : BitVec 16) (p : Packet) (s : State), Safety.ready s 0x0901 tag.toNat p →
    Safety.givesDev (.idCert tag) s (s.dev.reply p ST.OK (s.dev.boot.fuses.cert.take 1024)))
  ∧ (∀ (tag : BitVec 16) (p : Packet) (s : State), Safety.ready s 0x0601 tag.toNat p → ∃ out : List Byte,
    Safety.givesDev (.timeGet tag) s (s.dev.reply p ST.OK out) ∧ field out 0 8 = s.dev.stamp % 2 ^ 64)
  ∧ (∀ (tag : BitVec 16) (p : Packet) (s : State), Safety.ready s 0x0602 tag.toNat p →
    pay64 p.payload 0 % 2 ^ 30 < 1000000000 → s.dev.tbState = tbFree → ∃ e : Dev,
    Safety.givesDev (.timeSet tag) s (e.reply p ST.OK []) ∧ e.stamp = pay64 p.payload 0)
  ∧ (∀ (tag : BitVec 16) (p : Packet) (s : State), Safety.ready s 0x0602 tag.toNat p →
    pay64 p.payload 0 % 2 ^ 30 < 1000000000 → s.dev.tbState ≠ tbFree →
    Safety.givesDev (.timeSet tag) s (s.dev.reply p ST.STATE []))

/-- Register packets (R565 to R567): a range that is refused changes nothing; else REG_READ replies the words it reads in
ascending order, REG_WRITE writes its words, with ST_LOCKED_WRITE when one met a locked field, and REG_RMW replies the old and
the new value, or, when it meets a locked field, ST_LOCKED_WRITE and writes nothing but the block's lock flag. -/
def Obligations.RegisterPackets : Prop :=
  (∀ (tag : BitVec 16) (p : Packet) (st : Nat) (s : State), Safety.ready s 0x0201 tag.toNat p →
    s.dev.regRange (pay64 p.payload 0) (pay32 p.payload 8) = some st →
    Safety.givesDev (.regRead tag) s (s.dev.reply p st []))
  ∧ (∀ (tag : BitVec 16) (p : Packet) (m : Mach) (ws : List Nat) (s : State), Safety.ready s 0x0201 tag.toNat p →
    s.dev.regRange (pay64 p.payload 0) (pay32 p.payload 8) = none →
    (Safety.mach s).regWords (agentId .command) (pay64 p.payload 0) (pay32 p.payload 8) = (m, ws) →
    Safety.gives (.regRead tag) s (m.ok p (ws.flatMap (leBytes 4))))
  ∧ (∀ (tag : BitVec 16) (p : Packet) (m : Mach) (locked : Bool) (s : State), Safety.ready s 0x0202 tag.toNat p →
    s.dev.regRange (pay64 p.payload 0) (pay32 p.payload 8) = none →
    (Safety.mach s).putWords (pay64 p.payload 0)
      ((List.range (pay32 p.payload 8)).map (fun i => pay32 p.payload (12 + 4 * i))) = (m, locked) →
    Safety.gives (.regWrite tag) s (m.answer p (if locked then ST.LOCKED_WRITE else ST.OK) []))
  ∧ (∀ (tag : BitVec 16) (p : Packet) (m1 m2 m3 : Mach) (old new : Nat) (s : State),
    Safety.ready s 0x0203 tag.toNat p → s.dev.regRange (pay64 p.payload 0) 1 = none →
    (Safety.mach s).regRead (agentId .command) (pay64 p.payload 0) = (m1, old) →
    m1.regWrite (pay64 p.payload 0) (Nat.lor
        (Nat.land old (2 ^ 32 - 1 - Nat.lor (pay32 p.payload 8) (w1cMask (pay64 p.payload 0))))
        (Nat.land (pay32 p.payload 12) (pay32 p.payload 8))) = (m2, false) →
    m2.regRead (agentId .command) (pay64 p.payload 0) = (m3, new) →
    Safety.gives (.regRmw tag) s (m3.ok p (leBytes 4 old ++ leBytes 4 new)))
  ∧ (∀ (tag : BitVec 16) (p : Packet) (m1 m2 : Mach) (old : Nat) (s : State),
    Safety.ready s 0x0203 tag.toNat p → s.dev.regRange (pay64 p.payload 0) 1 = none →
    (Safety.mach s).regRead (agentId .command) (pay64 p.payload 0) = (m1, old) →
    m1.regWrite (pay64 p.payload 0) (Nat.lor
        (Nat.land old (2 ^ 32 - 1 - Nat.lor (pay32 p.payload 8) (w1cMask (pay64 p.payload 0))))
        (Nat.land (pay32 p.payload 12) (pay32 p.payload 8))) = (m2, true) →
    Safety.givesDev (.regRmw tag) s ((s.dev.flagLock (s.dev.lockAt (pay64 p.payload 0))).reply p ST.LOCKED_WRITE []))

/-- MEM_WRITE and MEM_FILL (R568 to R570): in every state where the packet is outstanding, every byte outside the range that
starts at the address of its payload reads as the environment's memory errors have left it, as before where there are none;
where the packet may run, no check refuses the range and no memory error meets it, every byte of the range reads as written,
and the reply is ST_OK. -/
def Obligations.MemoryWritePackets : Prop :=
  (∀ (tag : BitVec 16) (p : Packet) (hit : List (Fin 96 × Fin 32768)) (us : List Upset) (s t : State),
    Safety.memOk s → exec (.memWrite tag hit us) s = .next t →
    s.dev.sdio.outstanding.find? (fun x => x.tag == tag.toNat && x.op == 0x0302 && x.pkg == s.dev.pkg) = some p →
    ∀ x, x < pay64 p.payload 0 ∨ pay64 p.payload 0 + (p.payload.length - 12) ≤ x →
      Memory.read t.mem x = Memory.read (Safety.upsetMem s us) x)
  ∧ (∀ (tag : BitVec 16) (p : Packet) (hit : List (Fin 96 × Fin 32768)) (s : State), Safety.memOk s →
    Safety.ready s 0x0302 tag.toNat p → Safety.noErrors s → s.dev.flash.flipped = [] →
    (Safety.mach s).writeRefusal (pay64 p.payload 0) (p.payload.drop 12).length (bit (pay32 p.payload 8) 0) = none →
    ∃ (t : State) (e : Dev), exec (.memWrite tag hit []) s = .next t ∧ t.dev = e.reply p ST.OK []
      ∧ ∀ i, i < (p.payload.drop 12).length →
          Memory.read t.mem (pay64 p.payload 0 + i) = (p.payload.drop 12).getD i 0)
  ∧ (∀ (tag : BitVec 16) (p : Packet) (hit : List (Fin 96 × Fin 32768)) (us : List Upset) (s t : State),
    Safety.memOk s → exec (.memFill tag hit us) s = .next t →
    s.dev.sdio.outstanding.find? (fun x => x.tag == tag.toNat && x.op == 0x0303 && x.pkg == s.dev.pkg) = some p →
    ∀ x, x < pay64 p.payload 0 ∨ pay64 p.payload 0 + pay32 p.payload 8 ≤ x →
      Memory.read t.mem x = Memory.read (Safety.upsetMem s us) x)
  ∧ (∀ (tag : BitVec 16) (p : Packet) (hit : List (Fin 96 × Fin 32768)) (s : State), Safety.memOk s →
    Safety.ready s 0x0303 tag.toNat p → Safety.noErrors s → s.dev.flash.flipped = [] →
    pay64 p.payload 0 % 4 = 0 → pay32 p.payload 8 % 4 = 0 → pay32 p.payload 8 ≠ 0 →
    (Safety.mach s).writeRefusal (pay64 p.payload 0) (pay32 p.payload 8) (bit (pay32 p.payload 16) 0) = none →
    ∃ (t : State) (e : Dev), exec (.memFill tag hit []) s = .next t ∧ t.dev = e.reply p ST.OK []
      ∧ ∀ i, i < pay32 p.payload 8 →
          Memory.read t.mem (pay64 p.payload 0 + i) = (leBytes 4 (pay32 p.payload 12)).getD (i % 4) 0)

/-- MEM_READ and MEM_CHECK (R377, R568, R570): they store nothing beyond the environment's memory errors; a read that no check
refuses and that meets no memory error replies its bytes, or the check value that its selector asks for. -/
def Obligations.MemoryReadPackets : Prop :=
  (∀ (tag : BitVec 16) (us : List Upset) (p : Packet) (m : Mach) (bs : List Byte) (s : State),
    Safety.ready s 0x0301 tag.toNat p → 0 < pay32 p.payload 8 → pay32 p.payload 8 ≤ 32768 →
    ((Safety.mach s).upsets us).commandRead (pay64 p.payload 0) (pay32 p.payload 8) = (m, .inr bs) →
    Safety.gives (.memRead tag us) s (m.ok p bs))
  ∧ (∀ (tag : BitVec 16) (us : List Upset) (p : Packet) (m : Mach) (bs : List Byte) (s : State),
    Safety.ready s 0x0304 tag.toNat p → 0 < pay32 p.payload 8 → pay8 p.payload 12 ≤ 3 →
    ((Safety.mach s).upsets us).commandRead (pay64 p.payload 0) (pay32 p.payload 8) = (m, .inr bs) →
    Safety.gives (.memCheck tag us) s (m.ok p (leBytes 8 ((crcParams (pay8 p.payload 12)).check bs))))
  ∧ (∀ (tag : BitVec 16) (us : List Upset) (s t : State),
      exec (.memRead tag us) s = .next t ∨ exec (.memCheck tag us) s = .next t → t.mem = Safety.upsetMem s us)

/-- Routes (R197, R199, R201, R531, R564): with no free handle ROUTE_LOAD replies ST_TABLE_FULL with handle 0xFF; an image that
passes validation is held under the lowest free handle and extends the measurement, and one that fails it shows where in
SCH_RT_VERR; a bind that passes its checks takes effect at once, or, while the loop has a step or a command that waits, is
deferred; an unbind of a loop with neither takes effect at once, and with a step that is not pre-empted it is deferred. -/
def Obligations.RoutePackets : Prop :=
  (∀ (tag : BitVec 16) (p : Packet) (s : State), Safety.ready s 0x0401 tag.toNat p →
    (List.range 64).find? (fun h => (AMap.find s.dev.routes h).isNone) = none →
    Safety.givesDev (.routeLoad tag) s (s.dev.reply p ST.TABLE_FULL
      (leBytes 1 0xFF ++ leBytes 3 0 ++ leBytes 4 (s.dev.reg Reg.SCH_RT_VERR))))
  ∧ (∀ (tag : BitVec 16) (p : Packet) (h : Nat) (r : Route) (s : State), Safety.ready s 0x0401 tag.toNat p →
    (List.range 64).find? (fun h => (AMap.find s.dev.routes h).isNone) = some h →
    validate (Safety.mach s) (pay64 p.payload 0) = .inr r → ∃ e : Dev,
    Safety.givesDev (.routeLoad tag) s (e.reply p ST.OK (leBytes 1 h ++ leBytes 3 0 ++ leBytes 4 0))
    ∧ e.routes = AMap.set s.dev.routes h r
    ∧ e.boot.measure = sha384 (s.dev.boot.measure ++ sha384 ((Safety.mach s).rdBytes (pay64 p.payload 0) r.len)))
  ∧ (∀ (tag : BitVec 16) (p : Packet) (h : Nat) (f : Nat × Nat × Nat) (s : State), Safety.ready s 0x0401 tag.toNat p →
    (List.range 64).find? (fun h => (AMap.find s.dev.routes h).isNone) = some h →
    validate (Safety.mach s) (pay64 p.payload 0) = .inl f →
    Safety.givesDev (.routeLoad tag) s ((s.dev.setVerr f).reply p (if f.1 = 3 then ST.BAD_CHECK else ST.BAD_PARAM)
      (leBytes 1 0xFF ++ leBytes 3 0 ++ leBytes 4 ((s.dev.setVerr f).reg Reg.SCH_RT_VERR))))
  ∧ (∀ (tag : BitVec 16) (p : Packet) (h n : Nat) (r : Route) (b : Binding) (s : State), Safety.ready s 0x0403 tag.toNat p →
    pay8 p.payload 0 = h → pay8 p.payload 1 = n → h < 64 → n < 16 → pay8 p.payload 2 ≤ 1 →
    AMap.find s.dev.routes h = some r → s.dev.askedBinding h r p.payload = b → r.nridges ≤ b.ridges.length →
    s.dev.pmapBad b = false →
    ((Safety.mach s).fetchAreas b).any (fun a => !inHbm a || anyArea a s.dev.tarinadyAreas) = false →
    (Safety.mach s).bindQueueBad b (b.own s.dev.pkg) = none → s.dev.spurOverlap n b = false →
    (s.dev.boundTo h).any (· != n) = false → (s.dev.pendingTo h).any (· != n) = false → s.dev.rankClash n b = false →
    s.dev.unsafeTile b (pay32 p.payload 4) = false → s.dev.deadTile b = false →
    (((s.dev.loop n).step.isSome || !(s.dev.loop n).deferred.isEmpty) = false →
      Safety.gives (.routeBind tag) s (((Safety.mach s).bindNow n b).ok p []))
    ∧ (((s.dev.loop n).step.isSome || !(s.dev.loop n).deferred.isEmpty) = true → ∃ e : Dev,
      Safety.givesDev (.routeBind tag) s (e.reply p ST.DEFERRED [])
      ∧ e = s.dev.modLoop n (fun l => { l with deferred := l.deferred ++ [.bind p.tag b] })))
  ∧ (∀ (tag : BitVec 16) (p : Packet) (n : Nat) (s : State), Safety.ready s 0x0404 tag.toNat p →
    pay8 p.payload 0 = n → n < 16 → (s.dev.loop n).binding.isSome = true → (s.dev.loop n).step = none →
    (s.dev.loop n).deferred = [] → Safety.gives (.routeUnbind tag) s (((Safety.mach s).unbindNow n).ok p []))
  ∧ (∀ (tag : BitVec 16) (p : Packet) (n : Nat) (st : StepSt) (s : State), Safety.ready s 0x0404 tag.toNat p →
    pay8 p.payload 0 = n → n < 16 → (s.dev.loop n).binding.isSome = true → (s.dev.loop n).step = some st →
    (st.phase ≠ .preempted → ∃ e : Dev, Safety.givesDev (.routeUnbind tag) s (e.reply p ST.DEFERRED [])
      ∧ e = s.dev.modLoop n (fun l => { l with deferred := l.deferred ++ [.unbind p.tag] }))
    ∧ (st.phase = .preempted → (s.dev.loop n).deferred = [] →
      Safety.gives (.routeUnbind tag) s ((((Safety.mach s).discardStep n).unbindNow n).ok p [])))

/-- Unloading (R202): ROUTE_UNLOAD frees a handle; a route that is bound, or whose bind is pending, stays with ST_STATE; a
handle of 64 or above is ST_BAD_PARAM, and one below 64 that holds no route ST_NOT_FOUND. -/
def Obligations.RouteUnloadFreesHandle : Prop :=
  ∀ (tag : BitVec 16) (p : Packet) (h : Nat) (s : State), Safety.ready s 0x0402 tag.toNat p → pay8 p.payload 0 = h →
    (64 ≤ h → Safety.givesDev (.routeUnload tag) s (s.dev.reply p ST.BAD_PARAM []))
    ∧ (h < 64 → AMap.find s.dev.routes h = none → Safety.givesDev (.routeUnload tag) s (s.dev.reply p ST.NOT_FOUND []))
    ∧ (h < 64 → AMap.find s.dev.routes h ≠ none → (∃ n, n < 16 ∧ ((∃ b, (s.dev.loop n).binding = some b ∧ b.handle = h)
        ∨ ∃ t b, Deferred.bind t b ∈ (s.dev.loop n).deferred ∧ b.handle = h)) →
      Safety.givesDev (.routeUnload tag) s (s.dev.reply p ST.STATE []))
    ∧ (h < 64 → AMap.find s.dev.routes h ≠ none → (∀ n, n < 16 → (∀ b, (s.dev.loop n).binding = some b → b.handle ≠ h)
        ∧ ∀ t b, Deferred.bind t b ∈ (s.dev.loop n).deferred → b.handle ≠ h) →
      ∃ e : Dev, Safety.givesDev (.routeUnload tag) s (e.reply p ST.OK []) ∧ AMap.find e.routes h = none
      ∧ e = { s.dev with routes := e.routes } ∧ ∀ k r, k ≠ h → AMap.find s.dev.routes k = some r → AMap.find e.routes k = some r)

/-- Loops (R302, R312): LOOP_CONFIG writes the loop's registers at once when no step runs and none of its commands waits, and
otherwise waits; LOOP_PREEMPT of a step that runs or is being saved is deferred until it is pre-empted, one of a step that is
being restored stops the restore and is answered at once, and one of a pre-empted step or of none is ST_STATE. -/
def Obligations.LoopPackets : Prop :=
  (∀ (tag : BitVec 16) (p : Packet) (s : State), Safety.ready s 0x0405 tag.toNat p → s.dev.loopConfigBad p.payload = false →
    (s.dev.loop (pay8 p.payload 0)).step = none → (s.dev.loop (pay8 p.payload 0)).deferred = [] →
    Safety.givesDev (.loopConfig tag) s ((s.dev.configNow p.payload).reply p ST.OK []))
  ∧ (∀ (tag : BitVec 16) (p : Packet) (s : State), Safety.ready s 0x0405 tag.toNat p → s.dev.loopConfigBad p.payload = false →
    ((s.dev.loop (pay8 p.payload 0)).step.isSome = true ∨ (s.dev.loop (pay8 p.payload 0)).deferred ≠ []) → ∃ e : Dev,
    Safety.givesDev (.loopConfig tag) s (e.reply p ST.DEFERRED []) ∧ e.regs = s.dev.regs
    ∧ (e.loop (pay8 p.payload 0)).deferred = (s.dev.loop (pay8 p.payload 0)).deferred ++ [.config p.tag p.payload])
  ∧ (∀ (tag : BitVec 16) (p : Packet) (st : StepSt) (s : State), Safety.ready s 0x0406 tag.toNat p → pay8 p.payload 0 ≤ 15 →
    (s.dev.loop (pay8 p.payload 0)).step = some st → st.phase ≠ .preempted → st.phase ≠ .restoring → ∃ e : Dev,
    e = (s.dev.reply p ST.DEFERRED []).modStep (pay8 p.payload 0) (fun x => { x with preemptTags := x.preemptTags ++ [p.tag] })
    ∧ Safety.givesDev (.loopPreempt tag) s (e.callPreempt (pay8 p.payload 0) none))
  ∧ (∀ (tag : BitVec 16) (p : Packet) (n : Nat) (st : StepSt) (e : Dev) (s : State), Safety.ready s 0x0406 tag.toNat p →
    pay8 p.payload 0 = n → n ≤ 15 → (s.dev.loop n).step = some st → st.phase = .restoring →
    e = ((s.dev.reply p ST.DEFERRED []).modStep n (fun x => { x with preemptTags := x.preemptTags ++ [p.tag] })).callPreempt
      n none → Safety.givesDev (.loopPreempt tag) s
        (((st.preemptTags ++ [p.tag]).foldl (fun d t => d.notify t ST.OK []) e).modStep n (fun x => { x with preemptTags := [] })))
  ∧ (∀ (tag : BitVec 16) (p : Packet) (s : State), Safety.ready s 0x0406 tag.toNat p → pay8 p.payload 0 ≤ 15 →
    (s.dev.loop (pay8 p.payload 0)).step.all (fun st => st.phase == .preempted) = true →
    Safety.givesDev (.loopPreempt tag) s (s.dev.reply p ST.STATE []))

/-- Namespaces, sequences and batches (R233, R234, R239, R247, R251, R252, R259): an NS_CONFIG that no check refuses takes
effect at once; with TRN_CTRL.EN at 1, SEQ_OPEN of a prompt that can be read opens the lowest free slot with the blocks that
match it, and without a free slot it is ST_TABLE_FULL; with EN at 0 it is ST_STATE, the model's choice (log 78); an edit of a
sequence that no step holds is applied at once, one of a held sequence is queued in order of arrival, and one of no open sequence
is ST_NOT_FOUND; BATCH_SET fills its table. -/
def Obligations.TarnPackets : Prop :=
  (∀ (tag : BitVec 16) (p : Packet) (s : State), Safety.ready s 0x0407 tag.toNat p → pay8 p.payload 0 < 16 →
    (nsOf p.payload).outOfRange (pay8 p.payload 6) = false → s.dev.nsRangesBad (pay8 p.payload 0) (nsOf p.payload) = false →
    (Safety.mach s).openSeqs.any (fun q => (Safety.mach s).sq q Sq.NSID 1 == pay8 p.payload 0) = false → ∃ m : Mach,
    Safety.gives (.nsConfig tag) s (m.ok p []) ∧ m.dev.nsRec (pay8 p.payload 0) = some (nsOf p.payload))
  ∧ (∀ (tag : BitVec 16) (p : Packet) (s : State), Safety.ready s 0x0408 tag.toNat p →
    (bit (s.dev.reg Reg.TRN_CTRL) 0 = false → Safety.givesDev (.seqOpen tag) s (s.dev.reply p ST.STATE []))
    ∧ (bit (s.dev.reg Reg.TRN_CTRL) 0 = true → (Safety.mach s).freeSlot = none →
      Safety.givesDev (.seqOpen tag) s (s.dev.reply p ST.TABLE_FULL [])))
  ∧ (∀ (tag : BitVec 16) (p : Packet) (q : Nat) (r : NsRec) (m0 : Mach) (s : State), Safety.ready s 0x0408 tag.toNat p →
    bit (s.dev.reg Reg.TRN_CTRL) 0 = true →
    (Safety.mach s).freeSlot = some q → s.dev.nsRec (pay8 p.payload 0) = some r → pay32 p.payload 4 % 32 = 0 →
    32 ≤ pay32 p.payload 4 → pay32 p.payload 4 ≤ 262144 → pay32 p.payload 12 ≤ pay32 p.payload 4 →
    inHbm (pay64 p.payload 16, 4 * pay32 p.payload 12) = true →
    (Safety.mach s).eccRead (pay64 p.payload 16) (4 * pay32 p.payload 12) 120 0xFF = (m0, none) →
    ∃ (m : Mach) (hits : Nat), Safety.gives (.seqOpen tag) s
      (m.ok p (leBytes 2 (seqIdOf m q) ++ [0, 0] ++ leBytes 4 (32 * hits))) ∧ hits ≤ pay32 p.payload 12 / 32
      ∧ m.dev.tarn.openSlots = s.dev.tarn.openSlots ++ [q])
  ∧ (∀ (c : Instr) (op : Nat) (tag : BitVec 16) (p : Packet) (q : Nat) (s : State),
    (c, op) ∈ [(Instr.seqClose tag, 0x0409), (.seqFork tag, 0x040A), (.seqTruncate tag, 0x040B), (.seqDrop tag, 0x040C)] →
    Safety.ready s op tag.toNat p → (Safety.mach s).seqOfId (pay16 p.payload 0) = some q → (Safety.mach s).inuse q = false →
    ∀ (m : Mach) (st : Nat) (out : List Byte), ((Safety.mach s).mod Dev.nextEpoch).applyEdit op p.payload = (m, st, out) →
      (st = ST.OK → Safety.gives c s (m.ok p out)) ∧ (st ≠ ST.OK → Safety.givesDev c s (s.dev.reply p st [])))
  ∧ (∀ (c : Instr) (op : Nat) (tag : BitVec 16) (p : Packet) (s : State),
    (c, op) ∈ [(Instr.seqClose tag, 0x0409), (.seqFork tag, 0x040A), (.seqTruncate tag, 0x040B), (.seqDrop tag, 0x040C)] →
    Safety.ready s op tag.toNat p → (Safety.mach s).seqOfId (pay16 p.payload 0) = none →
    Safety.givesDev c s (s.dev.reply p ST.NOT_FOUND []))
  ∧ (∀ (c : Instr) (op : Nat) (tag : BitVec 16) (p : Packet) (q : Nat) (s : State),
    (c, op) ∈ [(Instr.seqClose tag, 0x0409), (.seqFork tag, 0x040A), (.seqTruncate tag, 0x040B), (.seqDrop tag, 0x040C)] →
    Safety.ready s op tag.toNat p → (Safety.mach s).seqOfId (pay16 p.payload 0) = some q → (Safety.mach s).inuse q = true →
    s.dev.tarn.edits.length < 4096 → ∃ m : Mach, Safety.gives c s (m.answer p ST.DEFERRED [])
      ∧ m.dev.tarn.edits = s.dev.tarn.edits ++ [⟨p.tag, op, p.payload⟩])
  ∧ (∀ (tag : BitVec 16) (p : Packet) (s : State), Safety.ready s 0x040D tag.toNat p → pay8 p.payload 0 ≤ 15 →
    pay16 p.payload 2 ≤ 256 → ∃ e : Dev, Safety.givesDev (.batchSet tag) s (e.reply p ST.OK [])
    ∧ ∃ ids, AMap.find e.tarn.batches (pay8 p.payload 0) = some ids ∧ ids.length = 256
      ∧ (∀ i, i < pay16 p.payload 2 → ids.getD i 0 = pay16 p.payload (4 + 2 * i))
      ∧ (∀ i, pay16 p.payload 2 ≤ i → i < 256 → ids.getD i 0 = 0xFFFF))

/-- Streams (R416, R419, R420): a stream that no check refuses is opened in the lowest free place with its buffers empty; a
close of a stream whose buffers no step pins ends it at once, and one of a stream with a pinned buffer is deferred. -/
def Obligations.StreamPackets : Prop :=
  (∀ (tag : BitVec 16) (p : Packet) (n : Nat) (s : State), Safety.ready s 0x040E tag.toNat p →
    s.dev.rfB Reg.ING_CTRL Fld.ING_CTRL.EN = true → (List.range 64).find? (fun n => (s.dev.stream n).isNone) = some n →
    s.dev.streamLimit (slice p.payload 0 128) = false →
    (Se.kind (slice p.payload 0 128) = 2 → (AMap.find s.dev.flash.regions (Se.region (slice p.payload 0 128))).isSome = true) →
    (Safety.mach s).streamBad (slice p.payload 0 128) = false → ∃ e : Dev,
    Safety.givesDev (.streamOpen tag) s (e.reply p ST.OK (leBytes 4 n))
    ∧ e.stream n = some { entry := slice p.payload 0 128, bufs := List.replicate (Se.nbuf (slice p.payload 0 128)) {} })
  ∧ (∀ (tag : BitVec 16) (p : Packet) (x : StreamSt) (s : State), Safety.ready s 0x040F tag.toNat p → pay8 p.payload 0 < 64 →
    s.dev.stream (pay8 p.payload 0) = some x → x.closing = false → x.bufs.any (fun b => !b.pins.isEmpty) = false →
    ∃ e : Dev, Safety.givesDev (.streamClose tag) s (e.reply p ST.OK []) ∧ e.stream (pay8 p.payload 0) = none)
  ∧ (∀ (tag : BitVec 16) (p : Packet) (x : StreamSt) (s : State), Safety.ready s 0x040F tag.toNat p → pay8 p.payload 0 < 64 →
    s.dev.stream (pay8 p.payload 0) = some x → x.closing = false → x.bufs.any (fun b => !b.pins.isEmpty) = true →
    ∃ e : Dev, Safety.givesDev (.streamClose tag) s (e.reply p ST.DEFERRED [])
      ∧ e.stream (pay8 p.payload 0) = some { x with closing := true, frame := none, ready := [], closeTag := some p.tag })

/-- Control-engine packets (R452, R453, R461 to R467, R474): CE_ENABLE starts and stops the engine; CE_SWAP asks for the other
bank; CE_SETPOINT posts its records with source 0x80 and the packet's stamp; CE_MODE asks for a mode and a manual output;
TRACE_READ replies its records, from a ring without errors. -/
def Obligations.ControlEnginePackets : Prop :=
  (∀ (tag : BitVec 16) (p : Packet) (s : State), Safety.ready s 0x0701 tag.toNat p → pay8 p.payload 0 = 0 →
    Safety.gives (.ceEnable tag) s ((Safety.mach s).ceDisable.ok p []))
  ∧ (∀ (tag : BitVec 16) (p : Packet) (m : Mach) (st : Nat) (s : State), Safety.ready s 0x0701 tag.toNat p →
    pay8 p.payload 0 = 1 → (Safety.mach s).ceEnable = (m, st) → Safety.gives (.ceEnable tag) s (m.answer p st []))
  ∧ (∀ (tag : BitVec 16) (p : Packet) (m : Mach) (st : Nat) (s : State), Safety.ready s 0x0702 tag.toNat p →
    (Safety.mach s).swapRequest (some p.tag) = (m, st) → Safety.gives (.ceSwap tag) s (m.answer p st []))
  ∧ (∀ (tag : BitVec 16) (p : Packet) (s : State), Safety.ready s 0x0703 tag.toNat p → pay16 p.payload 0 ≠ 0 →
    pay16 p.payload 0 ≤ 256 →
    (postRecords ((p.payload.drop 4).take (16 * pay16 p.payload 0))).any (fun r => decide (field r 0 2 ≥ 256)) = false →
    Safety.gives (.ceSetpoint tag) s
      (((Safety.mach s).postRows (postRecords ((p.payload.drop 4).take (16 * pay16 p.payload 0))) p.stamp 0x80).ok p []))
  ∧ (∀ (tag : BitVec 16) (p : Packet) (s : State), Safety.ready s 0x0704 tag.toNat p → pay8 p.payload 1 ≤ 3 →
    FFmt.f32.isFinite (pay32 p.payload 4) = true → (s.dev.f2 = true → pay8 p.payload 1 = 3) → ∃ e : Dev,
    Safety.givesDev (.ceMode tag) s (e.reply p ST.OK [])
    ∧ e.rf (Reg.CE_CHn_MODE (pay8 p.payload 0)) Fld.CE_CHn_MODE.MODE = pay8 p.payload 1
    ∧ (e.chan (pay8 p.payload 0)).reqMode = true ∧ (e.chan (pay8 p.payload 0)).manNew = true
    ∧ e.reg (Reg.CE_CHn_MAN (pay8 p.payload 0)) = pay32 p.payload 4)
  ∧ (∀ (tag : BitVec 16) (p : Packet) (s : State), Safety.ready s 0x0A01 tag.toNat p → Safety.noErrors s →
    pay16 p.payload 2 * s.dev.traceRec ≤ 32768 →
    Safety.givesDev (.traceRead tag) s (s.dev.reply p ST.OK (((List.range (pay16 p.payload 2)).map (fun i =>
      ceMem + (pay16 p.payload 0 + i) % s.dev.traceCap * s.dev.traceRec)).flatMap
        (fun a => (Safety.mach s).rdBytes a s.dev.traceRec))))

/-- Flash packets (R363, R368, R375, R376): while the subsystem serves, a region is created at the lowest free number and the
lowest free run of units, deleted with its units, read, written, trimmed, sealed and listed; a region that does not exist gives
ST_NOT_FOUND and a sealed one ST_LOCKED_WRITE; the two firmware slots cannot be deleted. -/
def Obligations.FlashPackets : Prop :=
  (∀ (tag : BitVec 16) (p : Packet) (n first : Nat) (s : State), Safety.ready s 0x0501 tag.toNat p → s.dev.flState = FL.READY →
    1 ≤ pay8 p.payload 0 → pay8 p.payload 0 ≤ 3 → 1 ≤ pay32 p.payload 4 → pay32 p.payload 4 ≤ 536870912 →
    (List.range 64).find? (fun n => (s.dev.flRegion n).isNone) = some n →
    s.dev.flash.freeRun (pay32 p.payload 4) = some first → ∃ e : Dev,
    Safety.givesDev (.regionCreate tag) s (e.reply p ST.OK (leBytes 4 n))
    ∧ e.flash.regions = AMap.set s.dev.flash.regions n { kind := pay8 p.payload 0, first := first, units := pay32 p.payload 4 })
  ∧ (∀ (tag : BitVec 16) (p : Packet) (r : RegionRec) (s : State), Safety.ready s 0x0502 tag.toNat p → s.dev.flState = FL.READY →
    pay8 p.payload 0 ≤ 63 → s.dev.flRegion (pay8 p.payload 0) = some r →
    (r.kind = 0 → Safety.givesDev (.regionDelete tag) s (s.dev.reply p ST.STATE []))
    ∧ (r.kind ≠ 0 → ∃ m : Mach, Safety.gives (.regionDelete tag) s (m.ok p [])
        ∧ m.dev.flash.regions = AMap.erase s.dev.flash.regions (pay8 p.payload 0)))
  ∧ (∀ (c : Instr) (op : Nat) (tag : BitVec 16) (os : List NandOutcome) (p : Packet) (s : State),
    (c, op) ∈ [(Instr.regionDelete tag, 0x0502), (.regionRead tag os [] [], 0x0503), (.regionWrite tag [], 0x0504),
      (.regionTrim tag, 0x0505), (.regionSeal tag, 0x0506)] → Safety.ready s op tag.toNat p → s.dev.flState = FL.READY →
    pay8 p.payload 0 ≤ 63 → s.dev.flRegion (pay8 p.payload 0) = none → Safety.givesDev c s (s.dev.reply p ST.NOT_FOUND []))
  ∧ (∀ (tag : BitVec 16) (os : List NandOutcome) (hit : List (Fin 96 × Fin 32768)) (p : Packet) (r : RegionRec)
    (m0 m m2 : Mach) (bs : List Byte) (s : State), Safety.ready s 0x0503 tag.toNat p → s.dev.flServing = true → pay8 p.payload 0 ≤ 63 →
    s.dev.flRegion (pay8 p.payload 0) = some r → r.rangeOk (pay64 p.payload 4) (pay32 p.payload 12) = true →
    (Safety.mach s).writeRefusal (pay64 p.payload 16) (pay32 p.payload 12) false = none →
    (Safety.mach s).nandReads ((Safety.mach s).readUnits r (pay64 p.payload 4) (pay32 p.payload 12)) os = (m0, true) →
    m0.regionBytes r (pay64 p.payload 4) (pay32 p.payload 12) = (m, bs) →
    m.rmwCheck (pay64 p.payload 16) bs.length dmaReq 16 = (m2, none) →
    Safety.gives (.regionRead tag os hit []) s ((m2.dmaStore (pay64 p.payload 16) bs (rowNats hit)).ok p []))
  ∧ (∀ (tag : BitVec 16) (us : List Upset) (p : Packet) (r : RegionRec) (m : Mach) (bs : List Byte) (s : State),
    Safety.ready s 0x0504 tag.toNat p → s.dev.flState = FL.READY → pay8 p.payload 0 ≤ 63 →
    s.dev.flRegion (pay8 p.payload 0) = some r → r.kind ≠ 3 → r.isSealed = false → r.kind ≠ 0 →
    r.rangeOk (pay64 p.payload 4) (pay32 p.payload 12) = true →
    ((Safety.mach s).upsets us).commandRead (pay64 p.payload 16) (pay32 p.payload 12) = (m, .inr bs) →
    Safety.gives (.regionWrite tag us) s
      (((m.regionStore r (pay64 p.payload 4) bs).mod (fun d => d.dropCached (pay8 p.payload 0))).ok p []))
  ∧ (∀ (tag : BitVec 16) (p : Packet) (r : RegionRec) (s : State), Safety.ready s 0x0505 tag.toNat p → s.dev.flState = FL.READY →
    pay8 p.payload 0 ≤ 63 → s.dev.flRegion (pay8 p.payload 0) = some r →
    r.rangeOk (pay64 p.payload 4) (pay32 p.payload 12) = true →
    (r.isSealed = true → Safety.givesDev (.regionTrim tag) s (s.dev.reply p ST.LOCKED_WRITE []))
    ∧ (r.isSealed = false → Safety.gives (.regionTrim tag) s
        ((((Safety.mach s).regionTrim r (pay64 p.payload 4) (pay32 p.payload 12)).mod
          (fun d => d.dropCached (pay8 p.payload 0))).ok p [])))
  ∧ (∀ (tag : BitVec 16) (p : Packet) (r : RegionRec) (s : State), Safety.ready s 0x0506 tag.toNat p → s.dev.flServing = true →
    pay8 p.payload 0 ≤ 63 → s.dev.flRegion (pay8 p.payload 0) = some r → r.kind = 1 → ∃ e : Dev,
    Safety.givesDev (.regionSeal tag) s (e.reply p ST.OK [])
    ∧ e.flRegion (pay8 p.payload 0) = some { r with isSealed := true })
  ∧ (∀ (tag : BitVec 16) (p : Packet) (s : State), Safety.ready s 0x0507 tag.toNat p → s.dev.flServing = true →
    Safety.givesDev (.regionList tag) s
      (s.dev.reply p ST.OK ((List.range 64).flatMap (fun n => regionRecord (s.dev.flRegion n)))))
  ∧ (∀ (tag : BitVec 16) (p : Packet) (pages spare : Nat) (s : State), Safety.ready s 0x0508 tag.toNat p →
    pay32 p.payload 0 = 0x464D5421 → s.dev.mayFormat = true → ∃ (t : State) (e : Dev),
    exec (.flashFormat tag pages spare) s = .next t ∧ t.dev = e.reply p ST.OK []
    ∧ e.flash.regions = (FlashSt.format s.dev.flash pages spare).regions
    ∧ e.flState = (if spare = 0 then FL.READONLY else FL.READY))

/-- Firmware and recovery packets (R524, R525, R529, R564): FW_ACTIVATE of the slot in use, or with flash not READY, is ST_STATE,
and FW_COMMIT is so where no slot has booted or the record cannot be written; a slot whose two images verify gets a fresh record;
a commit marks the record of the slot and raises the version floor only when asked; in recovery the bytes of the stage-1 image
collect, and with the last part the image is verified and placed, or refused. -/
def Obligations.FirmwarePackets : Prop :=
  (∀ (tag : BitVec 16) (fails : List (Fin 2 × Fin 3)) (p : Packet) (s : State), Safety.ready s 0x0509 tag.toNat p →
    pay8 p.payload 0 ≤ 1 → (s.dev.boot.slot = some (pay8 p.payload 0) ∨ s.dev.flState ≠ FL.READY) →
    Safety.givesDev (.fwActivate tag fails) s (s.dev.reply p ST.STATE []))
  ∧ (∀ (tag : BitVec 16) (fails : List (Fin 2 × Fin 3)) (p : Packet) (m m2 : Mach) (x : ImgRec × ImgRec)
      (other : Option BootRec) (s : State), Safety.ready s 0x0509 tag.toNat p →
    pay8 p.payload 0 ≤ 1 → s.dev.boot.slot ≠ some (pay8 p.payload 0) → s.dev.flState = FL.READY →
    (Safety.mach s).slotImages (pay8 p.payload 0) fails false id = (m, .inr x) →
    m.bootRec (1 - pay8 p.payload 0) = (m2, other) →
    Safety.gives (.fwActivate tag fails) s ((m2.writeBootRec (pay8 p.payload 0) ⟨match other with
      | some y => (y.seq + 1) % 2 ^ 32
      | none => 1, 0, 0⟩).ok p []))
  ∧ (∀ (tag : BitVec 16) (p : Packet) (s : State), Safety.ready s 0x050A tag.toNat p → s.dev.boot.slot = none →
    Safety.givesDev (.fwCommit tag) s (s.dev.reply p ST.STATE []))
  ∧ (∀ (tag : BitVec 16) (p : Packet) (n : Nat) (m : Mach) (x : BootRec) (s : State), Safety.ready s 0x050A tag.toNat p →
    s.dev.boot.slot = some n → pay8 p.payload 0 ≤ 1 → s.dev.flServing = true →
    (Safety.mach s).bootRec n = (m, some x) → x.state ≠ 1 → m.dev.flState ≠ FL.READY →
    Safety.gives (.fwCommit tag) s (m.fail p ST.STATE))
  ∧ (∀ (tag : BitVec 16) (p : Packet) (n : Nat) (m m2 : Mach) (x : BootRec) (a b : ImgRec) (v : Nat) (s : State),
    Safety.ready s 0x050A tag.toNat p → s.dev.boot.slot = some n → s.dev.flServing = true →
    (Safety.mach s).bootRec n = (m, some x) → (x.state = 1 ∨ m.dev.flState = FL.READY) →
    m2 = (if x.state = 1 then m else m.writeBootRec n { x with state := 1 }) →
    m2.dev.boot.stage1 = some a → m2.dev.boot.tarinady = some b →
    v = max m2.dev.boot.fuses.svnMin (min 64 (min a.svn b.svn)) →
    (pay8 p.payload 0 = 0 → Safety.gives (.fwCommit tag) s (m2.ok p []))
    ∧ (pay8 p.payload 0 = 1 → Safety.gives (.fwCommit tag) s ((m2.mod (fun d =>
        (d.modFuses (fun f => { f with svnMin := v })).wf Reg.SEC_LCS Fld.SEC_LCS.SVN_MIN v)).ok p [])))
  ∧ (∀ (tag : BitVec 16) (p : Packet) (s : State), Safety.ready s 0x0907 tag.toNat p →
    pay32 p.payload 0 = s.dev.boot.recovery.length → bit (pay32 p.payload 4) 0 = false → ∃ e : Dev,
    Safety.givesDev (.recoveryLoad tag) s (e.reply p ST.OK [])
    ∧ e.boot.recovery = s.dev.boot.recovery ++ p.payload.drop 8)
  ∧ (∀ (tag : BitVec 16) (p : Packet) (m : Mach) (bs : List Byte) (s : State), Safety.ready s 0x0907 tag.toNat p →
    pay32 p.payload 0 = s.dev.boot.recovery.length → bit (pay32 p.payload 4) 0 = true →
    bs = s.dev.boot.recovery ++ p.payload.drop 8 →
    (∀ r, (Safety.mach s).verify bs 1 bs.length false = (m, .inl r) →
      Safety.gives (.recoveryLoad tag) s (m.fail p (verifyStatus r)))
    ∧ (∀ one, (Safety.mach s).verify bs 1 bs.length false = (m, .inr one) → Safety.gives (.recoveryLoad tag) s
      (((((m.mod (fun d => d.modBoot (fun b => { b with recovery := [] }))).store one.load
        (slice bs 512 (one.stop - one.load))).ok p []).mod (fun d => (d.setStage 2).modBoot (fun b =>
          { b with stage1 := some one }))))))

/-- Security packets (R530 to R540): while the identity is not blocked, an attestation outside BLANK and RETIRED replies the report
of R532, which repeats the nonce; DEBUG_CHALLENGE replies the challenge it issues; DEBUG_TOKEN and LIFECYCLE are dead after three
failed tokens, and a token that does not verify is one failure more; a debug token that verifies opens the port; a lifecycle token
that verifies moves PROVISIONED to DEPLOYED, or either of them to RETIRED with flash erased; the first owner key in PROVISIONED is
fused, and any other is ST_STATE. -/
def Obligations.SecurityPackets : Prop :=
  (∀ (tag : BitVec 16) (p : Packet) (s : State), Safety.ready s 0x0902 tag.toNat p →
    s.dev.rfB Reg.SEC_LCS Fld.SEC_LCS.ID_BLOCK = false → s.dev.boot.fuses.lcs ≠ 0 → s.dev.boot.fuses.lcs ≠ 4 →
    ∃ (e : Dev) (out : List Byte), Safety.givesDev (.attest tag) s (e.reply p ST.OK out)
    ∧ (Safety.mach s).report (slice p.payload 0 32) = out.take ((Safety.mach s).report (slice p.payload 0 32)).length
    ∧ field out 0 4 = 0x5A564154)
  ∧ (∀ (tag : BitVec 16) (p : Packet) (s : State), Safety.ready s 0x0902 tag.toNat p →
    s.dev.rfB Reg.SEC_LCS Fld.SEC_LCS.ID_BLOCK = true → Safety.givesDev (.attest tag) s (s.dev.reply p ST.STATE []))
  ∧ (∀ (tag : BitVec 16) (p : Packet) (s : State), Safety.ready s 0x0903 tag.toNat p →
    Safety.givesDev (.debugChallenge tag) s (s.dev.issueChallenge.2.reply p ST.OK s.dev.issueChallenge.1))
  ∧ (∀ (c : Instr) (op : Nat) (tag : BitVec 16) (p : Packet) (s : State),
    (c, op) ∈ [(Instr.debugToken tag, 0x0904), (.lifecycle tag, 0x0905)] → Safety.ready s op tag.toNat p →
    s.dev.tokenFails ≥ 3 → Safety.givesDev c s (s.dev.reply p ST.AUTH_FAIL []))
  ∧ (∀ (tag : BitVec 16) (p : Packet) (s : State), Safety.ready s 0x0904 tag.toNat p →
    s.dev.tokenFails < 3 → s.dev.dbgOpen = false → s.dev.tokenStatus (slice p.payload 0 288) false = ST.OK → ∃ m : Mach,
    Safety.gives (.debugToken tag) s (m.ok p []) ∧ m.dev.dbgOpen = true ∧ m.dev.boot.challenge = none)
  ∧ (∀ (tag : BitVec 16) (p : Packet) (s : State), Safety.ready s 0x0905 tag.toNat p → s.dev.tokenFails < 3 →
    s.dev.lcs = 1 → bits (field (slice p.payload 0 288) 0x30 4) 2 0 = 2 →
    s.dev.tokenStatus (slice p.payload 0 288) true = ST.OK → s.dev.boot.fuses.lcs ≠ 4 → ∃ e : Dev,
    Safety.givesDev (.lifecycle tag) s (e.reply p ST.OK []) ∧ e.boot.fuses.lcs = 2 ∧ e.boot.challenge = none)
  ∧ (∀ (tag : BitVec 16) (p : Packet) (s : State), Safety.ready s 0x0905 tag.toNat p → s.dev.tokenFails < 3 →
    (s.dev.lcs = 1 ∨ s.dev.lcs = 2) → bits (field (slice p.payload 0 288) 0x30 4) 2 0 = 4 →
    s.dev.tokenStatus (slice p.payload 0 288) true = ST.OK → ∃ m : Mach,
    Safety.gives (.lifecycle tag) s (m.ok p []) ∧ m.dev.boot.fuses.lcs = 4 ∧ m.dev.boot.challenge = none
    ∧ m.dev.flState = FL.BLANK)
  ∧ (∀ (tag : BitVec 16) (p : Packet) (st : Nat) (s : State), Safety.ready s 0x0904 tag.toNat p → s.dev.tokenFails < 3 →
    s.dev.dbgOpen = false → s.dev.tokenStatus (slice p.payload 0 288) false = st → st ≠ ST.OK → ∃ e : Dev,
    Safety.givesDev (.debugToken tag) s (e.reply p st []) ∧ e.tokenFails = s.dev.tokenFails + 1 ∧ e.boot.challenge = none)
  ∧ (∀ (tag : BitVec 16) (p : Packet) (st : Nat) (s : State), Safety.ready s 0x0905 tag.toNat p → s.dev.tokenFails < 3 →
    (s.dev.lcs = 1 ∧ bits (field (slice p.payload 0 288) 0x30 4) 2 0 = 2
      ∨ (s.dev.lcs = 1 ∨ s.dev.lcs = 2) ∧ bits (field (slice p.payload 0 288) 0x30 4) 2 0 = 4) →
    s.dev.tokenStatus (slice p.payload 0 288) true = st → st ≠ ST.OK → ∃ e : Dev,
    Safety.givesDev (.lifecycle tag) s (e.reply p st []) ∧ e.tokenFails = s.dev.tokenFails + 1 ∧ e.boot.challenge = none)
  ∧ (∀ (tag : BitVec 16) (p : Packet) (s : State), Safety.ready s 0x0906 tag.toNat p →
    (s.dev.lcs ≠ 1 ∨ bit s.dev.boot.fuses.present 2 = true) → Safety.givesDev (.ownerKey tag) s (s.dev.reply p ST.STATE []))
  ∧ (∀ (tag : BitVec 16) (p : Packet) (s : State), Safety.ready s 0x0906 tag.toNat p → s.dev.lcs = 1 →
    bit s.dev.boot.fuses.present 2 = false → ∃ e : Dev, Safety.givesDev (.ownerKey tag) s (e.reply p ST.OK [])
    ∧ e.boot.fuses.hashes.getD 2 [] = sha384 (slice p.payload 0 97) ∧ e.boot.fuses.present = s.dev.boot.fuses.present + 4)

/-- Safety packets (R483, R486 to R488, R502, R563): FAULT_LOG replies the records from a sequence number on; FAULT_ACK moves
SAF_ACK forward only, to a number that a record has had; SAFETY_CLEAR unlatches F2 when nothing stands against it, and is
refused with ST_STATE while the latched F2 is not acknowledged; RESET replies and raises F3; CAIRN_CONFIG holds a descriptor
that no check refuses. -/
def Obligations.SafetyPackets : Prop :=
  (∀ (tag : BitVec 16) (p : Packet) (s : State), Safety.ready s 0x0801 tag.toNat p → 1 ≤ pay16 p.payload 4 →
    pay16 p.payload 4 ≤ 1000 → Safety.givesDev (.faultLog tag) s (s.dev.reply p ST.OK
      (((s.dev.saf.log.filter (fun r => decide (sext 32 (field r 0 4 + 2 ^ 32 - pay32 p.payload 0) ≥ 0))).take
        (pay16 p.payload 4)).flatMap id)))
  ∧ (∀ (tag : BitVec 16) (p : Packet) (s : State), Safety.ready s 0x0802 tag.toNat p →
    (sext 32 (pay32 p.payload 0 + 2 ^ 32 - s.dev.reg Reg.SAF_SEQ) > 0
      ∨ sext 32 (pay32 p.payload 0 + 2 ^ 32 - s.dev.reg Reg.SAF_ACK) < 0) →
    Safety.givesDev (.faultAck tag) s (s.dev.reply p ST.BAD_PARAM []))
  ∧ (∀ (tag : BitVec 16) (p : Packet) (s : State), Safety.ready s 0x0802 tag.toNat p →
    sext 32 (pay32 p.payload 0 + 2 ^ 32 - s.dev.reg Reg.SAF_SEQ) ≤ 0 →
    sext 32 (pay32 p.payload 0 + 2 ^ 32 - s.dev.reg Reg.SAF_ACK) ≥ 0 → ∃ e : Dev,
    Safety.givesDev (.faultAck tag) s (e.reply p ST.OK []) ∧ e.reg Reg.SAF_ACK = pay32 p.payload 0
    ∧ (∀ a, a ∉ [Reg.SAF_ACK, Reg.SAF_STAT] → e.reg a = s.dev.reg a))
  ∧ (∀ (tag : BitVec 16) (f2 : Bool) (p : Packet) (s : State), Safety.ready s 0x0803 tag.toNat p →
    sext 32 (s.dev.reg Reg.SAF_ACK + 2 ^ 32 - s.dev.reg Reg.SAF_F2_SEQ) < 0 →
    Safety.givesDev (.safetyClear tag f2) s (s.dev.reply p ST.STATE []))
  ∧ (∀ (tag : BitVec 16) (p : Packet) (s : State), Safety.ready s 0x0803 tag.toNat p →
    sext 32 (s.dev.reg Reg.SAF_ACK + 2 ^ 32 - s.dev.reg Reg.SAF_F2_SEQ) ≥ 0 → s.dev.saf.missF2 = false →
    s.dev.col.lost = false →
    s.dev.rfB Reg.SAF_STAT Fld.SAF_STAT.OUT_EN = true → ∃ e : Dev, Safety.givesDev (.safetyClear tag false) s (e.reply p ST.OK [])
    ∧ e.f2 = false ∧ e.rf Reg.CE_STAT Fld.CE_STAT.SAFE_ALL = 0
    ∧ (∀ a, a ∉ [Reg.SAF_STAT, Reg.CE_STAT] → e.reg a = s.dev.reg a))
  ∧ (∀ (tag : BitVec 16) (p : Packet) (s : State), Safety.ready s 0x0103 tag.toNat p → pay32 p.payload 0 = 0x52535421 →
    Safety.givesDev (.reset tag) s ((s.dev.reply p ST.OK []).raise 3 Src.COMMAND 1 0xFFFF p.tag))
  ∧ (∀ (tag : BitVec 16) (p : Packet) (s : State), Safety.ready s 0x0804 tag.toNat p →
    s.dev.rfB Reg.SAF_CTRL Fld.SAF_CTRL.CAIRN_EN = false → (Safety.mach s).cairnBad (slice p.payload 0 256) = false →
    Safety.givesDev (.cairnConfig tag) s (Dev.reply { s.dev with cairn := some (slice p.payload 0 256) } p ST.OK []))

/-- Unmapped addresses (R42): an access of any agent but the command interface reads zero, or is discarded, and logs one F0 of
source ACCESS with the code of the access and its address; a packet of the command interface that addresses an unmapped location
replies ST_BAD_PARAM, transfers nothing and logs no fault; the gaps of the map and the places of fused-off ridges are unmapped.
-/
def Obligations.UnmappedAccesses : Prop :=
  (∀ (who : Agent) (addr : BitVec 54) (form : AccessForm) (s : State), who ≠ .command → bits addr.toNat 53 52 = s.dev.pkg →
    (who = .debug → s.dev.dbgOpen = true) → (bits addr.toNat 51 48 ≠ 0
      ∨ s.dev.region (addr.toNat % 2 ^ 48) = .unmapped ∧ reaches who (addr.toNat % 2 ^ 48) = true) →
    ∃ t, exec (.unmappedRead who addr form) s = .next t ∧ t.dev.readData = 0 ∧ t.dev.readFlag = false
    ∧ Safety.raises { s.dev with readData := 0, readFlag := false } t.dev
        (Safety.rec 0 Src.ACCESS 1 (agentUnit who) addr.toNat) ∧ Safety.keepsMem s t)
  ∧ (∀ (who : Agent) (addr : BitVec 54) (v : DWord) (form : AccessForm) (s : State), who ≠ .command →
    bits addr.toNat 53 52 = s.dev.pkg →
    (who = .debug → s.dev.dbgOpen = true) → (bits addr.toNat 51 48 ≠ 0
      ∨ s.dev.region (addr.toNat % 2 ^ 48) = .unmapped ∧ reaches who (addr.toNat % 2 ^ 48) = true) →
    ∃ t, exec (.unmappedWrite who addr v form) s = .next t
    ∧ Safety.raises s.dev t.dev (Safety.rec 0 Src.ACCESS 2 (agentUnit who) addr.toNat) ∧ Safety.keepsMem s t)
  ∧ (∀ (c : Instr) (op n : Nat) (tag : BitVec 16) (hit : List (Fin 96 × Fin 32768)) (us : List Upset) (p : Packet)
    (s : State),
    (c, op, n) ∈ [(Instr.memRead tag us, 0x0301, pay32 p.payload 8), (.memWrite tag hit us, 0x0302, p.payload.length - 12),
      (.memFill tag hit us, 0x0303, pay32 p.payload 8), (.memCheck tag us, 0x0304, pay32 p.payload 8)] →
    Safety.ready s op tag.toNat p →
    (∃ i, i < n ∧ s.dev.region (pay64 p.payload 0 + i) = .unmapped) →
    Safety.gives c s (((Safety.mach s).upsets us).fail p ST.BAD_PARAM))
  ∧ (∀ (c : Instr) (op n : Nat) (tag : BitVec 16) (p : Packet) (s : State),
    (c, op, n) ∈ [(Instr.regRead tag, 0x0201, pay32 p.payload 8), (.regWrite tag, 0x0202, pay32 p.payload 8),
      (.regRmw tag, 0x0203, 1)] → Safety.ready s op tag.toNat p →
    (∃ i, i < n ∧ s.dev.region (pay64 p.payload 0 + 4 * i) = .unmapped) →
    Safety.givesDev c s (s.dev.reply p ST.BAD_PARAM []))
  ∧ (∀ (d : Dev) (a : Nat), (0x001800000000 ≤ a ∧ a < 0x010000000000 ∨ 0x010018000000 ≤ a ∧ a < 0x020000000000
      ∨ 0x020001000000 ≤ a ∧ a < 0x021000000000 ∨ 0x021000C00000 ≤ a ∧ a < 0x030000000000
      ∨ 0x030000200000 ≤ a ∧ a < 0x031000000000 ∨ 0x031000200000 ≤ a ∧ a < 0x040000000000
      ∨ 0x040000120000 ≤ a ∧ a < 0x040000200000 ∨ 0x040000380000 ≤ a) → d.region a = .unmapped)
  ∧ (∀ (d : Dev) (t : Fin 96) (o : Nat), o < 0x400000 →
      (0x340000 ≤ o ∧ o < 0x3F0000 ∨ d.ridgeOn (t.val / 4) = false) → d.region (tileBase t.val + o) = .unmapped)
  ∧ (∀ (d : Dev) (r : Fin 24) (o : Nat), o < 0x10000 → d.ridgeOn r.val = false →
      d.region (regSpace + 0x200000 + r.val * 0x10000 + o) = .unmapped)

/-- Registers (R10 to R13, R43): a field keeps its value, takes the value written, clears the bits written one, or keeps its
value while its lock holds, by its access code; a write that an agent may make writes the register, and a read gives its value;
an access that an agent may not make changes nothing. -/
def Obligations.RegisterFieldsAndAccess : Prop :=
  (∀ (hi lo rst old v : Nat) (locked : Bool), lo ≤ hi →
    fieldNext ⟨hi, lo, .RO, rst⟩ old v locked = bits old hi lo * 2 ^ lo
    ∧ fieldNext ⟨hi, lo, .RW, rst⟩ old v locked = bits v hi lo * 2 ^ lo
    ∧ fieldNext ⟨hi, lo, .WO, rst⟩ old v locked = 0
    ∧ fieldNext ⟨hi, lo, .RWL, rst⟩ old v locked = (if locked then bits old hi lo else bits v hi lo) * 2 ^ lo
    ∧ ∀ i, i ≤ hi - lo → bit (fieldNext ⟨hi, lo, .W1C, rst⟩ old v locked) (lo + i) = (bit old (lo + i) && !bit v (lo + i)))
  ∧ (∀ (who : Agent) (addr : BitVec 48) (v : Word) (s : State), s.dev.mayReach who addr.toNat = true →
    Safety.gives (.registerWrite who addr v) s ((Safety.mach s).regWrite addr.toNat v.toNat).1)
  ∧ (∀ (who : Agent) (addr : BitVec 48) (s : State), s.dev.mayReach who addr.toNat = true → who ≠ .command → ∃ t,
    exec (.registerRead who addr) s = .next t ∧ Safety.keepsMem s t ∧ t.dev.readFlag = false
    ∧ t.dev.readData = ((Safety.mach s).regRead (agentId who) addr.toNat).2)
  ∧ (∀ (who : Agent) (addr : BitVec 48) (v : Word) (s : State), s.dev.mayReach who addr.toNat = false →
    Safety.givesDev (.registerWrite who addr v) s s.dev ∧ Safety.givesDev (.registerRead who addr) s s.dev)
  ∧ (∀ (r : RegDesc) (d : Dev) (a v : Nat), regDesc a = some r → (∀ l, d.lockAt a = some l → l.1 = false) →
    (d.plainWrite a v []).1.reg a = regNext r (d.reg a) v false % 2 ^ 32 ∧ (d.plainWrite a v []).2 = false)

/-- Resets (R483, R526, R579, R580): the release of PORST, with PWRFAIL_N high, samples the straps and starts the fill of HBM; a low
PORST leaves fuses and the regions of flash, every register that no fuse fixes at its reset value, and every byte outside flash
reading zero, which is the model's choice (log 3); a warm reset that is scheduled starts the fill again with Summit RAM zero, and
none is scheduled any more. -/
def Obligations.ResetsLeaveState : Prop :=
  (∀ (env : ReleaseEnv) (s : State), s.dev.pwr.porst = true → env.pwrFailN = true → ∃ t,
    exec (.resetRelease env) s = .next t ∧ Safety.keepsMem s t ∧ t.dev.pwr.porst = false ∧ t.dev.pwr.fabOn = true
    ∧ t.dev.boot.phase = .filling ∧ t.dev.rf Reg.COL_GRP Fld.COL_GRP.PKG = env.pkgId.val
    ∧ t.dev.rf Reg.COL_GRP Fld.COL_GRP.GRP = env.grpM1.val ∧ t.dev.rfB Reg.COL_GRP Fld.COL_GRP.BOOT_COL = env.colBoot
    ∧ (env.coolOk = false → t.dev.bootOnly = true))
  ∧ (∀ s : State, Safety.memOk s → ∃ t, exec .porstAssert s = .next t ∧ t.pending = s.pending
    ∧ (∀ a, a < flashMem → Memory.read t.mem a = 0) ∧ t.dev.boot.phase = .off ∧ t.dev.boot.fuses = s.dev.boot.fuses
    ∧ t.dev.pwr.porst = true ∧ (∀ a, a ∉ fusedRegs → t.dev.reg a = State.reset.dev.reg a)
    ∧ t.dev.flash.regions = s.dev.flash.regions)
  ∧ (∀ (at_ : Nat) (s : State), Safety.memOk s → s.dev.saf.resetAt = some at_ → ∃ t, exec .warmReset s = .next t
    ∧ t.pending = s.pending ∧ t.dev.boot.phase = .filling ∧ t.dev.saf.resetAt = none
    ∧ t.dev.boot.fuses = s.dev.boot.fuses
    ∧ (∀ i, i < 0x200000 → Memory.read t.mem (summitRam + i) = 0))
  ∧ (∀ s : State, s.dev.saf.resetAt = none → exec .warmReset s = .next s)
  ∧ (∀ (env : ReleaseEnv) (s : State), s.dev.pwr.porst = false ∨ env.pwrFailN = false →
    Safety.givesDev (.resetRelease env) s s.dev)

/-- The debug port (R541 to R544), while it is open: HALT stops the lists of the tile that DBG_RT_CTRL names, STEP lets a halted
one issue one entry, and RESUME leaves none halted; while it is closed they do nothing. The debug module halts and resumes harts
and holds their triggers, and a step of a halted spur core runs one instruction of it; BUSACC reads and writes HBM. What a Summit
pair runs is no part of this state, and which triggers halt a hart is left out (log 82). -/
def Obligations.DebugPortCommands : Prop :=
  (∀ (k : Nat) (l : ListSt) (s : State), s.dev.dbgOpen = true → s.dev.list k = some l →
    listUnit k = s.dev.rf Reg.DBG_RT_CTRL Fld.DBG_RT_CTRL.TILE → ∃ t, exec .halt s = .next t ∧ Safety.keepsMem s t
    ∧ t.dev.list k = some { l with dbgHalt := true, dbgStep := false })
  ∧ (∀ (k : Nat) (l : ListSt) (s : State), s.dev.dbgOpen = true → s.dev.list k = some l → l.dbgHalt = true →
    listUnit k = s.dev.rf Reg.DBG_RT_CTRL Fld.DBG_RT_CTRL.TILE → ∃ t, exec .step s = .next t ∧ Safety.keepsMem s t
    ∧ t.dev.list k = some { l with dbgHalt := false, dbgStep := true, dbgPassed := some l.nextIdx })
  ∧ (∀ s : State, s.dev.dbgOpen = true → ∃ t, exec .resume s = .next t ∧ Safety.keepsMem s t
    ∧ ∀ k l, t.dev.list k = some l → l.dbgHalt = false)
  ∧ (∀ s : State, s.dev.dbgOpen = false → Safety.givesDev .halt s s.dev ∧ Safety.givesDev .step s s.dev
    ∧ Safety.givesDev .resume s s.dev)
  ∧ (∀ (h : Fin 100) (s : State), s.dev.dbgOpen = true → bit (s.dev.rf Reg.DBG_STAT Fld.DBG_STAT.SCOPE) 0 = true →
    (h.val < 4 ∨ s.dev.tileOn (h.val - 4) = true) →
    (∃ t, exec (.dmi h .halt) s = .next t ∧ t.dev.harts.contains h.val = true)
    ∧ (∃ u, exec (.dmi h .resume) s = .next u ∧ u.dev.harts.contains h.val = false)
    ∧ (∀ n v, Safety.givesDev (.dmi h (.trigger n v)) s
      { s.dev with triggers := AMap.set s.dev.triggers (4 * h.val + n.val) v })
    ∧ ((h.val < 4 ∨ s.dev.harts.contains h.val = false) → Safety.givesDev (.dmi h .step) s s.dev)
    ∧ (4 ≤ h.val → s.dev.harts.contains h.val = true →
      Safety.gives (.dmi h .step) s ((Safety.mach s).dmiStep (h.val - 4))))
  ∧ (∀ (addr : BitVec 48) (collide : Bool) (s : State), s.dev.busReaches (addr.toNat / 8 * 8) = true →
    s.dev.region (addr.toNat / 8 * 8) = .hbm → Safety.noErrors s → ∃ t, exec (.busacc addr none collide []) s = .next t
    ∧ Safety.keepsMem s t ∧ t.dev.readFlag = false ∧ t.dev.readData = (Safety.mach s).rdNat (addr.toNat / 8 * 8) 8)
  ∧ (∀ (addr : BitVec 48) (v : DWord) (collide : Bool) (s : State), Safety.memOk s →
    s.dev.busReaches (addr.toNat / 8 * 8) = true → s.dev.region (addr.toNat / 8 * 8) = .hbm → Safety.noErrors s →
    s.dev.flash.flipped = [] → ∃ t, exec (.busacc addr (some v) collide []) s = .next t
    ∧ (∀ i, i < 8 → Memory.read t.mem (addr.toNat / 8 * 8 + i) = (leBytes 8 v.toNat).getD i 0)
    ∧ ∀ x, x < addr.toNat / 8 * 8 ∨ addr.toNat / 8 * 8 + 8 ≤ x → Memory.read t.mem x = Memory.read s.mem x)

/-- The command window (R547 to R551, R554, R559): a whole packet of a known opcode and an allowed length, written to an enabled
function whose buffer is empty, is accepted as the youngest outstanding command; a read takes bytes from the replies, and counts
UNDERRUN for bytes that are not there; IOE1 enables the function. -/
def Obligations.CommandWindowBytes : Prop :=
  (∀ (op tag fl : Nat) (payload : List Byte) (s : State), op < 2 ^ 16 → tag < 2 ^ 16 → fl = 0 ∨ fl = 2 →
    payload.length ≤ 32768 → (opLength op).isSome = true → lengthOk op payload = true → s.dev.sdio.ior1 = true →
    s.dev.sdio.ioe1 = true → s.dev.sdio.cmd = [] → s.dev.sdio.skip = 0 → s.dev.sdio.hdr = none → s.dev.pkg < s.dev.grp →
    s.dev.sdio.outstanding.any (fun x => x.tag == tag) = false → s.dev.sdio.deferred.any (fun x => x.1 == tag) = false →
    s.dev.sdio.outstanding.length < 32 → s.dev.boot.phase ≠ .recovery →
    (∀ x ∈ s.dev.sdio.outstanding, x.pkg = s.dev.pkg) → ∃ t,
    exec (.sdioWrite (mkPacket op tag fl s.dev.pkg 0 payload)) s = .next t ∧ Safety.keepsMem s t
    ∧ t.dev.sdio.outstanding = s.dev.sdio.outstanding ++ [⟨op, tag, bit fl 1, s.dev.pkg, payload, s.dev.stamp⟩]
    ∧ t.dev.sdio.cmd = [] ∧ t.dev.reg (Reg.SDIO_CNT_k 0) = satAdd 32 (s.dev.reg (Reg.SDIO_CNT_k 0)) 1)
  ∧ (∀ (n : Nat) (rs : List (List Byte)) (k short : Nat) (s : State), s.dev.sdio.waiting = [] →
    (∀ x ∈ s.dev.sdio.outstanding, x.pkg = s.dev.pkg) → takeReplies s.dev.sdio.replies s.dev.sdio.taken n = (rs, k, short) →
    ∃ t, exec (.sdioRead n) s = .next t ∧ Safety.keepsMem s t ∧ t.dev.sdio = { s.dev.sdio with replies := rs, taken := k }
    ∧ t.dev.reg (Reg.SDIO_CNT_k 5) = satAdd 32 (s.dev.reg (Reg.SDIO_CNT_k 5)) short)
  ∧ (∀ (on : Bool) (s : State), ∃ t, exec (.ioe1Write on) s = .next t ∧ Safety.keepsMem s t ∧ t.dev.sdio.ioe1 = on
    ∧ (on = false → t.dev.sdio.cmd = s.dev.sdio.cmd ∧ t.dev.sdio.outstanding = s.dev.sdio.outstanding))

/-- Loads and passes (R93, R95, R97, R98, R104, R171, R173, R175): an issued SLOAD joins the loads of its logical array with its
block's shape, and the oldest load is made; an issued PASS opens on its array, which wakes; a bubble counts, the checksum row
ends the pass, and a data row joins the rows sent; the checksum row follows the last data row; the swap makes the back register the front one, with the parity of the pass. -/
def Obligations.LoadsPassesAndSwaps : Prop :=
  (∀ (t : Fin 96) (wait stall i e : Nat) (l : ListSt) (st : StepSt) (s : State), Safety.issues s t.val l st i e →
    Ent.kind e = K.SLOAD → Safety.gives (.sload t wait stall []) s
      ((((((Safety.issued s t.val l).mod (fun d =>
          (d.cnt (Reg.TILE_WR_CNT_k t.val 2) wait).arrCnt t.val (d.carrier t.val (Ent.array e)) 3 stall)).fly
        (Safety.iss t.val l st i e)).addLoad t.val (Ent.array e)
          ⟨i, false, (Safety.issued s t.val l).loadFill (Safety.iss t.val l st i e), Sload.row e, Sload.sfmt e, Sload.sscale e,
            Sload.dual e⟩).kickLoad l.loop t.val (Ent.array e)).checkBad t.val))
  ∧ (∀ (t : Fin 96) (i e : Nat) (l : ListSt) (st : StepSt) (s : State), Safety.issues s t.val l st i e →
    Ent.kind e = K.PASS → (Pass.acc e = false ∨ (s.dev.larr t.val (Ent.array e)).win = none
      ∨ (s.dev.larr t.val (Ent.array e)).win = some (Pass.win e)) → Safety.gives (.pass t) s
      (((Safety.issued s t.val l).fly (Safety.iss t.val l st i e)).mod (fun d =>
        (d.modLarr t.val (Ent.array e) (fun x => { x with pass := some { entry := i, word := e } })).modParr t.val
          (d.carrier t.val (Ent.array e)) PhysArray.wake)))
  ∧ (∀ (t : Fin 96) (a : Fin 4) (n : Nat) (st : StepSt) (p : PassSt) (b : Block) (s : State), s.dev.stepOn t.val = some (n, st) →
    (s.dev.larr t.val a.val).pass = some p → (s.dev.larr t.val a.val).front = some b → (s.dev.larr t.val a.val).loads = [] →
    (Safety.mach s).mayEnter t.val a.val p = true → p.started = true →
    (p.phase = .checksum → Safety.givesDev (.arrayRow t a false 0 [] []) s
      (s.dev.modLarr t.val a.val (fun x => { x with pass := some { p with phase := .ended } })))
    ∧ (p.phase = .rows → p.sent < p.rowsOf → Safety.givesDev (.arrayRow t a true 0 [] []) s
      (s.dev.arrCnt t.val (s.dev.carrier t.val a.val) 2 1))
    ∧ (∀ f : Block, f = (if Ent.kind p.word = K.PASS then b else b.scalesOff) → p.phase = .rows → p.rowsOf ≤ p.sent →
        Safety.givesDev (.arrayRow t a false 0 [] []) s (s.dev.modLarr t.val a.val (fun x => { x with pass := some { p with
          phase := .checksum
          rowChk := ((List.range 65).map (rowCheckOf f p.rows (Pass.rfmt p.word) (Pass.scaled p.word)
            ((s.dev.larr t.val a.val).win.getD 0))).map (·.1)
          rowRange := ((List.range 65).map (rowCheckOf f p.rows (Pass.rfmt p.word) (Pass.scaled p.word)
            ((s.dev.larr t.val a.val).win.getD 0))).any (·.2) } })))
    ∧ (∀ (m : Mach) (r : RowIn) (f : Block), f = (if Ent.kind p.word = K.PASS then b else b.scalesOff) → p.phase = .rows →
        p.sent < p.rowsOf → (Safety.mach s).nextRow n t.val a.val st p = (m, some (some r)) →
        Safety.gives (.arrayRow t a false 0 [] []) s
          ((m.mod (fun d => d.modLarr t.val a.val (fun x => { x with
            tallies := rowIntoTallies x.tallies f r (Pass.rfmt p.word) (Pass.scaled p.word)
              ((s.dev.larr t.val a.val).win.getD 0) []
            pass := x.pass.map (fun q => { q with
              sent := p.sent + 1
              rows := p.rows ++ [r]
              chk := if Ent.kind p.word = K.DTAP then p.chk
                else rowIntoCheck p.chk f r (Pass.rfmt p.word) (Pass.scaled p.word)
                  ((s.dev.larr t.val a.val).win.getD 0) }) }))).mod (fun d =>
            if Ent.kind p.word == K.PASS && Pass.rsrc p.word then
              d.setRead t.val (Pass.queue p.word) (p.sent / rowsPer (Pass.rfmt p.word) + 1) else d))))
  ∧ (∀ (t : Fin 96) (p : Fin 4) (n a : Nat) (st : StepSt) (q : PassSt) (s : State), s.dev.stepOn t.val = some (n, st) →
    (Safety.mach s).turn t.val p.val = some a → (s.dev.larr t.val a).pass = some q → (s.dev.larr t.val a).swapReady = true →
    Safety.gives (.swapFrontBack t p) s
      (((Safety.mach s).mod (fun d => d.modLarr t.val a (fun x => { x with
        front := x.back
        parity := q.parity
        back := none }))).kickLoad n t.val a))

/-- Commits, drains and the activity ramp (R105 to R110, R113, R114, R117, R118): a compare that fails for the first time raises
F0, counts, and sends the pass again; one that does not fail commits it; a drain that does not accumulate stores the drained
columns at its row and changes no other byte but its statuses' row, and every drain that does not abort ORs its statuses into
DFLAGS; a compare that fails again retires the physical array; a logical array that moves reads its blocks again on its new
one; a ramp moves by an eighth, and an array with no pass open starts to ramp down. -/
def Obligations.CommitsDrainsAndRamps : Prop :=
  (∀ (t : Fin 96) (a : Fin 4) (n : Nat) (st : StepSt) (p : PassSt) (b : Block) (s : State), s.dev.stepOn t.val = some (n, st) →
    (s.dev.larr t.val a.val).pass = some p → (s.dev.larr t.val a.val).front = some b → p.phase = .ended →
    (s.dev.runsOn t.val a.val).isSome = true → (Safety.mach s).tapsBefore t.val p = false →
    ∀ v, compare (Ent.kind p.word == K.DTAP) (if Ent.kind p.word = K.PASS then b else b.scalesOff) p.base
        (s.dev.larr t.val a.val).tallies p.chk (p.rowChk.map (fun y => (y, p.rowRange))) p.sent = v →
    (v = .failed → p.rerun = false → ∃ m : Mach,
      Safety.gives (.passCompare t a []) s (m.restartPass t.val a.val p true)
      ∧ m.dev.raised = s.dev.raised ++ [{ Safety.rec 0 Src.TILE 2 t.val
          ((p.entry + a.val * 2 ^ 32 + s.dev.carrier t.val a.val * 2 ^ 34) % 2 ^ 64) with loop := n, safety := s.dev.loopSafety n }]
      ∧ m.dev.reg (Reg.TILE_ARRn_CNT_k t.val (s.dev.carrier t.val a.val) 4)
        = satAdd 32 (s.dev.reg (Reg.TILE_ARRn_CNT_k t.val (s.dev.carrier t.val a.val) 4)) 1)
    ∧ (v = .failed → p.rerun = true → Safety.gives (.passCompare t a []) s
      ((((Safety.mach s).mod (fun d => d.retire n t.val (s.dev.carrier t.val a.val) 1 p.entry)).restartPass t.val a.val p
        false).noArray n t.val))
    ∧ (v ≠ .failed → Safety.gives (.passCompare t a []) s ((Safety.mach s).commitPass n t.val a.val st p v)))
  ∧ (∀ (t : Fin 96) (stall i e : Nat) (l : ListSt) (st : StepSt) (s : State), Safety.memOk s → Safety.issues s t.val l st i e →
    s.dev.flash.flipped = [] → Ent.kind e = K.DRAIN → Drain.acc e = false → ∃ u,
    exec (.drain t stall []) s = .next u
    ∧ (∀ x, (x < (if Drain.ps e then psAddr t.val (Drain.drow e) else amAddr t.val (Drain.drow e))
          ∨ (if Drain.ps e then psAddr t.val (Drain.drow e) else amAddr t.val (Drain.drow e))
            + ((drainCols (s.dev.larr t.val (Ent.array e)) e).flatMap (fun c => leBytes (outBytes (Drain.ofmt e)) c.1)).length ≤ x) →
        (Drain.sten e = false ∨ x < amAddr t.val (Drain.strow e)
          ∨ amAddr t.val (Drain.strow e) + (drainCols (s.dev.larr t.val (Ent.array e)) e).length ≤ x) →
      Memory.read u.mem x = Memory.read s.mem x)
    ∧ (Drain.sten e = false → ∀ k, k < ((drainCols (s.dev.larr t.val (Ent.array e)) e).flatMap
          (fun c => leBytes (outBytes (Drain.ofmt e)) c.1)).length →
      Memory.read u.mem ((if Drain.ps e then psAddr t.val (Drain.drow e) else amAddr t.val (Drain.drow e)) + k)
        = ((drainCols (s.dev.larr t.val (Ent.array e)) e).flatMap
            (fun c => leBytes (outBytes (Drain.ofmt e)) c.1)).getD k 0))
  ∧ (∀ (t : Fin 96) (stall i e : Nat) (l : ListSt) (st : StepSt) (cols : List (Nat × Nat)) (m : Mach) (s : State),
    Safety.issues s t.val l st i e → Ent.kind e = K.DRAIN → cols = drainCols (s.dev.larr t.val (Ent.array e)) e →
    ((Safety.issued s t.val l).mod (fun d => (d.arrCnt t.val (s.dev.carrier t.val (Ent.array e)) 3 stall).capture t.val
      (s.dev.carrier t.val (Ent.array e)) cols)).drainWrite (Safety.iss t.val l st i e) (cols.map (·.1)) = (m, true) →
    Safety.gives (.drain t stall []) s
      (((if Drain.sten e then (m.mod (fun d => d.freeSlot t.val (s.dev.carrier t.val (Ent.array e)))).store
            (amAddr t.val (Drain.strow e)) (cols.map (fun c => BitVec.ofNat 8 c.2))
          else m.mod (fun d => d.freeSlot t.val (s.dev.carrier t.val (Ent.array e)))).mod (fun d =>
        d.wf (Reg.TILE_ARRn_STAT t.val (s.dev.carrier t.val (Ent.array e))) Fld.TILE_ARRn_STAT.DFLAGS
          (cols.foldl (fun v c => v ||| c.2) (d.rf (Reg.TILE_ARRn_STAT t.val (s.dev.carrier t.val (Ent.array e)))
            Fld.TILE_ARRn_STAT.DFLAGS)))).checkBad t.val))
  ∧ (∀ (t : Fin 96) (n k o : Nat) (st : StepSt) (s : State), s.dev.stepOn t.val = some (n, st) →
    (s.dev.tile t.val).remap = [(k, o)] → s.dev.runsOn t.val k = none →
    (∀ j, j < 4 → j ≠ k → s.dev.runsOn t.val j = some (s.dev.physOf t.val k) → (s.dev.larr t.val j).pass = none) →
    Safety.gives (.arrayRemap t) s ((Safety.mach s).moveLarr n t.val k))
  ∧ (∀ (t : Fin 96) (s : State), s.dev.stepOn t.val = none → ∃ u, exec (.arrayRemap t) s = .next u ∧ Safety.keepsMem s u
    ∧ (u.dev.tile t.val).remap = [])
  ∧ (∀ (t : Fin 96) (n : Nat) (st : StepSt) (s : State), s.dev.stepOn t.val = some (n, st) → (s.dev.tile t.val).remap = [] →
    Safety.givesDev (.arrayRemap t) s s.dev)
  ∧ (∀ (t : Fin 96) (p : Fin 4) (s : State),
    Safety.givesDev (.arrayRampStep t p) s (s.dev.modParr t.val p.val PhysArray.rampStep))
  ∧ (∀ (t : Fin 96) (p : Fin 4) (s : State), s.dev.passOn t.val p.val = false →
    Safety.givesDev (.arrayIdle t p) s (s.dev.modParr t.val p.val (fun x =>
      if x.ramp = .active ∨ x.ramp = .up then { x with ramp := if x.awake = 0 then .idle else .down } else x)))

/-- The weight streamer (R130 to R137, R185, R190, R192, R193): a plain fetch asks for one fill, numbered in list order, from its
base value and offset; a speculative one takes its predictions, and counts them as wasted where the binding does not allow
them; a decision without errors is resolved; the oldest request starts in the EMPTY slot at the fill pointer, FILLING or
SPECULATIVE; a fetch that lands without errors stores its rows and makes a FILLING slot FULL, and one whose table could not be
read makes its slot POISONED; a full slot that no block needs is released. -/
def Obligations.WeightFetches : Prop :=
  (∀ (t : Fin 96) (n i e : Nat) (st : StepSt) (s : State), (Safety.mach s).streamerStep t.val = some (n, st) →
    (Safety.mach s).streamerHead t.val = some (i, e) → Wf.mode e = 0 → ∃ u, exec (.wfetchPlain t) s = .next u ∧ Safety.keepsMem s u
    ∧ (u.dev.tile t.val).fillq = (s.dev.tile t.val).fillq
        ++ [⟨some (s.dev.tile t.val).nextFill, st.b.bases.getD (Wf.base e) 0 + Wf.offset e, Wf.len e, Wf.uses e, none, false⟩]
    ∧ (u.dev.tile t.val).nextFill = (s.dev.tile t.val).nextFill + 1 ∧ (u.dev.tile t.val).sptr = i + 1)
  ∧ (∀ (t : Fin 96) (n i e : Nat) (st : StepSt) (s : State), (Safety.mach s).streamerStep t.val = some (n, st) →
    (Safety.mach s).streamerHead t.val = some (i, e) → Wf.mode e = 1 → Wf.anchored e = false →
    Safety.gives (.wfetchSpec t []) s ((Safety.mach s).takeSpec n t.val i e st))
  ∧ (∀ (t : Fin 96) (n i e : Nat) (l : ListSt) (st st' : StepSt) (s : State), (Safety.mach s).streamerStep t.val = some (n, st) →
    (Safety.mach s).streamerHead t.val = some (i, e) → Wf.mode e = 1 → Wf.anchored e = true → Safety.issues s t.val l st' i e →
    Safety.gives (.wfetchSpec t []) s (((Safety.issued s t.val l).takeSpec n t.val i e st).checkBad t.val))
  ∧ (∀ (t : Fin 96) (n i e : Nat) (st : StepSt) (s : State), (Safety.mach s).streamerStep t.val = some (n, st) →
    (Safety.mach s).streamerHead t.val = some (i, e) → Wf.mode e = 1 → Wf.anchored e = false → st.b.spec = false → ∃ u,
    exec (.wfetchSpec t []) s = .next u ∧ Safety.keepsMem s u ∧ (u.dev.tile t.val).sptr = i + 1
    ∧ (u.dev.tile t.val).fillq = (s.dev.tile t.val).fillq
    ∧ u.dev.reg (Reg.TILE_SPEC_CNT_k t.val 4) = satAdd 32 (s.dev.reg (Reg.TILE_SPEC_CNT_k t.val 4)) (Wf.nx e))
  ∧ (∀ (t : Fin 96) (n i e : Nat) (st st' : StepSt) (l : ListSt) (tr : TabRec) (s : State),
    (Safety.mach s).streamerStep t.val = some (n, st) → (Safety.mach s).streamerHead t.val = some (i, e) → Wf.mode e = 2 →
    (s.dev.tile t.val).fillq = [] → Safety.issues s t.val l st' i e → Safety.noErrors s →
    st.b.route.tabs[Wf.xtab e]? = some tr → badDecision ((Safety.mach s).experts tr)
      (expertNumbers ((Safety.mach s).rdBytes (amAddr t.val (Wf.xrow e)) 64) (Wf.nx e)) [] = false →
    Safety.gives (.wfetchResolve t []) s
      (((((Safety.issued s t.val l).mod (fun d => d.skipTo t.val i)).resolve n t.val e st tr false
        (expertNumbers ((Safety.mach s).rdBytes (amAddr t.val (Wf.xrow e)) 64) (Wf.nx e))).kickLoads t.val).checkBad t.val))
  ∧ (∀ (t : Fin 96) (wait n : Nat) (st : StepSt) (r : FillReq) (rest : List FillReq) (s : State),
    (Safety.mach s).streamerStep t.val = some (n, st) → (s.dev.tile t.val).fillq = r :: rest →
    s.dev.rf (Reg.TILE_WR_STAT t.val) Fld.TILE_WR_STAT.FILL_PTR < 6 →
    s.dev.token t.val (s.dev.rf (Reg.TILE_WR_STAT t.val) Fld.TILE_WR_STAT.FILL_PTR) = Tok.EMPTY →
    s.dev.slotsInUse t.val < s.dev.rf (Reg.TILE_WR_STAT t.val) Fld.TILE_WR_STAT.DEPTH → ∃ u,
    exec (.streamerFillStart t wait) s = .next u ∧ Safety.keepsMem s u ∧ (u.dev.tile t.val).fillq = rest
    ∧ (u.dev.tile t.val).slots = modAt (s.dev.tile t.val).slots (s.dev.rf (Reg.TILE_WR_STAT t.val) Fld.TILE_WR_STAT.FILL_PTR)
      (fun _ => { req := some r })
    ∧ u.dev.reg (Reg.TILE_WR_SLOTn t.val (s.dev.rf (Reg.TILE_WR_STAT t.val) Fld.TILE_WR_STAT.FILL_PTR))
      = ((match r.fill with
          | some _ => Tok.FILLING
          | none => Tok.SPECULATIVE) * 2 ^ 29 + (match r.fill with
          | some f => r.uses - (s.dev.tile t.val).pendingLoads f
          | none => 0)) % 2 ^ 32
    ∧ u.dev.rf (Reg.TILE_WR_STAT t.val) Fld.TILE_WR_STAT.FILL_PTR
      = (s.dev.rf (Reg.TILE_WR_STAT t.val) Fld.TILE_WR_STAT.FILL_PTR + 1) % 6
    ∧ u.dev.reg (Reg.TILE_WR_CNT_k t.val 1) = satAdd 32 (s.dev.reg (Reg.TILE_WR_CNT_k t.val 1)) wait)
  ∧ (∀ (t : Fin 96) (slot : Fin 6) (n : Nat) (r : FillReq) (s : State), Safety.noErrors s →
    s.dev.tileLoop t.val = some n → ((s.dev.tile t.val).slots.getD slot.val {}).req = some r →
    ((s.dev.tile t.val).slots.getD slot.val {}).landed = false → s.dev.fetchGoes t.val r = true → ∀ land : Dev → Dev,
    land = (fun d => (d.modTile t.val (fun y => { y with
      slots := modAt y.slots slot.val (fun z => { z with landed := true }) })).setOutstanding t.val) →
    (r.bad = false → Safety.gives (.fetchLanded t slot []) s
      ((((Safety.mach s).store (wmAddr t.val slot.val 0) ((Safety.mach s).rdBytes r.addr (64 * r.rows))).mod (fun d =>
        let e := ((land d).cnt (Reg.TILE_WR_CNT_k t.val 0) 1).fromHbm r.addr r.rows t.val
        if e.token t.val slot.val = Tok.FILLING then e.setToken t.val slot.val Tok.FULL else e)).kickLoads t.val))
    ∧ (r.bad = true → Safety.gives (.fetchLanded t slot []) s
      (((Safety.mach s).mod (fun d => ((land d).setToken t.val slot.val Tok.POISONED).cnt (Reg.TILE_WR_CNT_k t.val 3)
        1)).kickLoads t.val)))
  ∧ (∀ (t : Fin 96) (slot : Fin 6) (f : Nat) (s : State), (s.dev.tile t.val).fillIn slot.val = some f →
    s.dev.token t.val slot.val = Tok.FULL → s.dev.slotUses t.val slot.val = 0 → (Safety.mach s).fillBusy t.val f = false →
    Safety.givesDev (.slotRelease t slot) s (s.dev.emptySlot t.val slot.val))

/-- Reading ahead, sends and receives (R20, R140 to R142, R187, R189): a list reads its next entries from the image, one
without errors joins its buffer; an issued SEND or RECV joins the flights of its list, and those in flight go on in order; the
oldest row on its way to a queue, when its source has sent none before it to the tile and no frozen arbiter holds it, is stored
at the queue's write position, and no other byte changes. -/
def Obligations.StreamsOfRows : Prop :=
  (∀ (l : ListId) (x : ListSt) (s : State), Safety.noErrors s → s.dev.list (listKey l) = some x → x.bad = none →
    x.buf.length < 4096 → x.next + x.buf.length < x.count →
    s.dev.hbmOpen (x.addr + 16 * (x.next + x.buf.length)) 16 (listReq (listKey l)) = true → Safety.gives (.listFetch l 1 []) s
      ((((Safety.mach s).mod (fun d => d.setList (listKey l)
        { x with buf := x.buf ++ [(Safety.mach s).rdNat (x.addr + 16 * (x.next + x.buf.length)) 16] })).passFetches
        (listKey l) 4096).checkBad (listKey l)))
  ∧ (∀ (l : ListId) (n : Fin 4097) (us : List Upset) (s : State), Safety.gives (.listFetch l n us) s
      (((((Safety.mach s).upsets us).readAhead (listKey l) n.val).passFetches (listKey l) 4096).checkBad (listKey l)))
  ∧ (∀ (n : Fin 16) (i e : Nat) (l : ListSt) (st : StepSt) (s : State), Safety.issues s (112 + n.val) l st i e →
    Ent.kind e = K.SEND → (∀ b, st.bound.find? (fun b => b.stream == bits (Send.srow e) 5 0) = some b →
      Send.trow e + Send.nrows e ≤ b.rows) → Safety.gives (.send (.ingest n) []) s
      (((Safety.issued s (112 + n.val) l).fly (Safety.iss (112 + n.val) l st i e)).sendAll (112 + n.val)))
  ∧ (∀ (t : Fin 96) (i e : Nat) (l : ListSt) (st : StepSt) (s : State), Safety.issues s t.val l st i e →
    Ent.kind e = K.SEND → Safety.gives (.send (.tile t) []) s
      (((Safety.issued s t.val l).fly (Safety.iss t.val l st i e)).sendAll t.val))
  ∧ (∀ (t : Fin 96) (i e : Nat) (l : ListSt) (st : StepSt) (s : State), Safety.issues s t.val l st i e →
    Ent.kind e = K.RECV → Safety.gives (.recv t []) s
      (((Safety.issued s t.val l).fly (Safety.iss t.val l st i e)).recvAll t.val))
  ∧ (∀ (t : Fin 96) (q : Fin 16) (r : Transit) (rest : List Transit) (base len rel held : Nat) (s : State), Safety.memOk s →
    s.dev.flash.flipped = [] → AMap.getD s.dev.transit (16 * t.val + q.val) [] = r :: rest →
    s.dev.behind t.val r = false → s.dev.meshOpen r.srcRidge (t.val / 4) (t.val % 4) (srcReq r.src) = true →
    s.dev.queue t.val q.val = (base, len, rel, held) → ∃ u, exec (.landingRow t q []) s = .next u
    ∧ AMap.getD u.dev.transit (16 * t.val + q.val) [] = rest
    ∧ u.dev.rf (Reg.TILE_LQn_PTR t.val q.val) Fld.TILE_LQn_PTR.WPTR
      = (s.dev.rf (Reg.TILE_LQn_PTR t.val q.val) Fld.TILE_LQn_PTR.WPTR + 1) % len
    ∧ (∀ k, k < r.data.length → Memory.read u.mem
        (amAddr t.val (base + s.dev.rf (Reg.TILE_LQn_PTR t.val q.val) Fld.TILE_LQn_PTR.WPTR) + k) = r.data.getD k 0)
    ∧ (∀ x, (x < amAddr t.val (base + s.dev.rf (Reg.TILE_LQn_PTR t.val q.val) Fld.TILE_LQn_PTR.WPTR)
        ∨ amAddr t.val (base + s.dev.rf (Reg.TILE_LQn_PTR t.val q.val) Fld.TILE_LQn_PTR.WPTR) + r.data.length ≤ x) →
        Memory.read u.mem x = Memory.read s.mem x))

/-- Spur calls (R148 to R151, R153): an issued call is in flight with its entry point and the low word of its arguments in a0,
BUSY; a call whose code retires its instructions and then traps ends there: by an ecall, successfully when a0 is 0 and else with
a fault, or by another trap with a fault, its cause recorded, and it is counted; a count that the code does not bear out changes
nothing; a corrected row is written back at its bank's next free beat. That the code runs when the command that ends its call
comes is the model's choice (log 42). -/
def Obligations.SpurCalls : Prop :=
  (∀ (t : Fin 96) (i e arg : Nat) (l : ListSt) (st : StepSt) (s : State), Safety.issues s t.val l st i e →
    Ent.kind e = K.SPUR → arg = (Safety.mach s).rdNat (l.addr + 16 * (i + 1)) 16 →
    ∃ u, exec (.spurCall t) s = .next u ∧ Safety.keepsMem s u
    ∧ (u.dev.tile t.val).spur.call = some i ∧ (u.dev.tile t.val).spur.pc = 0x300000 + st.b.route.spurBase + Spur.code e
    ∧ u.dev.rf (Reg.TILE_SPUR_STAT t.val) Fld.TILE_SPUR_STAT.BUSY = 1
    ∧ (∀ p ∈ [(10, bits arg 31 0), (11, bits arg 63 32), (12, bits arg 95 64), (13, bits arg 127 96),
        (14, (if Spur.ps e then 0x2C0000 else 0) + 64 * Spur.arow e), (15, 64 * Spur.anrows e), (2, st.b.route.spurStack)],
        (u.dev.tile t.val).spur.xr p.1 = BitVec.ofNat 64 p.2)
    ∧ (∀ k, k < 32 → k ∉ [2, 10, 11, 12, 13, 14, 15] → (u.dev.tile t.val).spur.xr k
        = (if (s.dev.tile t.val).spur.called then (s.dev.tile t.val).spur.xr k else 0)))
  ∧ (∀ (t : Fin 96) (k n i cause : Nat) (m1 m2 : Mach) (s : State), s.dev.spurCallOn t.val = some (n, i) →
    Mach.rvRun n t.val k (Safety.mach s) = (m1, none) → m1.rvStep n t.val = (m2, some cause) →
    (cause = 8 → Safety.gives (.spurEcall t k []) s (m2.spurTrapped n t.val i 8)
      ∧ Safety.givesDev (.spurTrap t k []) s s.dev)
    ∧ (cause ≠ 8 → Safety.gives (.spurTrap t k []) s (m2.spurTrapped n t.val i cause)
      ∧ Safety.givesDev (.spurEcall t k []) s s.dev)
    ∧ (cause = 8 → (m2.dev.tile t.val).spur.xr 10 = 0 → ∃ u, exec (.spurEcall t k []) s = .next u
      ∧ u.mem = Memory.writeLog s.mem m2.log ∧ (u.dev.tile t.val).spur.call = none ∧ u.dev.reg (Reg.TILE_SPUR_CAUSE t.val) = 8
      ∧ u.dev.rf (Reg.TILE_SPUR_STAT t.val) Fld.TILE_SPUR_STAT.BUSY = 0
      ∧ u.dev.reg (Reg.TILE_SPUR_CALLS t.val) = satAdd 32 (m2.dev.reg (Reg.TILE_SPUR_CALLS t.val)) 1
      ∧ u.dev.raised = m2.dev.raised))
  ∧ (∀ (addr : BitVec 48) (s : State), ∃ u, exec (.eccWriteBack addr) s = .next u ∧ Safety.keepsMem s u
    ∧ (∀ x, x ∈ u.dev.wb ↔ x ∈ s.dev.wb ∧ x ≠ eccUnit addr.toNat))

/-- Tap entries, ARGMAX and SIGN (R183, R204, R210, R219, R221, R226 to R228): a tap entry with tap passes opens on its
logical array, which wakes; one with none opens no pass, and an empty table is flagged in TILE_CONV_STAT; one that accumulates
in another window is a fault that aborts the step. ARGMAX reads its rows, stores at its destination row, for each pixel, the
number of its largest channel and whether a NaN stood there, counts the pixels, and changes no other byte; SIGN folds its rows
into its signature register and changes no memory. -/
def Obligations.TapsArgmaxAndSign : Prop :=
  (∀ (c : Instr) (k : Nat) (t : Fin 96) (i e : Nat) (l : ListSt) (st : StepSt) (s : State),
    (c, k) ∈ [(Instr.ctap t, K.CTAP), (.dtap t, K.DTAP)] → Safety.issues s t.val l st i e → Ent.kind e = k →
    (Tap.nrows e ≠ 0 → (Pass.acc e = false ∨ (s.dev.larr t.val (Ent.array e)).win = none
        ∨ (s.dev.larr t.val (Ent.array e)).win = some (Pass.win e)) → Safety.gives c s
      (((Safety.issued s t.val l).fly (Safety.iss t.val l st i e)).mod (fun d =>
        (d.modLarr t.val (Ent.array e) (fun x => { x with pass := some { entry := i, word := e } })).modParr t.val
          (d.carrier t.val (Ent.array e)) PhysArray.wake)))
    ∧ (Tap.nrows e ≠ 0 → Pass.acc e = true → (∀ w, (s.dev.larr t.val (Ent.array e)).win = some w → w ≠ Pass.win e) →
      (s.dev.larr t.val (Ent.array e)).win ≠ none → Safety.gives c s
      (((Safety.issued s t.val l).tileFault l.loop t.val 0x0001 (i + Ent.array e * 2 ^ 32)).checkBad t.val))
    ∧ (∀ (tr : TabRec) (tb : TapTable), Tap.nrows e = 0 → st.b.route.tabs[Tap.table e]? = some tr →
      tb = tapTable (Safety.mach s) tr → Safety.givesDev c s (if tb.oh = 0 || tb.ow = 0 then
          ((s.dev.setList t.val l.take).wf (Reg.TILE_CONV_STAT t.val) Fld.TILE_CONV_STAT.EMPTY 1).wf
            (Reg.TILE_CONV_STAT t.val) Fld.TILE_CONV_STAT.ETABLE (Tap.table e)
        else s.dev.setList t.val l.take)))
  ∧ (∀ (t : Fin 96) (i e b pr : Nat) (l : ListSt) (st : StepSt) (bs : List Byte) (words : List Nat) (s : State),
    Safety.memOk s → Safety.noErrors s → s.dev.flash.flipped = [] → Safety.issues s t.val l st i e → Ent.kind e = K.ARGMAX →
    b = outBytes (Argmax.ifmt e) → pr = ceilDiv (Argmax.npix e * b) 64 →
    bs = (Safety.mach s).rdBytes (amAddr t.val (Argmax.srow e)) (64 * pr * Argmax.nch e) →
    words = (List.range (Argmax.npix e)).map (fun px =>
      (argmaxOf ((List.range (Argmax.nch e)).map (fun c =>
          argValue (Argmax.ifmt e) (field bs (64 * pr * c + px * b) b)))).1
        + b2n (argmaxOf ((List.range (Argmax.nch e)).map (fun c =>
          argValue (Argmax.ifmt e) (field bs (64 * pr * c + px * b) b)))).2 * 2 ^ 15) →
    ∃ u, exec (.argmax t []) s = .next u ∧ u.pending = s.pending
    ∧ u.dev.reg (Reg.TILE_CONV_CNT_k t.val 3) = satAdd 32 (s.dev.reg (Reg.TILE_CONV_CNT_k t.val 3)) (Argmax.npix e)
    ∧ (∀ x, x < 64 * ceilDiv (Argmax.npix e) 32 → Memory.read u.mem (amAddr t.val (Argmax.drow e) + x)
        = (words.flatMap (leBytes 2)).getD x 0)
    ∧ (∀ x, (x < amAddr t.val (Argmax.drow e) ∨ amAddr t.val (Argmax.drow e) + 64 * ceilDiv (Argmax.npix e) 32 ≤ x) →
        Memory.read u.mem x = Memory.read s.mem x))
  ∧ (∀ (t : Fin 96) (i e : Nat) (l : ListSt) (st : StepSt) (s : State), Safety.noErrors s → Safety.issues s t.val l st i e →
    Ent.kind e = K.CHECK → Chk.op e = 3 → Safety.givesDev (.sign t []) s
      ((s.dev.setList t.val l.take).modTile t.val (fun x => { x with
        sigs := modAt x.sigs (Chk.sig e) (fun v =>
          (crcParams 3).run v ((Safety.mach s).rdBytes (amAddr t.val (Chk.srow e)) (64 * Chk.nrows e))) })))

/-- Calls of the Tarn list (R261 to R269), where nothing has an error and no arbiter is frozen: a SUPPLY joins the flights of its
tile's list, whose supplies go on; an APPEND and a TOKENS take the rows of their inbox and write their positions, in a recompute
step or within MAXLEN, unless a write is stopped; a DECODE, a WALK and a FEED put their output rows, for each batch position in
order, behind the rows of their queue, and a DECODE counts what R268 counts. For a batch of empty positions an APPEND and a
TOKENS write nothing and the others put rows of zeros. -/
def Obligations.TarnCalls : Prop :=
  (∀ (t : Fin 96) (i e : Nat) (l : ListSt) (st : StepSt) (s : State), Safety.issues s t.val l st i e → Ent.kind e = K.TARN →
    Safety.gives (.supply t []) s (((Safety.issued s t.val l).fly (Safety.iss t.val l st i e)).supplyAll t.val))
  ∧ (∀ (n : Fin 16) (i e ctx : Nat) (l : ListSt) (st : StepSt) (p : TParam) (r : NsRec) (x : CtxSt) (m1 m2 : Mach) (s : State),
    Safety.noErrors s → Safety.issues s (96 + n.val) l st i e →
    l.loop = n.val → Ent.kind e = K.TARN → Tarn.op e = 1 → st.ctx = some ctx → AMap.find s.dev.tarn.ctxs ctx = some x →
    (Safety.mach s).callOpen st e = true → (Safety.mach s).tparam st.b.route e = p →
    (Safety.mach s).callNs p (batchOf st p) = some r → Tarn.nrows e ≤ (x.inbox (Tarn.chan e)).length →
    Tarn.nrows e = p.bcount * p.npos * rowsOf (2 * r.nkv * r.hd * r.b) → p.kvclass = r.kvclass → p.layer < r.nl →
    m1 = (Safety.issued s (96 + n.val) l).mod (fun d => d.takeInbox ctx (Tarn.chan e) (Tarn.nrows e)) →
    m1.appendPast (Safety.iss (96 + n.val) l st i e) p = false →
    m1.appendAll (Safety.iss (96 + n.val) l st i e) p r ((x.inbox (Tarn.chan e)).take (Tarn.nrows e)) = (m2, none) →
    Safety.gives (.append n) s ((m2.checkBad (96 + n.val)).tarnOut n.val))
  ∧ (∀ (n : Fin 16) (i e ctx : Nat) (l : ListSt) (st : StepSt) (p : TParam) (r : NsRec) (x : CtxSt) (m1 m2 : Mach) (s : State),
    Safety.noErrors s → Safety.issues s (96 + n.val) l st i e →
    l.loop = n.val → Ent.kind e = K.TARN → Tarn.op e = 2 → st.ctx = some ctx → AMap.find s.dev.tarn.ctxs ctx = some x →
    (Safety.mach s).callOpen st e = true → (Safety.mach s).tparam st.b.route e = p →
    (Safety.mach s).callNs p (batchOf st p) = some r → Tarn.nrows e ≤ (x.inbox (Tarn.chan e)).length →
    Tarn.nrows e = ceilDiv (p.bcount * p.npos) 16 →
    m1 = (Safety.issued s (96 + n.val) l).mod (fun d => d.takeInbox ctx (Tarn.chan e) (Tarn.nrows e)) →
    m1.tokensAll (Safety.iss (96 + n.val) l st i e) p ((x.inbox (Tarn.chan e)).take (Tarn.nrows e)) = (m2, none) →
    Safety.gives (.tokens n) s ((m2.checkBad (96 + n.val)).tarnOut n.val))
  ∧ (∀ (n : Fin 16) (i e ctx : Nat) (l : ListSt) (st : StepSt) (p : TParam) (r : NsRec) (x : CtxSt) (m1 m2 : Mach)
    (out : List (List Byte × Nat × Nat)) (s : State),
    Safety.noErrors s → Safety.issues s (96 + n.val) l st i e →
    l.loop = n.val → Ent.kind e = K.TARN → Tarn.op e = 3 → st.ctx = some ctx → AMap.find s.dev.tarn.ctxs ctx = some x →
    (Safety.mach s).callOpen st e = true → (Safety.mach s).tparam st.b.route e = p →
    (Safety.mach s).callNs p (batchOf st p) = some r → Tarn.nrows e ≤ (x.inbox (Tarn.chan e)).length →
    Tarn.nrows e = p.bcount * rowsOf (r.nkv * p.g * r.hd * 2) → p.layer < r.nl →
    m1 = (Safety.issued s (96 + n.val) l).mod (fun d => d.takeInbox ctx (Tarn.chan e) (Tarn.nrows e)) →
    m1.decodeReads (Safety.iss (96 + n.val) l st i e) p r = (m2, false) →
    out = m1.decodeAll (Safety.iss (96 + n.val) l st i e) p r ((x.inbox (Tarn.chan e)).take (Tarn.nrows e)) →
    Safety.gives (.decode n) s ((((m2.mod (fun d => ((d.cnt (Reg.TRN_CNT_k 9)
        (m1.decodeSaved (Safety.iss (96 + n.val) l st i e) p)).cnt (Reg.TRN_CNT_k 10) (out.foldl (fun n y => n + y.2.1) 0)).cnt
        (Reg.TRN_CNT_k 15) (out.foldl (fun n y => n + y.2.2) 0))).tarnPut (Safety.iss (96 + n.val) l st i e) (toRows (out.flatMap (·.1)))).checkBad
          (96 + n.val)).tarnOut n.val))
  ∧ (∀ (n : Fin 16) (i e ctx : Nat) (l : ListSt) (st : StepSt) (p : TParam) (r : NsRec) (x : CtxSt) (m1 m2 : Mach) (s : State),
    Safety.noErrors s → Safety.issues s (96 + n.val) l st i e →
    l.loop = n.val → Ent.kind e = K.TARN → Tarn.op e = 4 → st.ctx = some ctx → AMap.find s.dev.tarn.ctxs ctx = some x →
    (Safety.mach s).callOpen st e = true → (Safety.mach s).tparam st.b.route e = p →
    (Safety.mach s).callNs p (batchOf st p) = some r → p.layer < r.nl →
    m1 = (Safety.issued s (96 + n.val) l).mod (fun d => d.takeInbox ctx (Tarn.chan e) 0) →
    m1.readPages n.val 120 p.layer r (m1.walkNodes (Safety.iss (96 + n.val) l st i e) p) = (m2, false) →
    Safety.gives (.walk n) s (((m2.tarnPut (Safety.iss (96 + n.val) l st i e) (m1.walkRows (Safety.iss (96 + n.val) l st i e) p r)).checkBad
      (96 + n.val)).tarnOut n.val))
  ∧ (∀ (n : Fin 16) (i e ctx : Nat) (l : ListSt) (st : StepSt) (p : TParam) (r : NsRec) (x : CtxSt) (m1 : Mach) (s : State),
    Safety.noErrors s → Safety.issues s (96 + n.val) l st i e →
    l.loop = n.val → Ent.kind e = K.TARN → Tarn.op e = 5 → st.ctx = some ctx → AMap.find s.dev.tarn.ctxs ctx = some x →
    (Safety.mach s).callOpen st e = true → (Safety.mach s).tparam st.b.route e = p →
    (Safety.mach s).callNs p (batchOf st p) = some r →
    m1 = (Safety.issued s (96 + n.val) l).mod (fun d => d.takeInbox ctx (Tarn.chan e) 0) →
    Safety.gives (.feed n) s (((m1.tarnPut (Safety.iss (96 + n.val) l st i e) (toRows (m1.feedBytes (Safety.iss (96 + n.val) l st i e) p))).checkBad
      (96 + n.val)).tarnOut n.val))
  ∧ (∀ (c : Instr) (op : Nat) (n : Fin 16) (i e ctx : Nat) (l : ListSt) (st : StepSt) (p : TParam) (r : NsRec) (x : CtxSt)
      (s : State), (c, op) ∈ [(Instr.append n, 1), (.tokens n, 2)] → Safety.noErrors s → Safety.issues s (96 + n.val) l st i e →
    l.loop = n.val → Ent.kind e = K.TARN → Tarn.op e = op → st.ctx = some ctx → AMap.find s.dev.tarn.ctxs ctx = some x →
    (Safety.mach s).callOpen st e = true → (Safety.mach s).tparam st.b.route e = p →
    (batchOf st p).all (fun o => o.isNone) = true → s.dev.nsRec p.nsid = some r →
    Tarn.nrows e ≤ (x.inbox (Tarn.chan e)).length →
    (op = 1 → Tarn.nrows e = p.bcount * p.npos * rowsOf (2 * r.nkv * r.hd * r.b) ∧ p.kvclass = r.kvclass ∧ p.layer < r.nl) →
    (op = 2 → Tarn.nrows e = ceilDiv (p.bcount * p.npos) 16) →
    Safety.gives c s (((Safety.issued s (96 + n.val) l).mod (fun d => d.takeInbox ctx (Tarn.chan e) (Tarn.nrows e))).tarnOut
      n.val))
  ∧ (∀ (c : Instr) (op : Nat) (n : Fin 16) (i e ctx : Nat) (l : ListSt) (st : StepSt) (p : TParam) (r : NsRec) (x : CtxSt)
      (s : State), (c, op) ∈ [(Instr.decode n, 3), (.walk n, 4), (.feed n, 5)] → Safety.noErrors s → Safety.issues s (96 + n.val) l st i e →
    l.loop = n.val → Ent.kind e = K.TARN → Tarn.op e = op → st.ctx = some ctx → AMap.find s.dev.tarn.ctxs ctx = some x →
    (Safety.mach s).callOpen st e = true → (Safety.mach s).tparam st.b.route e = p →
    (batchOf st p).all (fun o => o.isNone) = true → s.dev.nsRec p.nsid = some r → p.layer < r.nl →
    (op = 3 → Tarn.nrows e ≤ (x.inbox (Tarn.chan e)).length ∧ Tarn.nrows e = p.bcount * rowsOf (r.nkv * p.g * r.hd * 2)) →
    ∃ (m : Mach) (k : Nat), Safety.gives c s (m.tarnOut n.val) ∧ m.log = []
    ∧ AMap.find m.dev.outq (st.b.dest (Tarn.dpkg e) (Tarn.dtile e) (Tarn.dq e)).key
      = some (AMap.getD s.dev.outq (st.b.dest (Tarn.dpkg e) (Tarn.dtile e) (Tarn.dq e)).key []
        ++ List.replicate k (List.replicate 64 0))
    ∧ (op = 3 → k = p.bcount * rowsOf (r.nkv * p.g * r.hd * (if p.ofmt = 1 then 2 else 4)))
    ∧ (op = 5 → k = rowsOf (p.bcount * (4 * p.npos))))

/-- Marks and resources (R290, R291, R498, R499): a MARK in order loads its budget and expects the next number; one out of order
is a fault that aborts the step; an ACQUIRE of a free resource above every rank held is granted at once, one of a held resource
waits behind the others, and one that is not above every rank held aborts the step; a RELEASE lets the resource go. That a
waiting ACQUIRE holds back every entry behind it is the model's choice (log 56). -/
def Obligations.MarksAndSemaphores : Prop :=
  (∀ (li : ListId) (i e : Nat) (l : ListSt) (st : StepSt) (s : State), Safety.issues s (listKey li) l st i e →
    Ent.kind e = K.CHECK → Chk.op e = 0 →
    (Chk.markid e = l.nextMark → Safety.givesDev (.mark li) s ((s.dev.setList (listKey li) l.take).setList (listKey li)
      { l.take with
        nextMark := l.nextMark + 1
        segment := if Chk.budget e = 0 then none else some (Chk.budget e : Rat)
        fresh := true }))
    ∧ (Chk.markid e ≠ l.nextMark → Safety.gives (.mark li) s
      (((Safety.issued s (listKey li) l).superviseAbort l.loop 0x0002 (listUnit (listKey li)) i none).checkBad (listKey li))))
  ∧ (∀ (li : ListId) (i e : Nat) (l : ListSt) (st : StepSt) (r : ResRec) (s : State), Safety.issues s (listKey li) l st i e →
    Ent.kind e = K.CHECK → Chk.op e = 1 → st.b.route.res[Chk.res e]? = some r →
    (r.rank ≤ (Safety.issued s (listKey li) l).dev.highestRank l.loop → Safety.gives (.acquire li) s
      ((((Safety.issued s (listKey li) l).mod (fun d => (d.cnt (Reg.SCH_CNT_k 0) 1).raiseFor l.loop 1 Src.SCHED 0x0001
        (listUnit (listKey li)) (i + Chk.res e * 2 ^ 32))).abortStep l.loop).checkBad (listKey li)))
    ∧ ((Safety.issued s (listKey li) l).dev.highestRank l.loop < r.rank →
      (s.dev.resOf (s.dev.poolKey st.b r)).holder = none → Safety.gives (.acquire li) s
      ((((Safety.issued s (listKey li) l).fly (Safety.iss (listKey li) l st i e)).mod (fun d => d.grantRes
        (s.dev.poolKey st.b r) ⟨listKey li, l.loop, r.rank, r.shared⟩)).checkBad (listKey li)))
    ∧ ((Safety.issued s (listKey li) l).dev.highestRank l.loop < r.rank →
      (s.dev.resOf (s.dev.poolKey st.b r)).holder ≠ none → ∃ m : Mach, Safety.gives (.acquire li) s (m.checkBad (listKey li))
      ∧ m.log = [] ∧ (m.dev.resOf (s.dev.poolKey st.b r)).waiters
        = (s.dev.resOf (s.dev.poolKey st.b r)).waiters ++ [⟨listKey li, l.loop, r.rank, r.shared⟩]
      ∧ (m.dev.list (listKey li)).map (fun x => x.waiting) = some (some (Chk.res e))))
  ∧ (∀ (li : ListId) (i e : Nat) (l : ListSt) (st : StepSt) (r : ResRec) (s : State), Safety.issues s (listKey li) l st i e →
    Ent.kind e = K.CHECK → Chk.op e = 2 → st.b.route.res[Chk.res e]? = some r → Safety.gives (.release li) s
      (((Safety.issued s (listKey li) l).mod (fun d =>
        (d.releaseRes (s.dev.poolKey st.b r)).afterRelease l.loop)).checkBad (listKey li)))

/-- The ends of steps and what they leave (R184, R188, R232, R246, R280, R466, R498): an END ends its list and stops its segment
supervisor; with every list ended and nothing against its Tarn context the step leaves its loop: it is charged its beats, a
Cairn step is checked, the rows of its post are copied, and STEPS counts; what stands against its context is a fault that aborts
it. The oldest rows kept for a post go to the control engine; a node whose grace is over is FREE again, and one that a step may
still use stays; a write of TRN_CTRL.EN is locked while a sequence is open, refused where the region would meet an area in use,
and sets the bit otherwise, with fresh tables when it enables the engine (log 78). -/
def Obligations.StepEndsLeaveLoop : Prop :=
  (∀ (li : ListId) (i e : Nat) (l : ListSt) (st : StepSt) (s : State), Safety.issues s (listKey li) l st i e →
    Ent.kind e = K.END → Safety.givesDev (.endList li) s ((s.dev.setList (listKey li) l.take).setList (listKey li)
      { l.take with
        ended := true
        segment := none }))
  ∧ (∀ (n : Fin 16) (beats : Nat) (st : StepSt) (m : Mach) (s : State), (s.dev.loop n.val).step = some st →
    st.phase = .running → (∀ p ∈ s.dev.lists, p.2.loop = n.val → p.2.ended = true) →
    (∀ c, st.ctx = some c → (Safety.mach s).tarnEndFault c = none) →
    m = ((Safety.mach s).mod (fun d => if st.cairn then ((d.endBoost n.val).charge n.val beats).cairnCheck n.val st
      else (d.endBoost n.val).charge n.val beats)) →
    Safety.gives (.stepEnd n beats) s ((((m.copyPost n.val st).leaveStep n.val st true).mod
        (fun d => d.loopCnt n.val 0)).applyDeferred n.val))
  ∧ (∀ (n : Fin 16) (beats : Nat) (st : StepSt) (s : State), (s.dev.loop n.val).step = some st → st.phase = .running →
    (∀ p ∈ s.dev.lists, p.2.loop = n.val → p.2.ended = true) → st.ctx = none → (s.dev.loop n.val).deferred = [] →
    ∃ u, exec (.stepEnd n beats) s = .next u ∧ (u.dev.loop n.val).step = none)
  ∧ (∀ (n : Fin 16) (beats c code detail : Nat) (st : StepSt) (s : State), (s.dev.loop n.val).step = some st →
    st.phase = .running → (∀ p ∈ s.dev.lists, p.2.loop = n.val → p.2.ended = true) → st.ctx = some c →
    (Safety.mach s).tarnEndFault c = some (code, detail) → Safety.gives (.stepEnd n beats) s
      (((Safety.mach s).mod (fun d => d.raiseFor n.val 1 Src.TARN code c (if code = 5 then
        (match s.dev.list (96 + n.val) with
          | some l => l.count - 1
          | none => 0) else detail))).abortWith n.val (some beats)))
  ∧ (∀ (n : Fin 16) (stamp : Nat) (rows : List Byte) (rest : List (Nat × List Byte)) (s : State),
    AMap.getD s.dev.posts n.val [] = (stamp, rows) :: rest → Safety.gives (.post n) s
      (((Safety.mach s).mod (fun d => { d with posts :=
        (if rest.isEmpty then AMap.erase d.posts n.val else AMap.set d.posts n.val rest) })).postRows (postRecords rows) stamp (n.val + 1)))
  ∧ (∀ (node : Fin 1048576) (held : Bool) (s : State), AMap.find s.dev.tarn.grace node.val = some held →
    ((Safety.mach s).graceOver node.val = true → (s.dev.nsRec ((Safety.mach s).nd node.val Nd.NSID 1)).isSome →
      ∃ u, exec (.graceFree node) s = .next u ∧ node.val ∈ u.dev.tarn.nodeFree
      ∧ AMap.find u.dev.tarn.grace node.val = none)
    ∧ ((Safety.mach s).graceOver node.val = false → Safety.givesDev (.graceFree node) s s.dev))
  ∧ (∀ (en : Bool) (s : State), s.dev.tarn.openSlots ≠ [] → Safety.givesDev (.trnEn en) s
      (s.dev.wf Reg.TRN_STAT Fld.TRN_STAT.CFG_LOCKED_WRITE 1))
  ∧ (∀ s : State, s.dev.tarn.openSlots = [] → Safety.givesDev (.trnEn false) s (s.dev.wf Reg.TRN_CTRL Fld.TRN_CTRL.EN 0))
  ∧ (∀ s : State, s.dev.tarn.openSlots = [] → Safety.givesDev (.trnEn true) s
      (if anyArea s.dev.trnRegion (s.dev.saveAreas ++ (Safety.mach s).streamAreas ++ s.dev.poolAreas
          ++ s.dev.imageAreas ++ s.dev.tarinadyAreas ++ s.dev.flashAreas)
        then s.dev.wf Reg.TRN_STAT Fld.TRN_STAT.CFG_LOCKED_WRITE 1
        else (if s.dev.rf Reg.TRN_CTRL Fld.TRN_CTRL.EN = 0 then s.dev.freshTables else s.dev).wf Reg.TRN_CTRL
          Fld.TRN_CTRL.EN 1))

/-- Releases and windows (R275, R276, R277, R285): the release of an enabled paced loop comes at its next congruent instant and is
pending, and one that finds a release pending or a step merges and counts MISSED_REL; the guard of an enabled and bound safety
loop comes GUARD before its next opening and calls for the pre-emption of the steps on its ridges; its window opens at the next
congruent instant, and the step that is due with it is late when it cannot start; the window closes LEN after its opening, and
a step that was due and not late is due no more; the scheduler decides. That the timebase is found at these instants and that a
late step still starts after its window has closed are the model's choices (log 51, 55). -/
def Obligations.ReleasesGuardsAndWindows : Prop :=
  (∀ (n : Fin 16) (e : Dev) (s : State), s.dev.loopClass n.val = 1 → s.dev.loopEn n.val = true →
    e = (s.dev.reachUs (s.dev.nextInstant n.val)).modLoop n.val (fun l => { l with mark := s.dev.nextInstant n.val }) →
    ((s.dev.loop n.val).release = false → (s.dev.loop n.val).step = none → Safety.givesDev (.pacedRelease n) s
      (e.modLoop n.val (fun l => { l with release := true })))
    ∧ ((s.dev.loop n.val).release = true ∨ (s.dev.loop n.val).step ≠ none → Safety.givesDev (.pacedRelease n) s
      (e.loopCnt n.val 2)))
  ∧ (∀ (n : Fin 16) (s : State), s.dev.loopClass n.val ≠ 1 ∨ s.dev.loopEn n.val = false →
    Safety.givesDev (.pacedRelease n) s s.dev)
  ∧ (∀ (n : Fin 16) (b : Binding) (s : State), s.dev.loopClass n.val = 2 → s.dev.loopEn n.val = true →
    (s.dev.loop n.val).binding = some b → (s.dev.loop n.val).guard = false → Safety.givesDev (.guardStart n) s
      (((s.dev.reachUs (s.dev.nextInstant n.val - s.dev.loopGuard n.val)).modLoop n.val (fun l =>
        { l with guard := true })).clearRidges b.ridges (some n.val)))
  ∧ (∀ (n : Fin 16) (b : Binding) (t : Nat) (s : State), s.dev.loopClass n.val = 2 → s.dev.loopEn n.val = true →
    (s.dev.loop n.val).binding = some b → t = s.dev.nextInstant n.val →
    ∃ u, exec (.windowOpen n) s = .next u ∧ Safety.keepsMem s u
    ∧ (u.dev.loop n.val).window = true ∧ (u.dev.loop n.val).guard = false ∧ (u.dev.loop n.val).openedUs = t
    ∧ (u.dev.loop n.val).mark = t
    ∧ (∃ w : DueWin, (u.dev.loop n.val).due = (s.dev.loop n.val).due ++ [w] ∧ w.opened = t
      ∧ (w.late = true ↔ ((s.dev.loop n.val).step ≠ none ∨ (s.dev.loop n.val).due ≠ []
        ∨ b.ridges.any (fun r => !s.dev.ridgeFree r) = true)))
    ∧ (∀ k, k ≠ n.val → u.dev.loop k = s.dev.loop k) ∧ (∀ a, u.dev.reg a = s.dev.reg a))
  ∧ (∀ (n : Fin 16) (s : State), (s.dev.loop n.val).window = true → Safety.givesDev (.windowClose n) s
      ((s.dev.reachUs ((s.dev.loop n.val).openedUs + s.dev.loopLen n.val)).modLoop n.val (fun l =>
        { l with window := false, due := l.due.filter (·.late) })))
  ∧ (∀ (n : Fin 16) (s : State), (s.dev.loop n.val).window = false → Safety.givesDev (.windowClose n) s s.dev)
  ∧ (∀ (us : Nat) (s : State), Safety.gives (.schedDecision us) s (((Safety.mach s).schedule us).mod Dev.settleOrders))
  ∧ (∀ (us : Nat) (s : State), s.dev.callForced.schedOn = false → Safety.gives (.schedDecision us) s
      (((Safety.mach s).mod Dev.callForced).mod (fun d => (d.startChunks (List.range 24) us).settleOrders)))

/-- Pre-emption (R280, R295, R297, R299, R302, R303, R600): a hold from a peer stops the step's sends to it, or those of the
loop's next step, and is answered with the number of rows sent; a hold that is not over in time is a fault that aborts the step;
with every hold over and the live rows saved the step is PREEMPTED, and with the rows and the tiles restored it is RUNNING
again; an error met by the save ends it; the CARRY regions of a loop go to their save area and come back from it, and no other
byte changes. The first 4,096 bytes of a save area are open, and the order of the items within a record is the model's (log
49). -/
def Obligations.PreemptionSavesAndRestores : Prop :=
  (∀ (k : Fin 4) (n : Fin 16) (st : StepSt) (s : State), k.val ≠ s.dev.pkg → (s.dev.loop n.val).step = some st →
    Safety.givesDev (.preemptHold k n) s ((s.dev.modStep n.val (fun st =>
      if st.heldBy.contains k.val then st else { st with heldBy := st.heldBy ++ [k.val] })).toPeer k.val
        ([0x41, BitVec.ofNat 8 n.val] ++ leBytes 4 (AMap.getD st.rowsTo k.val 0)) 1))
  ∧ (∀ (k : Fin 4) (n : Fin 16) (s : State), k.val ≠ s.dev.pkg → (s.dev.loop n.val).step = none → ∃ e : Dev,
    Safety.givesDev (.preemptHold k n) s (e.toPeer k.val ([0x41, BitVec.ofNat 8 n.val] ++ leBytes 4 0) 1)
    ∧ k.val ∈ (e.loop n.val).heldBy)
  ∧ (∀ (k : Fin 4) (n : Fin 16) (beats : Nat) (st : StepSt) (h : Nat × Option Nat) (s : State),
    (s.dev.loop n.val).step = some st → st.phase = .saving → h ∈ st.holds → h.1 = k.val → s.dev.holdOver st h = false →
    Safety.gives (.remoteTimeout k n beats) s (((Safety.mach s).mod (fun d =>
      (d.raiseFor n.val 1 Src.SCHED 0x0004 k.val 0).cnt (Reg.SCH_CNT_k 2) 1)).abortWith n.val (some beats)))
  ∧ (∀ (n : Fin 16) (beats sb us : Nat) (ran : List (Fin 96 × Nat)) (st : StepSt) (m1 m2 m3 m4 : Mach) (s : State),
    (s.dev.loop n.val).step = some st → st.phase = .saving → st.holds.all (s.dev.holdOver st) = true →
    m1 = st.b.queueList.foldl (fun m x => m.returnRows x.1 x.2)
      (st.b.usedTiles.foldl (fun m t => (m.kickLoads t).finishPasses n.val t) ((Safety.mach s).spurProgress n.val ran)) →
    m2 = m1.mod (fun d => st.b.usedTiles.foldl (fun d t => ((d.cutLoads t).cutFlights t).squash t) d) →
    (m2.dev.loop n.val).step ≠ none →
    (m2.saveRows n.val (m2.dev.saveBase n.val) beats st.b.places = (m3, true) →
      m4 = st.b.usedTiles.foldl (fun m t => m.saveTile n.val t) (st.b.records.foldl (fun m x =>
        (m.store (m2.dev.saveBase n.val + x.2) (m.tileRecord x.1)).mod (fun d =>
          d.toHbm (m2.dev.saveBase n.val + x.2) 256 x.1)) (m3.storeOpen (m2.dev.saveBase n.val) 4096)) →
      Safety.gives (.saveDone n beats sb us none ran []) s (m4.mod (fun d => d.preempted n.val st beats sb us))
      ∧ ((m4.dev.loop n.val).step ≠ none → ∃ u, exec (.saveDone n beats sb us none ran []) s = .next u
        ∧ (u.dev.loop n.val).step.map (fun x => (x.phase, x.holds, x.called)) = some (.preempted, [], false)))
    ∧ (m2.saveRows n.val (m2.dev.saveBase n.val) beats st.b.places = (m3, false) →
      Safety.gives (.saveDone n beats sb us none ran []) s (m3.mod (fun d => d.charge (st.callers.headD n.val) sb))))
  ∧ (∀ (n : Fin 16) (beats : Nat) (st : StepSt) (m0 m1 m2 : Mach) (s : State), (s.dev.loop n.val).step = some st →
    st.phase = .restoring → m0 = (Safety.mach s).mod (fun d => d.charge (st.callers.headD n.val) beats) →
    m0.restoreRows n.val (m0.dev.saveBase n.val) st.b.places = (m1, true) →
    m2 = st.saved.foldl (fun m x => if (m.dev.loop n.val).step.isSome then m.restoreTile n.val st.b x else m)
      (st.b.records.foldl (fun m x => m.mod (fun d => d.fromHbm (m.dev.saveBase n.val + x.2) 256 x.1)) m1) →
    (m2.dev.loop n.val).step ≠ none →
    ∃ u, exec (.restoreDone n beats []) s = .next u ∧ u.mem = Memory.writeLog s.mem m2.log
    ∧ (u.dev.loop n.val).step.map (fun x => (x.phase, x.saved, x.callers, x.called)) = some (.running, [], [], false))
  ∧ (∀ (n : Fin 16) (save : Bool) (who beats base : Nat) (b : Binding) (m0 m1 : Mach) (s : State), Safety.memOk s →
    Safety.noErrors s → (s.dev.loop n.val).carryBusy = some (save, who) → (s.dev.loop n.val).binding = some b →
    base = s.dev.saveBase n.val →
    m0 = (Safety.mach s).mod (fun d => (d.modLoop n.val (fun l => { l with carryBusy := none })).charge
      (if save then who else n.val) beats) →
    m1 = b.carryPlaces.foldl (fun m x => if save
      then (m.store (base + x.2) (m.rdBytes x.1 64)).mod (fun d => d.toHbm (base + x.2) 1 ((x.1 - 0x010000000000) / 0x400000))
      else (m.store x.1 (m.rdBytes (base + x.2) 64)).mod (fun d =>
        d.fromHbm (base + x.2) 1 ((x.1 - 0x010000000000) / 0x400000))) m0 →
    Safety.gives (.carrySaveDone n save beats []) s (m1.mod (fun d => d.modLoop n.val (fun l =>
      { l with carrySaved := if save then some base else none })))
    ∧ ∃ u, exec (.carrySaveDone n save beats []) s = .next u ∧ (u.dev.loop n.val).carryBusy = none
    ∧ (u.dev.loop n.val).carrySaved = (if save then some base else none)
    ∧ (∀ x, (∀ p ∈ b.carryPlaces, x < (if save then base + p.2 else p.1) ∨ (if save then base + p.2 else p.1) + 64 ≤ x) →
        Memory.read u.mem x = Memory.read s.mem x))

/-- Arbiters and the scheduler's registers (R275, R284, R306 to R312, R342, R593): a new request at a used position, of a
requester that has not been removed, is stamped with the arrival count and waits; the owner's drop ends its grant, and the next
one is picked unless the arbiter is frozen or has no tag; a request that waits alone is granted; a grant that the watchdog ends
frees the arbiter, removes the requester, counts ARB_BITES, and aborts the requester's step or ends the command that it serves;
ARB_FREEZE, SCH_CTRL.EN and a loop's EN take the written value, but SCH_CTRL.EN not in boot-only mode, and a change of a loop's
EN counts its instants from now; a report of a loop's binding on another package is kept and compared. -/
def Obligations.ArbitersAndLoops : Prop :=
  (∀ (a r : Fin 256) (o : ArbOrigin) (reset : Bool) (x : ArbSt) (s : State), arbUsed a.val = true → arbHas a.val r.val = true →
    x = (if reset then { s.dev.arb a.val with removed := (s.dev.arb a.val).removed.filter (fun y => y != (r.val, none)) }
      else s.dev.arb a.val) →
    (∀ y ∈ x.removed, y.1 ≠ r.val) → (∀ y ∈ x.waiting, y.req ≠ r.val) →
    Safety.givesDev (.arbRequest a r o reset) s ((s.dev.setArb a.val { x with
      arrivals := (x.arrivals + 1) % 65536
      waiting := x.waiting ++ [⟨r.val, o, x.arrivals, 0, false⟩] }).promote a.val))
  ∧ (∀ (a : Fin 256) (e : Dev) (s : State), arbUsed a.val = true →
    e = s.dev.setArb a.val { s.dev.arb a.val with owner := none } →
    Safety.givesDev (.arbGrant a true) s (if s.dev.arbFrozen a.val || !s.dev.tagFree a.val then e else e.arbPick a.val))
  ∧ (∀ (a : Fin 256) (s : State), arbUsed a.val = true → (s.dev.arb a.val).owner = none → s.dev.arbFrozen a.val = false →
      s.dev.tagFree a.val = true → Safety.givesDev (.arbGrant a false) s (s.dev.arbPick a.val))
  ∧ (∀ (a : Fin 256) (q : ArbReq) (s : State), arbUsed a.val = true → (s.dev.arb a.val).owner = none →
      s.dev.arbFrozen a.val = false → s.dev.tagFree a.val = true → (s.dev.arb a.val).waiting = [q] →
      ∃ u, exec (.arbGrant a false) s = .next u ∧ Safety.keepsMem s u ∧ (u.dev.arb a.val).owner = some q
      ∧ (u.dev.arb a.val).waiting = [])
  ∧ (∀ (a : Fin 256) (x : ArbReq) (loop : Option Nat) (m : Mach) (s : State), (s.dev.arb a.val).owner = some x →
      loop = s.dev.arbLoop (x.source a.val) x.origin.served →
      m = (Safety.mach s).mod (fun d =>
        let d := d.setArb a.val { s.dev.arb a.val with
          owner := none
          waiting := (s.dev.arb a.val).waiting.filter (fun y => y.req != x.req)
          removed := (s.dev.arb a.val).removed ++ [(x.req, if (d.loop (loop.getD 16)).step.isSome then loop else none)] }
        let d := (d.cnt Reg.ARB_BITES 1).setReg Reg.ARB_BITE_LAST (a.val * 2 ^ 16 + x.req)
        match loop with
        | some n => d.raiseFor n 1 Src.ARB 0x0001 a.val x.req
        | none => d.raise 1 Src.ARB 0x0001 a.val x.req) →
      (∀ n, loop = some n → Safety.gives (.arbWatchdog a) s (m.abortStep n))
      ∧ (∀ p, loop = none → m.dev.sdio.outstanding.find? (fun p => (servedOps (x.source a.val)).contains p.op
          && m.dev.sdio.mayStart p) = some p → Safety.gives (.arbWatchdog a) s (m.fail p ST.TIMEOUT))
      ∧ (loop = none → m.dev.sdio.outstanding.find? (fun p => (servedOps (x.source a.val)).contains p.op
          && m.dev.sdio.mayStart p) = none → ∃ u, exec (.arbWatchdog a) s = .next u ∧ u.dev = m.dev ∧ Safety.keepsMem s u
        ∧ (u.dev.arb a.val).owner = none ∧ (x.req, none) ∈ (u.dev.arb a.val).removed
        ∧ u.dev.reg Reg.ARB_BITES = satAdd 32 (s.dev.reg Reg.ARB_BITES) 1
        ∧ u.dev.raised = s.dev.raised ++ [Safety.rec 1 Src.ARB 0x0001 a.val (x.req % 2 ^ 64)]))
  ∧ (∀ (k : Fin 8) (v : Word) (s : State), ∃ u, exec (.arbFreeze k v) s = .next u ∧ u.dev.reg (Reg.ARB_FREEZE_k k.val) = v.toNat
      ∧ Safety.onlyRegs s u [Reg.ARB_FREEZE_k k.val])
  ∧ (∀ (en : Bool) (s : State), s.dev.rf Reg.PWR_STAT Fld.PWR_STAT.BOOT_ONLY = 0 → ∃ u, exec (.schEn en) s = .next u
      ∧ u.dev.rf Reg.SCH_CTRL Fld.SCH_CTRL.EN = (if en then 1 else 0) ∧ Safety.onlyRegs s u [Reg.SCH_CTRL])
  ∧ (∀ (en : Bool) (s : State), s.dev.rf Reg.PWR_STAT Fld.PWR_STAT.BOOT_ONLY = 1 → ∃ u, exec (.schEn en) s = .next u
      ∧ u.dev.rf Reg.SCH_STAT Fld.SCH_STAT.CFG_LOCKED_WRITE = 1 ∧ Safety.onlyRegs s u [Reg.SCH_STAT])
  ∧ (∀ (n : Fin 16) (en : Bool) (s : State), ∃ u, exec (.loopEnWrite n en) s = .next u
      ∧ u.dev.rf (Reg.SCH_LOOPn_CFG n.val) Fld.SCH_LOOPn_CFG.EN = (if en then 1 else 0)
      ∧ u = { s with dev := { s.dev with
          regs := u.dev.regs
          loops := u.dev.loops } }
      ∧ (∀ a, a ≠ Reg.SCH_LOOPn_CFG n.val → u.dev.reg a = s.dev.reg a)
      ∧ (∀ k, k ≠ n.val → u.dev.loop k = s.dev.loop k)
      ∧ u.dev.loop n.val = (if s.dev.loopEn n.val = en then s.dev.loop n.val
        else { s.dev.loop n.val with mark := s.dev.us }))
  ∧ (∀ (k : Fin 4) (n : Fin 16) (bound : Bool) (pmap : BitVec 8) (sends : List CrossSend) (queues : List CrossQueue)
      (lists : List (Fin 96)) (s : State), k.val ≠ s.dev.pkg →
      Safety.givesDev (.loopBoundReport k n bound pmap sends queues lists) s ((⟨s.mem, [], s.dev.modLoop n.val (fun l => { l with
        reports := AMap.set l.reports k.val ⟨bound, pmap.toNat, sends, queues, lists.map (·.val)⟩ })⟩ : Mach).checkCross
          n.val).dev)
  ∧ (∀ (k : Fin 4) (n : Fin 16) (bound : Bool) (pmap : BitVec 8) (sends : List CrossSend) (queues : List CrossQueue)
      (lists : List (Fin 96)) (s : State), k.val ≠ s.dev.pkg → (s.dev.loop n.val).binding = none →
      ∃ u, exec (.loopBoundReport k n bound pmap sends queues lists) s = .next u ∧ Safety.keepsMem s u
      ∧ AMap.find (u.dev.loop n.val).reports k.val = some ⟨bound, pmap.toNat, sends, queues, lists.map (·.val)⟩
      ∧ (∀ j, j ≠ n.val → u.dev.loop j = s.dev.loop j))

/-- A Col link's states (R316, R323, R324, R336, R339, R341, R344 to R346): bring-up ends in INIT with all lanes or, where ALLOW4
lets it, with one half of them, else DOWN; an attempt that times out goes on or ends; unacknowledged flits are sent again, and
those resent eight times take the port to RECOVERY; a port in RECOVERY that has its lock comes back UP; the loss of a link has
the effects of R325; a port's EN, DOWN and RETRAIN set its state; an access without its response ends; a package without its
images over Col fails to boot; a complete exchange with the lead corrects the timebase, and the next one begins. What happens
at the loss of a link and the forms of messages rest on log 50. -/
def Obligations.ColLinkStates : Prop :=
  (∀ (p : Fin 6) (r : TrainResult) (s : State), s.dev.colPower = true →
    (s.dev.portState p.val = PS.TRAINING ∨ (s.dev.portState p.val = PS.DOWN ∧ s.dev.colAuto = true ∧ s.dev.portEn p.val = true)) →
    ∃ u, exec (.linkTrain p r) s = .next u ∧ Safety.keepsMem s u
    ∧ u.dev.rf (Reg.COL_Pp_STAT p.val) Fld.COL_Pp_STAT.LANE_FAIL = r.laneFail.toNat
    ∧ (r.laneFail.toNat = 0 → u.dev.portState p.val = PS.INIT ∧ u.dev.rf (Reg.COL_Pp_STAT p.val) Fld.COL_Pp_STAT.WIDTH4 = 0
      ∧ u.dev.raised = s.dev.raised)
    ∧ (r.laneFail.toNat ≠ 0 → s.dev.rf (Reg.COL_Pp_CTRL p.val) Fld.COL_Pp_CTRL.ALLOW4 = 1 →
      (r.laneFail.toNat % 16 = 0 ∨ r.laneFail.toNat < 16) → u.dev.portState p.val = PS.INIT
      ∧ u.dev.rf (Reg.COL_Pp_STAT p.val) Fld.COL_Pp_STAT.WIDTH4 = 1
      ∧ u.dev.raised = s.dev.raised ++ [Safety.rec 0 Src.COL 0x0001 p.val r.laneFail.toNat])
    ∧ (r.laneFail.toNat ≠ 0 → (s.dev.rf (Reg.COL_Pp_CTRL p.val) Fld.COL_Pp_CTRL.ALLOW4 = 0
        ∨ (r.laneFail.toNat % 16 ≠ 0 ∧ 16 ≤ r.laneFail.toNat)) → u.dev.portState p.val = PS.DOWN
      ∧ u.dev.raised = s.dev.raised))
  ∧ (∀ (p : Fin 6) (s : State), s.dev.portState p.val = PS.TRAINING → ∃ u, exec (.linkTrainTimeout p) s = .next u
    ∧ u.dev.portState p.val = (if s.dev.rf Reg.COL_CTRL Fld.COL_CTRL.AUTO = 0 then PS.DOWN else PS.TRAINING)
    ∧ Safety.onlyRegs s u [Reg.COL_Pp_STAT p.val])
  ∧ (∀ (p : Fin 6) (e : Dev) (s : State), s.dev.portState p.val = PS.UP → (s.dev.port p.val).unacked ≠ [] →
    e = (((s.dev.colCnt p.val 5 1).colCnt p.val 0 (s.dev.port p.val).unacked.length).modPort p.val
      (fun x => { x with resends := x.resends + 1 })) →
    Safety.givesDev (.replayTimeout p) s (if (s.dev.port p.val).resends < 7 then e else e.portRecovery p.val))
  ∧ (∀ (p : Fin 6) (s : State), s.dev.portState p.val = PS.UP → (s.dev.port p.val).unacked ≠ [] →
    Safety.givesDev (.recovery p) s
      ((((s.dev.setPortState p.val PS.RECOVERY).colCnt p.val 6 1).raise 0 Src.COL 0x0002 p.val 0).peerLost
        (s.dev.peerOf p.val)))
  ∧ (∀ (p : Fin 6) (e : Dev) (s : State), s.dev.portState p.val = PS.RECOVERY →
    e = (s.dev.setPortState p.val PS.UP).modPort p.val (fun x => { x with
      resends := 0
      cwPhase := 0
      cwBad := false }) →
    Safety.givesDev (.codewordLock p) s
      ((if (s.dev.port p.val).unacked = [] then e else e.replay p.val).colKick p.val 1024))
  ∧ (∀ (p : Fin 6) (s : State), s.dev.linkUp p.val = true →
    Safety.gives (.down p) s ((Safety.mach s).portDown p.val PS.DOWN))
  ∧ (∀ (p : Fin 6) (s : State), s.dev.colPower = true →
    (s.dev.linkUp p.val = true → Safety.gives (.retrain p) s ((Safety.mach s).portDown p.val PS.TRAINING))
    ∧ (s.dev.linkUp p.val = false → Safety.givesDev (.retrain p) s (s.dev.setPortState p.val PS.TRAINING)))
  ∧ (∀ (p : Fin 6) (en : Bool) (e : Dev) (s : State), e = s.dev.wf (Reg.COL_Pp_CTRL p.val) Fld.COL_Pp_CTRL.EN (b2n en) →
    (en = true → Safety.givesDev (.portEn p en) s
      (if e.portState p.val = PS.DISABLED && e.colPower then e.setPortState p.val PS.TRAINING else e))
    ∧ (en = false → e.linkUp p.val = true → Safety.gives (.portEn p en) s
      ((⟨s.mem, [], e⟩ : Mach).portDown p.val PS.DISABLED))
    ∧ (en = false → e.linkUp p.val = false → Safety.givesDev (.portEn p en) s (e.setPortState p.val PS.DISABLED)))
  ∧ (∀ (p : Fin 6) (en : Bool) (s : State), s.dev.portState p.val = PS.DISABLED → s.dev.colPower = true →
    ∃ u, exec (.portEn p en) s = .next u ∧ u.dev.rf (Reg.COL_Pp_CTRL p.val) Fld.COL_Pp_CTRL.EN = (if en then 1 else 0)
    ∧ u.dev.portState p.val = (if en then PS.TRAINING else PS.DISABLED)
    ∧ Safety.onlyRegs s u [Reg.COL_Pp_CTRL p.val, Reg.COL_Pp_STAT p.val])
  ∧ (∀ (tag : BitVec 16) (x : RemoteReq) (s : State), AMap.find s.dev.col.outstanding tag.toNat = some x →
    Safety.givesDev (.remoteAccessTimeout tag) s ((s.dev.endSummit x.acc ST.TIMEOUT).issueAccesses 4096))
  ∧ (∀ (tag : BitVec 16) (k : Nat) (p : Packet) (s : State), AMap.find s.dev.col.outstanding tag.toNat = none →
    AMap.find s.dev.sdio.remote tag.toNat = some k →
    s.dev.sdio.outstanding.find? (fun p => p.tag == tag.toNat && p.pkg != s.dev.pkg) = some p →
    Safety.givesDev (.remoteAccessTimeout tag) s
      ({ s.dev with sdio := { s.dev.sdio with remote := AMap.erase s.dev.sdio.remote tag.toNat } }.reply p ST.TIMEOUT []))
  ∧ (∀ s : State, s.dev.boot.phase = .colBoot → s.dev.boot.stage1 = none →
    Safety.gives .colBootTimeout s (Safety.mach s).colBootFails)
  ∧ (∀ s : State, s.dev.tbSource = 2 → s.dev.reachable 0 = true →
    (s.dev.col.exchange = none → Safety.givesDev .colTsync s (s.dev.toPeer 0 ([0x54] ++ leBytes 8 s.dev.stamp) 1))
    ∧ (∀ (x : Nat × Nat × Nat × Nat) (e : Dev), s.dev.col.exchange = some x →
      e = (({ s.dev with col := { s.dev.col with exchange := none } }.setReg Reg.COL_TSYNC
        (wrap 32 (max (-(2 ^ 31)) (min (2 ^ 31 - 1) (exchangeOffset x))))).measure ⟨-exchangeOffset x, 1000000, false⟩) →
      Safety.givesDev .colTsync s (e.toPeer 0 ([0x54] ++ leBytes 8 e.stamp) 1)))

/-- Flits and messages of a Col link (R315, R318 to R323, R330, R331, R339): a flit in an uncorrectable codeword, or one that
fails its checks, counts BAD_FLIT and asks for a replay; an IDLE flit is taken, a NAK is answered by a replay, and a DATA flit
in sequence joins its channel, one out of sequence does not; a read or a write of a peer is answered with what it reaches; a
response joins its access; rows of a stream go to their queue and credits to their producer; the first whole message of the
management channel is handled. The forms of Tarinady's own messages, and when a DATA flit leaves, are the model's choices (log
40 and 50). -/
def Obligations.ColMessagesTaken : Prop :=
  (∀ (p : Fin 6) (flit : List Byte) (fec : FecResult) (d : Dev) (bad : Bool) (s : State),
    s.dev.portState p.val = PS.UP ∨ s.dev.portState p.val = PS.INIT → s.dev.fecFlit p.val fec = (d, bad) →
    (bad = true ∨ parseFlit flit = none → Safety.givesDev (.flitRx p flit fec) s ((d.colCnt p.val 2 1).sendNak p.val))
    ∧ ∀ f : Flit, bad = false → parseFlit flit = some f →
      (f.type = 0 → Safety.gives (.flitRx p flit fec) s
        (((⟨s.mem, [], d⟩ : Mach).idleFlit p.val f).mod (fun d => d.colKick p.val 1024)))
      ∧ (f.type = 1 → s.dev.portState p.val = PS.UP → Safety.givesDev (.flitRx p flit fec) s
        ((d.dataFlit p.val f).colKick p.val 1024))
      ∧ (f.type = 2 → s.dev.portState p.val = PS.UP → Safety.givesDev (.flitRx p flit fec) s
        ((((d.modPort p.val (fun x => x.acked f.ack)).takeCredits p.val f).replay p.val).colKick p.val 1024))
      ∧ (f.type ≠ 0 → s.dev.portState p.val = PS.INIT → Safety.givesDev (.flitRx p flit fec) s (d.colKick p.val 1024)))
  ∧ (∀ (p : Fin 6) (flit : List Byte) (fec : FecResult) (f : Flit) (s : State), s.dev.portState p.val = PS.UP →
    (s.dev.fecFlit p.val fec).2 = false → parseFlit flit = some f → f.type = 1 → ∃ u, exec (.flitRx p flit fec) s = .next u
    ∧ Safety.keepsMem s u
    ∧ (f.seq = ((s.dev.port p.val).ackOut + 1) % 4096 → (u.dev.port p.val).ackOut = f.seq ∧ (u.dev.port p.val).nak = false
      ∧ (u.dev.port p.val).rx = modAt (s.dev.port p.val).rx f.vc (· ++ f.payload))
    ∧ (f.seq ≠ ((s.dev.port p.val).ackOut + 1) % 4096 → (u.dev.port p.val).ackOut = (s.dev.port p.val).ackOut
      ∧ (u.dev.port p.val).rx = (s.dev.port p.val).rx))
  ∧ (∀ (p : Fin 6) (m : Msg) (s : State), s.dev.colMsg p.val VC.REQUEST = (s.dev, some m) → m.op = 0x01 →
    (accessOk (m.addr % 2 ^ 48) m.len = false → Safety.givesDev (.colRead p []) s
      ((s.dev.colTake p.val VC.REQUEST m.size).respond p.val 0x10 m ST.BAD_PARAM []))
    ∧ (∀ (m1 : Mach) (st : Nat) (bs : List Byte), accessOk (m.addr % 2 ^ 48) m.len = true →
      ((Safety.mach s).mod (fun d => d.colTake p.val VC.REQUEST m.size)).peerRead p (m.addr % 2 ^ 48) m.len = (m1, st, bs) →
      Safety.gives (.colRead p []) s (m1.mod (fun d => d.respond p.val 0x10 m st bs))))
  ∧ (∀ (p : Fin 6) (m : Msg) (s : State), s.dev.colMsg p.val VC.REQUEST = (s.dev, some m) → m.op = 0x02 →
    (accessOk (m.addr % 2 ^ 48) m.len = false → Safety.givesDev (.colWrite p []) s
      ((s.dev.colTake p.val VC.REQUEST m.size).respond p.val 0x11 m ST.BAD_PARAM []))
    ∧ (∀ (m1 : Mach) (st : Nat), accessOk (m.addr % 2 ^ 48) m.len = true →
      ((Safety.mach s).mod (fun d => d.colTake p.val VC.REQUEST m.size)).peerWrite p (m.addr % 2 ^ 48) m.payload = (m1, st) →
      Safety.gives (.colWrite p []) s (m1.mod (fun d => d.respond p.val 0x11 m st []))))
  ∧ (∀ (c : Instr) (op : Nat) (p : Fin 6) (m : Msg) (s : State), (c, op) ∈ [(Instr.readResp p, 0x10), (.writeResp p, 0x11)] →
    s.dev.colMsg p.val VC.RESPONSE = (s.dev, some m) → m.op = op →
    Safety.givesDev c s (((s.dev.colTake p.val VC.RESPONSE m.size).endAccess m).colKick p.val 1024))
  ∧ (∀ (p : Fin 6) (m : Msg) (st : StepSt) (t q n : Nat) (s : State), s.dev.colMsg p.val VC.STREAM = (s.dev, some m) →
    t = bits m.addr 6 0 → q = bits m.addr 10 7 → n = bits m.addr 14 11 → (s.dev.loop n).step = some st →
    (st.phase = .running ∨ st.phase = .saving) → st.b.holdsTile t = true → 2 ^ 31 ≤ s.dev.reg (Reg.TILE_LQn_CFG t q) →
    bits (s.dev.reg (Reg.TILE_LQn_SRC t q)) 31 28 = s.dev.peerOf p.val → s.dev.fenced t = false →
    ∃ u, exec (.colStream p) s = .next u ∧ Safety.keepsMem s u
    ∧ (AMap.getD u.dev.transit (16 * t + q) []).map (fun r => r.data)
      = (AMap.getD s.dev.transit (16 * t + q) []).map (fun r => r.data)
        ++ (List.range (m.payload.length / 64)).map (fun i => slice m.payload (64 * i) 64))
  ∧ (∀ (p : Fin 6) (m : Msg) (st : StepSt) (n : Nat) (s : State), s.dev.colMsg p.val VC.RESPONSE = (s.dev, some m) →
    m.op = 0x21 → n = bits m.addr 14 11 → (s.dev.loop n).step = some st → st.phase ≠ .preempted → st.phase ≠ .restoring →
    ∃ u, exec (.qcredit p) s = .next u ∧ Safety.keepsMem s u
    ∧ AMap.getD u.dev.credits (prodKey (s.dev.peerOf p.val) (bits m.addr 6 0) (bits m.addr 10 7)) 0
      = AMap.getD s.dev.credits (prodKey (s.dev.peerOf p.val) (bits m.addr 6 0) (bits m.addr 10 7)) 0 + bits m.addr 30 15)
  ∧ (∀ (p : Fin 6) (m : Msg) (d : Dev) (s : State), s.dev.colMsg p.val VC.MGMT = (s.dev, some m) →
    d = s.dev.colTake p.val VC.MGMT m.size →
    (s.dev.boot.phase ≠ .colBoot ∨ s.dev.peerOf p.val ≠ 0 → Safety.gives (.mgmt p) s
      (((⟨s.mem, [], { d with col := { d.col with mgmt := (AMap.set d.col.mgmt (s.dev.peerOf p.val)
        (AMap.getD d.col.mgmt (s.dev.peerOf p.val) [] ++ m.payload)) } }⟩ : Mach).mgmtItems (s.dev.peerOf p.val)
          4096).feedPeers.mod (fun d => d.colKick p.val 1024)))
    ∧ (s.dev.boot.phase = .colBoot → s.dev.peerOf p.val = 0 → Safety.gives (.mgmt p) s
      ((⟨s.mem, [], d.modBoot (fun b => { b with recovery := b.recovery ++ m.payload })⟩ : Mach).colBoot).colBoot))

/-- HBM (R351 to R357): once its fill is complete, and no frozen arbiter holds it (R311), a read without errors changes only
the counters of the mesh it crosses, and one that meets an uncorrectable burst ends as R354 has it for its requester; a write
within HBM stores its bytes and no other; before that both wait; a refresh of the four stacks shows the hot ones; with the scrub
on it puts a correctable burst among those to be written back, or records an uncorrectable one; after the fill HBM reads as
zero, every other byte is as before, and READY is set. The mesh rows that an access counts are the model's choice (log 66). -/
def Obligations.HbmReadsWritesAndFill : Prop :=
  (∀ (a : Fin 103079215104) (n k : Nat) (r : Fin 256) (w : Option (Fin 16)) (s : State), k = min n (hbmSize - a.val) →
    (s.dev.hbmGoes a.val k r.val = true →
      (Safety.noErrors s → Safety.givesDev (.hbmRead a n r w []) s (s.dev.dmaRows a.val k r.val false))
      ∧ (∀ (m : Mach) (u : Nat), (Safety.mach s).eccRead a.val k r.val (s.dev.hbmLoop r.val w) = (m, some u) →
        Safety.gives (.hbmRead a n r w []) s (m.hbmFailed r.val u w)))
    ∧ (s.dev.hbmGoes a.val k r.val = false → Safety.givesDev (.hbmRead a n r w []) s s.dev))
  ∧ (∀ (a : Fin 103079215104) (bs : List Byte) (r : Fin 256) (w : Option (Fin 16)) (s : State),
    a.val + bs.length ≤ hbmSize →
    (s.dev.hbmGoes a.val bs.length r.val = true →
      (Safety.memOk s → Safety.noErrors s → s.dev.flash.flipped = [] → ∃ u, exec (.hbmWrite a bs r w []) s = .next u
        ∧ u.dev = s.dev.dmaRows a.val bs.length r.val true ∧ u.pending = s.pending
        ∧ (∀ k, k < bs.length → Memory.read u.mem (a.val + k) = bs.getD k 0)
        ∧ (∀ x, (x < a.val ∨ a.val + bs.length ≤ x) → Memory.read u.mem x = Memory.read s.mem x))
      ∧ (∀ (m : Mach) (u : Nat), (Safety.mach s).rmwCheck a.val bs.length r.val (s.dev.hbmLoop r.val w) = (m, some u) →
        Safety.gives (.hbmWrite a bs r w []) s (m.hbmFailed r.val u w)))
    ∧ (s.dev.hbmGoes a.val bs.length r.val = false → Safety.givesDev (.hbmWrite a bs r w []) s s.dev))
  ∧ (∀ (a b c d : Int) (s : State), ∃ u, exec (.hbmRefresh [a, b, c, d]) s = .next u
    ∧ u.dev.rf Reg.HBM_STAT Fld.HBM_STAT.HOT = (if a > 85 then 1 else 0) + (if b > 85 then 2 else 0)
      + (if c > 85 then 4 else 0) + (if d > 85 then 8 else 0) ∧ Safety.onlyRegs s u [Reg.HBM_STAT])
  ∧ (∀ (a : Fin 103079215104) (s : State), s.dev.hbmReady = true → s.dev.rf Reg.HBM_CTRL Fld.HBM_CTRL.SCRUB_EN = 1 →
    (a.val / 32 * 32 ∈ s.dev.ue → Safety.givesDev (.patrolScrub a []) s (s.dev.uncorrectable (a.val / 32 * 32) 0xFF 0xFF))
    ∧ (a.val / 32 * 32 ∉ s.dev.ue → a.val / 32 * 32 ∈ s.dev.ce → ∃ u, exec (.patrolScrub a []) s = .next u
      ∧ Safety.keepsMem s u ∧ u.dev.ce = s.dev.ce ∧ a.val / 32 * 32 ∈ u.dev.wb
      ∧ u.dev.reg (Reg.HBM_CNT_k 4) = satAdd 32 (s.dev.reg (Reg.HBM_CNT_k 4)) 1)
    ∧ (a.val / 32 * 32 ∉ s.dev.ue → a.val / 32 * 32 ∉ s.dev.ce → Safety.givesDev (.patrolScrub a []) s s.dev))
  ∧ (∀ (f : BitVec 4) (s : State), s.dev.boot.phase = .filling → Safety.memOk s → ∃ u, exec (.hbmFillDone f) s = .next u
    ∧ u.pending = s.pending ∧ u.dev.rf Reg.HBM_STAT Fld.HBM_STAT.READY = 1
    ∧ u.dev.rf Reg.HBM_STAT Fld.HBM_STAT.TRAIN_FAIL = f.toNat ∧ u.dev.boot.phase = .injecting
    ∧ (∀ x ∈ u.dev.ue, hbmSize ≤ x) ∧ (∀ x, x < hbmSize → Memory.read u.mem x = 0)
    ∧ (∀ x, hbmSize ≤ x → Memory.read u.mem x = Memory.read s.mem x))

/-- The flash subsystem (R360 to R365, R367 to R369, R372 to R374): EN mounts it, closes it while it serves, or stops it; a
mount without a target that R359 supports leaves it FAILED and one without a format BLANK, one of a formatted array serves, and
one at boot goes on to boot from flash; a program moves the oldest buffered unit to the array, and a failed one makes its block
bad; a block without valid data is erased; a journal page, a checkpoint, a scrub, and wear levelling or a collection run while it
serves; a close programs what is buffered and ends CLOSED, with EN 0 OFF, and a resume serves again. Where the array's data
stands and what a map entry holds are the model's choices (log 30, 35). -/
def Obligations.FlashMountsServesAndCloses : Prop :=
  (∀ s : State, s.dev.rf Reg.FL_CTRL Fld.FL_CTRL.EN = 0 →
    (s.dev.flState = FL.OFF → ∃ u, exec (.flEn true) s = .next u
      ∧ u.dev.flState = FL.MOUNTING ∧ u.dev.rf Reg.FL_CTRL Fld.FL_CTRL.EN = 1
      ∧ Safety.onlyRegs s u [Reg.FL_CTRL, Reg.FL_STAT])
    ∧ (s.dev.flState ≠ FL.OFF → Safety.givesDev (.flEn true) s (s.dev.wf Reg.FL_CTRL Fld.FL_CTRL.EN 1)))
  ∧ (∀ s : State, s.dev.rf Reg.FL_CTRL Fld.FL_CTRL.EN = 1 →
    (s.dev.flServing = true → Safety.givesDev (.flEn false) s (s.dev.wf Reg.FL_CTRL Fld.FL_CTRL.EN 0).flClose)
    ∧ (s.dev.flState = FL.CLOSING → Safety.givesDev (.flEn false) s (s.dev.wf Reg.FL_CTRL Fld.FL_CTRL.EN 0))
    ∧ (s.dev.flServing = false → s.dev.flState ≠ FL.CLOSING → Safety.givesDev (.flEn false) s
      ((s.dev.wf Reg.FL_CTRL Fld.FL_CTRL.EN 0).setFlState FL.OFF)))
  ∧ (∀ (f : MountFound) (s : State), s.dev.flState = FL.MOUNTING → s.dev.boot.phase ≠ .mounting →
    ((useTargets f.targets).1 = [] ∨ f.formatted = false) → ∃ u, exec (.mountDone f) s = .next u ∧ u.pending = s.pending
    ∧ u.dev.flState = (if (useTargets f.targets).1 = [] then FL.FAILED else FL.BLANK)
    ∧ (Safety.memOk s → ∀ x, (x < s.dev.mapBase ∨ s.dev.mapBase + 2 ^ 31 ≤ x) → Memory.read u.mem x = Memory.read s.mem x))
  ∧ (∀ (f : MountFound) (s : State), s.dev.flState = FL.MOUNTING → s.dev.boot.phase ≠ .mounting →
    (useTargets f.targets).1 ≠ [] → f.formatted = true → s.dev.flash.formatted = true → ∃ u, exec (.mountDone f) s = .next u
    ∧ u.dev.flState = (if s.dev.flash.spare = 0 then FL.READONLY else FL.READY)
    ∧ u.dev.rf Reg.FL_STAT Fld.FL_STAT.CLEAN = (if f.closeMarker then 1 else 0)
    ∧ u.dev.flash.geom = (useTargets f.targets).1)
  ∧ (∀ (f : MountFound) (m : Mach) (s : State), s.dev.flState = FL.MOUNTING → s.dev.boot.phase = .mounting →
    m = (⟨Memory.keepOnly s.mem (mountKeep s.dev), [], s.dev⟩ : Mach).mountDone f → ∃ u, exec (.mountDone f) s = .next u
    ∧ u.pending = s.pending ∧ u.dev = (if m.dev.boot.phase = .mounting then (m.bootFlash f.slotFails).feedPeers.dev else m.dev))
  ∧ (∀ (w : WbUnit) (rest : List WbUnit) (s : State), s.dev.flServing = true ∨ s.dev.flState = FL.CLOSING →
    s.dev.flash.wb = w :: rest →
    (∀ o, o ≠ .failed → Safety.gives (.nandOperationDone (.program o)) s (Safety.mach s).programOldest)
    ∧ Safety.gives (.nandOperationDone (.program .failed)) s ((Safety.mach s).growBad (s.dev.flash.blockOf w.unit)))
  ∧ (∀ (u b : Nat) (o : NandOutcome) (s : State), s.dev.flServing = true ∨ s.dev.flState = FL.CLOSING →
    Safety.gives (.nandOperationDone (.read u b o)) s ((Safety.mach s).nandRead u b o).1
    ∧ Safety.gives (.nandOperationDone (.erase b .failed)) s ((Safety.mach s).growBad b)
    ∧ (o ≠ .failed → s.dev.flash.inBlock b = [] → Safety.givesDev (.nandOperationDone (.erase b o)) s (s.dev.eraseBlock b))
    ∧ (o ≠ .failed → s.dev.flash.inBlock b ≠ [] → Safety.givesDev (.nandOperationDone (.erase b o)) s s.dev))
  ∧ (∀ s : State, s.dev.flServing = true → s.dev.flash.records ≠ 0 → ∃ u, exec .journalFlush s = .next u
    ∧ Safety.keepsMem s u ∧ u.dev.flash.records = s.dev.flash.records - 1020 ∧ u.dev.flash.pages = s.dev.flash.pages + 1
    ∧ u.dev.reg (Reg.FL_CNT_k 4) = satAdd 32 (s.dev.reg (Reg.FL_CNT_k 4)) 1)
  ∧ (∀ s : State, s.dev.flServing = true → 4096 ≤ s.dev.flash.pages → ∃ u, exec .checkpoint s = .next u
    ∧ Safety.keepsMem s u ∧ u.dev.flash.pages = 0 ∧ u.dev.flash.area = 1 - s.dev.flash.area ∧ u.dev.regs = s.dev.regs)
  ∧ (∀ (b n : Nat) (r : Bool) (s : State), s.dev.flServing = true → s.dev.flash.inBlock b ≠ [] →
    (s.dev.rf Reg.FL_POLICY Fld.FL_POLICY.SCRUB_THR < n ∨ r = true → Safety.gives (.retentionScrub b n r) s
      (((Safety.mach s).moveUnits (s.dev.flash.inBlock b)).mod (fun d => d.cnt (Reg.FL_CNT_k 3) 1)))
    ∧ (n ≤ s.dev.rf Reg.FL_POLICY Fld.FL_POLICY.SCRUB_THR → r = false →
      Safety.givesDev (.retentionScrub b n r) s s.dev))
  ∧ (∀ (b : Nat) (s : State), s.dev.flServing = true →
    (s.dev.wornApart = some b →
      Safety.gives .garbageCollect s ((Safety.mach s).moveUnits (s.dev.flash.inBlock b)))
    ∧ (s.dev.wornApart = none → s.dev.flash.leastValid = some b →
      Safety.gives .garbageCollect s ((Safety.mach s).moveUnits (s.dev.flash.inBlock b))))
  ∧ (∀ s : State, s.dev.flState = FL.CLOSING → s.dev.flash.wb = [] → ∃ u, exec .flashClosed s = .next u ∧ Safety.keepsMem s u
    ∧ u.dev.flState = (if s.dev.rf Reg.FL_CTRL Fld.FL_CTRL.EN = 0 then FL.OFF else FL.CLOSED)
    ∧ u.dev.rf Reg.FL_STAT Fld.FL_STAT.CLEAN = 1 ∧ u.dev.flash.records = 0)
  ∧ (∀ (e : Dev) (m : Mach) (s : State), s.dev.flState = FL.CLOSING → m = (Safety.mach s).programAll.journalPage →
    e = ((m.dev.modFlash (fun f => { f with records := 0, unjournaled := [] })).cnt (Reg.FL_CNT_k 5) 1).wf
      Reg.FL_STAT Fld.FL_STAT.CLEAN 1 →
    Safety.gives .flashClosed s ⟨m.base, m.log, e.setFlState (if e.flEnabled then FL.CLOSED else FL.OFF)⟩)
  ∧ (∀ s : State, s.dev.rf Reg.FL_CTRL Fld.FL_CTRL.EN = 1 → (s.dev.flState = FL.CLOSING ∨ s.dev.flState = FL.CLOSED) →
    ∃ u, exec .flashResume s = .next u ∧ u.dev.flState = (if s.dev.flash.spare = 0 then FL.READONLY else FL.READY)
    ∧ Safety.onlyRegs s u [Reg.FL_STAT])

/-- The check-value units (R377 to R382): a job starts at Init at an idle unit or waits; a unit takes a slice of its job, whose
value and count its registers show, and the job with bytes left goes behind the waiting ones; a claim of an idle unit is in force
at once, one of a serving unit at the end of its slice, and a release ends it; START, DATA and the context writes of a claimed
unit take effect, and those of an unclaimed one are ignored. A high word written with no low word held takes the low word in
effect: the model's choice (log 70). -/
def Obligations.CheckUnitJobsAndClaims : Prop :=
  (∀ (r : Fin 256) (sel : Fin 4) (bs : List Byte) (s : State),
    ((List.range 16).find? s.dev.cvIdle = none → Safety.givesDev (.cvJob r sel bs) s
      { s.dev with cv := { s.dev.cv with waiting := s.dev.cv.waiting ++ [⟨r.val, sel.val, bs, (crcParams sel.val).init, 0⟩] } })
    ∧ (∀ u, (List.range 16).find? s.dev.cvIdle = some u → ∃ t, exec (.cvJob r sel bs) s = .next t ∧ Safety.keepsMem s t
      ∧ AMap.find t.dev.cv.serving u = some ⟨r.val, sel.val, bs, (crcParams sel.val).init, 0⟩
      ∧ t.dev.reg64 (Reg.CV_Un_VAL_LO u) = (crcParams sel.val).init % 2 ^ 64 ∧ t.dev.reg64 (Reg.CV_Un_CNT_LO u) = 0))
  ∧ (∀ (u : Fin 16) (j : CvJob) (s : State), AMap.find s.dev.cv.serving u.val = some j → s.dev.cvClaim u.val = false →
    s.dev.cv.waiting = [] → j.data.length ≤ s.dev.cvSlice → ∃ t, exec (.cvSliceEnd u) s = .next t ∧ Safety.keepsMem s t
    ∧ AMap.find t.dev.cv.serving u.val = none ∧ t.dev.cv.waiting = []
    ∧ t.dev.reg64 (Reg.CV_Un_VAL_LO u.val) = (crcParams j.sel).run j.value j.data % 2 ^ 64
    ∧ t.dev.reg64 (Reg.CV_Un_CNT_LO u.val) = (j.count + j.data.length) % 2 ^ 64)
  ∧ (∀ (u : Fin 16) (j : CvJob) (w : List CvJob) (s : State), AMap.find s.dev.cv.serving u.val = some j →
    w = (if s.dev.cvSlice < j.data.length then s.dev.cv.waiting ++ [j.take s.dev.cvSlice] else s.dev.cv.waiting) →
    (s.dev.cvClaim u.val = true → ∃ t, exec (.cvSliceEnd u) s = .next t ∧ Safety.keepsMem s t
      ∧ AMap.find t.dev.cv.serving u.val = none ∧ t.dev.cv.waiting = w ∧ t.dev.cvClaimed u.val = true)
    ∧ (∀ k rest, s.dev.cvClaim u.val = false → s.dev.cvClaimed u.val = false → w = k :: rest →
      ∃ t, exec (.cvSliceEnd u) s = .next t ∧ Safety.keepsMem s t ∧ AMap.find t.dev.cv.serving u.val = some k
      ∧ t.dev.cv.waiting = rest ∧ t.dev.reg64 (Reg.CV_Un_VAL_LO u.val) = k.value % 2 ^ 64
      ∧ t.dev.reg64 (Reg.CV_Un_CNT_LO u.val) = k.count % 2 ^ 64))
  ∧ (∀ (u : Fin 16) (s : State), AMap.find s.dev.cv.serving u.val = none →
    Safety.givesDev (.cvSliceEnd u) s ((s.dev.cvApplyClaim u.val).cvNext u.val))
  ∧ (∀ (u : Fin 16) (s : State), ∃ t, exec (.claim u true) s = .next t
    ∧ t.dev.cvClaim u.val = true ∧ Safety.onlyRegs s t [Reg.CV_Un_SEL u.val]
    ∧ t.dev.cvClaimed u.val = ((AMap.find s.dev.cv.serving u.val).isNone || s.dev.cvClaimed u.val))
  ∧ (∀ (u : Fin 16) (s : State),
    ((s.dev.cv.waiting = [] ∨ AMap.find s.dev.cv.serving u.val ≠ none) → ∃ t, exec (.claim u false) s = .next t
      ∧ t.dev.cvClaim u.val = false ∧ t.dev.cvClaimed u.val = false ∧ Safety.onlyRegs s t [Reg.CV_Un_SEL u.val])
    ∧ (∀ k rest, s.dev.cv.waiting = k :: rest → AMap.find s.dev.cv.serving u.val = none →
      ∃ t, exec (.claim u false) s = .next t ∧ Safety.keepsMem s t ∧ t.dev.cvClaim u.val = false
      ∧ t.dev.cvClaimed u.val = false ∧ AMap.find t.dev.cv.serving u.val = some k ∧ t.dev.cv.waiting = rest))
  ∧ (∀ (u : Fin 16) (s : State), s.dev.cvClaimed u.val = true → ∃ t, exec (.cvStart u) s = .next t
    ∧ t.dev.reg64 (Reg.CV_Un_VAL_LO u.val) = (crcParams (s.dev.cvSel u.val)).init % 2 ^ 64
    ∧ t.dev.reg64 (Reg.CV_Un_CNT_LO u.val) = 0
    ∧ Safety.onlyRegs s t [Reg.CV_Un_SEL u.val, Reg.CV_Un_VAL_LO u.val, Reg.CV_Un_VAL_LO u.val + 4, Reg.CV_Un_CNT_LO u.val,
      Reg.CV_Un_CNT_LO u.val + 4])
  ∧ (∀ (u : Fin 16) (v : Word) (s : State), s.dev.cvClaimed u.val = true → ∃ t, exec (.cvData u v) s = .next t
    ∧ t.dev.reg64 (Reg.CV_Un_VAL_LO u.val) = (crcParams (s.dev.cvSel u.val)).run (s.dev.reg64 (Reg.CV_Un_VAL_LO u.val))
      (leBytes (min 4 (s.dev.rf (Reg.CV_Un_SEL u.val) Fld.CV_Un_SEL.BYTES)) v.toNat) % 2 ^ 64
    ∧ t.dev.reg64 (Reg.CV_Un_CNT_LO u.val)
      = (s.dev.reg64 (Reg.CV_Un_CNT_LO u.val) + min 4 (s.dev.rf (Reg.CV_Un_SEL u.val) Fld.CV_Un_SEL.BYTES)) % 2 ^ 64
    ∧ Safety.onlyRegs s t [Reg.CV_Un_VAL_LO u.val, Reg.CV_Un_VAL_LO u.val + 4, Reg.CV_Un_CNT_LO u.val,
      Reg.CV_Un_CNT_LO u.val + 4])
  ∧ (∀ (u : Fin 16) (v : Word) (s : State), s.dev.cvClaimed u.val = true →
    (∃ t, exec (.cvValHi u v) s = .next t ∧ Safety.keepsMem s t ∧ t.dev.reg64 (Reg.CV_Un_VAL_LO u.val)
      = (s.dev.heldLow (Reg.CV_Un_VAL_LO u.val) + 2 ^ 32 * v.toNat) % 2 ^ cvWidth (s.dev.cvSel u.val))
    ∧ (∃ t, exec (.cvCntHi u v) s = .next t ∧ Safety.keepsMem s t ∧ t.dev.reg64 (Reg.CV_Un_CNT_LO u.val)
      = s.dev.heldLow (Reg.CV_Un_CNT_LO u.val) + 2 ^ 32 * v.toNat))
  ∧ (∀ (c : Instr) (u : Fin 16) (v : Word) (s : State), c ∈ [Instr.cvStart u, .cvValHi u v, .cvCntHi u v] →
    s.dev.cvClaimed u.val = false → ∃ t, exec c s = .next t ∧ Safety.keepsMem s t
    ∧ t.dev.rf (Reg.CV_Un_SEL u.val) Fld.CV_Un_SEL.CFG_LOCKED_WRITE = 1
    ∧ (∀ a, a ≠ Reg.CV_Un_SEL u.val → t.dev.reg a = s.dev.reg a))
  ∧ (∀ (u : Fin 16) (v : Word) (s : State), s.dev.cvClaimed u.val = false → Safety.givesDev (.cvData u v) s s.dev)

/-- The timebase (R386 to R397): a first measurement steps it and begins ACQUIRING; without a MAC as its source a measurement
does nothing; a source lost while it follows one is HOLDOVER; RESTEP goes back to FREE; an enabled compare unit sets its FIRED
bit, a one-shot unit once for its target and a periodic one moving its target on, and the high word of a target makes the unit
ready; an event is stamped, and counted where it replaces one that was not read; a carry into the seconds raises the pulse. That a
compare unit's firing finds the timebase at its target, and the low word that a high word with none held takes, are the model's
choices (log 51, 70). -/
def Obligations.TimebaseFollowsAndFires : Prop :=
  (∀ (m : Measurement) (s : State), s.dev.tbSource = 1 → s.dev.tbState = tbFree → ∃ t, exec (.tbMeasurement m) s = .next t
    ∧ Safety.keepsMem s t ∧ t.dev.tb = s.dev.tb.move m.theta ∧ t.dev.tbState = tbAcquiring)
  ∧ (∀ (m : Measurement) (s : State), s.dev.tbSource = 1 → Safety.givesDev (.tbMeasurement m) s (s.dev.measure m))
  ∧ (∀ (m : Measurement) (s : State), s.dev.tbSource ≠ 1 → Safety.givesDev (.tbMeasurement m) s s.dev)
  ∧ (∀ s : State, (s.dev.tbState = tbAcquiring ∨ s.dev.tbState = tbLocked → ∃ t, exec .tbSourceTimeout s = .next t
      ∧ Safety.keepsMem s t ∧ t.dev.tbState = tbHoldover
      ∧ t.dev.reg (Reg.TB_CNT_k 1) = satAdd 32 (s.dev.reg (Reg.TB_CNT_k 1)) 1 ∧ t.dev.tb = s.dev.tb)
    ∧ (s.dev.tbState = tbFree ∨ s.dev.tbState = tbHoldover → Safety.givesDev .tbSourceTimeout s s.dev))
  ∧ (∀ s : State, ∃ t, exec .restep s = .next t ∧ Safety.keepsMem s t ∧ t.dev.tbState = tbFree
    ∧ t.dev.rf Reg.TB_STAT Fld.TB_STAT.STEPPED = 0 ∧ t.dev.tb = s.dev.tb
    ∧ (∀ a, a ≠ Reg.TB_STAT → t.dev.reg a = s.dev.reg a))
  ∧ (∀ (n : Fin 8) (s : State), s.dev.rf (Reg.TB_CMPn_CTRL n.val) Fld.TB_CMPn_CTRL.EN = 1 →
    bit s.dev.sync.cmpDone n.val = false → s.dev.rf (Reg.TB_CMPn_CTRL n.val) Fld.TB_CMPn_CTRL.PERIOD = 0 →
    ∃ t, exec (.cmpFire n) s = .next t ∧ Safety.keepsMem s t ∧ bit (t.dev.reg Reg.TB_CMP_FIRED) n.val = true
    ∧ bit t.dev.sync.cmpDone n.val = true ∧ (∀ a, a ≠ Reg.TB_CMP_FIRED → t.dev.reg a = s.dev.reg a))
  ∧ (∀ (n : Fin 8) (s : State), s.dev.rf (Reg.TB_CMPn_CTRL n.val) Fld.TB_CMPn_CTRL.EN = 1 →
    bit s.dev.sync.cmpDone n.val = false → s.dev.rf (Reg.TB_CMPn_CTRL n.val) Fld.TB_CMPn_CTRL.PERIOD ≠ 0 →
    stampDiff (s.dev.reach (s.dev.reg64 (Reg.TB_CMPn_LO n.val))).stamp
      (stampMove (s.dev.reg64 (Reg.TB_CMPn_LO n.val)) (s.dev.cmpPeriod n.val)) < 0 →
    ∃ t, exec (.cmpFire n) s = .next t ∧ Safety.keepsMem s t ∧ bit (t.dev.reg Reg.TB_CMP_FIRED) n.val = true
    ∧ t.dev.reg64 (Reg.TB_CMPn_LO n.val) = stampMove (s.dev.reg64 (Reg.TB_CMPn_LO n.val)) (s.dev.cmpPeriod n.val) % 2 ^ 64
    ∧ t.dev.sync.cmpDone = s.dev.sync.cmpDone)
  ∧ (∀ (n : Fin 8) (s : State), (s.dev.rf (Reg.TB_CMPn_CTRL n.val) Fld.TB_CMPn_CTRL.EN = 0
    ∨ bit s.dev.sync.cmpDone n.val = true) → Safety.givesDev (.cmpFire n) s s.dev)
  ∧ (∀ (n : Fin 8) (v : Word) (s : State), ∃ t, exec (.cmpTargetWrite n v) s = .next t ∧ Safety.keepsMem s t
    ∧ t.dev.reg64 (Reg.TB_CMPn_LO n.val) = s.dev.heldLow (Reg.TB_CMPn_LO n.val) + 2 ^ 32 * v.toNat
    ∧ bit t.dev.sync.cmpDone n.val = false)
  ∧ (∀ (n : Fin 4) (s : State), ∃ t, exec (.evtIn n) s = .next t ∧ Safety.keepsMem s t
    ∧ t.dev.reg64 (Reg.TB_EVTn_LO n.val) = s.dev.stamp % 2 ^ 64 ∧ bit t.dev.sync.evtUnread n.val = true
    ∧ t.dev.reg (Reg.TB_CNT_k 3) = satAdd 32 (s.dev.reg (Reg.TB_CNT_k 3)) (if bit s.dev.sync.evtUnread n.val then 1 else 0))
  ∧ (∀ s : State, ∃ t, exec .carryIntoSeconds s = .next t ∧ Safety.keepsMem s t
    ∧ t.dev.tb = { sec := (s.dev.tb.sec + 1) % 2 ^ 48, ns := 0, frac := 0 } ∧ t.dev.regs = s.dev.regs
    ∧ t.dev.sync.ppsRise = some ((s.dev.tb.sec + 1) % 2 ^ 48 * 1000000000))

/-- The Ethernet MACs (R399 to R410): a frame received while the link is up is counted, filtered and sorted by its EtherType and
its checks; FEEDBACK records go to the axis table and change no byte outside it; a drive frame received is dropped; with no gate
list in operation the highest unshaped queue with a frame sends its head; CHANGE sets a gate list to wait and its start applies
it; a second SLAVE is refused; the link follows its PHY. CAN frames (R411 to R413): a received frame is counted and goes where its
filter sends it; a pending buffer is sent and counted, and received as well in internal loopback. -/
def Obligations.EthernetAndCanFrames : Prop :=
  (∀ (m : Fin 4) (bs : List Byte) (s : State), s.dev.macUp m.val = true →
    Safety.givesDev (.ethRx m bs false) s (s.dev.ethCnt m.val 2)
    ∧ (bs.length < 60 ∨ (if s.dev.ethRfB m.val Fld.ETH_CTRL.JUMBO then 9018 else 1518) < bs.length →
      Safety.givesDev (.ethRx m bs true) s s.dev)
    ∧ (60 ≤ bs.length → bs.length ≤ (if s.dev.ethRfB m.val Fld.ETH_CTRL.JUMBO then 9018 else 1518) →
      (s.dev.passes m.val (bs.take 6) = false → Safety.givesDev (.ethRx m bs true) s (s.dev.ethCnt m.val 1))
      ∧ (s.dev.passes m.val (bs.take 6) = true →
        ¬ (beField bs (etypeAt bs) 2 = s.dev.rf (Reg.ETH_CTRL m.val) Fld.ETH_CTRL.ETYPE
          ∧ beField (bs.drop (etypeAt bs + 2)) 0 1 = 1) →
        ((s.dev.mac m.val).ring.length < 256 → ∃ t, exec (.ethRx m bs true) s = .next t ∧ Safety.keepsMem s t
          ∧ (t.dev.mac m.val).ring = (s.dev.mac m.val).ring ++ [(s.dev.rxStamp m.val, bs)]
          ∧ (t.dev.mac m.val).sorted = (s.dev.mac m.val).sorted
          ∧ t.dev.reg (Reg.ETH_CNT_k m.val 1) = satAdd 32 (s.dev.reg (Reg.ETH_CNT_k m.val 1)) 1)
        ∧ (256 ≤ (s.dev.mac m.val).ring.length →
          Safety.givesDev (.ethRx m bs true) s ((s.dev.ethCnt m.val 1).ethCnt m.val 6)))
      ∧ (s.dev.passes m.val (bs.take 6) = true → beField bs (etypeAt bs) 2 = s.dev.rf (Reg.ETH_CTRL m.val) Fld.ETH_CTRL.ETYPE →
        beField (bs.drop (etypeAt bs + 2)) 0 1 = 1 →
        stardoulOk (s.dev.ethRfB m.val Fld.ETH_CTRL.JUMBO) (decide (bs.length ≤ 48 + etypeAt bs))
          (bs.drop (etypeAt bs + 2)) = false →
        Safety.givesDev (.ethRx m bs true) s ((s.dev.ethCnt m.val 1).ethCnt m.val 3))
      ∧ (s.dev.passes m.val (bs.take 6) = true → beField bs (etypeAt bs) 2 = s.dev.rf (Reg.ETH_CTRL m.val) Fld.ETH_CTRL.ETYPE →
        beField (bs.drop (etypeAt bs + 2)) 0 1 = 1 →
        stardoulOk (s.dev.ethRfB m.val Fld.ETH_CTRL.JUMBO) (decide (bs.length ≤ 48 + etypeAt bs))
          (bs.drop (etypeAt bs + 2)) = true → ∃ t, exec (.ethRx m bs true) s = .next t ∧ Safety.keepsMem s t
        ∧ (t.dev.mac m.val).sorted = (s.dev.mac m.val).sorted ++ [(s.dev.rxStamp m.val, bs.drop (etypeAt bs + 2))]
        ∧ (t.dev.mac m.val).ring = (s.dev.mac m.val).ring)))
  ∧ (∀ (m : Fin 4) (rx : Nat) (p : List Byte) (rest : List (Nat × List Byte)) (s : State),
    takeKind 2 (s.dev.mac m.val).sorted = some ((rx, p), rest) → Safety.memOk s → ∃ t, exec (.feedback m) s = .next t
    ∧ (t.dev.mac m.val).sorted = rest ∧ (∀ a, t.dev.reg a = s.dev.reg a)
    ∧ (∀ x, (x < ceMem + 0x1FC000 ∨ ceMem + 0x200000 ≤ x) → Memory.read t.mem x = Memory.read s.mem x))
  ∧ (∀ (m : Fin 4) (rx : Nat) (p : List Byte) (rest : List (Nat × List Byte)) (s : State),
    takeKind 2 (s.dev.mac m.val).sorted = some ((rx, p), rest) → Safety.gives (.feedback m) s
      (((Safety.mach s).axisRecords (p.drop 16) (beField p 3 1) m.val
        (if bit (beField p 2 1) 0 then beField p 8 8 else rx)).mod (fun d => d.modMac m.val (fun y => { y with sorted := rest }))))
  ∧ (∀ (m : Fin 4) (f : Nat × List Byte) (rest : List (Nat × List Byte)) (s : State),
    takeKind 1 (s.dev.mac m.val).sorted = some (f, rest) → Safety.givesDev (.driveReceived m) s
      ((s.dev.modMac m.val (fun y => { y with sorted := rest })).ethCnt m.val 4))
  ∧ (∀ (m : Fin 4) (q : Fin 8) (f : TxFrame) (rest : List TxFrame) (s : State), s.dev.macUp m.val = true →
    (s.dev.mac m.val).oper.en = false → (s.dev.mac m.val).queues.getD q.val [] = f :: rest →
    s.dev.shaped m.val q.val = false → (∀ k, q.val < k → (s.dev.mac m.val).queues.getD k [] = []) →
    ∃ t, exec (.txSelect m) s = .next t ∧ Safety.keepsMem s t
    ∧ (t.dev.mac m.val).queues = modAt (s.dev.mac m.val).queues q.val (fun _ => rest)
    ∧ (t.dev.mac m.val).busy = max s.dev.nsNow (s.dev.mac m.val).busy + ceilDiv (s.dev.frameTime m.val f) 10
    ∧ t.dev.reg (Reg.ETH_CNT_k m.val 0) = satAdd 32 (s.dev.reg (Reg.ETH_CNT_k m.val 0)) 1)
  ∧ (∀ (m : Fin 4) (s : State), (s.dev.mac m.val).pend = none → ∃ (t : State) (g : GclSet) (start : Nat),
    exec (.change m) s = .next t ∧ Safety.keepsMem s t ∧ (t.dev.mac m.val).pend = some (g, start)
    ∧ g.base = s.dev.reg64 (Reg.ETH_QBV_BASE_LO m.val)
    ∧ g.cycle = max 1000 (s.dev.rf (Reg.ETH_QBV_CYCLE m.val) Fld.ETH_QBV_CYCLE.CYCLE)
    ∧ (t.dev.mac m.val).oper = (s.dev.mac m.val).oper)
  ∧ (∀ (m : Fin 4) (s : State), (s.dev.mac m.val).pend ≠ none → Safety.givesDev (.change m) s s.dev)
  ∧ (∀ (m : Fin 4) (g : GclSet) (start : Nat) (s : State), (s.dev.mac m.val).pend = some (g, start) →
    ∃ t, exec (.gclApply m) s = .next t ∧ Safety.keepsMem s t ∧ (t.dev.mac m.val).oper = g ∧ (t.dev.mac m.val).pend = none)
  ∧ (∀ (m : Fin 4) (role : BitVec 2) (s : State), (role.toNat ≠ 1 ∨ s.dev.slaveMac = none ∨ s.dev.slaveMac = some m.val) →
    ∃ t, exec (.ptpRoleWrite m role) s = .next t ∧ t.dev.rf (Reg.ETH_CTRL m.val) Fld.ETH_CTRL.PTP_ROLE = role.toNat
    ∧ Safety.onlyRegs s t [Reg.ETH_CTRL m.val])
  ∧ (∀ (m : Fin 4) (k : Nat) (s : State), s.dev.slaveMac = some k → k ≠ m.val → ∃ t, exec (.ptpRoleWrite m 1) s = .next t
    ∧ t.dev.rf (Reg.ETH_STAT m.val) Fld.ETH_STAT.ROLE_REFUSED = 1 ∧ Safety.onlyRegs s t [Reg.ETH_STAT m.val])
  ∧ (∀ (m : Fin 4) (up : Bool) (s : State), Safety.givesDev (.ethLinkChange m up) s
      (s.dev.setMac m.val { s.dev.mac m.val with phy := up }))
  ∧ (∀ (n : Fin 4) (f : CanFrame) (s : State), s.dev.canOn n.val = true →
    (s.dev.rf (Reg.CAN_CTRL n.val) Fld.CAN_CTRL.MODE = 3 ∨ (f.fd = true ∧ s.dev.rf (Reg.CAN_CTRL n.val) Fld.CAN_CTRL.FD = 0)) →
    Safety.givesDev (.canRx n f) s s.dev)
  ∧ (∀ (n : Fin 4) (f : CanFrame) (s : State), s.dev.canOn n.val = true →
    s.dev.rf (Reg.CAN_CTRL n.val) Fld.CAN_CTRL.MODE ≠ 3 → (f.fd = false ∨ s.dev.rf (Reg.CAN_CTRL n.val) Fld.CAN_CTRL.FD = 1) →
    (s.dev.canRoute n.val f ≠ 1 → s.dev.canRoute n.val f ≠ 2 → Safety.givesDev (.canRx n f) s (s.dev.canCnt n.val 1))
    ∧ ((s.dev.canRoute n.val f = 1 ∨ (s.dev.canRoute n.val f = 2 ∧ f.rtr = true)) → 128 ≤ (s.dev.can n.val).ring.length →
      Safety.givesDev (.canRx n f) s ((s.dev.canCnt n.val 1).canCnt n.val 4))
    ∧ ((s.dev.canRoute n.val f = 1 ∨ (s.dev.canRoute n.val f = 2 ∧ f.rtr = true)) → (s.dev.can n.val).ring.length < 128 → ∃ t, exec (.canRx n f) s = .next t
      ∧ Safety.keepsMem s t ∧ (t.dev.can n.val).ring = (s.dev.can n.val).ring ++ [(s.dev.stamp, f)]
      ∧ t.dev.reg (Reg.CAN_CNT_k n.val 1) = satAdd 32 (s.dev.reg (Reg.CAN_CNT_k n.val 1)) 1)
    ∧ (s.dev.canRoute n.val f = 2 → f.rtr = false → f.data.length % 8 = 0 → Safety.gives (.canRx n f) s
      (((Safety.mach s).mod (fun d => d.canCnt n.val 1)).axisRecords f.data (f.data.length / 8) (2 ^ 14 + n.val) s.dev.stamp))
    ∧ (s.dev.canRoute n.val f = 2 → f.rtr = false → f.data.length % 8 ≠ 0 → Safety.givesDev (.canRx n f) s
      ((s.dev.canCnt n.val 1).canCnt n.val 2)))
  ∧ (∀ (n : Fin 4) (b : Nat) (x : CanTxSt) (s : State), s.dev.canOn n.val = true →
    s.dev.rf (Reg.CAN_CTRL n.val) Fld.CAN_CTRL.MODE = 0 → (s.dev.can n.val).first = some (b, x) →
    ∃ t, exec (.canTx n) s = .next t ∧ Safety.keepsMem s t ∧ AMap.find (t.dev.can n.val).tx b = none
    ∧ (∀ k, k ≠ n.val → t.dev.can k = s.dev.can k)
    ∧ t.dev.reg (Reg.CAN_CNT_k n.val 0) = satAdd 32 (s.dev.reg (Reg.CAN_CNT_k n.val 0)) 1)
  ∧ (∀ (n : Fin 4) (b : Nat) (x : CanTxSt) (s : State), s.dev.canOn n.val = true → (s.dev.can n.val).first = some (b, x) →
    (s.dev.rf (Reg.CAN_CTRL n.val) Fld.CAN_CTRL.MODE = 3 → Safety.gives (.canTx n) s
      (((Safety.mach s).mod (fun d => (d.modCan n.val (fun y => { y with tx := AMap.erase y.tx b })).canCnt n.val 0)).canReceive
        n.val x.frame))
    ∧ ((s.dev.rf (Reg.CAN_CTRL n.val) Fld.CAN_CTRL.MODE = 1 ∨ s.dev.rf (Reg.CAN_CTRL n.val) Fld.CAN_CTRL.MODE = 2) →
      Safety.givesDev (.canTx n) s s.dev))

/-- Error states of a CAN controller (R414): a controller on the bus that enters error passive shows it and raises one fault of
class F0; bus-off is shown, raises one fault of class F1 and counts BUS_OFF; with AUTO_REC at 1 its recovery runs at once, with
AUTO_REC at 0 it waits for a write of 1 to RECOVER; a controller that is bus-off recovers when the recessive bits have been
counted while its recovery runs or AUTO_REC is 1, and not else. -/
def Obligations.CanErrorStates : Prop :=
  (∀ (n : Fin 4) (tec rec : Byte) (s : State), s.dev.canOn n.val = true → ∃ t, exec (.errorPassive n tec rec) s = .next t
    ∧ Safety.keepsMem s t ∧ t.dev.canState n.val = 1 ∧ t.dev.rf (Reg.CAN_STAT n.val) Fld.CAN_STAT.TEC = tec.toNat
    ∧ t.dev.rf (Reg.CAN_STAT n.val) Fld.CAN_STAT.REC = rec.toNat
    ∧ t.dev.raised = s.dev.raised ++ (if s.dev.canState n.val = 1 then []
      else [Safety.rec 0 Src.CAN 0x0001 n.val (tec.toNat + rec.toNat * 2 ^ 8)]))
  ∧ (∀ (n : Fin 4) (s : State), s.dev.canOn n.val = true → ∃ t, exec (.busOff n) s = .next t ∧ Safety.keepsMem s t
    ∧ t.dev.canState n.val = 2 ∧ t.dev.raised = s.dev.raised ++ [Safety.rec 1 Src.CAN 0x0002 n.val 0]
    ∧ t.dev.reg (Reg.CAN_CNT_k n.val 5) = satAdd 32 (s.dev.reg (Reg.CAN_CNT_k n.val 5)) 1
    ∧ (t.dev.can n.val).recovering = s.dev.rfB (Reg.CAN_CTRL n.val) Fld.CAN_CTRL.AUTO_REC)
  ∧ (∀ (n : Fin 4) (s : State), s.dev.canState n.val = 2 →
    ((s.dev.can n.val).recovering = true ∨ s.dev.rf (Reg.CAN_CTRL n.val) Fld.CAN_CTRL.AUTO_REC = 1 →
      ∃ t, exec (.canRecovered n) s = .next t ∧ Safety.keepsMem s t
      ∧ t.dev.canState n.val = 0 ∧ (t.dev.can n.val).recovering = false)
    ∧ ((s.dev.can n.val).recovering = false → s.dev.rf (Reg.CAN_CTRL n.val) Fld.CAN_CTRL.AUTO_REC = 0 →
      Safety.givesDev (.canRecovered n) s s.dev)
    ∧ (∃ t, exec (.recover n) s = .next t ∧ Safety.keepsMem s t ∧ (t.dev.can n.val).recovering = true
      ∧ t.dev.regs = s.dev.regs))

/-- Ingest (R422 to R424, R428, R429, R432, R441, R442): a packet that no stream takes, or none with a frame in progress, is
discarded and counted, and a line that failed its check makes the frame bad and stores nothing; a frame starts in a buffer, if
one is free, with its stamp, and ends whole or dropped; a SENSOR chunk joins its frame; a whole frame's tensor completes and is
counted; a binding that waits takes the tensor that has completed since; a decoded sample waits for its position; a position is
given up after 256 corrupt samples, once a buffer is free, and not before. -/
def Obligations.IngestFramesAndSamples : Prop :=
  (∀ (p vc : Fin 16) (dt : BitVec 6) (ok late : Bool) (bs : List Byte) (s : State), s.dev.csiOn p.val = true →
    Safety.givesDev (.csiPacket p vc dt true ok late bs) s (s.dev.csiDiscard p.val)
    ∧ (s.dev.csiFor p.val vc.val dt.toNat = none →
      Safety.givesDev (.csiPacket p vc dt false ok late bs) s (s.dev.csiDiscard p.val))
    ∧ (∀ n x, s.dev.csiFor p.val vc.val dt.toNat = some n → s.dev.stream n = some x → x.frame = none →
      Safety.givesDev (.csiPacket p vc dt false ok late bs) s (s.dev.csiDiscard p.val)))
  ∧ (∀ (p vc : Fin 16) (dt : BitVec 6) (n : Nat) (x : StreamSt) (f : FrameSt) (bs : List Byte) (s : State),
    s.dev.csiOn p.val = true → s.dev.csiFor p.val vc.val dt.toNat = some n → s.dev.stream n = some x → x.frame = some f →
    (∀ ok late, (ok && !late) = false → Safety.givesDev (.csiPacket p vc dt false ok late bs) s
      (s.dev.setStream n { x with frame := some { f with lines := f.lines + 1, bad := true } }))
    ∧ Safety.gives (.csiPacket p vc dt false true false bs) s ((Safety.mach s).csiLine n true bs))
  ∧ (∀ (p vc : Fin 16) (no : BitVec 16) (n : Nat) (x : StreamSt) (s : State), s.dev.csiOn p.val = true →
    s.dev.csiStreams p.val vc.val = [n] → s.dev.stream n = some x → x.frame = none →
    ∃ t, exec (.csiFrameStart p vc no) s = .next t ∧ Safety.keepsMem s t ∧ (t.dev.stream n).bind (fun x => x.frame)
      = some { buf := x.pick, stamp := s.dev.stamp, number := no.toNat })
  ∧ (∀ (p vc : Fin 16) (no : BitVec 16) (s : State), s.dev.csiOn p.val = true →
    (s.dev.csiStreams p.val vc.val = [] → Safety.givesDev (.csiFrameStart p vc no) s (s.dev.csiDiscard p.val)
      ∧ Safety.givesDev (.csiFrameEnd p vc) s (s.dev.csiDiscard p.val))
    ∧ (s.dev.csiStreams p.val vc.val ≠ [] → Safety.givesDev (.csiFrameStart p vc no) s
        ((s.dev.csiStreams p.val vc.val).foldl (fun d n => d.startFrame n d.stamp no.toNat) s.dev)
      ∧ Safety.givesDev (.csiFrameEnd p vc) s ((s.dev.csiStreams p.val vc.val).foldl Dev.endOfFrame s.dev)))
  ∧ (∀ (p vc : Fin 16) (n : Nat) (x : StreamSt) (f : FrameSt) (s : State), s.dev.csiOn p.val = true →
    s.dev.csiStreams p.val vc.val = [n] → s.dev.stream n = some x → x.frame = some f →
    (f.bad = false → f.lines = Se.h x.entry → Safety.givesDev (.csiFrameEnd p vc) s (s.dev.setStream n { x with
      frame := none
      ready := if f.buf.isSome then x.ready ++ [f] else x.ready }))
    ∧ (f.bad = true ∨ f.lines ≠ Se.h x.entry → Safety.givesDev (.csiFrameEnd p vc) s (s.dev.dropFrame n)))
  ∧ (∀ (m : Fin 4) (rx n : Nat) (p : List Byte) (rest : List (Nat × List Byte)) (d e : Dev) (s : State),
    takeKind 3 (s.dev.mac m.val).sorted = some ((rx, p), rest) → d = s.dev.modMac m.val (fun y => { y with sorted := rest }) →
    (d.netStream (beField p 6 2) = none → Safety.givesDev (.sensor m) s (d.ethCnt m.val 4))
    ∧ (d.netStream (beField p 6 2) = some n → s.dev.pwr.pwrFail = true → Safety.givesDev (.sensor m) s d)
    ∧ (∀ f, d.netStream (beField p 6 2) = some n → s.dev.pwr.pwrFail = false → e = d.sensorFrame n rx (beField p 16 4) →
      (e.stream n).bind (fun x => x.frame) = some f →
      (f.number = beField p 16 4 → Safety.gives (.sensor m) s
        ((⟨s.mem, [], e⟩ : Mach).netChunk n (beField p 20 4) (beField p 24 4) (slice p 32 (beField p 28 2))
          (if bit (beField p 2 1) 0 then some (beField p 8 8) else if beField p 20 4 = 0 then some rx else none)))
      ∧ (f.number ≠ beField p 16 4 → Safety.givesDev (.sensor m) s e)))
  ∧ (∀ (n : Fin 64) (x : StreamSt) (f : FrameSt) (rest : List FrameSt) (s : State), s.dev.stream n.val = some x →
    x.ready = f :: rest → ∃ t, exec (.tensorComplete n) s = .next t ∧ Safety.keepsMem s t
    ∧ (t.dev.stream n.val).map (fun y => (y.ready, y.completions)) = some (rest, x.completions + 1)
    ∧ (∀ i, f.buf = some i → i < x.bufs.length → (t.dev.stream n.val).map (fun y => ((y.buf i).phase, (y.buf i).stamp))
      = some (.complete, f.stamp))
    ∧ t.dev.reg (ingCount n.val 0) = satAdd 32 (s.dev.reg (ingCount n.val 0)) 1)
  ∧ (∀ (n : Fin 64) (l : Fin 16) (st : StepSt) (b nb : Bound) (x : StreamSt) (k i : Nat) (m : Mach) (s : State),
    (s.dev.loop l.val).step = some st → st.bound.find? (fun b => b.stream == n.val && b.waitNew.isSome) = some b →
    b.waitNew = some k → s.dev.stream n.val = some x → x.live = true → k < x.completions → x.newest = some i →
    (Safety.mach s).bindBuf l.val n.val x i = (m, nb) → Safety.gives (.waitnewBind n l) s
      (m.mod (fun d => d.modStep l.val (fun st => { st with
        bound := st.bound.map (fun y => if y.stream == n.val then nb else y) }))))
  ∧ (∀ (n : Fin 64) (l : Fin 16) (st : StepSt) (b : Bound) (x : StreamSt) (k : Nat) (s : State),
    (s.dev.loop l.val).step = some st → st.bound.find? (fun b => b.stream == n.val && b.waitNew.isSome) = some b →
    b.waitNew = some k → s.dev.stream n.val = some x → x.completions ≤ k → Safety.givesDev (.waitnewBind n l) s s.dev)
  ∧ (∀ (n : Fin 64) (pos ep : Nat) (src : SampleSource) (x : StreamSt) (m : Mach) (dec : DecSample) (s : State),
    s.dev.stream n.val = some x → x.live = true → Se.kind x.entry = 2 → pos < Se.listLen x.entry →
    x.cursor ≤ ep * Se.listLen x.entry + pos → ep * Se.listLen x.entry + pos < x.cursor + 64 →
    AMap.find x.done (ep * Se.listLen x.entry + pos) = none → s.dev.pwr.pwrFail = false →
    (Safety.mach s).decodeSample x.entry pos src = (m, dec) → Safety.gives (.sampleDecoded n pos ep src) s
      (m.sampleDone n.val (ep * Se.listLen x.entry + pos) dec))
  ∧ (∀ (n : Fin 64) (pos ep : Nat) (src : SampleSource) (x : StreamSt) (s : State), s.dev.stream n.val = some x →
    (ep * Se.listLen x.entry + pos < x.cursor ∨ x.cursor + 64 ≤ ep * Se.listLen x.entry + pos
      ∨ AMap.find x.done (ep * Se.listLen x.entry + pos) ≠ none) → Safety.givesDev (.sampleDecoded n pos ep src) s s.dev)
  ∧ (∀ (n : Fin 64) (x : StreamSt) (s : State), s.dev.stream n.val = some x → x.corruptRun < 256 →
    Safety.givesDev (.missingPos n) s s.dev)
  ∧ (∀ (n : Fin 64) (x y : StreamSt) (i : Nat) (m : Mach) (s : State), s.dev.stream n.val = some x → 256 ≤ x.corruptRun →
    x.building ((Safety.mach s).dev.batchLoops n.val) = some (y, i) →
    m = (((Safety.mach s).mod (fun d => d.setStream n.val y)).zero ((Safety.mach s).bufAddr y.entry i
        + 64 * (1 + Se.manifest y.entry + (y.buf i).placed.length * (Safety.mach s).nplane y.entry * Se.pp y.entry))
      (64 * (Safety.mach s).nplane y.entry * Se.pp y.entry)) → Safety.gives (.missingPos n) s
      (((m.fillPos n.val i none 0 0 (y.cursor / Se.listLen y.entry) 3).mod (fun d =>
        d.raise 1 Src.INGEST 0x0002 n.val ((y.buf i).placed.length % 256
          + (y.cursor % Se.listLen y.entry) % 2 ^ 24 * 2 ^ 32))).placeReady n.val 4096 |>.mod Dev.settleOrders))
  ∧ (∀ (n : Fin 64) (x : StreamSt) (s : State), s.dev.stream n.val = some x → 256 ≤ x.corruptRun →
    x.building (s.dev.batchLoops n.val) = none → Safety.givesDev (.missingPos n) s s.dev)

/-- The control engine (R447, R452, R453, R455, R461 to R464, R474 to R476, R514): an instant ends the frame in progress and
begins the next; the channels are evaluated in slot order and a failed duplicate compare stops the engine with F3; EN starts it
only with outputs enabled, full power and a good bank, and stops it after the frame in progress, or at once outside a frame; a
swap of a good bank waits for its instant or, with the engine stopped, is applied at once; modes, manual outputs and the trace take their writes as their rules allow.
What the templates build where no frame is in progress, and that the timebase is found at the instant, are the model's choices
(log 51, 54). -/
def Obligations.ControlEngineRuns : Prop :=
  (∀ s : State, s.dev.ceRun = false → Safety.givesDev .ceInstant s s.dev)
  ∧ (∀ (t : Nat) (m : Mach) (s : State), s.dev.ceRun = true → s.dev.eng.apply = none → t = s.dev.ceInstant s.dev.eng.j →
    m = (if s.dev.eng.inFrame then ((Safety.mach s).mod (fun d => d.reach t)).endFrame t
      else ((Safety.mach s).mod (fun d => d.reach t)).driveAll t) →
    Safety.gives .ceInstant s (if m.dev.eng.stopping then m.ceStop else m.beginFrame t))
  ∧ (∀ (a : Nat) (m : Mach) (s : State), s.dev.ceRun = true → s.dev.eng.apply = some a →
    m = ((Safety.mach s).mod (fun d => d.reach a)).endFrame a → Safety.gives .ceInstant s (if m.dev.eng.stopping then m.ceStop
      else m.mod (fun d => d.modCe (fun e => { e with apply := none, stamp := stampAdd a d.cePeriod }))))
  ∧ (∀ (c : Fin 256) (s : State), s.dev.ceRun = true → s.dev.eng.inFrame = true → c.val ∈ s.dev.toEvaluate →
    Safety.gives (.channelEval c false) s
      ((s.dev.toEvaluate.take (s.dev.toEvaluate.idxOf c.val + 1)).foldl Mach.evalChan (Safety.mach s))
    ∧ (s.dev.eng.swap = none → ∃ u, exec (.channelEval c true) s = .next u ∧ Safety.keepsMem s u ∧ u.dev.ceRun = false
      ∧ u.dev.rf Reg.CE_CTRL Fld.CE_CTRL.EN = 0 ∧ u.dev.eng.dead = true
      ∧ u.dev.raised = s.dev.raised ++ [Safety.rec 3 Src.CE 0x0004 c.val (s.dev.eng.k - 1)])
    ∧ (s.dev.eng.swap ≠ none → Safety.gives (.channelEval c true) s
      ((Safety.mach s).mod (fun d => d.dupCompare c.val)).applySwap))
  ∧ (∀ (c : Fin 256) (dup : Bool) (s : State), s.dev.ceRun = false ∨ s.dev.eng.inFrame = false ∨ c.val ∉ s.dev.toEvaluate →
    Safety.givesDev (.channelEval c dup) s s.dev)
  ∧ (∀ s : State, s.dev.rf Reg.SAF_STAT Fld.SAF_STAT.OUT_EN = 0 ∨ s.dev.rf Reg.PWR_STAT Fld.PWR_STAT.BOOT_ONLY = 1 → ∃ u, exec (.ceEnWrite true) s = .next u
    ∧ u.dev.rf Reg.CE_STAT Fld.CE_STAT.CFG_LOCKED_WRITE = 1 ∧ Safety.onlyRegs s u [Reg.CE_STAT])
  ∧ (∀ s : State, s.dev.rf Reg.SAF_STAT Fld.SAF_STAT.OUT_EN = 1 → s.dev.rf Reg.PWR_STAT Fld.PWR_STAT.BOOT_ONLY = 0 →
    s.dev.ceRun = false →
    ((Safety.mach s).validateBank s.dev.bank = none → ∃ u, exec (.ceEnWrite true) s = .next u ∧ Safety.keepsMem s u
      ∧ u.dev.ceRun = true ∧ u.dev.rf Reg.CE_CTRL Fld.CE_CTRL.EN = 1 ∧ u.dev.reg64 Reg.CE_FRAME_LO = 0 ∧ u.dev.eng.k = 0
      ∧ u.dev.eng.inFrame = false)
    ∧ (∀ e, (Safety.mach s).validateBank s.dev.bank = some e → Safety.givesDev (.ceEnWrite true) s (s.dev.swapErr e)))
  ∧ (∀ s : State, s.dev.rf Reg.SAF_STAT Fld.SAF_STAT.OUT_EN = 1 → s.dev.rf Reg.PWR_STAT Fld.PWR_STAT.BOOT_ONLY = 0 →
    s.dev.ceRun = true → Safety.givesDev (.ceEnWrite true) s
      ((s.dev.modCe (fun e => { e with stopping := false })).wf Reg.CE_CTRL Fld.CE_CTRL.EN 1))
  ∧ (∀ s : State, (s.dev.ceRun = false → ∃ u, exec (.ceEnWrite false) s = .next u
      ∧ u.dev.rf Reg.CE_CTRL Fld.CE_CTRL.EN = 0 ∧ Safety.onlyRegs s u [Reg.CE_CTRL])
    ∧ (s.dev.ceRun = true → s.dev.eng.inFrame = true → ∃ u, exec (.ceEnWrite false) s = .next u ∧ Safety.keepsMem s u
      ∧ u.dev.rf Reg.CE_CTRL Fld.CE_CTRL.EN = 0 ∧ u.dev.ceRun = true ∧ u.dev.eng.stopping = true)
    ∧ (s.dev.ceRun = true → s.dev.eng.inFrame = false → s.dev.eng.swap = none → ∃ u, exec (.ceEnWrite false) s = .next u
      ∧ Safety.keepsMem s u ∧ u.dev.rf Reg.CE_CTRL Fld.CE_CTRL.EN = 0 ∧ u.dev.ceRun = false)
    ∧ (s.dev.ceRun = true → s.dev.eng.inFrame = false → Safety.gives (.ceEnWrite false) s
      ((Safety.mach s).mod (fun d => d.wf Reg.CE_CTRL Fld.CE_CTRL.EN 0)).ceStop))
  ∧ (∀ s : State, (s.dev.eng.swap ≠ none → Safety.givesDev .swap s s.dev)
    ∧ (∀ e, s.dev.eng.swap = none → (Safety.mach s).validateBank (1 - s.dev.bank) = some e →
      Safety.givesDev .swap s (s.dev.swapErr e))
    ∧ (s.dev.eng.swap = none → (Safety.mach s).validateBank (1 - s.dev.bank) = none → s.dev.ceRun = true →
      ∃ u, exec .swap s = .next u ∧ Safety.keepsMem s u ∧ u.dev.eng.swap = some (s.dev.nsNow, none)
      ∧ u.dev.rf Reg.CE_STAT Fld.CE_STAT.SWAP_PEND = 1 ∧ u.dev.bank = s.dev.bank)
    ∧ (s.dev.eng.swap = none → (Safety.mach s).validateBank (1 - s.dev.bank) = none → s.dev.ceRun = false →
      ∃ u, exec .swap s = .next u ∧ Safety.keepsMem s u ∧ u.dev.bank = 1 - s.dev.bank
      ∧ u.dev.reg (Reg.CE_CNT_k 0) = satAdd 32 (s.dev.reg (Reg.CE_CNT_k 0)) 1))
  ∧ (∀ (c : Fin 256) (mode : BitVec 2) (s : State),
    (s.dev.f2 = true → mode.toNat ≠ 3 → Safety.givesDev (.ceModeWrite c mode) s s.dev)
    ∧ (s.dev.f2 = false ∨ mode.toNat = 3 → ∃ u, exec (.ceModeWrite c mode) s = .next u ∧ Safety.keepsMem s u
      ∧ u.dev.rf (Reg.CE_CHn_MODE c.val) Fld.CE_CHn_MODE.MODE = mode.toNat ∧ (u.dev.chan c.val).reqMode = true
      ∧ (∀ k, k ≠ c.val → u.dev.chan k = s.dev.chan k)))
  ∧ (∀ (c : Fin 256) (v : Word) (s : State),
    (FFmt.f32.isFinite v.toNat = true → ∃ u, exec (.ceManWrite c v) s = .next u ∧ Safety.keepsMem s u
      ∧ u.dev.reg (Reg.CE_CHn_MAN c.val) = v.toNat ∧ (u.dev.chan c.val).manNew = true)
    ∧ (FFmt.f32.isFinite v.toNat = false → ∃ u, exec (.ceManWrite c v) s = .next u
      ∧ u.dev.rf Reg.CE_STAT Fld.CE_STAT.CFG_LOCKED_WRITE = 1 ∧ Safety.onlyRegs s u [Reg.CE_STAT]))
  ∧ (∀ s : State, s.dev.rf Reg.CE_TR_CTRL Fld.CE_TR_CTRL.ARM = 0 →
    (s.dev.traceCap < s.dev.rf Reg.CE_TR_WIN Fld.CE_TR_WIN.PRE + s.dev.rf Reg.CE_TR_WIN Fld.CE_TR_WIN.POST + 1 →
      ∃ u, exec (.arm true) s = .next u ∧ u.dev.rf Reg.CE_TR_STAT Fld.CE_TR_STAT.BADCFG = 1
      ∧ Safety.onlyRegs s u [Reg.CE_TR_STAT])
    ∧ (s.dev.rf Reg.CE_TR_WIN Fld.CE_TR_WIN.PRE + s.dev.rf Reg.CE_TR_WIN Fld.CE_TR_WIN.POST + 1 ≤ s.dev.traceCap →
      ∃ u, exec (.arm true) s = .next u ∧ Safety.keepsMem s u ∧ u.dev.rf Reg.CE_TR_CTRL Fld.CE_TR_CTRL.ARM = 1
      ∧ u.dev.traceState = 1 ∧ u.dev.eng.trace.idx = 0))
  ∧ (∀ s : State, s.dev.rf Reg.CE_TR_CTRL Fld.CE_TR_CTRL.ARM = 1 → Safety.givesDev (.arm true) s s.dev
    ∧ ∃ u, exec (.arm false) s = .next u ∧ u.dev.rf Reg.CE_TR_CTRL Fld.CE_TR_CTRL.ARM = 0 ∧ u.dev.traceState = 0
      ∧ Safety.onlyRegs s u [Reg.CE_TR_CTRL, Reg.CE_TR_STAT])
  ∧ (∀ s : State, s.dev.rf Reg.CE_TR_CTRL Fld.CE_TR_CTRL.ARM = 0 →
    ∃ u, exec (.arm false) s = .next u ∧ Safety.onlyRegs s u [])
  ∧ (∀ s : State, (s.dev.traceState = 1 → ∃ u, exec .force s = .next u ∧ Safety.keepsMem s u ∧ u.dev.eng.trace.force = true
      ∧ u.dev.regs = s.dev.regs)
    ∧ (s.dev.traceState ≠ 1 → Safety.givesDev .force s s.dev))
end

