-- ==== Sys2Proof/Laws/State.lean ====
section
/-!
SUPPORT. One lemma per field per update of `Dev`, and what finite maps and registers read after an update.
-/
namespace Sys2Proof

/-! ### Finite maps -/

@[simp] theorem AMap.find_set_same {β : Type} (m : AMap β) (k : Nat) (v : β) : AMap.find (AMap.set m k v) k = some v := by
  induction m with
  | nil => simp [AMap.set, AMap.find]
  | cons p r ih =>
    obtain ⟨j, u⟩ := p
    by_cases h : j = k
    · simp [AMap.set, AMap.find, h]
    · by_cases h2 : k < j
      · simp [AMap.set, AMap.find, h, h2]
      · simp [AMap.set, AMap.find, h, h2, ih]

theorem AMap.find_set_ne {β : Type} (m : AMap β) {k j : Nat} (v : β) (h : j ≠ k) :
    AMap.find (AMap.set m k v) j = AMap.find m j := by
  induction m with
  | nil => simp [AMap.set, AMap.find, Ne.symm h]
  | cons p r ih =>
    obtain ⟨i, u⟩ := p
    by_cases h1 : i = k
    · subst h1
      simp [AMap.set, AMap.find, Ne.symm h]
    · by_cases h2 : k < i
      · have h3 : j < k → i ≠ j ∧ j < i := fun h4 => ⟨by omega, by omega⟩
        by_cases h4 : j < k
        · simp [AMap.set, AMap.find, h1, h2, Ne.symm h, h4, h3 h4]
        · simp [AMap.set, AMap.find, h1, h2, Ne.symm h, h4]
      · simp [AMap.set, AMap.find, h1, h2, ih]

@[simp] theorem AMap.getD_set_same {β : Type} (m : AMap β) (k : Nat) (v d : β) : AMap.getD (AMap.set m k v) k d = v := by
  simp [AMap.getD]

theorem AMap.getD_set_ne {β : Type} (m : AMap β) {k j : Nat} (v d : β) (h : j ≠ k) :
    AMap.getD (AMap.set m k v) j d = AMap.getD m j d := by
  simp [AMap.getD, AMap.find_set_ne m v h]

namespace Machine

/-! ### Registers -/

@[simp] theorem Dev.reg_setReg_same (d : Dev) (a v : Nat) : (d.setReg a v).reg a = v % 2 ^ 32 := by
  simp [Dev.reg, Dev.setReg]

theorem Dev.reg_setReg_ne (d : Dev) {a b : Nat} (v : Nat) (h : b ≠ a) : (d.setReg a v).reg b = d.reg b := by
  simp [Dev.reg, Dev.setReg, AMap.find_set_ne _ _ h]

theorem Dev.reg_clearRegs (d : Dev) (as : List Nat) (b : Nat) :
    (d.clearRegs as).reg b = if b ∈ as then 0 else d.reg b := by
  unfold Dev.clearRegs
  induction as generalizing d with
  | nil => simp
  | cons a as ih =>
    rw [List.foldl_cons, ih]
    by_cases h : b ∈ as
    · simp [h]
    · by_cases h2 : b = a
      · simp [h2]
      · simp [h, h2, Dev.reg_setReg_ne d 0 h2]

/-- Clearing counters changes registers and nothing else. -/
theorem Dev.clearRegs_frame (d : Dev) (as : List Nat) : d.clearRegs as = { d with regs := (d.clearRegs as).regs } := by
  unfold Dev.clearRegs
  induction as generalizing d with
  | nil => rfl
  | cons a as ih => rw [List.foldl_cons, ih]; rfl

/-- A counter counts in its register and nothing else. -/
theorem Dev.cnt_frame (d : Dev) (a n : Nat) : d.cnt a n = { d with regs := (d.cnt a n).regs } := by
  unfold Dev.cnt
  split
  · rfl
  · rfl

@[simp] theorem Dev.reg_cnt_same (d : Dev) (a n : Nat) (h : d.reg a < 2 ^ 32) : (d.cnt a n).reg a = satAdd 32 (d.reg a) n := by
  unfold Dev.cnt
  split
  next h0 => subst h0; simp only [satAdd]; omega
  next => rw [Dev.reg_setReg_same]; simp only [satAdd]; omega

theorem Dev.reg_cnt_ne (d : Dev) {a b : Nat} (n : Nat) (h : b ≠ a) : (d.cnt a n).reg b = d.reg b := by
  unfold Dev.cnt
  split
  · rfl
  · exact Dev.reg_setReg_ne d _ h

/-- A register is read from the map of registers alone. -/
theorem Dev.reg_congr {d e : Dev} (h : d.regs = e.regs) (a : Nat) : d.reg a = e.reg a := by
  unfold Dev.reg
  rw [h]

/-- A fault raised changes no register. -/
@[simp] theorem Dev.reg_raise (d : Dev) (c s k u x a : Nat) : (d.raise c s k u x).reg a = d.reg a := rfl
@[simp] theorem Dev.reg_raiseFor (d : Dev) (n c s k u x a : Nat) : (d.raiseFor n c s k u x).reg a = d.reg a := rfl
@[simp] theorem Dev.raise_raised (d : Dev) (c s k u x : Nat) : (d.raise c s k u x).raised
    = d.raised ++ [{ cls := c, src := s, code := k, unit := u, detail := x % 2 ^ 64 }] := rfl
@[simp] theorem Dev.raiseFor_raised (d : Dev) (n c s k u x : Nat) : (d.raiseFor n c s k u x).raised
    = d.raised ++ [{ cls := c, src := s, code := k, unit := u, loop := n, safety := d.loopSafety n,
                     detail := x % 2 ^ 64 }] := rfl

/-- Changing the state of one tile, loop or list changes no register. -/
@[simp] theorem Dev.reg_modTile (d : Dev) (t a : Nat) (f : TileSt → TileSt) : (d.modTile t f).reg a = d.reg a := rfl
@[simp] theorem Dev.reg_modLoop (d : Dev) (n a : Nat) (f : LoopSt → LoopSt) : (d.modLoop n f).reg a = d.reg a := rfl
theorem Dev.modList_frame (d : Dev) (k : Nat) (f : ListSt → ListSt) : d.modList k f = { d with lists := (d.modList k f).lists } := by
  unfold Dev.modList
  split <;> rfl
@[simp] theorem Dev.reg_modList (d : Dev) (k a : Nat) (f : ListSt → ListSt) : (d.modList k f).reg a = d.reg a := by
  rw [Dev.modList_frame]
  rfl

/-! ### The parts of the state -/

@[simp] theorem Dev.tile_setTile_same (d : Dev) (t : Nat) (x : TileSt) : (d.setTile t x).tile t = x := by
  simp [Dev.tile, Dev.setTile]
theorem Dev.tile_setTile_ne (d : Dev) {t u : Nat} (x : TileSt) (h : u ≠ t) : (d.setTile t x).tile u = d.tile u := by
  simp [Dev.tile, Dev.setTile, AMap.getD_set_ne _ _ _ h]
@[simp] theorem Dev.loop_setLoop_same (d : Dev) (n : Nat) (x : LoopSt) : (d.setLoop n x).loop n = x := by
  simp [Dev.loop, Dev.setLoop]
theorem Dev.loop_setLoop_ne (d : Dev) {n k : Nat} (x : LoopSt) (h : k ≠ n) : (d.setLoop n x).loop k = d.loop k := by
  simp [Dev.loop, Dev.setLoop, AMap.getD_set_ne _ _ _ h]
@[simp] theorem Dev.list_setList_same (d : Dev) (k : Nat) (x : ListSt) : (d.setList k x).list k = some x := by
  simp [Dev.list, Dev.setList]
theorem Dev.list_setList_ne (d : Dev) {k j : Nat} (x : ListSt) (h : j ≠ k) : (d.setList k x).list j = d.list j := by
  simp [Dev.list, Dev.setList, AMap.find_set_ne _ _ h]
@[simp] theorem Dev.arb_setArb_same (d : Dev) (a : Nat) (x : ArbSt) : (d.setArb a x).arb a = x := by
  simp [Dev.arb, Dev.setArb]
theorem Dev.arb_setArb_ne (d : Dev) {a b : Nat} (x : ArbSt) (h : b ≠ a) : (d.setArb a x).arb b = d.arb b := by
  simp [Dev.arb, Dev.setArb, AMap.getD_set_ne _ _ _ h]
@[simp] theorem Dev.resOf_setRes_same (d : Dev) (r : Nat) (x : ResSt) : (d.setRes r x).resOf r = x := by
  simp [Dev.resOf, Dev.setRes]
theorem Dev.resOf_setRes_ne (d : Dev) {r q : Nat} (x : ResSt) (h : q ≠ r) : (d.setRes r x).resOf q = d.resOf q := by
  simp [Dev.resOf, Dev.setRes, AMap.getD_set_ne _ _ _ h]

/-! ### One lemma per field per update -/

@[simp] theorem Dev.setReg_free (d : Dev) (a v : Nat) : (d.setReg a v).free = d.free := rfl
@[simp] theorem Dev.setReg_eff (d : Dev) (a v : Nat) : (d.setReg a v).eff = d.eff := rfl
@[simp] theorem Dev.setReg_held (d : Dev) (a v : Nat) : (d.setReg a v).held = d.held := rfl
@[simp] theorem Dev.setReg_latch (d : Dev) (a v : Nat) : (d.setReg a v).latch = d.latch := rfl
@[simp] theorem Dev.setReg_readData (d : Dev) (a v : Nat) : (d.setReg a v).readData = d.readData := rfl
@[simp] theorem Dev.setReg_readFlag (d : Dev) (a v : Nat) : (d.setReg a v).readFlag = d.readFlag := rfl
@[simp] theorem Dev.setReg_ue (d : Dev) (a v : Nat) : (d.setReg a v).ue = d.ue := rfl
@[simp] theorem Dev.setReg_ce (d : Dev) (a v : Nat) : (d.setReg a v).ce = d.ce := rfl
@[simp] theorem Dev.setReg_wb (d : Dev) (a v : Nat) : (d.setReg a v).wb = d.wb := rfl
@[simp] theorem Dev.setReg_off (d : Dev) (a v : Nat) : (d.setReg a v).off = d.off := rfl
@[simp] theorem Dev.setReg_raised (d : Dev) (a v : Nat) : (d.setReg a v).raised = d.raised := rfl
@[simp] theorem Dev.setReg_tb (d : Dev) (a v : Nat) : (d.setReg a v).tb = d.tb := rfl
@[simp] theorem Dev.setReg_tiles (d : Dev) (a v : Nat) : (d.setReg a v).tiles = d.tiles := rfl
@[simp] theorem Dev.setReg_lists (d : Dev) (a v : Nat) : (d.setReg a v).lists = d.lists := rfl
@[simp] theorem Dev.setReg_transit (d : Dev) (a v : Nat) : (d.setReg a v).transit = d.transit := rfl
@[simp] theorem Dev.setReg_sentRows (d : Dev) (a v : Nat) : (d.setReg a v).sentRows = d.sentRows := rfl
@[simp] theorem Dev.setReg_credits (d : Dev) (a v : Nat) : (d.setReg a v).credits = d.credits := rfl
@[simp] theorem Dev.setReg_routes (d : Dev) (a v : Nat) : (d.setReg a v).routes = d.routes := rfl
@[simp] theorem Dev.setReg_loops (d : Dev) (a v : Nat) : (d.setReg a v).loops = d.loops := rfl
@[simp] theorem Dev.setReg_res (d : Dev) (a v : Nat) : (d.setReg a v).res = d.res := rfl
@[simp] theorem Dev.setReg_arbs (d : Dev) (a v : Nat) : (d.setReg a v).arbs = d.arbs := rfl
@[simp] theorem Dev.setReg_tarn (d : Dev) (a v : Nat) : (d.setReg a v).tarn = d.tarn := rfl
@[simp] theorem Dev.setReg_sdio (d : Dev) (a v : Nat) : (d.setReg a v).sdio = d.sdio := rfl
@[simp] theorem Dev.setReg_outq (d : Dev) (a v : Nat) : (d.setReg a v).outq = d.outq := rfl
@[simp] theorem Dev.setReg_flash (d : Dev) (a v : Nat) : (d.setReg a v).flash = d.flash := rfl
@[simp] theorem Dev.setReg_cv (d : Dev) (a v : Nat) : (d.setReg a v).cv = d.cv := rfl
@[simp] theorem Dev.setReg_streams (d : Dev) (a v : Nat) : (d.setReg a v).streams = d.streams := rfl
@[simp] theorem Dev.setReg_cache (d : Dev) (a v : Nat) : (d.setReg a v).cache = d.cache := rfl
@[simp] theorem Dev.setReg_col (d : Dev) (a v : Nat) : (d.setReg a v).col = d.col := rfl
@[simp] theorem Dev.setReg_cairn (d : Dev) (a v : Nat) : (d.setReg a v).cairn = d.cairn := rfl
@[simp] theorem Dev.setReg_harts (d : Dev) (a v : Nat) : (d.setReg a v).harts = d.harts := rfl
@[simp] theorem Dev.setReg_triggers (d : Dev) (a v : Nat) : (d.setReg a v).triggers = d.triggers := rfl
@[simp] theorem Dev.setReg_boot (d : Dev) (a v : Nat) : (d.setReg a v).boot = d.boot := rfl
@[simp] theorem Dev.setReg_paces (d : Dev) (a v : Nat) : (d.setReg a v).paces = d.paces := rfl
@[simp] theorem Dev.setReg_pwr (d : Dev) (a v : Nat) : (d.setReg a v).pwr = d.pwr := rfl
@[simp] theorem Dev.setReg_posts (d : Dev) (a v : Nat) : (d.setReg a v).posts = d.posts := rfl
@[simp] theorem Dev.setReg_sync (d : Dev) (a v : Nat) : (d.setReg a v).sync = d.sync := rfl
@[simp] theorem Dev.setReg_macs (d : Dev) (a v : Nat) : (d.setReg a v).macs = d.macs := rfl
@[simp] theorem Dev.setReg_cans (d : Dev) (a v : Nat) : (d.setReg a v).cans = d.cans := rfl
@[simp] theorem Dev.setReg_eng (d : Dev) (a v : Nat) : (d.setReg a v).eng = d.eng := rfl
@[simp] theorem Dev.setReg_saf (d : Dev) (a v : Nat) : (d.setReg a v).saf = d.saf := rfl

@[simp] theorem Dev.wf_free (d : Dev) (a : Nat) (f : Fd) (v : Nat) : (d.wf a f v).free = d.free := rfl
@[simp] theorem Dev.wf_eff (d : Dev) (a : Nat) (f : Fd) (v : Nat) : (d.wf a f v).eff = d.eff := rfl
@[simp] theorem Dev.wf_held (d : Dev) (a : Nat) (f : Fd) (v : Nat) : (d.wf a f v).held = d.held := rfl
@[simp] theorem Dev.wf_latch (d : Dev) (a : Nat) (f : Fd) (v : Nat) : (d.wf a f v).latch = d.latch := rfl
@[simp] theorem Dev.wf_readData (d : Dev) (a : Nat) (f : Fd) (v : Nat) : (d.wf a f v).readData = d.readData := rfl
@[simp] theorem Dev.wf_readFlag (d : Dev) (a : Nat) (f : Fd) (v : Nat) : (d.wf a f v).readFlag = d.readFlag := rfl
@[simp] theorem Dev.wf_ue (d : Dev) (a : Nat) (f : Fd) (v : Nat) : (d.wf a f v).ue = d.ue := rfl
@[simp] theorem Dev.wf_ce (d : Dev) (a : Nat) (f : Fd) (v : Nat) : (d.wf a f v).ce = d.ce := rfl
@[simp] theorem Dev.wf_wb (d : Dev) (a : Nat) (f : Fd) (v : Nat) : (d.wf a f v).wb = d.wb := rfl
@[simp] theorem Dev.wf_off (d : Dev) (a : Nat) (f : Fd) (v : Nat) : (d.wf a f v).off = d.off := rfl
@[simp] theorem Dev.wf_raised (d : Dev) (a : Nat) (f : Fd) (v : Nat) : (d.wf a f v).raised = d.raised := rfl
@[simp] theorem Dev.wf_tb (d : Dev) (a : Nat) (f : Fd) (v : Nat) : (d.wf a f v).tb = d.tb := rfl
@[simp] theorem Dev.wf_tiles (d : Dev) (a : Nat) (f : Fd) (v : Nat) : (d.wf a f v).tiles = d.tiles := rfl
@[simp] theorem Dev.wf_lists (d : Dev) (a : Nat) (f : Fd) (v : Nat) : (d.wf a f v).lists = d.lists := rfl
@[simp] theorem Dev.wf_transit (d : Dev) (a : Nat) (f : Fd) (v : Nat) : (d.wf a f v).transit = d.transit := rfl
@[simp] theorem Dev.wf_sentRows (d : Dev) (a : Nat) (f : Fd) (v : Nat) : (d.wf a f v).sentRows = d.sentRows := rfl
@[simp] theorem Dev.wf_credits (d : Dev) (a : Nat) (f : Fd) (v : Nat) : (d.wf a f v).credits = d.credits := rfl
@[simp] theorem Dev.wf_routes (d : Dev) (a : Nat) (f : Fd) (v : Nat) : (d.wf a f v).routes = d.routes := rfl
@[simp] theorem Dev.wf_loops (d : Dev) (a : Nat) (f : Fd) (v : Nat) : (d.wf a f v).loops = d.loops := rfl
@[simp] theorem Dev.wf_res (d : Dev) (a : Nat) (f : Fd) (v : Nat) : (d.wf a f v).res = d.res := rfl
@[simp] theorem Dev.wf_arbs (d : Dev) (a : Nat) (f : Fd) (v : Nat) : (d.wf a f v).arbs = d.arbs := rfl
@[simp] theorem Dev.wf_tarn (d : Dev) (a : Nat) (f : Fd) (v : Nat) : (d.wf a f v).tarn = d.tarn := rfl
@[simp] theorem Dev.wf_sdio (d : Dev) (a : Nat) (f : Fd) (v : Nat) : (d.wf a f v).sdio = d.sdio := rfl
@[simp] theorem Dev.wf_outq (d : Dev) (a : Nat) (f : Fd) (v : Nat) : (d.wf a f v).outq = d.outq := rfl
@[simp] theorem Dev.wf_flash (d : Dev) (a : Nat) (f : Fd) (v : Nat) : (d.wf a f v).flash = d.flash := rfl
@[simp] theorem Dev.wf_cv (d : Dev) (a : Nat) (f : Fd) (v : Nat) : (d.wf a f v).cv = d.cv := rfl
@[simp] theorem Dev.wf_streams (d : Dev) (a : Nat) (f : Fd) (v : Nat) : (d.wf a f v).streams = d.streams := rfl
@[simp] theorem Dev.wf_cache (d : Dev) (a : Nat) (f : Fd) (v : Nat) : (d.wf a f v).cache = d.cache := rfl
@[simp] theorem Dev.wf_col (d : Dev) (a : Nat) (f : Fd) (v : Nat) : (d.wf a f v).col = d.col := rfl
@[simp] theorem Dev.wf_cairn (d : Dev) (a : Nat) (f : Fd) (v : Nat) : (d.wf a f v).cairn = d.cairn := rfl
@[simp] theorem Dev.wf_harts (d : Dev) (a : Nat) (f : Fd) (v : Nat) : (d.wf a f v).harts = d.harts := rfl
@[simp] theorem Dev.wf_triggers (d : Dev) (a : Nat) (f : Fd) (v : Nat) : (d.wf a f v).triggers = d.triggers := rfl
@[simp] theorem Dev.wf_boot (d : Dev) (a : Nat) (f : Fd) (v : Nat) : (d.wf a f v).boot = d.boot := rfl
@[simp] theorem Dev.wf_paces (d : Dev) (a : Nat) (f : Fd) (v : Nat) : (d.wf a f v).paces = d.paces := rfl
@[simp] theorem Dev.wf_pwr (d : Dev) (a : Nat) (f : Fd) (v : Nat) : (d.wf a f v).pwr = d.pwr := rfl
@[simp] theorem Dev.wf_posts (d : Dev) (a : Nat) (f : Fd) (v : Nat) : (d.wf a f v).posts = d.posts := rfl
@[simp] theorem Dev.wf_sync (d : Dev) (a : Nat) (f : Fd) (v : Nat) : (d.wf a f v).sync = d.sync := rfl
@[simp] theorem Dev.wf_macs (d : Dev) (a : Nat) (f : Fd) (v : Nat) : (d.wf a f v).macs = d.macs := rfl
@[simp] theorem Dev.wf_cans (d : Dev) (a : Nat) (f : Fd) (v : Nat) : (d.wf a f v).cans = d.cans := rfl
@[simp] theorem Dev.wf_eng (d : Dev) (a : Nat) (f : Fd) (v : Nat) : (d.wf a f v).eng = d.eng := rfl
@[simp] theorem Dev.wf_saf (d : Dev) (a : Nat) (f : Fd) (v : Nat) : (d.wf a f v).saf = d.saf := rfl

@[simp] theorem Dev.inc_free (d : Dev) (a : Nat) (f : Fd) (n : Nat) : (d.inc a f n).free = d.free := rfl
@[simp] theorem Dev.inc_eff (d : Dev) (a : Nat) (f : Fd) (n : Nat) : (d.inc a f n).eff = d.eff := rfl
@[simp] theorem Dev.inc_held (d : Dev) (a : Nat) (f : Fd) (n : Nat) : (d.inc a f n).held = d.held := rfl
@[simp] theorem Dev.inc_latch (d : Dev) (a : Nat) (f : Fd) (n : Nat) : (d.inc a f n).latch = d.latch := rfl
@[simp] theorem Dev.inc_readData (d : Dev) (a : Nat) (f : Fd) (n : Nat) : (d.inc a f n).readData = d.readData := rfl
@[simp] theorem Dev.inc_readFlag (d : Dev) (a : Nat) (f : Fd) (n : Nat) : (d.inc a f n).readFlag = d.readFlag := rfl
@[simp] theorem Dev.inc_ue (d : Dev) (a : Nat) (f : Fd) (n : Nat) : (d.inc a f n).ue = d.ue := rfl
@[simp] theorem Dev.inc_ce (d : Dev) (a : Nat) (f : Fd) (n : Nat) : (d.inc a f n).ce = d.ce := rfl
@[simp] theorem Dev.inc_wb (d : Dev) (a : Nat) (f : Fd) (n : Nat) : (d.inc a f n).wb = d.wb := rfl
@[simp] theorem Dev.inc_off (d : Dev) (a : Nat) (f : Fd) (n : Nat) : (d.inc a f n).off = d.off := rfl
@[simp] theorem Dev.inc_raised (d : Dev) (a : Nat) (f : Fd) (n : Nat) : (d.inc a f n).raised = d.raised := rfl
@[simp] theorem Dev.inc_tb (d : Dev) (a : Nat) (f : Fd) (n : Nat) : (d.inc a f n).tb = d.tb := rfl
@[simp] theorem Dev.inc_tiles (d : Dev) (a : Nat) (f : Fd) (n : Nat) : (d.inc a f n).tiles = d.tiles := rfl
@[simp] theorem Dev.inc_lists (d : Dev) (a : Nat) (f : Fd) (n : Nat) : (d.inc a f n).lists = d.lists := rfl
@[simp] theorem Dev.inc_transit (d : Dev) (a : Nat) (f : Fd) (n : Nat) : (d.inc a f n).transit = d.transit := rfl
@[simp] theorem Dev.inc_sentRows (d : Dev) (a : Nat) (f : Fd) (n : Nat) : (d.inc a f n).sentRows = d.sentRows := rfl
@[simp] theorem Dev.inc_credits (d : Dev) (a : Nat) (f : Fd) (n : Nat) : (d.inc a f n).credits = d.credits := rfl
@[simp] theorem Dev.inc_routes (d : Dev) (a : Nat) (f : Fd) (n : Nat) : (d.inc a f n).routes = d.routes := rfl
@[simp] theorem Dev.inc_loops (d : Dev) (a : Nat) (f : Fd) (n : Nat) : (d.inc a f n).loops = d.loops := rfl
@[simp] theorem Dev.inc_res (d : Dev) (a : Nat) (f : Fd) (n : Nat) : (d.inc a f n).res = d.res := rfl
@[simp] theorem Dev.inc_arbs (d : Dev) (a : Nat) (f : Fd) (n : Nat) : (d.inc a f n).arbs = d.arbs := rfl
@[simp] theorem Dev.inc_tarn (d : Dev) (a : Nat) (f : Fd) (n : Nat) : (d.inc a f n).tarn = d.tarn := rfl
@[simp] theorem Dev.inc_sdio (d : Dev) (a : Nat) (f : Fd) (n : Nat) : (d.inc a f n).sdio = d.sdio := rfl
@[simp] theorem Dev.inc_outq (d : Dev) (a : Nat) (f : Fd) (n : Nat) : (d.inc a f n).outq = d.outq := rfl
@[simp] theorem Dev.inc_flash (d : Dev) (a : Nat) (f : Fd) (n : Nat) : (d.inc a f n).flash = d.flash := rfl
@[simp] theorem Dev.inc_cv (d : Dev) (a : Nat) (f : Fd) (n : Nat) : (d.inc a f n).cv = d.cv := rfl
@[simp] theorem Dev.inc_streams (d : Dev) (a : Nat) (f : Fd) (n : Nat) : (d.inc a f n).streams = d.streams := rfl
@[simp] theorem Dev.inc_cache (d : Dev) (a : Nat) (f : Fd) (n : Nat) : (d.inc a f n).cache = d.cache := rfl
@[simp] theorem Dev.inc_col (d : Dev) (a : Nat) (f : Fd) (n : Nat) : (d.inc a f n).col = d.col := rfl
@[simp] theorem Dev.inc_cairn (d : Dev) (a : Nat) (f : Fd) (n : Nat) : (d.inc a f n).cairn = d.cairn := rfl
@[simp] theorem Dev.inc_harts (d : Dev) (a : Nat) (f : Fd) (n : Nat) : (d.inc a f n).harts = d.harts := rfl
@[simp] theorem Dev.inc_triggers (d : Dev) (a : Nat) (f : Fd) (n : Nat) : (d.inc a f n).triggers = d.triggers := rfl
@[simp] theorem Dev.inc_boot (d : Dev) (a : Nat) (f : Fd) (n : Nat) : (d.inc a f n).boot = d.boot := rfl
@[simp] theorem Dev.inc_paces (d : Dev) (a : Nat) (f : Fd) (n : Nat) : (d.inc a f n).paces = d.paces := rfl
@[simp] theorem Dev.inc_pwr (d : Dev) (a : Nat) (f : Fd) (n : Nat) : (d.inc a f n).pwr = d.pwr := rfl
@[simp] theorem Dev.inc_posts (d : Dev) (a : Nat) (f : Fd) (n : Nat) : (d.inc a f n).posts = d.posts := rfl
@[simp] theorem Dev.inc_sync (d : Dev) (a : Nat) (f : Fd) (n : Nat) : (d.inc a f n).sync = d.sync := rfl
@[simp] theorem Dev.inc_macs (d : Dev) (a : Nat) (f : Fd) (n : Nat) : (d.inc a f n).macs = d.macs := rfl
@[simp] theorem Dev.inc_cans (d : Dev) (a : Nat) (f : Fd) (n : Nat) : (d.inc a f n).cans = d.cans := rfl
@[simp] theorem Dev.inc_eng (d : Dev) (a : Nat) (f : Fd) (n : Nat) : (d.inc a f n).eng = d.eng := rfl
@[simp] theorem Dev.inc_saf (d : Dev) (a : Nat) (f : Fd) (n : Nat) : (d.inc a f n).saf = d.saf := rfl

@[simp] theorem Dev.setReg64_free (d : Dev) (a v : Nat) : (d.setReg64 a v).free = d.free := rfl
@[simp] theorem Dev.setReg64_eff (d : Dev) (a v : Nat) : (d.setReg64 a v).eff = d.eff := rfl
@[simp] theorem Dev.setReg64_held (d : Dev) (a v : Nat) : (d.setReg64 a v).held = d.held := rfl
@[simp] theorem Dev.setReg64_latch (d : Dev) (a v : Nat) : (d.setReg64 a v).latch = d.latch := rfl
@[simp] theorem Dev.setReg64_readData (d : Dev) (a v : Nat) : (d.setReg64 a v).readData = d.readData := rfl
@[simp] theorem Dev.setReg64_readFlag (d : Dev) (a v : Nat) : (d.setReg64 a v).readFlag = d.readFlag := rfl
@[simp] theorem Dev.setReg64_ue (d : Dev) (a v : Nat) : (d.setReg64 a v).ue = d.ue := rfl
@[simp] theorem Dev.setReg64_ce (d : Dev) (a v : Nat) : (d.setReg64 a v).ce = d.ce := rfl
@[simp] theorem Dev.setReg64_wb (d : Dev) (a v : Nat) : (d.setReg64 a v).wb = d.wb := rfl
@[simp] theorem Dev.setReg64_off (d : Dev) (a v : Nat) : (d.setReg64 a v).off = d.off := rfl
@[simp] theorem Dev.setReg64_raised (d : Dev) (a v : Nat) : (d.setReg64 a v).raised = d.raised := rfl
@[simp] theorem Dev.setReg64_tb (d : Dev) (a v : Nat) : (d.setReg64 a v).tb = d.tb := rfl
@[simp] theorem Dev.setReg64_tiles (d : Dev) (a v : Nat) : (d.setReg64 a v).tiles = d.tiles := rfl
@[simp] theorem Dev.setReg64_lists (d : Dev) (a v : Nat) : (d.setReg64 a v).lists = d.lists := rfl
@[simp] theorem Dev.setReg64_transit (d : Dev) (a v : Nat) : (d.setReg64 a v).transit = d.transit := rfl
@[simp] theorem Dev.setReg64_sentRows (d : Dev) (a v : Nat) : (d.setReg64 a v).sentRows = d.sentRows := rfl
@[simp] theorem Dev.setReg64_credits (d : Dev) (a v : Nat) : (d.setReg64 a v).credits = d.credits := rfl
@[simp] theorem Dev.setReg64_routes (d : Dev) (a v : Nat) : (d.setReg64 a v).routes = d.routes := rfl
@[simp] theorem Dev.setReg64_loops (d : Dev) (a v : Nat) : (d.setReg64 a v).loops = d.loops := rfl
@[simp] theorem Dev.setReg64_res (d : Dev) (a v : Nat) : (d.setReg64 a v).res = d.res := rfl
@[simp] theorem Dev.setReg64_arbs (d : Dev) (a v : Nat) : (d.setReg64 a v).arbs = d.arbs := rfl
@[simp] theorem Dev.setReg64_tarn (d : Dev) (a v : Nat) : (d.setReg64 a v).tarn = d.tarn := rfl
@[simp] theorem Dev.setReg64_sdio (d : Dev) (a v : Nat) : (d.setReg64 a v).sdio = d.sdio := rfl
@[simp] theorem Dev.setReg64_outq (d : Dev) (a v : Nat) : (d.setReg64 a v).outq = d.outq := rfl
@[simp] theorem Dev.setReg64_flash (d : Dev) (a v : Nat) : (d.setReg64 a v).flash = d.flash := rfl
@[simp] theorem Dev.setReg64_cv (d : Dev) (a v : Nat) : (d.setReg64 a v).cv = d.cv := rfl
@[simp] theorem Dev.setReg64_streams (d : Dev) (a v : Nat) : (d.setReg64 a v).streams = d.streams := rfl
@[simp] theorem Dev.setReg64_cache (d : Dev) (a v : Nat) : (d.setReg64 a v).cache = d.cache := rfl
@[simp] theorem Dev.setReg64_col (d : Dev) (a v : Nat) : (d.setReg64 a v).col = d.col := rfl
@[simp] theorem Dev.setReg64_cairn (d : Dev) (a v : Nat) : (d.setReg64 a v).cairn = d.cairn := rfl
@[simp] theorem Dev.setReg64_harts (d : Dev) (a v : Nat) : (d.setReg64 a v).harts = d.harts := rfl
@[simp] theorem Dev.setReg64_triggers (d : Dev) (a v : Nat) : (d.setReg64 a v).triggers = d.triggers := rfl
@[simp] theorem Dev.setReg64_boot (d : Dev) (a v : Nat) : (d.setReg64 a v).boot = d.boot := rfl
@[simp] theorem Dev.setReg64_paces (d : Dev) (a v : Nat) : (d.setReg64 a v).paces = d.paces := rfl
@[simp] theorem Dev.setReg64_pwr (d : Dev) (a v : Nat) : (d.setReg64 a v).pwr = d.pwr := rfl
@[simp] theorem Dev.setReg64_posts (d : Dev) (a v : Nat) : (d.setReg64 a v).posts = d.posts := rfl
@[simp] theorem Dev.setReg64_sync (d : Dev) (a v : Nat) : (d.setReg64 a v).sync = d.sync := rfl
@[simp] theorem Dev.setReg64_macs (d : Dev) (a v : Nat) : (d.setReg64 a v).macs = d.macs := rfl
@[simp] theorem Dev.setReg64_cans (d : Dev) (a v : Nat) : (d.setReg64 a v).cans = d.cans := rfl
@[simp] theorem Dev.setReg64_eng (d : Dev) (a v : Nat) : (d.setReg64 a v).eng = d.eng := rfl
@[simp] theorem Dev.setReg64_saf (d : Dev) (a v : Nat) : (d.setReg64 a v).saf = d.saf := rfl

@[simp] theorem Dev.setTile_free (d : Dev) (t : Nat) (x : TileSt) : (d.setTile t x).free = d.free := rfl
@[simp] theorem Dev.setTile_regs (d : Dev) (t : Nat) (x : TileSt) : (d.setTile t x).regs = d.regs := rfl
@[simp] theorem Dev.setTile_eff (d : Dev) (t : Nat) (x : TileSt) : (d.setTile t x).eff = d.eff := rfl
@[simp] theorem Dev.setTile_held (d : Dev) (t : Nat) (x : TileSt) : (d.setTile t x).held = d.held := rfl
@[simp] theorem Dev.setTile_latch (d : Dev) (t : Nat) (x : TileSt) : (d.setTile t x).latch = d.latch := rfl
@[simp] theorem Dev.setTile_readData (d : Dev) (t : Nat) (x : TileSt) : (d.setTile t x).readData = d.readData := rfl
@[simp] theorem Dev.setTile_readFlag (d : Dev) (t : Nat) (x : TileSt) : (d.setTile t x).readFlag = d.readFlag := rfl
@[simp] theorem Dev.setTile_ue (d : Dev) (t : Nat) (x : TileSt) : (d.setTile t x).ue = d.ue := rfl
@[simp] theorem Dev.setTile_ce (d : Dev) (t : Nat) (x : TileSt) : (d.setTile t x).ce = d.ce := rfl
@[simp] theorem Dev.setTile_wb (d : Dev) (t : Nat) (x : TileSt) : (d.setTile t x).wb = d.wb := rfl
@[simp] theorem Dev.setTile_off (d : Dev) (t : Nat) (x : TileSt) : (d.setTile t x).off = d.off := rfl
@[simp] theorem Dev.setTile_raised (d : Dev) (t : Nat) (x : TileSt) : (d.setTile t x).raised = d.raised := rfl
@[simp] theorem Dev.setTile_tb (d : Dev) (t : Nat) (x : TileSt) : (d.setTile t x).tb = d.tb := rfl
@[simp] theorem Dev.setTile_lists (d : Dev) (t : Nat) (x : TileSt) : (d.setTile t x).lists = d.lists := rfl
@[simp] theorem Dev.setTile_transit (d : Dev) (t : Nat) (x : TileSt) : (d.setTile t x).transit = d.transit := rfl
@[simp] theorem Dev.setTile_sentRows (d : Dev) (t : Nat) (x : TileSt) : (d.setTile t x).sentRows = d.sentRows := rfl
@[simp] theorem Dev.setTile_credits (d : Dev) (t : Nat) (x : TileSt) : (d.setTile t x).credits = d.credits := rfl
@[simp] theorem Dev.setTile_routes (d : Dev) (t : Nat) (x : TileSt) : (d.setTile t x).routes = d.routes := rfl
@[simp] theorem Dev.setTile_loops (d : Dev) (t : Nat) (x : TileSt) : (d.setTile t x).loops = d.loops := rfl
@[simp] theorem Dev.setTile_res (d : Dev) (t : Nat) (x : TileSt) : (d.setTile t x).res = d.res := rfl
@[simp] theorem Dev.setTile_arbs (d : Dev) (t : Nat) (x : TileSt) : (d.setTile t x).arbs = d.arbs := rfl
@[simp] theorem Dev.setTile_tarn (d : Dev) (t : Nat) (x : TileSt) : (d.setTile t x).tarn = d.tarn := rfl
@[simp] theorem Dev.setTile_sdio (d : Dev) (t : Nat) (x : TileSt) : (d.setTile t x).sdio = d.sdio := rfl
@[simp] theorem Dev.setTile_outq (d : Dev) (t : Nat) (x : TileSt) : (d.setTile t x).outq = d.outq := rfl
@[simp] theorem Dev.setTile_flash (d : Dev) (t : Nat) (x : TileSt) : (d.setTile t x).flash = d.flash := rfl
@[simp] theorem Dev.setTile_cv (d : Dev) (t : Nat) (x : TileSt) : (d.setTile t x).cv = d.cv := rfl
@[simp] theorem Dev.setTile_streams (d : Dev) (t : Nat) (x : TileSt) : (d.setTile t x).streams = d.streams := rfl
@[simp] theorem Dev.setTile_cache (d : Dev) (t : Nat) (x : TileSt) : (d.setTile t x).cache = d.cache := rfl
@[simp] theorem Dev.setTile_col (d : Dev) (t : Nat) (x : TileSt) : (d.setTile t x).col = d.col := rfl
@[simp] theorem Dev.setTile_cairn (d : Dev) (t : Nat) (x : TileSt) : (d.setTile t x).cairn = d.cairn := rfl
@[simp] theorem Dev.setTile_harts (d : Dev) (t : Nat) (x : TileSt) : (d.setTile t x).harts = d.harts := rfl
@[simp] theorem Dev.setTile_triggers (d : Dev) (t : Nat) (x : TileSt) : (d.setTile t x).triggers = d.triggers := rfl
@[simp] theorem Dev.setTile_boot (d : Dev) (t : Nat) (x : TileSt) : (d.setTile t x).boot = d.boot := rfl
@[simp] theorem Dev.setTile_paces (d : Dev) (t : Nat) (x : TileSt) : (d.setTile t x).paces = d.paces := rfl
@[simp] theorem Dev.setTile_pwr (d : Dev) (t : Nat) (x : TileSt) : (d.setTile t x).pwr = d.pwr := rfl
@[simp] theorem Dev.setTile_posts (d : Dev) (t : Nat) (x : TileSt) : (d.setTile t x).posts = d.posts := rfl
@[simp] theorem Dev.setTile_sync (d : Dev) (t : Nat) (x : TileSt) : (d.setTile t x).sync = d.sync := rfl
@[simp] theorem Dev.setTile_macs (d : Dev) (t : Nat) (x : TileSt) : (d.setTile t x).macs = d.macs := rfl
@[simp] theorem Dev.setTile_cans (d : Dev) (t : Nat) (x : TileSt) : (d.setTile t x).cans = d.cans := rfl
@[simp] theorem Dev.setTile_eng (d : Dev) (t : Nat) (x : TileSt) : (d.setTile t x).eng = d.eng := rfl
@[simp] theorem Dev.setTile_saf (d : Dev) (t : Nat) (x : TileSt) : (d.setTile t x).saf = d.saf := rfl

@[simp] theorem Dev.setLoop_free (d : Dev) (n : Nat) (x : LoopSt) : (d.setLoop n x).free = d.free := rfl
@[simp] theorem Dev.setLoop_regs (d : Dev) (n : Nat) (x : LoopSt) : (d.setLoop n x).regs = d.regs := rfl
@[simp] theorem Dev.setLoop_eff (d : Dev) (n : Nat) (x : LoopSt) : (d.setLoop n x).eff = d.eff := rfl
@[simp] theorem Dev.setLoop_held (d : Dev) (n : Nat) (x : LoopSt) : (d.setLoop n x).held = d.held := rfl
@[simp] theorem Dev.setLoop_latch (d : Dev) (n : Nat) (x : LoopSt) : (d.setLoop n x).latch = d.latch := rfl
@[simp] theorem Dev.setLoop_readData (d : Dev) (n : Nat) (x : LoopSt) : (d.setLoop n x).readData = d.readData := rfl
@[simp] theorem Dev.setLoop_readFlag (d : Dev) (n : Nat) (x : LoopSt) : (d.setLoop n x).readFlag = d.readFlag := rfl
@[simp] theorem Dev.setLoop_ue (d : Dev) (n : Nat) (x : LoopSt) : (d.setLoop n x).ue = d.ue := rfl
@[simp] theorem Dev.setLoop_ce (d : Dev) (n : Nat) (x : LoopSt) : (d.setLoop n x).ce = d.ce := rfl
@[simp] theorem Dev.setLoop_wb (d : Dev) (n : Nat) (x : LoopSt) : (d.setLoop n x).wb = d.wb := rfl
@[simp] theorem Dev.setLoop_off (d : Dev) (n : Nat) (x : LoopSt) : (d.setLoop n x).off = d.off := rfl
@[simp] theorem Dev.setLoop_raised (d : Dev) (n : Nat) (x : LoopSt) : (d.setLoop n x).raised = d.raised := rfl
@[simp] theorem Dev.setLoop_tb (d : Dev) (n : Nat) (x : LoopSt) : (d.setLoop n x).tb = d.tb := rfl
@[simp] theorem Dev.setLoop_tiles (d : Dev) (n : Nat) (x : LoopSt) : (d.setLoop n x).tiles = d.tiles := rfl
@[simp] theorem Dev.setLoop_lists (d : Dev) (n : Nat) (x : LoopSt) : (d.setLoop n x).lists = d.lists := rfl
@[simp] theorem Dev.setLoop_transit (d : Dev) (n : Nat) (x : LoopSt) : (d.setLoop n x).transit = d.transit := rfl
@[simp] theorem Dev.setLoop_sentRows (d : Dev) (n : Nat) (x : LoopSt) : (d.setLoop n x).sentRows = d.sentRows := rfl
@[simp] theorem Dev.setLoop_credits (d : Dev) (n : Nat) (x : LoopSt) : (d.setLoop n x).credits = d.credits := rfl
@[simp] theorem Dev.setLoop_routes (d : Dev) (n : Nat) (x : LoopSt) : (d.setLoop n x).routes = d.routes := rfl
@[simp] theorem Dev.setLoop_res (d : Dev) (n : Nat) (x : LoopSt) : (d.setLoop n x).res = d.res := rfl
@[simp] theorem Dev.setLoop_arbs (d : Dev) (n : Nat) (x : LoopSt) : (d.setLoop n x).arbs = d.arbs := rfl
@[simp] theorem Dev.setLoop_tarn (d : Dev) (n : Nat) (x : LoopSt) : (d.setLoop n x).tarn = d.tarn := rfl
@[simp] theorem Dev.setLoop_sdio (d : Dev) (n : Nat) (x : LoopSt) : (d.setLoop n x).sdio = d.sdio := rfl
@[simp] theorem Dev.setLoop_outq (d : Dev) (n : Nat) (x : LoopSt) : (d.setLoop n x).outq = d.outq := rfl
@[simp] theorem Dev.setLoop_flash (d : Dev) (n : Nat) (x : LoopSt) : (d.setLoop n x).flash = d.flash := rfl
@[simp] theorem Dev.setLoop_cv (d : Dev) (n : Nat) (x : LoopSt) : (d.setLoop n x).cv = d.cv := rfl
@[simp] theorem Dev.setLoop_streams (d : Dev) (n : Nat) (x : LoopSt) : (d.setLoop n x).streams = d.streams := rfl
@[simp] theorem Dev.setLoop_cache (d : Dev) (n : Nat) (x : LoopSt) : (d.setLoop n x).cache = d.cache := rfl
@[simp] theorem Dev.setLoop_col (d : Dev) (n : Nat) (x : LoopSt) : (d.setLoop n x).col = d.col := rfl
@[simp] theorem Dev.setLoop_cairn (d : Dev) (n : Nat) (x : LoopSt) : (d.setLoop n x).cairn = d.cairn := rfl
@[simp] theorem Dev.setLoop_harts (d : Dev) (n : Nat) (x : LoopSt) : (d.setLoop n x).harts = d.harts := rfl
@[simp] theorem Dev.setLoop_triggers (d : Dev) (n : Nat) (x : LoopSt) : (d.setLoop n x).triggers = d.triggers := rfl
@[simp] theorem Dev.setLoop_boot (d : Dev) (n : Nat) (x : LoopSt) : (d.setLoop n x).boot = d.boot := rfl
@[simp] theorem Dev.setLoop_paces (d : Dev) (n : Nat) (x : LoopSt) : (d.setLoop n x).paces = d.paces := rfl
@[simp] theorem Dev.setLoop_pwr (d : Dev) (n : Nat) (x : LoopSt) : (d.setLoop n x).pwr = d.pwr := rfl
@[simp] theorem Dev.setLoop_posts (d : Dev) (n : Nat) (x : LoopSt) : (d.setLoop n x).posts = d.posts := rfl
@[simp] theorem Dev.setLoop_sync (d : Dev) (n : Nat) (x : LoopSt) : (d.setLoop n x).sync = d.sync := rfl
@[simp] theorem Dev.setLoop_macs (d : Dev) (n : Nat) (x : LoopSt) : (d.setLoop n x).macs = d.macs := rfl
@[simp] theorem Dev.setLoop_cans (d : Dev) (n : Nat) (x : LoopSt) : (d.setLoop n x).cans = d.cans := rfl
@[simp] theorem Dev.setLoop_eng (d : Dev) (n : Nat) (x : LoopSt) : (d.setLoop n x).eng = d.eng := rfl
@[simp] theorem Dev.setLoop_saf (d : Dev) (n : Nat) (x : LoopSt) : (d.setLoop n x).saf = d.saf := rfl

@[simp] theorem Dev.setList_free (d : Dev) (k : Nat) (x : ListSt) : (d.setList k x).free = d.free := rfl
@[simp] theorem Dev.setList_regs (d : Dev) (k : Nat) (x : ListSt) : (d.setList k x).regs = d.regs := rfl
@[simp] theorem Dev.setList_eff (d : Dev) (k : Nat) (x : ListSt) : (d.setList k x).eff = d.eff := rfl
@[simp] theorem Dev.setList_held (d : Dev) (k : Nat) (x : ListSt) : (d.setList k x).held = d.held := rfl
@[simp] theorem Dev.setList_latch (d : Dev) (k : Nat) (x : ListSt) : (d.setList k x).latch = d.latch := rfl
@[simp] theorem Dev.setList_readData (d : Dev) (k : Nat) (x : ListSt) : (d.setList k x).readData = d.readData := rfl
@[simp] theorem Dev.setList_readFlag (d : Dev) (k : Nat) (x : ListSt) : (d.setList k x).readFlag = d.readFlag := rfl
@[simp] theorem Dev.setList_ue (d : Dev) (k : Nat) (x : ListSt) : (d.setList k x).ue = d.ue := rfl
@[simp] theorem Dev.setList_ce (d : Dev) (k : Nat) (x : ListSt) : (d.setList k x).ce = d.ce := rfl
@[simp] theorem Dev.setList_wb (d : Dev) (k : Nat) (x : ListSt) : (d.setList k x).wb = d.wb := rfl
@[simp] theorem Dev.setList_off (d : Dev) (k : Nat) (x : ListSt) : (d.setList k x).off = d.off := rfl
@[simp] theorem Dev.setList_raised (d : Dev) (k : Nat) (x : ListSt) : (d.setList k x).raised = d.raised := rfl
@[simp] theorem Dev.setList_tb (d : Dev) (k : Nat) (x : ListSt) : (d.setList k x).tb = d.tb := rfl
@[simp] theorem Dev.setList_tiles (d : Dev) (k : Nat) (x : ListSt) : (d.setList k x).tiles = d.tiles := rfl
@[simp] theorem Dev.setList_transit (d : Dev) (k : Nat) (x : ListSt) : (d.setList k x).transit = d.transit := rfl
@[simp] theorem Dev.setList_sentRows (d : Dev) (k : Nat) (x : ListSt) : (d.setList k x).sentRows = d.sentRows := rfl
@[simp] theorem Dev.setList_credits (d : Dev) (k : Nat) (x : ListSt) : (d.setList k x).credits = d.credits := rfl
@[simp] theorem Dev.setList_routes (d : Dev) (k : Nat) (x : ListSt) : (d.setList k x).routes = d.routes := rfl
@[simp] theorem Dev.setList_loops (d : Dev) (k : Nat) (x : ListSt) : (d.setList k x).loops = d.loops := rfl
@[simp] theorem Dev.setList_res (d : Dev) (k : Nat) (x : ListSt) : (d.setList k x).res = d.res := rfl
@[simp] theorem Dev.setList_arbs (d : Dev) (k : Nat) (x : ListSt) : (d.setList k x).arbs = d.arbs := rfl
@[simp] theorem Dev.setList_tarn (d : Dev) (k : Nat) (x : ListSt) : (d.setList k x).tarn = d.tarn := rfl
@[simp] theorem Dev.setList_sdio (d : Dev) (k : Nat) (x : ListSt) : (d.setList k x).sdio = d.sdio := rfl
@[simp] theorem Dev.setList_outq (d : Dev) (k : Nat) (x : ListSt) : (d.setList k x).outq = d.outq := rfl
@[simp] theorem Dev.setList_flash (d : Dev) (k : Nat) (x : ListSt) : (d.setList k x).flash = d.flash := rfl
@[simp] theorem Dev.setList_cv (d : Dev) (k : Nat) (x : ListSt) : (d.setList k x).cv = d.cv := rfl
@[simp] theorem Dev.setList_streams (d : Dev) (k : Nat) (x : ListSt) : (d.setList k x).streams = d.streams := rfl
@[simp] theorem Dev.setList_cache (d : Dev) (k : Nat) (x : ListSt) : (d.setList k x).cache = d.cache := rfl
@[simp] theorem Dev.setList_col (d : Dev) (k : Nat) (x : ListSt) : (d.setList k x).col = d.col := rfl
@[simp] theorem Dev.setList_cairn (d : Dev) (k : Nat) (x : ListSt) : (d.setList k x).cairn = d.cairn := rfl
@[simp] theorem Dev.setList_harts (d : Dev) (k : Nat) (x : ListSt) : (d.setList k x).harts = d.harts := rfl
@[simp] theorem Dev.setList_triggers (d : Dev) (k : Nat) (x : ListSt) : (d.setList k x).triggers = d.triggers := rfl
@[simp] theorem Dev.setList_boot (d : Dev) (k : Nat) (x : ListSt) : (d.setList k x).boot = d.boot := rfl
@[simp] theorem Dev.setList_paces (d : Dev) (k : Nat) (x : ListSt) : (d.setList k x).paces = d.paces := rfl
@[simp] theorem Dev.setList_pwr (d : Dev) (k : Nat) (x : ListSt) : (d.setList k x).pwr = d.pwr := rfl
@[simp] theorem Dev.setList_posts (d : Dev) (k : Nat) (x : ListSt) : (d.setList k x).posts = d.posts := rfl
@[simp] theorem Dev.setList_sync (d : Dev) (k : Nat) (x : ListSt) : (d.setList k x).sync = d.sync := rfl
@[simp] theorem Dev.setList_macs (d : Dev) (k : Nat) (x : ListSt) : (d.setList k x).macs = d.macs := rfl
@[simp] theorem Dev.setList_cans (d : Dev) (k : Nat) (x : ListSt) : (d.setList k x).cans = d.cans := rfl
@[simp] theorem Dev.setList_eng (d : Dev) (k : Nat) (x : ListSt) : (d.setList k x).eng = d.eng := rfl
@[simp] theorem Dev.setList_saf (d : Dev) (k : Nat) (x : ListSt) : (d.setList k x).saf = d.saf := rfl

@[simp] theorem Dev.setArb_free (d : Dev) (a : Nat) (x : ArbSt) : (d.setArb a x).free = d.free := rfl
@[simp] theorem Dev.setArb_regs (d : Dev) (a : Nat) (x : ArbSt) : (d.setArb a x).regs = d.regs := rfl
@[simp] theorem Dev.setArb_eff (d : Dev) (a : Nat) (x : ArbSt) : (d.setArb a x).eff = d.eff := rfl
@[simp] theorem Dev.setArb_held (d : Dev) (a : Nat) (x : ArbSt) : (d.setArb a x).held = d.held := rfl
@[simp] theorem Dev.setArb_latch (d : Dev) (a : Nat) (x : ArbSt) : (d.setArb a x).latch = d.latch := rfl
@[simp] theorem Dev.setArb_readData (d : Dev) (a : Nat) (x : ArbSt) : (d.setArb a x).readData = d.readData := rfl
@[simp] theorem Dev.setArb_readFlag (d : Dev) (a : Nat) (x : ArbSt) : (d.setArb a x).readFlag = d.readFlag := rfl
@[simp] theorem Dev.setArb_ue (d : Dev) (a : Nat) (x : ArbSt) : (d.setArb a x).ue = d.ue := rfl
@[simp] theorem Dev.setArb_ce (d : Dev) (a : Nat) (x : ArbSt) : (d.setArb a x).ce = d.ce := rfl
@[simp] theorem Dev.setArb_wb (d : Dev) (a : Nat) (x : ArbSt) : (d.setArb a x).wb = d.wb := rfl
@[simp] theorem Dev.setArb_off (d : Dev) (a : Nat) (x : ArbSt) : (d.setArb a x).off = d.off := rfl
@[simp] theorem Dev.setArb_raised (d : Dev) (a : Nat) (x : ArbSt) : (d.setArb a x).raised = d.raised := rfl
@[simp] theorem Dev.setArb_tb (d : Dev) (a : Nat) (x : ArbSt) : (d.setArb a x).tb = d.tb := rfl
@[simp] theorem Dev.setArb_tiles (d : Dev) (a : Nat) (x : ArbSt) : (d.setArb a x).tiles = d.tiles := rfl
@[simp] theorem Dev.setArb_lists (d : Dev) (a : Nat) (x : ArbSt) : (d.setArb a x).lists = d.lists := rfl
@[simp] theorem Dev.setArb_transit (d : Dev) (a : Nat) (x : ArbSt) : (d.setArb a x).transit = d.transit := rfl
@[simp] theorem Dev.setArb_sentRows (d : Dev) (a : Nat) (x : ArbSt) : (d.setArb a x).sentRows = d.sentRows := rfl
@[simp] theorem Dev.setArb_credits (d : Dev) (a : Nat) (x : ArbSt) : (d.setArb a x).credits = d.credits := rfl
@[simp] theorem Dev.setArb_routes (d : Dev) (a : Nat) (x : ArbSt) : (d.setArb a x).routes = d.routes := rfl
@[simp] theorem Dev.setArb_loops (d : Dev) (a : Nat) (x : ArbSt) : (d.setArb a x).loops = d.loops := rfl
@[simp] theorem Dev.setArb_res (d : Dev) (a : Nat) (x : ArbSt) : (d.setArb a x).res = d.res := rfl
@[simp] theorem Dev.setArb_tarn (d : Dev) (a : Nat) (x : ArbSt) : (d.setArb a x).tarn = d.tarn := rfl
@[simp] theorem Dev.setArb_sdio (d : Dev) (a : Nat) (x : ArbSt) : (d.setArb a x).sdio = d.sdio := rfl
@[simp] theorem Dev.setArb_outq (d : Dev) (a : Nat) (x : ArbSt) : (d.setArb a x).outq = d.outq := rfl
@[simp] theorem Dev.setArb_flash (d : Dev) (a : Nat) (x : ArbSt) : (d.setArb a x).flash = d.flash := rfl
@[simp] theorem Dev.setArb_cv (d : Dev) (a : Nat) (x : ArbSt) : (d.setArb a x).cv = d.cv := rfl
@[simp] theorem Dev.setArb_streams (d : Dev) (a : Nat) (x : ArbSt) : (d.setArb a x).streams = d.streams := rfl
@[simp] theorem Dev.setArb_cache (d : Dev) (a : Nat) (x : ArbSt) : (d.setArb a x).cache = d.cache := rfl
@[simp] theorem Dev.setArb_col (d : Dev) (a : Nat) (x : ArbSt) : (d.setArb a x).col = d.col := rfl
@[simp] theorem Dev.setArb_cairn (d : Dev) (a : Nat) (x : ArbSt) : (d.setArb a x).cairn = d.cairn := rfl
@[simp] theorem Dev.setArb_harts (d : Dev) (a : Nat) (x : ArbSt) : (d.setArb a x).harts = d.harts := rfl
@[simp] theorem Dev.setArb_triggers (d : Dev) (a : Nat) (x : ArbSt) : (d.setArb a x).triggers = d.triggers := rfl
@[simp] theorem Dev.setArb_boot (d : Dev) (a : Nat) (x : ArbSt) : (d.setArb a x).boot = d.boot := rfl
@[simp] theorem Dev.setArb_paces (d : Dev) (a : Nat) (x : ArbSt) : (d.setArb a x).paces = d.paces := rfl
@[simp] theorem Dev.setArb_pwr (d : Dev) (a : Nat) (x : ArbSt) : (d.setArb a x).pwr = d.pwr := rfl
@[simp] theorem Dev.setArb_posts (d : Dev) (a : Nat) (x : ArbSt) : (d.setArb a x).posts = d.posts := rfl
@[simp] theorem Dev.setArb_sync (d : Dev) (a : Nat) (x : ArbSt) : (d.setArb a x).sync = d.sync := rfl
@[simp] theorem Dev.setArb_macs (d : Dev) (a : Nat) (x : ArbSt) : (d.setArb a x).macs = d.macs := rfl
@[simp] theorem Dev.setArb_cans (d : Dev) (a : Nat) (x : ArbSt) : (d.setArb a x).cans = d.cans := rfl
@[simp] theorem Dev.setArb_eng (d : Dev) (a : Nat) (x : ArbSt) : (d.setArb a x).eng = d.eng := rfl
@[simp] theorem Dev.setArb_saf (d : Dev) (a : Nat) (x : ArbSt) : (d.setArb a x).saf = d.saf := rfl

@[simp] theorem Dev.setRes_free (d : Dev) (r : Nat) (x : ResSt) : (d.setRes r x).free = d.free := rfl
@[simp] theorem Dev.setRes_regs (d : Dev) (r : Nat) (x : ResSt) : (d.setRes r x).regs = d.regs := rfl
@[simp] theorem Dev.setRes_eff (d : Dev) (r : Nat) (x : ResSt) : (d.setRes r x).eff = d.eff := rfl
@[simp] theorem Dev.setRes_held (d : Dev) (r : Nat) (x : ResSt) : (d.setRes r x).held = d.held := rfl
@[simp] theorem Dev.setRes_latch (d : Dev) (r : Nat) (x : ResSt) : (d.setRes r x).latch = d.latch := rfl
@[simp] theorem Dev.setRes_readData (d : Dev) (r : Nat) (x : ResSt) : (d.setRes r x).readData = d.readData := rfl
@[simp] theorem Dev.setRes_readFlag (d : Dev) (r : Nat) (x : ResSt) : (d.setRes r x).readFlag = d.readFlag := rfl
@[simp] theorem Dev.setRes_ue (d : Dev) (r : Nat) (x : ResSt) : (d.setRes r x).ue = d.ue := rfl
@[simp] theorem Dev.setRes_ce (d : Dev) (r : Nat) (x : ResSt) : (d.setRes r x).ce = d.ce := rfl
@[simp] theorem Dev.setRes_wb (d : Dev) (r : Nat) (x : ResSt) : (d.setRes r x).wb = d.wb := rfl
@[simp] theorem Dev.setRes_off (d : Dev) (r : Nat) (x : ResSt) : (d.setRes r x).off = d.off := rfl
@[simp] theorem Dev.setRes_raised (d : Dev) (r : Nat) (x : ResSt) : (d.setRes r x).raised = d.raised := rfl
@[simp] theorem Dev.setRes_tb (d : Dev) (r : Nat) (x : ResSt) : (d.setRes r x).tb = d.tb := rfl
@[simp] theorem Dev.setRes_tiles (d : Dev) (r : Nat) (x : ResSt) : (d.setRes r x).tiles = d.tiles := rfl
@[simp] theorem Dev.setRes_lists (d : Dev) (r : Nat) (x : ResSt) : (d.setRes r x).lists = d.lists := rfl
@[simp] theorem Dev.setRes_transit (d : Dev) (r : Nat) (x : ResSt) : (d.setRes r x).transit = d.transit := rfl
@[simp] theorem Dev.setRes_sentRows (d : Dev) (r : Nat) (x : ResSt) : (d.setRes r x).sentRows = d.sentRows := rfl
@[simp] theorem Dev.setRes_credits (d : Dev) (r : Nat) (x : ResSt) : (d.setRes r x).credits = d.credits := rfl
@[simp] theorem Dev.setRes_routes (d : Dev) (r : Nat) (x : ResSt) : (d.setRes r x).routes = d.routes := rfl
@[simp] theorem Dev.setRes_loops (d : Dev) (r : Nat) (x : ResSt) : (d.setRes r x).loops = d.loops := rfl
@[simp] theorem Dev.setRes_arbs (d : Dev) (r : Nat) (x : ResSt) : (d.setRes r x).arbs = d.arbs := rfl
@[simp] theorem Dev.setRes_tarn (d : Dev) (r : Nat) (x : ResSt) : (d.setRes r x).tarn = d.tarn := rfl
@[simp] theorem Dev.setRes_sdio (d : Dev) (r : Nat) (x : ResSt) : (d.setRes r x).sdio = d.sdio := rfl
@[simp] theorem Dev.setRes_outq (d : Dev) (r : Nat) (x : ResSt) : (d.setRes r x).outq = d.outq := rfl
@[simp] theorem Dev.setRes_flash (d : Dev) (r : Nat) (x : ResSt) : (d.setRes r x).flash = d.flash := rfl
@[simp] theorem Dev.setRes_cv (d : Dev) (r : Nat) (x : ResSt) : (d.setRes r x).cv = d.cv := rfl
@[simp] theorem Dev.setRes_streams (d : Dev) (r : Nat) (x : ResSt) : (d.setRes r x).streams = d.streams := rfl
@[simp] theorem Dev.setRes_cache (d : Dev) (r : Nat) (x : ResSt) : (d.setRes r x).cache = d.cache := rfl
@[simp] theorem Dev.setRes_col (d : Dev) (r : Nat) (x : ResSt) : (d.setRes r x).col = d.col := rfl
@[simp] theorem Dev.setRes_cairn (d : Dev) (r : Nat) (x : ResSt) : (d.setRes r x).cairn = d.cairn := rfl
@[simp] theorem Dev.setRes_harts (d : Dev) (r : Nat) (x : ResSt) : (d.setRes r x).harts = d.harts := rfl
@[simp] theorem Dev.setRes_triggers (d : Dev) (r : Nat) (x : ResSt) : (d.setRes r x).triggers = d.triggers := rfl
@[simp] theorem Dev.setRes_boot (d : Dev) (r : Nat) (x : ResSt) : (d.setRes r x).boot = d.boot := rfl
@[simp] theorem Dev.setRes_paces (d : Dev) (r : Nat) (x : ResSt) : (d.setRes r x).paces = d.paces := rfl
@[simp] theorem Dev.setRes_pwr (d : Dev) (r : Nat) (x : ResSt) : (d.setRes r x).pwr = d.pwr := rfl
@[simp] theorem Dev.setRes_posts (d : Dev) (r : Nat) (x : ResSt) : (d.setRes r x).posts = d.posts := rfl
@[simp] theorem Dev.setRes_sync (d : Dev) (r : Nat) (x : ResSt) : (d.setRes r x).sync = d.sync := rfl
@[simp] theorem Dev.setRes_macs (d : Dev) (r : Nat) (x : ResSt) : (d.setRes r x).macs = d.macs := rfl
@[simp] theorem Dev.setRes_cans (d : Dev) (r : Nat) (x : ResSt) : (d.setRes r x).cans = d.cans := rfl
@[simp] theorem Dev.setRes_eng (d : Dev) (r : Nat) (x : ResSt) : (d.setRes r x).eng = d.eng := rfl
@[simp] theorem Dev.setRes_saf (d : Dev) (r : Nat) (x : ResSt) : (d.setRes r x).saf = d.saf := rfl

@[simp] theorem Dev.modTarn_free (d : Dev) (f : TarnSt → TarnSt) : (d.modTarn f).free = d.free := rfl
@[simp] theorem Dev.modTarn_regs (d : Dev) (f : TarnSt → TarnSt) : (d.modTarn f).regs = d.regs := rfl
@[simp] theorem Dev.modTarn_eff (d : Dev) (f : TarnSt → TarnSt) : (d.modTarn f).eff = d.eff := rfl
@[simp] theorem Dev.modTarn_held (d : Dev) (f : TarnSt → TarnSt) : (d.modTarn f).held = d.held := rfl
@[simp] theorem Dev.modTarn_latch (d : Dev) (f : TarnSt → TarnSt) : (d.modTarn f).latch = d.latch := rfl
@[simp] theorem Dev.modTarn_readData (d : Dev) (f : TarnSt → TarnSt) : (d.modTarn f).readData = d.readData := rfl
@[simp] theorem Dev.modTarn_readFlag (d : Dev) (f : TarnSt → TarnSt) : (d.modTarn f).readFlag = d.readFlag := rfl
@[simp] theorem Dev.modTarn_ue (d : Dev) (f : TarnSt → TarnSt) : (d.modTarn f).ue = d.ue := rfl
@[simp] theorem Dev.modTarn_ce (d : Dev) (f : TarnSt → TarnSt) : (d.modTarn f).ce = d.ce := rfl
@[simp] theorem Dev.modTarn_wb (d : Dev) (f : TarnSt → TarnSt) : (d.modTarn f).wb = d.wb := rfl
@[simp] theorem Dev.modTarn_off (d : Dev) (f : TarnSt → TarnSt) : (d.modTarn f).off = d.off := rfl
@[simp] theorem Dev.modTarn_raised (d : Dev) (f : TarnSt → TarnSt) : (d.modTarn f).raised = d.raised := rfl
@[simp] theorem Dev.modTarn_tb (d : Dev) (f : TarnSt → TarnSt) : (d.modTarn f).tb = d.tb := rfl
@[simp] theorem Dev.modTarn_tiles (d : Dev) (f : TarnSt → TarnSt) : (d.modTarn f).tiles = d.tiles := rfl
@[simp] theorem Dev.modTarn_lists (d : Dev) (f : TarnSt → TarnSt) : (d.modTarn f).lists = d.lists := rfl
@[simp] theorem Dev.modTarn_transit (d : Dev) (f : TarnSt → TarnSt) : (d.modTarn f).transit = d.transit := rfl
@[simp] theorem Dev.modTarn_sentRows (d : Dev) (f : TarnSt → TarnSt) : (d.modTarn f).sentRows = d.sentRows := rfl
@[simp] theorem Dev.modTarn_credits (d : Dev) (f : TarnSt → TarnSt) : (d.modTarn f).credits = d.credits := rfl
@[simp] theorem Dev.modTarn_routes (d : Dev) (f : TarnSt → TarnSt) : (d.modTarn f).routes = d.routes := rfl
@[simp] theorem Dev.modTarn_loops (d : Dev) (f : TarnSt → TarnSt) : (d.modTarn f).loops = d.loops := rfl
@[simp] theorem Dev.modTarn_res (d : Dev) (f : TarnSt → TarnSt) : (d.modTarn f).res = d.res := rfl
@[simp] theorem Dev.modTarn_arbs (d : Dev) (f : TarnSt → TarnSt) : (d.modTarn f).arbs = d.arbs := rfl
@[simp] theorem Dev.modTarn_sdio (d : Dev) (f : TarnSt → TarnSt) : (d.modTarn f).sdio = d.sdio := rfl
@[simp] theorem Dev.modTarn_outq (d : Dev) (f : TarnSt → TarnSt) : (d.modTarn f).outq = d.outq := rfl
@[simp] theorem Dev.modTarn_flash (d : Dev) (f : TarnSt → TarnSt) : (d.modTarn f).flash = d.flash := rfl
@[simp] theorem Dev.modTarn_cv (d : Dev) (f : TarnSt → TarnSt) : (d.modTarn f).cv = d.cv := rfl
@[simp] theorem Dev.modTarn_streams (d : Dev) (f : TarnSt → TarnSt) : (d.modTarn f).streams = d.streams := rfl
@[simp] theorem Dev.modTarn_cache (d : Dev) (f : TarnSt → TarnSt) : (d.modTarn f).cache = d.cache := rfl
@[simp] theorem Dev.modTarn_col (d : Dev) (f : TarnSt → TarnSt) : (d.modTarn f).col = d.col := rfl
@[simp] theorem Dev.modTarn_cairn (d : Dev) (f : TarnSt → TarnSt) : (d.modTarn f).cairn = d.cairn := rfl
@[simp] theorem Dev.modTarn_harts (d : Dev) (f : TarnSt → TarnSt) : (d.modTarn f).harts = d.harts := rfl
@[simp] theorem Dev.modTarn_triggers (d : Dev) (f : TarnSt → TarnSt) : (d.modTarn f).triggers = d.triggers := rfl
@[simp] theorem Dev.modTarn_boot (d : Dev) (f : TarnSt → TarnSt) : (d.modTarn f).boot = d.boot := rfl
@[simp] theorem Dev.modTarn_paces (d : Dev) (f : TarnSt → TarnSt) : (d.modTarn f).paces = d.paces := rfl
@[simp] theorem Dev.modTarn_pwr (d : Dev) (f : TarnSt → TarnSt) : (d.modTarn f).pwr = d.pwr := rfl
@[simp] theorem Dev.modTarn_posts (d : Dev) (f : TarnSt → TarnSt) : (d.modTarn f).posts = d.posts := rfl
@[simp] theorem Dev.modTarn_sync (d : Dev) (f : TarnSt → TarnSt) : (d.modTarn f).sync = d.sync := rfl
@[simp] theorem Dev.modTarn_macs (d : Dev) (f : TarnSt → TarnSt) : (d.modTarn f).macs = d.macs := rfl
@[simp] theorem Dev.modTarn_cans (d : Dev) (f : TarnSt → TarnSt) : (d.modTarn f).cans = d.cans := rfl
@[simp] theorem Dev.modTarn_eng (d : Dev) (f : TarnSt → TarnSt) : (d.modTarn f).eng = d.eng := rfl
@[simp] theorem Dev.modTarn_saf (d : Dev) (f : TarnSt → TarnSt) : (d.modTarn f).saf = d.saf := rfl

/-! ### The two ends of a meaning -/

@[simp] theorem Mach.mod_dev (m : Mach) (f : Dev → Dev) : (m.mod f).dev = f m.dev := rfl
@[simp] theorem Mach.mod_log (m : Mach) (f : Dev → Dev) : (m.mod f).log = m.log := rfl
@[simp] theorem Mach.mod_base (m : Mach) (f : Dev → Dev) : (m.mod f).base = m.base := rfl

/-- All that a meaning with stores can do: the queue stays, and the memory takes the stores of its log. -/
theorem run_eq (f : Mach → Mach) (s : State) : run f s = .next
    { pending := s.pending, mem := Memory.writeLog s.mem (f ⟨s.mem, [], s.dev⟩).log, dev := (f ⟨s.mem, [], s.dev⟩).dev } := rfl

/-- All that a meaning without stores can do: queue and memory stay. -/
theorem runDev_eq (f : Memory → Dev → Dev) (s : State) : runDev f s = .next
    { pending := s.pending, mem := s.mem, dev := f s.mem s.dev } := rfl

/-- A meaning that first clears memory: what it keeps, then its stores. -/
theorem runKeep_eq (keep : Memory → Dev → Nat → Bool) (f : Mach → Mach) (s : State) : runKeep keep f s =
    run f { s with mem := Memory.keepOnly s.mem (keep s.mem s.dev) } := rfl

end Machine
end Sys2Proof
end

