-- ==== Sys2Proof/Laws/Bits.lean ====
section
/-!
SUPPORT. Bit fields: what a field reads after a field is written.
-/
namespace Sys2Proof

/-- A number with one field replaced: the bits above it, the field, and the bits below it. -/
theorem setBits_eq (v hi lo x : Nat) : setBits v hi lo x =
    (v / 2 ^ lo / 2 ^ (hi + 1 - lo) * 2 ^ (hi + 1 - lo) + x % 2 ^ (hi + 1 - lo)) * 2 ^ lo + v % 2 ^ lo := by
  unfold setBits bits
  have h1 := Nat.div_add_mod v (2 ^ lo)
  have h2 := Nat.div_add_mod (v / 2 ^ lo) (2 ^ (hi + 1 - lo))
  generalize 2 ^ lo = P at *
  generalize 2 ^ (hi + 1 - lo) = Q at *
  generalize v / P = a at *
  generalize v % P = l at *
  generalize a / Q = q at *
  generalize a % Q = r at *
  have h3 : v = (q * Q + r) * P + l := by rw [← h1, ← h2, Nat.mul_comm P, Nat.mul_comm Q]
  rw [h3, Nat.add_mul, Nat.add_mul]
  omega

@[simp] theorem bits_setBits_same (v hi lo x : Nat) : bits (setBits v hi lo x) hi lo = x % 2 ^ (hi + 1 - lo) := by
  rw [setBits_eq, bits, Nat.mul_comm _ (2 ^ lo), Nat.mul_add_div (Nat.two_pow_pos lo),
    Nat.div_eq_of_lt (Nat.mod_lt _ (Nat.two_pow_pos lo)), Nat.add_zero, Nat.mul_comm, Nat.mul_add_mod, Nat.mod_mod]

theorem bits_setBits_above (v x : Nat) {hi lo h l : Nat} (a : hi < l) (b : lo ≤ hi + 1) :
    bits (setBits v hi lo x) h l = bits v h l := by
  have key : ∀ u : Nat, u / 2 ^ l = u / 2 ^ lo / 2 ^ (hi + 1 - lo) / 2 ^ (l - (hi + 1)) := by
    intro u
    rw [Nat.div_div_eq_div_mul, Nat.div_div_eq_div_mul, ← Nat.pow_add, ← Nat.pow_add]
    congr 2
    omega
  rw [bits, bits, key, key v, setBits_eq, Nat.mul_comm _ (2 ^ lo), Nat.mul_add_div (Nat.two_pow_pos lo),
    Nat.div_eq_of_lt (Nat.mod_lt _ (Nat.two_pow_pos lo)), Nat.add_zero, Nat.mul_comm _ (2 ^ (hi + 1 - lo)),
    Nat.mul_add_div (Nat.two_pow_pos _), Nat.div_eq_of_lt (Nat.mod_lt x (Nat.two_pow_pos _)), Nat.add_zero]

theorem bits_setBits_below (v x : Nat) {hi lo h l : Nat} (a : h < lo) :
    bits (setBits v hi lo x) h l = bits v h l := by
  by_cases hl : h + 1 ≤ l
  · simp [bits, show h + 1 - l = 0 by omega, Nat.mod_one]
  · have key : ∀ u : Nat, u / 2 ^ l % 2 ^ (h + 1 - l) = u % 2 ^ lo / 2 ^ l % 2 ^ (h + 1 - l) := by
      intro u
      have e1 : 2 ^ lo = 2 ^ l * 2 ^ (lo - l) := by rw [← Nat.pow_add]; congr 1; omega
      have e2 : 2 ^ (lo - l) = 2 ^ (h + 1 - l) * 2 ^ (lo - (h + 1)) := by rw [← Nat.pow_add]; congr 1; omega
      rw [e1, Nat.mod_mul_right_div_self, e2, Nat.mod_mul_right_mod]
    rw [bits, bits, key, key v, setBits_eq, Nat.mul_comm _ (2 ^ lo), Nat.mul_add_mod, Nat.mod_mod]

/-- A value stays in 32 bits when a field of it is replaced. -/
theorem setBits_lt {v hi lo : Nat} (x : Nat) (h : v < 2 ^ 32) (hh : hi < 32) (hl : lo ≤ hi) : setBits v hi lo x < 2 ^ 32 := by
  have h1 := Nat.div_add_mod v (2 ^ lo)
  have h2 : v / 2 ^ lo < 2 ^ (32 - lo) := by
    rw [Nat.div_lt_iff_lt_mul (Nat.two_pow_pos lo), ← Nat.pow_add]
    rwa [show 32 - lo + lo = 32 by omega]
  have e : 2 ^ (32 - lo) = 2 ^ (hi + 1 - lo) * 2 ^ (32 - (hi + 1)) := by rw [← Nat.pow_add]; congr 1; omega
  have h3 : v / 2 ^ lo / 2 ^ (hi + 1 - lo) < 2 ^ (32 - (hi + 1)) := by
    rw [Nat.div_lt_iff_lt_mul (Nat.two_pow_pos _), Nat.mul_comm, ← e]; exact h2
  have h4 : x % 2 ^ (hi + 1 - lo) < 2 ^ (hi + 1 - lo) := Nat.mod_lt _ (Nat.two_pow_pos _)
  have h5 : v % 2 ^ lo < 2 ^ lo := Nat.mod_lt _ (Nat.two_pow_pos _)
  have e32 : 2 ^ 32 = 2 ^ (32 - (hi + 1)) * 2 ^ (hi + 1 - lo) * 2 ^ lo := by
    rw [← Nat.pow_add, ← Nat.pow_add]; congr 1; omega
  rw [setBits_eq, e32]
  generalize 2 ^ (32 - (hi + 1)) = A at *
  generalize 2 ^ (hi + 1 - lo) = Q at *
  generalize 2 ^ lo = P at *
  generalize v / P / Q = q at *
  generalize x % Q = y at *
  generalize v % P = l at *
  have s1 : (q + 1) * Q ≤ A * Q := Nat.mul_le_mul_right _ h3
  have s2 : q * Q + y + 1 ≤ A * Q := by rw [Nat.add_mul] at s1; omega
  have s3 : (q * Q + y + 1) * P ≤ A * Q * P := Nat.mul_le_mul_right _ s2
  rw [Nat.add_mul, Nat.one_mul] at s3
  omega

namespace Machine

theorem Dev.reg_lt (d : Dev) (a : Nat) : d.reg a < 2 ^ 32 := by
  unfold Dev.reg
  split
  · exact BitVec.isLt _
  · split
    · exact BitVec.isLt _
    · decide

theorem Dev.reg_wf_same (d : Dev) (a : Nat) {f : Fd} (v : Nat) (hh : f.hi < 32 := by decide) (hl : f.lo ≤ f.hi := by decide) :
    (d.wf a f v).reg a = setBits (d.reg a) f.hi f.lo v := by
  rw [Dev.wf, Dev.reg_setReg_same, Nat.mod_eq_of_lt (setBits_lt v (d.reg_lt a) hh hl)]

theorem Dev.reg_wf_ne (d : Dev) {a b : Nat} (f : Fd) (v : Nat) (h : b ≠ a) : (d.wf a f v).reg b = d.reg b :=
  Dev.reg_setReg_ne d _ h

/-- A field just written reads as the value cut to the field. -/
theorem Dev.rf_wf_same (d : Dev) (a : Nat) {f : Fd} (v : Nat) (hh : f.hi < 32 := by decide) (hl : f.lo ≤ f.hi := by decide) :
    (d.wf a f v).rf a f = v % 2 ^ (f.hi + 1 - f.lo) := by
  rw [Dev.rf, Dev.reg_wf_same d a v hh hl, bits_setBits_same]

/-- Another field of the register stays. -/
theorem Dev.rf_wf_field (d : Dev) (a : Nat) {f g : Fd} (v : Nat) (h : f.hi < g.lo ∨ g.hi < f.lo := by decide)
    (hh : f.hi < 32 := by decide) (hl : f.lo ≤ f.hi := by decide) : (d.wf a f v).rf a g = d.rf a g := by
  rw [Dev.rf, Dev.reg_wf_same d a v hh hl, Dev.rf]
  rcases h with h | h
  · exact bits_setBits_above _ _ h (by omega)
  · exact bits_setBits_below _ _ h

/-- A field of another register stays. -/
theorem Dev.rf_wf_ne (d : Dev) {a b : Nat} (f g : Fd) (v : Nat) (h : b ≠ a) : (d.wf a f v).rf b g = d.rf b g := by
  rw [Dev.rf, Dev.reg_wf_ne d f v h, Dev.rf]

end Machine
end Sys2Proof
end

