-- ==== Sys2Proof/Laws/Memory.lean ====
section
/-!
SUPPORT. The laws of the memory: a read after a write, and that every operation keeps the canonical form.
-/
namespace Sys2Proof.Machine

/-- A memory above an address is one above every lower one. -/
theorem Memory.wfFrom_mono {lo : Option Nat} {m : Memory} {k : Nat} (h : Memory.wfFrom (some k) m = true)
    (hk : ∀ l, lo = some l → l ≤ k) : Memory.wfFrom lo m = true := by
  cases m with
  | nil => rfl
  | cons c r =>
    obtain ⟨a, b⟩ := c
    cases lo with
    | none => simp only [Memory.wfFrom, Bool.and_eq_true, Bool.true_and] at h ⊢; exact ⟨h.1.2, h.2⟩
    | some l =>
      have := hk l rfl
      simp only [Memory.wfFrom, Bool.and_eq_true, decide_eq_true_eq] at h ⊢
      exact ⟨⟨by omega, h.1.2⟩, h.2⟩

/-- An address at or below the bound of a memory reads zero. -/
theorem Memory.read_below {m : Memory} {k a : Nat} (h : Memory.wfFrom (some k) m = true) (ha : a ≤ k) :
    Memory.read m a = 0 := by
  cases m with
  | nil => rfl
  | cons c r =>
    obtain ⟨j, b⟩ := c
    simp only [Memory.wfFrom, Bool.and_eq_true, decide_eq_true_eq] at h
    simp only [Memory.read, if_neg (show j ≠ a by omega), if_pos (show a < j by omega)]

theorem Memory.wfFrom_write {m : Memory} {lo : Option Nat} (a : Nat) (b : Byte) (h : Memory.wfFrom lo m = true)
    (hlo : ∀ l, lo = some l → l < a) : Memory.wfFrom lo (Memory.write m a b) = true := by
  induction m generalizing lo with
  | nil =>
    unfold Memory.write
    split
    · rfl
    next hb =>
      cases lo with
      | none => simpa [Memory.wfFrom] using hb
      | some l => simpa [Memory.wfFrom, hlo l rfl] using hb
  | cons c r ih =>
    obtain ⟨j, v⟩ := c
    simp only [Memory.wfFrom, Bool.and_eq_true] at h
    obtain ⟨⟨h1, h2⟩, h3⟩ := h
    have hm : Memory.wfFrom (some j) r = true := h3
    unfold Memory.write
    by_cases hj : j = a
    · subst hj
      simp only [if_pos]
      split
      · refine Memory.wfFrom_mono hm fun l hl => ?_
        exact Nat.le_of_lt (hlo l hl)
      next hb => simp only [Memory.wfFrom, Bool.and_eq_true]; exact ⟨⟨h1, by simpa using hb⟩, h3⟩
    · simp only [if_neg hj]
      by_cases ha : a < j
      · simp only [if_pos ha]
        split
        · simp only [Memory.wfFrom, Bool.and_eq_true]; exact ⟨⟨h1, h2⟩, h3⟩
        next hb =>
          simp only [Memory.wfFrom, Bool.and_eq_true]
          refine ⟨⟨?_, by simpa using hb⟩, ⟨⟨by simpa using ha, h2⟩, h3⟩⟩
          cases lo with
          | none => rfl
          | some l => simpa using hlo l rfl
      · simp only [if_neg ha, Memory.wfFrom, Bool.and_eq_true]
        refine ⟨⟨h1, h2⟩, ih h3 fun l hl => ?_⟩
        cases hl
        omega

/-- A write keeps the canonical form. -/
theorem Memory.wf_write {m : Memory} (a : Nat) (b : Byte) (h : m.wf = true) : (Memory.write m a b).wf = true :=
  Memory.wfFrom_write a b h (fun _ h => nomatch h)

/-- The stores of a log keep the canonical form. -/
theorem Memory.wf_writeLog {m : Memory} (l : List Host.Cell) (h : m.wf = true) : (Memory.writeLog m l).wf = true := by
  induction l with
  | nil => exact h
  | cons c r ih => exact Memory.wf_write _ _ ih

theorem Memory.wfFrom_keepOnly {m : Memory} {lo : Option Nat} (keep : Nat → Bool) (h : Memory.wfFrom lo m = true) :
    Memory.wfFrom lo (Memory.keepOnly m keep) = true := by
  unfold Memory.keepOnly
  induction m generalizing lo with
  | nil => rfl
  | cons c r ih =>
    obtain ⟨j, v⟩ := c
    simp only [Memory.wfFrom, Bool.and_eq_true] at h
    obtain ⟨⟨h1, h2⟩, h3⟩ := h
    by_cases hk : keep j
    · simp only [List.filter_cons, hk, if_true, Memory.wfFrom, Bool.and_eq_true]
      exact ⟨⟨h1, h2⟩, ih h3⟩
    · simp only [List.filter_cons, hk]
      refine Memory.wfFrom_mono (k := j) (ih h3) fun l hl => ?_
      subst hl
      simp only [decide_eq_true_eq] at h1
      omega

/-- Clearing part of the memory keeps the canonical form. -/
theorem Memory.wf_keepOnly {m : Memory} (keep : Nat → Bool) (h : m.wf = true) : (Memory.keepOnly m keep).wf = true :=
  Memory.wfFrom_keepOnly keep h

theorem Memory.read_write_from {m : Memory} {lo : Option Nat} (a x : Nat) (b : Byte) (h : Memory.wfFrom lo m = true) :
    Memory.read (Memory.write m a b) x = if x = a then b else Memory.read m x := by
  induction m generalizing lo with
  | nil =>
    unfold Memory.write
    split
    next hb => subst hb; simp [Memory.read]
    next => by_cases hx : x = a
            · simp [Memory.read, hx]
            · simp [Memory.read, hx, Ne.symm hx]
  | cons c r ih =>
    obtain ⟨j, v⟩ := c
    simp only [Memory.wfFrom, Bool.and_eq_true] at h
    obtain ⟨_, h3⟩ := h
    have below : ∀ y, y ≤ j → Memory.read r y = 0 := fun y hy => Memory.read_below h3 hy
    unfold Memory.write
    by_cases hj : j = a
    · subst hj
      simp only [if_pos]
      by_cases hb : b = 0
      · subst hb
        simp only [if_pos]
        by_cases hx : x = j
        · simp [hx, below]
        · simp only [Memory.read, if_neg hx, if_neg (Ne.symm hx)]
          by_cases hl : x < j
          · simp [hl, below x (by omega)]
          · simp [hl]
      · simp only [if_neg hb, Memory.read]
        by_cases hx : x = j
        · simp [hx]
        · simp [hx, Ne.symm hx]
    · simp only [if_neg hj]
      by_cases ha : a < j
      · simp only [if_pos ha]
        by_cases hb : b = 0
        · subst hb
          simp only [if_pos]
          by_cases hx : x = a
          · subst hx; simp [Memory.read, hj, ha]
          · simp [hx]
        · simp only [if_neg hb]
          by_cases hx : x = a
          · simp [Memory.read, hx]
          · rw [Memory.read]
            simp only [if_neg hx, if_neg (Ne.symm hx)]
            by_cases hl : x < a
            · simp [hl, Memory.read, (show j ≠ x by omega), (show x < j by omega)]
            · simp [hl]
      · simp only [if_neg ha, Memory.read]
        by_cases hx : x = a
        · subst hx
          simp only [if_neg hj, if_neg ha, if_pos]
          rw [ih h3]; simp
        · simp only [if_neg hx]
          split
          · rfl
          · split
            · rfl
            · rw [ih h3]; simp [hx]

/-- A byte written reads back, and every other byte stays. -/
theorem Memory.read_write {m : Memory} (a x : Nat) (b : Byte) (h : m.wf = true) :
    Memory.read (Memory.write m a b) x = if x = a then b else Memory.read m x :=
  Memory.read_write_from a x b h

/-- After the stores of a log a byte reads as the newest store to it, or as before. -/
theorem Memory.read_writeLog {m : Memory} (l : List Host.Cell) (x : Nat) (h : m.wf = true) :
    Memory.read (Memory.writeLog m l) x = match l.find? (fun c => c.1 == x) with
      | some c => c.2
      | none => Memory.read m x := by
  induction l with
  | nil => rfl
  | cons c r ih =>
    obtain ⟨a, b⟩ := c
    rw [Memory.writeLog, Memory.read_write _ _ _ (Memory.wf_writeLog r h), List.find?_cons]
    by_cases hx : x = a
    · simp [hx]
    · simp only [if_neg hx, ih]
      rw [show (a == x) = false from by simpa using Ne.symm hx]

/-- The invariant of the memory holds after every meaning. -/
theorem run_wf {f : Mach → Mach} {s t : State} (h : s.mem.wf = true) (e : run f s = .next t) : t.mem.wf = true := by
  cases e
  exact Memory.wf_writeLog _ h

theorem runDev_wf {f : Memory → Dev → Dev} {s t : State} (h : s.mem.wf = true) (e : runDev f s = .next t) :
    t.mem.wf = true := by
  cases e
  exact h

theorem runKeep_wf {keep : Memory → Dev → Nat → Bool} {f : Mach → Mach} {s t : State} (h : s.mem.wf = true)
    (e : runKeep keep f s = .next t) : t.mem.wf = true := by
  refine run_wf (s := { s with mem := Memory.keepOnly s.mem (keep s.mem s.dev) }) ?_ e
  exact Memory.wf_keepOnly _ h

end Sys2Proof.Machine
end

