-- ==== Sys2Proof/Laws/Exec.lean ====
section
/-!
SUPPORT. The shape of every command's meaning: it ends in `run`, `runDev` or `runKeep`, but for the two resets, which
first cut the flash subsystem.
-/
namespace Sys2Proof.Machine

/-- Every command but the two resets is one of the three ends of a meaning. -/
theorem exec_shape (c : Instr) (s : State) : (∃ f, exec c s = run f s) ∨ (∃ f, exec c s = runDev f s)
    ∨ (∃ k f, exec c s = runKeep k f s) ∨ c = .warmReset ∨ c = .porstAssert :=
  match c with
  | .unmappedRead x0 x1 x2 => .inr (.inl (show ∃ f, execUnmappedRead x0 x1 x2 s = runDev f s from ⟨_, rfl⟩))
  | .unmappedWrite x0 x1 x2 x3 => .inr (.inl (show ∃ f, execUnmappedWrite x0 x1 x2 x3 s = runDev f s from ⟨_, rfl⟩))
  | .registerWrite x0 x1 x2 => .inl (show ∃ f, execRegisterWrite x0 x1 x2 s = run f s from ⟨_, rfl⟩)
  | .registerRead x0 x1 => .inl (show ∃ f, execRegisterRead x0 x1 s = run f s from ⟨_, rfl⟩)
  | .paceSample x0 x1 x2 => .inr (.inl (show ∃ f, execPaceSample x0 x1 x2 s = runDev f s from ⟨_, rfl⟩))
  | .paceFrozen x0 => .inr (.inl (show ∃ f, execPaceFrozen x0 s = runDev f s from ⟨_, rfl⟩))
  | .paceRecovered x0 => .inr (.inl (show ∃ f, execPaceRecovered x0 s = runDev f s from ⟨_, rfl⟩))
  | .clrPeak => .inr (.inl (show ∃ f, execClrPeak s = runDev f s from ⟨_, rfl⟩))
  | .railSettled => .inr (.inl (show ∃ f, execRailSettled s = runDev f s from ⟨_, rfl⟩))
  | .ndClr => .inr (.inl (show ∃ f, execNdClr s = runDev f s from ⟨_, rfl⟩))
  | .sload x0 x1 x2 x3 => .inl (show ∃ f, execSload x0 x1 x2 x3 s = run f s from ⟨_, rfl⟩)
  | .pass x0 => .inl (show ∃ f, execPass x0 s = run f s from ⟨_, rfl⟩)
  | .arrayRow x0 x1 x2 x3 x4 x5 => .inl (show ∃ f, execArrayRow x0 x1 x2 x3 x4 x5 s = run f s from ⟨_, rfl⟩)
  | .swapFrontBack x0 x1 => .inl (show ∃ f, execSwapFrontBack x0 x1 s = run f s from ⟨_, rfl⟩)
  | .passCompare x0 x1 x2 => .inl (show ∃ f, execPassCompare x0 x1 x2 s = run f s from ⟨_, rfl⟩)
  | .arrayRemap x0 => .inl (show ∃ f, execArrayRemap x0 s = run f s from ⟨_, rfl⟩)
  | .drain x0 x1 x2 => .inl (show ∃ f, execDrain x0 x1 x2 s = run f s from ⟨_, rfl⟩)
  | .arrayRampStep x0 x1 => .inr (.inl (show ∃ f, execArrayRampStep x0 x1 s = runDev f s from ⟨_, rfl⟩))
  | .arrayIdle x0 x1 => .inr (.inl (show ∃ f, execArrayIdle x0 x1 s = runDev f s from ⟨_, rfl⟩))
  | .arrCntClr x0 => .inr (.inl (show ∃ f, execArrCntClr x0 s = runDev f s from ⟨_, rfl⟩))
  | .wfetchPlain x0 => .inr (.inl (show ∃ f, execWfetchPlain x0 s = runDev f s from ⟨_, rfl⟩))
  | .wfetchSpec x0 x1 => .inl (show ∃ f, execWfetchSpec x0 x1 s = run f s from ⟨_, rfl⟩)
  | .wfetchResolve x0 x1 => .inl (show ∃ f, execWfetchResolve x0 x1 s = run f s from ⟨_, rfl⟩)
  | .streamerFillStart x0 x1 => .inr (.inl (show ∃ f, execStreamerFillStart x0 x1 s = runDev f s from ⟨_, rfl⟩))
  | .fetchLanded x0 x1 x2 => .inl (show ∃ f, execFetchLanded x0 x1 x2 s = run f s from ⟨_, rfl⟩)
  | .slotRelease x0 x1 => .inr (.inl (show ∃ f, execSlotRelease x0 x1 s = runDev f s from ⟨_, rfl⟩))
  | .listFetch x0 x1 x2 => .inl (show ∃ f, execListFetch x0 x1 x2 s = run f s from ⟨_, rfl⟩)
  | .send x0 x1 => .inl (show ∃ f, execSend x0 x1 s = run f s from ⟨_, rfl⟩)
  | .landingRow x0 x1 x2 => .inl (show ∃ f, execLandingRow x0 x1 x2 s = run f s from ⟨_, rfl⟩)
  | .recv x0 x1 => .inl (show ∃ f, execRecv x0 x1 s = run f s from ⟨_, rfl⟩)
  | .spurCall x0 => .inl (show ∃ f, execSpurCall x0 s = run f s from ⟨_, rfl⟩)
  | .spurEcall x0 x1 x2 => .inl (show ∃ f, execSpurEcall x0 x1 x2 s = run f s from ⟨_, rfl⟩)
  | .spurTrap x0 x1 x2 => .inl (show ∃ f, execSpurTrap x0 x1 x2 s = run f s from ⟨_, rfl⟩)
  | .eccWriteBack x0 => .inr (.inl (show ∃ f, execEccWriteBack x0 s = runDev f s from ⟨_, rfl⟩))
  | .memCntClr x0 => .inr (.inl (show ∃ f, execMemCntClr x0 s = runDev f s from ⟨_, rfl⟩))
  | .rdgCntClr x0 => .inr (.inl (show ∃ f, execRdgCntClr x0 s = runDev f s from ⟨_, rfl⟩))
  | .specCntClr x0 => .inr (.inl (show ∃ f, execSpecCntClr x0 s = runDev f s from ⟨_, rfl⟩))
  | .convCntClr x0 => .inr (.inl (show ∃ f, execConvCntClr x0 s = runDev f s from ⟨_, rfl⟩))
  | .ctap x0 => .inl (show ∃ f, execCtap x0 s = run f s from ⟨_, rfl⟩)
  | .dtap x0 => .inl (show ∃ f, execDtap x0 s = run f s from ⟨_, rfl⟩)
  | .argmax x0 x1 => .inl (show ∃ f, execArgmax x0 x1 s = run f s from ⟨_, rfl⟩)
  | .supply x0 x1 => .inl (show ∃ f, execSupply x0 x1 s = run f s from ⟨_, rfl⟩)
  | .append x0 => .inl (show ∃ f, execAppend x0 s = run f s from ⟨_, rfl⟩)
  | .tokens x0 => .inl (show ∃ f, execTokens x0 s = run f s from ⟨_, rfl⟩)
  | .decode x0 => .inl (show ∃ f, execDecode x0 s = run f s from ⟨_, rfl⟩)
  | .walk x0 => .inl (show ∃ f, execWalk x0 s = run f s from ⟨_, rfl⟩)
  | .feed x0 => .inl (show ∃ f, execFeed x0 s = run f s from ⟨_, rfl⟩)
  | .mark x0 => .inl (show ∃ f, execMark x0 s = run f s from ⟨_, rfl⟩)
  | .acquire x0 => .inl (show ∃ f, execAcquire x0 s = run f s from ⟨_, rfl⟩)
  | .release x0 => .inl (show ∃ f, execRelease x0 s = run f s from ⟨_, rfl⟩)
  | .sign x0 x1 => .inl (show ∃ f, execSign x0 x1 s = run f s from ⟨_, rfl⟩)
  | .endList x0 => .inl (show ∃ f, execEndList x0 s = run f s from ⟨_, rfl⟩)
  | .stepEnd x0 x1 => .inl (show ∃ f, execStepEnd x0 x1 s = run f s from ⟨_, rfl⟩)
  | .post x0 => .inl (show ∃ f, execPost x0 s = run f s from ⟨_, rfl⟩)
  | .graceFree x0 => .inl (show ∃ f, execGraceFree x0 s = run f s from ⟨_, rfl⟩)
  | .pacedRelease x0 => .inr (.inl (show ∃ f, execPacedRelease x0 s = runDev f s from ⟨_, rfl⟩))
  | .guardStart x0 => .inr (.inl (show ∃ f, execGuardStart x0 s = runDev f s from ⟨_, rfl⟩))
  | .windowOpen x0 => .inr (.inl (show ∃ f, execWindowOpen x0 s = runDev f s from ⟨_, rfl⟩))
  | .windowClose x0 => .inr (.inl (show ∃ f, execWindowClose x0 s = runDev f s from ⟨_, rfl⟩))
  | .schedDecision x0 => .inl (show ∃ f, execSchedDecision x0 s = run f s from ⟨_, rfl⟩)
  | .preemptHold x0 x1 => .inr (.inl (show ∃ f, execPreemptHold x0 x1 s = runDev f s from ⟨_, rfl⟩))
  | .remoteTimeout x0 x1 x2 => .inl (show ∃ f, execRemoteTimeout x0 x1 x2 s = run f s from ⟨_, rfl⟩)
  | .saveDone x0 x1 x2 x3 x4 x5 x6 => .inl (show ∃ f, execSaveDone x0 x1 x2 x3 x4 x5 x6 s = run f s from ⟨_, rfl⟩)
  | .restoreDone x0 x1 x2 => .inl (show ∃ f, execRestoreDone x0 x1 x2 s = run f s from ⟨_, rfl⟩)
  | .carrySaveDone x0 x1 x2 x3 => .inl (show ∃ f, execCarrySaveDone x0 x1 x2 x3 s = run f s from ⟨_, rfl⟩)
  | .arbRequest x0 x1 x2 x3 => .inr (.inl (show ∃ f, execArbRequest x0 x1 x2 x3 s = runDev f s from ⟨_, rfl⟩))
  | .arbGrant x0 x1 => .inr (.inl (show ∃ f, execArbGrant x0 x1 s = runDev f s from ⟨_, rfl⟩))
  | .arbWatchdog x0 => .inl (show ∃ f, execArbWatchdog x0 s = run f s from ⟨_, rfl⟩)
  | .arbFreeze x0 x1 => .inr (.inl (show ∃ f, execArbFreeze x0 x1 s = runDev f s from ⟨_, rfl⟩))
  | .arbCntClr => .inr (.inl (show ∃ f, execArbCntClr s = runDev f s from ⟨_, rfl⟩))
  | .schEn x0 => .inr (.inl (show ∃ f, execSchEn x0 s = runDev f s from ⟨_, rfl⟩))
  | .schCntClr => .inr (.inl (show ∃ f, execSchCntClr s = runDev f s from ⟨_, rfl⟩))
  | .loopEnWrite x0 x1 => .inr (.inl (show ∃ f, execLoopEnWrite x0 x1 s = runDev f s from ⟨_, rfl⟩))
  | .loopBoundReport x0 x1 x2 x3 x4 x5 x6 => .inr (.inl (show ∃ f, execLoopBoundReport x0 x1 x2 x3 x4 x5 x6 s = runDev f s from ⟨_, rfl⟩))
  | .linkTrain x0 x1 => .inr (.inl (show ∃ f, execLinkTrain x0 x1 s = runDev f s from ⟨_, rfl⟩))
  | .linkTrainTimeout x0 => .inr (.inl (show ∃ f, execLinkTrainTimeout x0 s = runDev f s from ⟨_, rfl⟩))
  | .flitRx x0 x1 x2 => .inl (show ∃ f, execFlitRx x0 x1 x2 s = run f s from ⟨_, rfl⟩)
  | .replayTimeout x0 => .inr (.inl (show ∃ f, execReplayTimeout x0 s = runDev f s from ⟨_, rfl⟩))
  | .recovery x0 => .inr (.inl (show ∃ f, execRecovery x0 s = runDev f s from ⟨_, rfl⟩))
  | .down x0 => .inl (show ∃ f, execDown x0 s = run f s from ⟨_, rfl⟩)
  | .colRead x0 x1 => .inl (show ∃ f, execColRead x0 x1 s = run f s from ⟨_, rfl⟩)
  | .colWrite x0 x1 => .inl (show ∃ f, execColWrite x0 x1 s = run f s from ⟨_, rfl⟩)
  | .readResp x0 => .inr (.inl (show ∃ f, execReadResp x0 s = runDev f s from ⟨_, rfl⟩))
  | .writeResp x0 => .inr (.inl (show ∃ f, execWriteResp x0 s = runDev f s from ⟨_, rfl⟩))
  | .colStream x0 => .inr (.inl (show ∃ f, execColStream x0 s = runDev f s from ⟨_, rfl⟩))
  | .qcredit x0 => .inr (.inl (show ∃ f, execQcredit x0 s = runDev f s from ⟨_, rfl⟩))
  | .mgmt x0 => .inl (show ∃ f, execMgmt x0 s = run f s from ⟨_, rfl⟩)
  | .remoteAccessTimeout x0 => .inr (.inl (show ∃ f, execRemoteAccessTimeout x0 s = runDev f s from ⟨_, rfl⟩))
  | .colTsync => .inr (.inl (show ∃ f, execColTsync s = runDev f s from ⟨_, rfl⟩))
  | .colBootTimeout => .inl (show ∃ f, execColBootTimeout s = run f s from ⟨_, rfl⟩)
  | .retrain x0 => .inl (show ∃ f, execRetrain x0 s = run f s from ⟨_, rfl⟩)
  | .portEn x0 x1 => .inl (show ∃ f, execPortEn x0 x1 s = run f s from ⟨_, rfl⟩)
  | .colCntClr => .inr (.inl (show ∃ f, execColCntClr s = runDev f s from ⟨_, rfl⟩))
  | .hbmRead x0 x1 x2 x3 x4 => .inl (show ∃ f, execHbmRead x0 x1 x2 x3 x4 s = run f s from ⟨_, rfl⟩)
  | .hbmWrite x0 x1 x2 x3 x4 => .inl (show ∃ f, execHbmWrite x0 x1 x2 x3 x4 s = run f s from ⟨_, rfl⟩)
  | .hbmRefresh x0 => .inr (.inl (show ∃ f, execHbmRefresh x0 s = runDev f s from ⟨_, rfl⟩))
  | .patrolScrub x0 x1 => .inr (.inl (show ∃ f, execPatrolScrub x0 x1 s = runDev f s from ⟨_, rfl⟩))
  | .hbmFillDone x0 => .inr (.inr (.inl (show ∃ k f, execHbmFillDone x0 s = runKeep k f s from ⟨_, _, rfl⟩)))
  | .hbmCntClr => .inr (.inl (show ∃ f, execHbmCntClr s = runDev f s from ⟨_, rfl⟩))
  | .flEn x0 => .inr (.inl (show ∃ f, execFlEn x0 s = runDev f s from ⟨_, rfl⟩))
  | .mountDone x0 => .inr (.inr (.inl (show ∃ k f, execMountDone x0 s = runKeep k f s from ⟨_, _, rfl⟩)))
  | .nandOperationDone x0 => .inl (show ∃ f, execNandOperationDone x0 s = run f s from ⟨_, rfl⟩)
  | .journalFlush => .inl (show ∃ f, execJournalFlush s = run f s from ⟨_, rfl⟩)
  | .checkpoint => .inr (.inl (show ∃ f, execCheckpoint s = runDev f s from ⟨_, rfl⟩))
  | .retentionScrub x0 x1 x2 => .inl (show ∃ f, execRetentionScrub x0 x1 x2 s = run f s from ⟨_, rfl⟩)
  | .garbageCollect => .inl (show ∃ f, execGarbageCollect s = run f s from ⟨_, rfl⟩)
  | .flashClosed => .inl (show ∃ f, execFlashClosed s = run f s from ⟨_, rfl⟩)
  | .flashResume => .inr (.inl (show ∃ f, execFlashResume s = runDev f s from ⟨_, rfl⟩))
  | .flCntClr => .inr (.inl (show ∃ f, execFlCntClr s = runDev f s from ⟨_, rfl⟩))
  | .cvJob x0 x1 x2 => .inr (.inl (show ∃ f, execCvJob x0 x1 x2 s = runDev f s from ⟨_, rfl⟩))
  | .cvSliceEnd x0 => .inr (.inl (show ∃ f, execCvSliceEnd x0 s = runDev f s from ⟨_, rfl⟩))
  | .claim x0 x1 => .inr (.inl (show ∃ f, execClaim x0 x1 s = runDev f s from ⟨_, rfl⟩))
  | .cvStart x0 => .inr (.inl (show ∃ f, execCvStart x0 s = runDev f s from ⟨_, rfl⟩))
  | .cvData x0 x1 => .inr (.inl (show ∃ f, execCvData x0 x1 s = runDev f s from ⟨_, rfl⟩))
  | .cvValHi x0 x1 => .inr (.inl (show ∃ f, execCvValHi x0 x1 s = runDev f s from ⟨_, rfl⟩))
  | .cvCntHi x0 x1 => .inr (.inl (show ∃ f, execCvCntHi x0 x1 s = runDev f s from ⟨_, rfl⟩))
  | .tbMeasurement x0 => .inr (.inl (show ∃ f, execTbMeasurement x0 s = runDev f s from ⟨_, rfl⟩))
  | .tbSourceTimeout => .inr (.inl (show ∃ f, execTbSourceTimeout s = runDev f s from ⟨_, rfl⟩))
  | .restep => .inr (.inl (show ∃ f, execRestep s = runDev f s from ⟨_, rfl⟩))
  | .tbCntClr => .inr (.inl (show ∃ f, execTbCntClr s = runDev f s from ⟨_, rfl⟩))
  | .counterCompare => .inr (.inl (show ∃ f, execCounterCompare s = runDev f s from ⟨_, rfl⟩))
  | .cmpFire x0 => .inr (.inl (show ∃ f, execCmpFire x0 s = runDev f s from ⟨_, rfl⟩))
  | .cmpTargetWrite x0 x1 => .inr (.inl (show ∃ f, execCmpTargetWrite x0 x1 s = runDev f s from ⟨_, rfl⟩))
  | .evtIn x0 => .inr (.inl (show ∃ f, execEvtIn x0 s = runDev f s from ⟨_, rfl⟩))
  | .ethRx x0 x1 x2 => .inr (.inl (show ∃ f, execEthRx x0 x1 x2 s = runDev f s from ⟨_, rfl⟩))
  | .feedback x0 => .inl (show ∃ f, execFeedback x0 s = run f s from ⟨_, rfl⟩)
  | .sensor x0 => .inl (show ∃ f, execSensor x0 s = run f s from ⟨_, rfl⟩)
  | .driveReceived x0 => .inr (.inl (show ∃ f, execDriveReceived x0 s = runDev f s from ⟨_, rfl⟩))
  | .txSelect x0 => .inr (.inl (show ∃ f, execTxSelect x0 s = runDev f s from ⟨_, rfl⟩))
  | .change x0 => .inr (.inl (show ∃ f, execChange x0 s = runDev f s from ⟨_, rfl⟩))
  | .gclApply x0 => .inr (.inl (show ∃ f, execGclApply x0 s = runDev f s from ⟨_, rfl⟩))
  | .ptpRoleWrite x0 x1 => .inr (.inl (show ∃ f, execPtpRoleWrite x0 x1 s = runDev f s from ⟨_, rfl⟩))
  | .ethCntClr x0 => .inr (.inl (show ∃ f, execEthCntClr x0 s = runDev f s from ⟨_, rfl⟩))
  | .canRx x0 x1 => .inl (show ∃ f, execCanRx x0 x1 s = run f s from ⟨_, rfl⟩)
  | .canTx x0 => .inl (show ∃ f, execCanTx x0 s = run f s from ⟨_, rfl⟩)
  | .errorPassive x0 x1 x2 => .inr (.inl (show ∃ f, execErrorPassive x0 x1 x2 s = runDev f s from ⟨_, rfl⟩))
  | .busOff x0 => .inr (.inl (show ∃ f, execBusOff x0 s = runDev f s from ⟨_, rfl⟩))
  | .canRecovered x0 => .inr (.inl (show ∃ f, execCanRecovered x0 s = runDev f s from ⟨_, rfl⟩))
  | .recover x0 => .inr (.inl (show ∃ f, execRecover x0 s = runDev f s from ⟨_, rfl⟩))
  | .canCntClr x0 => .inr (.inl (show ∃ f, execCanCntClr x0 s = runDev f s from ⟨_, rfl⟩))
  | .csiPacket x0 x1 x2 x3 x4 x5 x6 => .inl (show ∃ f, execCsiPacket x0 x1 x2 x3 x4 x5 x6 s = run f s from ⟨_, rfl⟩)
  | .csiFrameStart x0 x1 x2 => .inr (.inl (show ∃ f, execCsiFrameStart x0 x1 x2 s = runDev f s from ⟨_, rfl⟩))
  | .csiFrameEnd x0 x1 => .inr (.inl (show ∃ f, execCsiFrameEnd x0 x1 s = runDev f s from ⟨_, rfl⟩))
  | .tensorComplete x0 => .inr (.inl (show ∃ f, execTensorComplete x0 s = runDev f s from ⟨_, rfl⟩))
  | .waitnewBind x0 x1 => .inl (show ∃ f, execWaitnewBind x0 x1 s = run f s from ⟨_, rfl⟩)
  | .sampleDecoded x0 x1 x2 x3 => .inl (show ∃ f, execSampleDecoded x0 x1 x2 x3 s = run f s from ⟨_, rfl⟩)
  | .missingPos x0 => .inl (show ∃ f, execMissingPos x0 s = run f s from ⟨_, rfl⟩)
  | .ingCntClr => .inr (.inl (show ∃ f, execIngCntClr s = runDev f s from ⟨_, rfl⟩))
  | .ceInstant => .inl (show ∃ f, execCeInstant s = run f s from ⟨_, rfl⟩)
  | .channelEval x0 x1 => .inl (show ∃ f, execChannelEval x0 x1 s = run f s from ⟨_, rfl⟩)
  | .ceEnWrite x0 => .inl (show ∃ f, execCeEnWrite x0 s = run f s from ⟨_, rfl⟩)
  | .swap => .inl (show ∃ f, execSwap s = run f s from ⟨_, rfl⟩)
  | .ceModeWrite x0 x1 => .inr (.inl (show ∃ f, execCeModeWrite x0 x1 s = runDev f s from ⟨_, rfl⟩))
  | .ceManWrite x0 x1 => .inr (.inl (show ∃ f, execCeManWrite x0 x1 s = runDev f s from ⟨_, rfl⟩))
  | .arm x0 => .inr (.inl (show ∃ f, execArm x0 s = runDev f s from ⟨_, rfl⟩))
  | .force => .inr (.inl (show ∃ f, execForce s = runDev f s from ⟨_, rfl⟩))
  | .ceCntClr => .inr (.inl (show ∃ f, execCeCntClr s = runDev f s from ⟨_, rfl⟩))
  | .faultRecord x0 => .inl (show ∃ f, execFaultRecord x0 s = run f s from ⟨_, rfl⟩)
  | .warmReset => .inr (.inr (.inr (.inl rfl)))
  | .errorInjection x0 => .inr (.inl (show ∃ f, execErrorInjection x0 s = runDev f s from ⟨_, rfl⟩))
  | .stepSupervisorExpire x0 x1 => .inl (show ∃ f, execStepSupervisorExpire x0 x1 s = run f s from ⟨_, rfl⟩)
  | .segmentExpire x0 x1 => .inl (show ∃ f, execSegmentExpire x0 x1 s = run f s from ⟨_, rfl⟩)
  | .chunkDone x0 x1 x2 => .inl (show ∃ f, execChunkDone x0 x1 x2 s = run f s from ⟨_, rfl⟩)
  | .selftestForce x0 => .inr (.inl (show ∃ f, execSelftestForce x0 s = runDev f s from ⟨_, rfl⟩))
  | .late x0 => .inr (.inl (show ∃ f, execLate x0 s = runDev f s from ⟨_, rfl⟩))
  | .haltTimeout x0 x1 => .inr (.inl (show ∃ f, execHaltTimeout x0 x1 s = runDev f s from ⟨_, rfl⟩))
  | .fence x0 => .inr (.inl (show ∃ f, execFence x0 s = runDev f s from ⟨_, rfl⟩))
  | .ringBreak x0 x1 => .inr (.inl (show ∃ f, execRingBreak x0 x1 s = runDev f s from ⟨_, rfl⟩))
  | .mismatch x0 => .inl (show ∃ f, execMismatch x0 s = run f s from ⟨_, rfl⟩)
  | .clock => .inr (.inl (show ∃ f, execClock s = runDev f s from ⟨_, rfl⟩))
  | .rail x0 x1 => .inr (.inl (show ∃ f, execRail x0 x1 s = runDev f s from ⟨_, rfl⟩))
  | .thermalCheck x0 x1 => .inr (.inl (show ∃ f, execThermalCheck x0 x1 s = runDev f s from ⟨_, rfl⟩))
  | .thermtrip => .inr (.inl (show ∃ f, execThermtrip s = runDev f s from ⟨_, rfl⟩))
  | .safCntClr => .inr (.inl (show ∃ f, execSafCntClr s = runDev f s from ⟨_, rfl⟩))
  | .resetRelease x0 => .inl (show ∃ f, execResetRelease x0 s = run f s from ⟨_, rfl⟩)
  | .porstAssert => .inr (.inr (.inr (.inr rfl)))
  | .powerFail => .inl (show ∃ f, execPowerFail s = run f s from ⟨_, rfl⟩)
  | .powerRestore => .inr (.inl (show ∃ f, execPowerRestore s = runDev f s from ⟨_, rfl⟩))
  | .cooling => .inl (show ∃ f, execCooling s = run f s from ⟨_, rfl⟩)
  | .capWrite x0 => .inr (.inl (show ∃ f, execCapWrite x0 s = runDev f s from ⟨_, rfl⟩))
  | .boostWrite x0 => .inr (.inl (show ∃ f, execBoostWrite x0 s = runDev f s from ⟨_, rfl⟩))
  | .governor x0 => .inr (.inl (show ∃ f, execGovernor x0 s = runDev f s from ⟨_, rfl⟩))
  | .pwrCntClr => .inr (.inl (show ∃ f, execPwrCntClr s = runDev f s from ⟨_, rfl⟩))
  | .tapChal => .inr (.inl (show ∃ f, execTapChal s = runDev f s from ⟨_, rfl⟩))
  | .tapToken x0 => .inl (show ∃ f, execTapToken x0 s = run f s from ⟨_, rfl⟩)
  | .challengeExpire => .inr (.inl (show ∃ f, execChallengeExpire s = runDev f s from ⟨_, rfl⟩))
  | .busacc x0 x1 x2 x3 => .inl (show ∃ f, execBusacc x0 x1 x2 x3 s = run f s from ⟨_, rfl⟩)
  | .halt => .inr (.inl (show ∃ f, execHalt s = runDev f s from ⟨_, rfl⟩))
  | .step => .inr (.inl (show ∃ f, execStep s = runDev f s from ⟨_, rfl⟩))
  | .resume => .inr (.inl (show ∃ f, execResume s = runDev f s from ⟨_, rfl⟩))
  | .sdioWrite x0 => .inr (.inl (show ∃ f, execSdioWrite x0 s = runDev f s from ⟨_, rfl⟩))
  | .sdioRead x0 => .inr (.inl (show ∃ f, execSdioRead x0 s = runDev f s from ⟨_, rfl⟩))
  | .sdioCntClr => .inr (.inl (show ∃ f, execSdioCntClr s = runDev f s from ⟨_, rfl⟩))
  | .devInfo x0 => .inl (show ∃ f, execDevInfo x0 s = run f s from ⟨_, rfl⟩)
  | .echo x0 => .inl (show ∃ f, execEcho x0 s = run f s from ⟨_, rfl⟩)
  | .reset x0 => .inl (show ∃ f, execReset x0 s = run f s from ⟨_, rfl⟩)
  | .regRead x0 => .inl (show ∃ f, execRegRead x0 s = run f s from ⟨_, rfl⟩)
  | .regWrite x0 => .inl (show ∃ f, execRegWrite x0 s = run f s from ⟨_, rfl⟩)
  | .regRmw x0 => .inl (show ∃ f, execRegRmw x0 s = run f s from ⟨_, rfl⟩)
  | .memRead x0 x1 => .inl (show ∃ f, execMemRead x0 x1 s = run f s from ⟨_, rfl⟩)
  | .memWrite x0 x1 x2 => .inl (show ∃ f, execMemWrite x0 x1 x2 s = run f s from ⟨_, rfl⟩)
  | .memFill x0 x1 x2 => .inl (show ∃ f, execMemFill x0 x1 x2 s = run f s from ⟨_, rfl⟩)
  | .memCheck x0 x1 => .inl (show ∃ f, execMemCheck x0 x1 s = run f s from ⟨_, rfl⟩)
  | .routeLoad x0 => .inl (show ∃ f, execRouteLoad x0 s = run f s from ⟨_, rfl⟩)
  | .routeUnload x0 => .inl (show ∃ f, execRouteUnload x0 s = run f s from ⟨_, rfl⟩)
  | .routeBind x0 => .inl (show ∃ f, execRouteBind x0 s = run f s from ⟨_, rfl⟩)
  | .routeUnbind x0 => .inl (show ∃ f, execRouteUnbind x0 s = run f s from ⟨_, rfl⟩)
  | .loopConfig x0 => .inl (show ∃ f, execLoopConfig x0 s = run f s from ⟨_, rfl⟩)
  | .loopPreempt x0 => .inl (show ∃ f, execLoopPreempt x0 s = run f s from ⟨_, rfl⟩)
  | .nsConfig x0 => .inl (show ∃ f, execNsConfig x0 s = run f s from ⟨_, rfl⟩)
  | .seqOpen x0 => .inl (show ∃ f, execSeqOpen x0 s = run f s from ⟨_, rfl⟩)
  | .seqClose x0 => .inl (show ∃ f, execSeqClose x0 s = run f s from ⟨_, rfl⟩)
  | .seqFork x0 => .inl (show ∃ f, execSeqFork x0 s = run f s from ⟨_, rfl⟩)
  | .seqTruncate x0 => .inl (show ∃ f, execSeqTruncate x0 s = run f s from ⟨_, rfl⟩)
  | .seqDrop x0 => .inl (show ∃ f, execSeqDrop x0 s = run f s from ⟨_, rfl⟩)
  | .batchSet x0 => .inl (show ∃ f, execBatchSet x0 s = run f s from ⟨_, rfl⟩)
  | .streamOpen x0 => .inl (show ∃ f, execStreamOpen x0 s = run f s from ⟨_, rfl⟩)
  | .streamClose x0 => .inl (show ∃ f, execStreamClose x0 s = run f s from ⟨_, rfl⟩)
  | .regionCreate x0 => .inl (show ∃ f, execRegionCreate x0 s = run f s from ⟨_, rfl⟩)
  | .regionDelete x0 => .inl (show ∃ f, execRegionDelete x0 s = run f s from ⟨_, rfl⟩)
  | .regionRead x0 x1 x2 x3 => .inl (show ∃ f, execRegionRead x0 x1 x2 x3 s = run f s from ⟨_, rfl⟩)
  | .regionWrite x0 x1 => .inl (show ∃ f, execRegionWrite x0 x1 s = run f s from ⟨_, rfl⟩)
  | .regionTrim x0 => .inl (show ∃ f, execRegionTrim x0 s = run f s from ⟨_, rfl⟩)
  | .regionSeal x0 => .inl (show ∃ f, execRegionSeal x0 s = run f s from ⟨_, rfl⟩)
  | .regionList x0 => .inl (show ∃ f, execRegionList x0 s = run f s from ⟨_, rfl⟩)
  | .flashFormat x0 x1 x2 => .inr (.inr (.inl (show ∃ k f, execFlashFormat x0 x1 x2 s = runKeep k f s from ⟨_, _, rfl⟩)))
  | .fwActivate x0 x1 => .inl (show ∃ f, execFwActivate x0 x1 s = run f s from ⟨_, rfl⟩)
  | .fwCommit x0 => .inl (show ∃ f, execFwCommit x0 s = run f s from ⟨_, rfl⟩)
  | .timeGet x0 => .inl (show ∃ f, execTimeGet x0 s = run f s from ⟨_, rfl⟩)
  | .timeSet x0 => .inl (show ∃ f, execTimeSet x0 s = run f s from ⟨_, rfl⟩)
  | .ceEnable x0 => .inl (show ∃ f, execCeEnable x0 s = run f s from ⟨_, rfl⟩)
  | .ceSwap x0 => .inl (show ∃ f, execCeSwap x0 s = run f s from ⟨_, rfl⟩)
  | .ceSetpoint x0 => .inl (show ∃ f, execCeSetpoint x0 s = run f s from ⟨_, rfl⟩)
  | .ceMode x0 => .inl (show ∃ f, execCeMode x0 s = run f s from ⟨_, rfl⟩)
  | .faultLog x0 => .inl (show ∃ f, execFaultLog x0 s = run f s from ⟨_, rfl⟩)
  | .faultAck x0 => .inl (show ∃ f, execFaultAck x0 s = run f s from ⟨_, rfl⟩)
  | .safetyClear x0 x1 => .inl (show ∃ f, execSafetyClear x0 x1 s = run f s from ⟨_, rfl⟩)
  | .cairnConfig x0 => .inl (show ∃ f, execCairnConfig x0 s = run f s from ⟨_, rfl⟩)
  | .idCert x0 => .inl (show ∃ f, execIdCert x0 s = run f s from ⟨_, rfl⟩)
  | .attest x0 => .inl (show ∃ f, execAttest x0 s = run f s from ⟨_, rfl⟩)
  | .debugChallenge x0 => .inl (show ∃ f, execDebugChallenge x0 s = run f s from ⟨_, rfl⟩)
  | .debugToken x0 => .inl (show ∃ f, execDebugToken x0 s = run f s from ⟨_, rfl⟩)
  | .lifecycle x0 => .inl (show ∃ f, execLifecycle x0 s = run f s from ⟨_, rfl⟩)
  | .ownerKey x0 => .inl (show ∃ f, execOwnerKey x0 s = run f s from ⟨_, rfl⟩)
  | .recoveryLoad x0 => .inl (show ∃ f, execRecoveryLoad x0 s = run f s from ⟨_, rfl⟩)
  | .traceRead x0 => .inl (show ∃ f, execTraceRead x0 s = run f s from ⟨_, rfl⟩)
  | .trnCntClr => .inr (.inl (show ∃ f, execTrnCntClr s = runDev f s from ⟨_, rfl⟩))
  | .trnEn x0 => .inl (show ∃ f, execTrnEn x0 s = run f s from ⟨_, rfl⟩)
  | .carryIntoSeconds => .inr (.inl (show ∃ f, execCarryIntoSeconds s = runDev f s from ⟨_, rfl⟩))
  | .ethLinkChange x0 x1 => .inr (.inl (show ∃ f, execEthLinkChange x0 x1 s = runDev f s from ⟨_, rfl⟩))
  | .parity x0 x1 => .inr (.inl (show ∃ f, execParity x0 x1 s = runDev f s from ⟨_, rfl⟩))
  | .xbarFault x0 => .inr (.inl (show ∃ f, execXbarFault x0 s = runDev f s from ⟨_, rfl⟩))
  | .codewordLock x0 => .inr (.inl (show ∃ f, execCodewordLock x0 s = runDev f s from ⟨_, rfl⟩))
  | .ioe1Write x0 => .inr (.inl (show ∃ f, execIoe1Write x0 s = runDev f s from ⟨_, rfl⟩))
  | .dmi x0 x1 => .inl (show ∃ f, execDmi x0 x1 s = run f s from ⟨_, rfl⟩)

/-- A step takes the front command and runs it with the rest of the queue. -/
theorem step_cons (c : Instr) (rest : List Instr) (s : State) (h : s.pending = c :: rest) :
    step s = exec c { s with pending := rest } := by
  simp [step, h]

end Sys2Proof.Machine
end

