-- ==== Sys2Proof/Laws/Issue.lean ====
section
/-!
SUPPORT. What the shared operations of packet commands and of list entries do when the command may run.
-/
namespace Sys2Proof.Machine

/-- An opcode command whose packet may run runs on it. -/
theorem Mach.cmd_ready {s : State} {op tag : Nat} {p : Packet} (h : Safety.ready s op tag p) (f : Mach → Packet → Mach) :
    Mach.cmd ⟨s.mem, [], s.dev⟩ op tag f = f ⟨s.mem, [], s.dev⟩ p := by
  obtain ⟨h1, h2, h3, h4⟩ := h
  simp only [Mach.cmd, h1, h2, h3, h4]
  rfl

/-- No operand error: the machine stays. -/
@[simp] theorem Mach.upsets_nil (m : Mach) : m.upsets [] = m := rfl

/-- A list whose reading has met no error does not abort. -/
theorem Mach.checkBad_good {m : Mach} {k : Nat} (h : ∀ l, m.dev.list k = some l → l.bad = none) : m.checkBad k = m := by
  unfold Mach.checkBad
  split
  · rfl
  next l e => simp [ListSt.atBad, h l e]

/-- An entry that the sequencer does not pass over is not passed over. -/
theorem Mach.passFetches_front {m : Mach} {k fuel : Nat} {l : ListSt} {st : StepSt} {i e : Nat}
    (h : m.running k = some (l, st)) (hf : l.front = some (i, e)) (hp : passedOver e = false) : m.passFetches k fuel = m := by
  cases fuel with
  | zero => rfl
  | succ n => simp [Mach.passFetches, h, hf, hp]

/-- An entry that may issue issues. -/
theorem Mach.issue_eq {s : State} {k i e : Nat} {l : ListSt} {st : StepSt} (h : Safety.issues s k l st i e)
    (want : Nat → Bool) (hw : want e = true) (f : Mach → Iss → Mach) :
    Mach.issue ⟨s.mem, [], s.dev⟩ k want f = (f ⟨s.mem, [], s.dev.setList k l.take⟩ ⟨k, l.loop, i, e, st⟩).checkBad k := by
  obtain ⟨h1, h2, h3, h4, h5, _⟩ := h
  unfold Safety.mach at h1 h4 h5
  unfold Mach.issue
  simp only [Mach.passFetches_front h1 h2 h3, h1, h2, hw, h4, h5]
  rfl

/-- A list that may issue stands in the state, read without error, and its step runs. -/
theorem running_spec {s : State} {k i e : Nat} {l : ListSt} {st : StepSt} (h : Safety.issues s k l st i e) :
    s.dev.list k = some l ∧ (s.dev.loop l.loop).step = some st ∧ st.phase = .running ∧ l.bad = none := by
  obtain ⟨h1, _, _, _, _, h6⟩ := h
  unfold Safety.mach Mach.running at h1
  simp only at h1
  split at h1
  · cases h1
  next l' hl =>
    split at h1
    · cases h1
    next st' hs =>
      split at h1
      next hc =>
        cases h1
        refine ⟨hl, hs, ?_, h6⟩
        simp only [Bool.and_eq_true, beq_iff_eq] at hc
        exact hc.1.1.1.1.1
      · cases h1

@[simp] theorem ListSt.take_bad (l : ListSt) : l.take.bad = l.bad := by
  simp only [ListSt.take]
  split <;> (try split) <;> rfl

@[simp] theorem ListSt.take_loop (l : ListSt) : l.take.loop = l.loop := by
  simp only [ListSt.take]
  split <;> (try split) <;> rfl

end Sys2Proof.Machine
end

