-- ==== Sys2Proof/WellFormed.lean ====
section
/-!
DEFINITION. Which commands are well formed.  Most operands are bounded by their types; the checks here are those that a
type does not say.  A meaning is total all the same: it takes an ill-formed operand as it stands.
-/
namespace Sys2Proof

/-- The places where a memory error of R122 or R352 can stand: HBM, or the tile memories; only an HBM burst comes back from
another offset. -/
def Upset.ok : Upset → Bool
  | .correctable a => decide (a < 0x1800000000) || (decide (0x010000000000 ≤ a) && decide (a < 0x010018000000))
  | .uncorrectable a _ => decide (a < 0x1800000000) || (decide (0x010000000000 ≤ a) && decide (a < 0x010018000000))
  | .wrongOffset a => decide (a < 0x1800000000)
  | .onDie _ => true
  | .bankWait _ _ => true

def upsetsOk (l : List Upset) : Bool := l.all Upset.ok

/-- The data lengths of CAN FD (ISO 11898-1, R411). -/
def canFdLengths : List Nat := [0, 1, 2, 3, 4, 5, 6, 7, 8, 12, 16, 20, 24, 32, 48, 64]

/-- A frame that the protocol of R411 has. -/
def CanFrame.wf (f : CanFrame) : Bool :=
  (f.ide || decide (f.id.toNat < 2048)) && !(f.fd && f.rtr) && (!f.rtr || f.data.isEmpty)
    && (if f.fd then canFdLengths.contains f.data.length else decide (f.data.length ≤ 8))

/-- The eleven steps of R493; only steps 4 and 5 fail in particular tiles. -/
def injectOk (r : List InjectResult) : Bool :=
  r.length == 11 && (List.range 11).all (fun n => match r[n]? with
    | some (.failedTiles _) => n == 4 || n == 5
    | _ => true)

/-- The command is well formed. -/
def Instr.wf : Instr → Bool
  | .unmappedRead .. => true
  | .unmappedWrite .. => true
  | .registerWrite _ a _ => a.toNat % 4 == 0
  | .registerRead _ a => a.toNat % 4 == 0
  | .paceSample r _ _ => r.length == 28
  | .paceFrozen .. => true
  | .paceRecovered .. => true
  | .clrPeak => true
  | .railSettled => true
  | .ndClr => true
  | .sload _ _ _ u => upsetsOk u
  | .pass .. => true
  | .arrayRow _ _ _ _ _ u => upsetsOk u
  | .swapFrontBack .. => true
  | .passCompare _ _ u => upsetsOk u
  | .arrayRemap .. => true
  | .drain _ _ u => upsetsOk u
  | .arrayRampStep .. => true
  | .arrayIdle .. => true
  | .arrCntClr .. => true
  | .wfetchPlain .. => true
  | .wfetchSpec _ u => upsetsOk u
  | .wfetchResolve _ u => upsetsOk u
  | .streamerFillStart .. => true
  | .fetchLanded _ _ u => upsetsOk u
  | .slotRelease .. => true
  | .listFetch _ _ u => upsetsOk u
  | .send _ u => upsetsOk u
  | .landingRow _ _ u => upsetsOk u
  | .recv _ u => upsetsOk u
  | .spurCall .. => true
  | .spurEcall _ _ u => upsetsOk u
  | .spurTrap _ _ u => upsetsOk u
  | .eccWriteBack .. => true
  | .memCntClr .. => true
  | .rdgCntClr .. => true
  | .specCntClr .. => true
  | .convCntClr .. => true
  | .ctap .. => true
  | .dtap .. => true
  | .argmax _ u => upsetsOk u
  | .supply _ u => upsetsOk u
  | .append .. => true
  | .tokens .. => true
  | .decode .. => true
  | .walk .. => true
  | .feed .. => true
  | .mark .. => true
  | .acquire .. => true
  | .release .. => true
  | .sign _ u => upsetsOk u
  | .endList .. => true
  | .stepEnd .. => true
  | .post .. => true
  | .graceFree .. => true
  | .pacedRelease .. => true
  | .guardStart .. => true
  | .windowOpen .. => true
  | .windowClose .. => true
  | .schedDecision .. => true
  | .preemptHold .. => true
  | .remoteTimeout .. => true
  | .saveDone _ _ _ _ _ _ u => upsetsOk u
  | .restoreDone _ _ u => upsetsOk u
  | .carrySaveDone _ _ _ u => upsetsOk u
  | .arbRequest .. => true
  | .arbGrant .. => true
  | .arbWatchdog .. => true
  | .arbFreeze .. => true
  | .arbCntClr => true
  | .schEn .. => true
  | .schCntClr => true
  | .loopEnWrite .. => true
  | .loopBoundReport .. => true
  | .linkTrain .. => true
  | .linkTrainTimeout .. => true
  | .flitRx _ f _ => f.length == 256
  | .replayTimeout .. => true
  | .recovery .. => true
  | .down .. => true
  | .colRead _ u => upsetsOk u
  | .colWrite _ u => upsetsOk u
  | .readResp .. => true
  | .writeResp .. => true
  | .colStream .. => true
  | .qcredit .. => true
  | .mgmt .. => true
  | .remoteAccessTimeout .. => true
  | .colTsync => true
  | .colBootTimeout => true
  | .retrain .. => true
  | .portEn .. => true
  | .colCntClr => true
  | .hbmRead a n _ _ u => decide (a.val + n ≤ 103079215104) && upsetsOk u
  | .hbmWrite a d _ _ u => decide (a.val + d.length ≤ 103079215104) && upsetsOk u
  | .hbmRefresh t => t.length == 4
  | .patrolScrub _ u => upsetsOk u
  | .hbmFillDone _ => true
  | .hbmCntClr => true
  | .flEn .. => true
  | .mountDone .. => true
  | .nandOperationDone .. => true
  | .journalFlush => true
  | .checkpoint => true
  | .retentionScrub .. => true
  | .garbageCollect => true
  | .flashClosed => true
  | .flashResume => true
  | .flCntClr => true
  | .cvJob r _ _ => r == 187 || r == 188 || r == 255
  | .cvSliceEnd .. => true
  | .claim .. => true
  | .cvStart .. => true
  | .cvData .. => true
  | .cvValHi .. => true
  | .cvCntHi .. => true
  | .tbMeasurement m => decide (0 < m.interval)
  | .tbSourceTimeout => true
  | .restep => true
  | .tbCntClr => true
  | .counterCompare => true
  | .cmpFire .. => true
  | .cmpTargetWrite .. => true
  | .evtIn .. => true
  | .ethRx _ f _ => decide (14 ≤ f.length)
  | .feedback .. => true
  | .sensor .. => true
  | .driveReceived .. => true
  | .txSelect .. => true
  | .change .. => true
  | .gclApply .. => true
  | .ptpRoleWrite .. => true
  | .ethCntClr .. => true
  | .canRx _ f => f.wf
  | .canTx .. => true
  | .errorPassive .. => true
  | .busOff .. => true
  | .canRecovered .. => true
  | .recover .. => true
  | .canCntClr .. => true
  | .csiPacket _ _ _ _ _ _ l => decide (l.length < 65536)
  | .csiFrameStart .. => true
  | .csiFrameEnd .. => true
  | .tensorComplete .. => true
  | .waitnewBind .. => true
  | .sampleDecoded .. => true
  | .missingPos .. => true
  | .ingCntClr => true
  | .ceInstant => true
  | .channelEval .. => true
  | .ceEnWrite .. => true
  | .swap => true
  | .ceModeWrite .. => true
  | .ceManWrite .. => true
  | .arm .. => true
  | .force => true
  | .ceCntClr => true
  | .faultRecord .. => true
  | .warmReset => true
  | .errorInjection r => injectOk r
  | .stepSupervisorExpire .. => true
  | .segmentExpire .. => true
  | .chunkDone _ _ u => upsetsOk u
  | .selftestForce .. => true
  | .late .. => true
  | .haltTimeout .. => true
  | .fence .. => true
  | .ringBreak .. => true
  | .mismatch .. => true
  | .clock => true
  | .rail .. => true
  | .thermalCheck _ h => h.length == 4
  | .thermtrip => true
  | .safCntClr => true
  | .resetRelease .. => true
  | .porstAssert => true
  | .powerFail => true
  | .powerRestore => true
  | .cooling => true
  | .capWrite .. => true
  | .boostWrite .. => true
  | .governor .. => true
  | .pwrCntClr => true
  | .tapChal => true
  | .tapToken t => t.length == 288
  | .challengeExpire => true
  | .busacc _ _ _ u => upsetsOk u
  | .halt => true
  | .step => true
  | .resume => true
  | .sdioWrite b => decide (b.length ≤ 65536)
  | .sdioRead .. => true
  | .sdioCntClr => true
  | .devInfo .. => true
  | .echo .. => true
  | .reset .. => true
  | .regRead .. => true
  | .regWrite .. => true
  | .regRmw .. => true
  | .memRead _ u => upsetsOk u
  | .memWrite _ _ u => upsetsOk u
  | .memFill _ _ u => upsetsOk u
  | .memCheck _ u => upsetsOk u
  | .routeLoad .. => true
  | .routeUnload .. => true
  | .routeBind .. => true
  | .routeUnbind .. => true
  | .loopConfig .. => true
  | .loopPreempt .. => true
  | .nsConfig .. => true
  | .seqOpen .. => true
  | .seqClose .. => true
  | .seqFork .. => true
  | .seqTruncate .. => true
  | .seqDrop .. => true
  | .batchSet .. => true
  | .streamOpen .. => true
  | .streamClose .. => true
  | .regionCreate .. => true
  | .regionDelete .. => true
  | .regionRead _ _ _ u => upsetsOk u
  | .regionWrite _ u => upsetsOk u
  | .regionTrim .. => true
  | .regionSeal .. => true
  | .regionList .. => true
  | .flashFormat .. => true
  | .fwActivate .. => true
  | .fwCommit .. => true
  | .timeGet .. => true
  | .timeSet .. => true
  | .ceEnable .. => true
  | .ceSwap .. => true
  | .ceSetpoint .. => true
  | .ceMode .. => true
  | .faultLog .. => true
  | .faultAck .. => true
  | .safetyClear .. => true
  | .cairnConfig .. => true
  | .idCert .. => true
  | .attest .. => true
  | .debugChallenge .. => true
  | .debugToken .. => true
  | .lifecycle .. => true
  | .ownerKey .. => true
  | .recoveryLoad .. => true
  | .traceRead .. => true
  | .trnCntClr => true
  | .trnEn .. => true
  | .carryIntoSeconds => true
  | .ethLinkChange .. => true
  | .parity .. => true
  | .xbarFault .. => true
  | .codewordLock .. => true
  | .ioe1Write .. => true
  | .dmi .. => true

end Sys2Proof
end

