-- ==== Sys2Proof/Tests/Slice0.lean ====
section
/-!
SUPPORT. Tests: for every statement with hypotheses a state and operands that meet them, at boundary values; ill-formed operands
refused; and the spec's own worked examples.
-/
namespace Sys2Proof.Tests
open Sys2Proof.Machine
set_option Elab.async false

/-- The machine running its firmware, power on, with the rest of the device at reset but for `f`. -/
def on (f : Dev → Dev := id) : State :=
  { State.reset with dev := f { State.reset.dev with
      boot := { phase := .running }
      pwr := { porst := false, fabOn := true } } }

/-- A packet of the command interface with tag 7. -/
def pk (op : Nat) (payload : List Byte := []) : Packet := ⟨op, 7, false, 0, payload, 0⟩

/-- The machine with that one packet accepted and not answered. -/
def got (p : Packet) (f : Dev → Dev := id) : State := on (fun d => f { d with sdio := { outstanding := [p] } })

/-- A route of one ridge without lists. -/
def route : Route :=
  { addr := 0x1000, len := 64, id := 1, grade := 0, nridges := 1, runAhead := 0, flags := 0, budget := 100, spurBase := 0,
    spurLen := 0, spurStack := 0, bases := 0, npkg := 1, spurOff := 0, lists := [], tarnOff := 0, tarnCnt := 0, ingOff := 0,
    ingCnt := 0, live := [], res := [⟨0, false, 3, 1⟩], tabs := [] }

/-- It bound to ridge 0. -/
def bound : Binding :=
  { handle := 5, route := route, ridges := [0], bases := [], pmap := [0, 0, 0, 0], spec := false }

/-- A step of it. -/
def stp : StepSt := { b := bound, budget := 100 }

/-- A list entry of a kind, with fields given as (lowest bit, value). -/
def entry (kind : Nat) (fs : List (Nat × Nat)) : Nat := kind * 2 ^ 123 + (fs.map (fun f => f.2 * 2 ^ f.1)).sum

/-- Loop `n` runs a step in which list `k` has the entries `es` in its buffer. -/
def step1 (n k : Nat) (es : List Nat) (f : Dev → Dev := id) : State :=
  on (fun d => f { d with
    loops := [(n, { binding := some bound, step := some stp })]
    lists := [(k, { loop := n, addr := 0x2000, count := 9, buf := es })] })
/-- That list. -/
def lst (n : Nat) (es : List Nat) : ListSt := { loop := n, addr := 0x2000, count := 9, buf := es }

/-- Bytes `bs` placed in memory at `a`. -/
def cells : Nat → List Byte → Memory
  | _, [] => []
  | a, b :: bs => if b = 0 then cells (a + 1) bs else (a, b) :: cells (a + 1) bs

/-- A debug token with this scope, of slot 1 and challenge zero, signed by the private key 1 (Python's hashlib and integers). -/
def token (scope s : Nat) : List Byte :=
  leBytes 4 0x5A56554C ++ [1, 0, 0, 0] ++ List.replicate 40 0 ++ leBytes 4 scope ++ List.replicate 12 0
    ++ (4 :: beBytes 48 ecGx ++ beBytes 48 ecGy) ++ List.replicate 31 0
    ++ beBytes 48 0x2282BC382A2F4DFCB95C3495D7B4FD590AD520B3EB6BE4D6EC2F80C4E0F70DF87C4BA74A09B553EBB427B58DF9D59FCA
    ++ beBytes 48 s
def debugToken : List Byte :=
  token 7 0x1357B7D3043FA7F4C2A28664CD788BC2F6B13A6A34ACBE2B300A4755FEA6E072A0B0EAE5B3D5B8CE2AF6EC730FA0DBB3
def lifeToken : List Byte :=
  token 0x80000002 0x38D9255B40329AAB24E6C4440E6F65D8850C256A583D39D6635BEB01F7C951544AFE0EBB224A1538703C12B2CA03093A

def retireToken : List Byte :=
  token 0x80000004 0x8A813D605D932AE2B932905E5EDF535F7B90F0BD5CB7B0E4CF9FA08C94401754737342A055D5F06AB97A4B0C64654304

/-- The device that has issued the challenge zero, with that key's hash in slot 1. -/
def challenged (d : Dev) : Dev := { d with
  boot := { d.boot with
    challenge := some (List.replicate 32 0, 0, 0)
    fuses := { d.boot.fuses with
      hashes := [[], beBytes 48
        0xA698D2942608CD981489F61EA7B34A9C606E4E778F461EAC93BD6E4DD1D23898A449D4EA14B617D6F8A49FAB761632D1, [], []] } } }

/-- The image of a route of one ridge whose lists are empty. -/
def image : List Byte :=
  let tail := leBytes 4 1 ++ [0, 1, 1, 0] ++ leBytes 4 100 ++ leBytes 4 0 ++ leBytes 4 0 ++ leBytes 4 0x33FFF0 ++ [0, 1, 0, 0]
    ++ leBytes 8 128 ++ leBytes 8 128 ++ List.replicate 128 0
  leBytes 4 0x5A565254 ++ leBytes 2 1 ++ leBytes 2 0x80 ++ leBytes 8 192 ++ leBytes 4 (crc32c tail) ++ tail

/-- Sequence slot 3 open under generation 2, with these flags. -/
def seqMem (flags : Byte) : Memory := cells (tarnMem + 64 * 3) [1, 0, flags, 2]

/-- A stream-table entry of a NET stream of whole frames of bytes. -/
def netEntry : List Byte :=
  [1, 6, 0, 0, 5, 0, 0, 0] ++ List.replicate 8 0 ++ leBytes 4 1000 ++ [3, 2, 0, 0] ++ leBytes 8 0x10000 ++ List.replicate 48 0
    ++ leBytes 4 64 ++ List.replicate 44 0

/-- A firmware image of 16 body bytes for slot key 0, signed by the private key 1 (Python's hashlib and integers). -/
def fwImage (kind load s : Nat) : List Byte :=
  leBytes 4 0x5A564657 ++ [1, 0] ++ leBytes 2 kind ++ List.replicate 8 0 ++ leBytes 8 load ++ List.replicate 8 0 ++ leBytes 4 16
    ++ List.replicate 13 0 ++ [0x0F] ++ List.replicate 14 0
    ++ beBytes 48 0xEDC6FCB251DEA322D541F325556EC4868A0E18E8AFC1CD9DBA4DF4C84343D3394633D401F230301CAF9AAD17793B6021
    ++ (4 :: beBytes 48 ecGx ++ beBytes 48 ecGy) ++ List.replicate 15 0
    ++ beBytes 48 0x2282BC382A2F4DFCB95C3495D7B4FD590AD520B3EB6BE4D6EC2F80C4E0F70DF87C4BA74A09B553EBB427B58DF9D59FCA
    ++ beBytes 48 s ++ List.replicate 192 0 ++ List.replicate 16 7
def stage1 : List Byte := fwImage 1 summitRam
  0x2EF953BB190DCADD947820CEA925EAD9977FD98B93AA97101EB919279850E2E3265BD77801F8EADA63BFF8BB00154F98
def tarinady : List Byte := fwImage 2 0
  0x7A0FFE1DD8102B8F8E6B2AE9B6A49744E23E905022804AA8BE436D27E8A0B8B9071FCED36DD970EE9F7CAEBB9FD6CCE5
def pad : List Byte := List.replicate 15856 0
/-- Firmware slot 1, which is region 1 of the flash, with both images. -/
def slotMem : Memory := cells (flashMem + 0x14000) (stage1 ++ pad ++ tarinady)
def slots (d : Dev) : Dev :=
  let d := (challenged d).setFlState FL.READY
  { d with
    boot := { d.boot with
      challenge := none
      fuses := { d.boot.fuses with hashes := d.boot.fuses.hashes.set 0 (d.boot.fuses.hashes.getD 1 []) } }
    flash := { d.flash with regions := [(0, ⟨0, 0, 4, false, 0⟩), (1, ⟨0, 4, 4, false, 0⟩)] } }

/-! ### Each statement's hypotheses can be met: one theorem a statement, one line a clause -/

theorem witness_StepRunsFrontCommand :
    ({ State.reset with pending := [.clrPeak, .thermtrip] } : State).pending = .clrPeak :: [.thermtrip] := by decide +kernel

theorem witness_EmptyQueueIdles : State.reset.pending = [] ∧ State.reset.dev.boot.phase = .off := by decide +kernel

theorem witness_StepKeepsMemoryCanonical :
    Safety.memOk { on with mem := [(5, 7)] } ∧ ∃ t, step { on with mem := [(5, 7)] } = .next t :=
  ⟨by unfold Safety.memOk; decide +kernel, _, rfl⟩

theorem witness_PaceMonitors :
    (on.dev.pwr.fabOn = true ∧ 27 < 28 ∧ (List.replicate 28 (5 : BitVec 16))[27]? = some 5)
    ∧ (let s := on (fun d => { d with paces := [(3, { same := 10 })] })
       s.dev.pwr.fabOn = true ∧ 10 ≤ (s.dev.pace 3).same ∧ s.dev.paceInvalid 3 = false)
    ∧ (let s := on (fun d => { d.setReg Reg.GEN_PACE_CTRL 8 with paces := [(3, { good := 100 })] })
       100 ≤ (s.dev.pace 3).good ∧ s.dev.paceInvalid 3 = true) := by decide +kernel

theorem witness_MonitorsRaiseFaults :
    (1800 * (100 - 3) ≤ 100 * (1854#16).toNat ∧ 100 * (1854#16).toNat ≤ (on.dev.railLimits 0).1 * (100 + (on.dev.railLimits 0).2))
    ∧ ¬ 100 * (1855#16).toNat ≤ (on.dev.railLimits 0).1 * (100 + (on.dev.railLimits 0).2)
    ∧ on.dev.ridgeOn 23 = true := by decide +kernel

theorem witness_WatchAgentsResetAndFence :
    (on (fun d => { d with saf := { halting := [95] } })).dev.saf.halting.contains (95 : Fin 96).val = true
    ∧ (on (fun d => { d with saf := { wasReset := [95] } })).dev.saf.wasReset.contains (95 : Fin 96).val = true
    ∧ on.dev.ridgeOn 23 = true := by decide +kernel

/-- A change to `cap` with `boost` under way, asked for by PWR_CTRL. -/
def capChange (cap : Nat) (boost : Bool) : State := on (fun d =>
  let d := (d.wf Reg.PWR_CTRL Fld.PWR_CTRL.CAP cap).wf Reg.PWR_CTRL Fld.PWR_CTRL.BOOST (b2n boost)
  { d with pwr := { d.pwr with change := some (cap, boost) } })

theorem witness_PowerCapsAndGovernor :
    (on (fun d => d.wf Reg.PWR_STAT Fld.PWR_STAT.BOOT_ONLY 1)).dev.bootOnly = true
    ∧ (on.dev.bootOnly = false ∧ on.dev.pwr.fabOn = true ∧ on.dev.pwr.change = none ∧ (2#2).toNat ≠ on.dev.capEff)
    ∧ (let s := on (fun d => (d.wf Reg.PWR_CTRL Fld.PWR_CTRL.CAP 3).wf Reg.PWR_STAT Fld.PWR_STAT.CAP_EFF 3)
       s.dev.bootOnly = false ∧ s.dev.pwr.fabOn = true ∧ s.dev.pwr.change = none ∧ s.dev.rf Reg.PWR_CTRL Fld.PWR_CTRL.CAP = 3
         ∧ s.dev.capEff = 3 ∧ s.dev.rfB Reg.PWR_CTRL Fld.PWR_CTRL.BOOST ≠ true)
    ∧ (on.dev.bootOnly = false ∧ (BitVec.ofNat 2 on.dev.capEff).toNat = on.dev.capEff
       ∧ on.dev.rf Reg.PWR_CTRL Fld.PWR_CTRL.CAP = on.dev.capEff ∧ on.dev.rfB Reg.PWR_CTRL Fld.PWR_CTRL.BOOST = false)
    ∧ (let s := on (fun d => { d with pwr := { d.pwr with change := some (2, false) } })
       s.dev.pwr.change = some (2, false) ∧ s.dev.rf Reg.PWR_CTRL Fld.PWR_CTRL.CAP ≠ 2)
    ∧ (let s := on (fun d => { d with pwr := { d.pwr with change := some (3, true) } })
       s.dev.pwr.change = some (3, true) ∧ s.dev.rfB Reg.PWR_CTRL Fld.PWR_CTRL.BOOST ≠ true)
    ∧ ((capChange 3 true).dev.pwr.change = some (3, true) ∧ (capChange 3 true).dev.rf Reg.PWR_CTRL Fld.PWR_CTRL.CAP = 3
       ∧ (capChange 3 true).dev.rfB Reg.PWR_CTRL Fld.PWR_CTRL.BOOST = true)
    ∧ on.dev.pwr.porst = false := by decide +kernel

theorem witness_PowerFailureAndCooling :
    (on.dev.pwr.porst = false ∧ on.dev.pwr.pwrFail = false)
    ∧ (on (fun d => { d with pwr := { d.pwr with pwrFail := true } })).dev.pwr.pwrFail = true
    ∧ on.dev.bootOnly = false ∧ on.dev.pwr.pwrFail = false
    ∧ State.reset.dev.pwr.porst = true := by decide +kernel

theorem witness_ThermalLimits : on.dev.pwr.porst = false ∧ (106 : Int) > 105 ∧ State.reset.dev.pwr.porst = true := by
  decide +kernel

theorem witness_FaultRecordIsLoggedAndActs :
    let f := Safety.rec 3 Src.TIMEBASE 2 0xFFFF 0
    let s := on (fun d => { d with raised := [f] })
    s.dev.raised = f :: [] ∧ s.dev.promoted f ≥ 3 := by decide +kernel

theorem witness_InjectionEndsStartUp :
    let s := on (fun d => { d with boot := { phase := .injecting, fuses := { lcs := 4 } } })
    s.dev.boot.phase = .injecting ∧ s.dev.boot.fuses.lcs = 4 := by decide +kernel

theorem witness_SupervisionExpires :
    (let st : StepSt := { stp with budget := 0 }
     let s := on (fun d => { d with loops := [(15, { step := some st })] })
     (s.dev.loop 15).step = some st ∧ st.phase = .running ∧ s.dev.dbgHalted 15 = false ∧ st.budget ≤ 0)
    ∧ (let x : ListSt := { lst 4 [] with segment := some 0 }
       let s := step1 4 127 [] (fun d => d.setList 127 x)
       s.dev.list (listKey (.ingest 15)) = some x ∧ (s.dev.loop x.loop).step = some stp ∧ stp.phase = .running
         ∧ s.dev.dbgHalted x.loop = false ∧ x.segment = some 0 ∧ (0 : Rat) ≤ 0)
    ∧ (let st : StepSt := { stp with budget := 1 / 1000 }
       let s := on (fun d => { d with loops := [(15, { step := some st })] })
       (s.dev.loop 15).step = some st ∧ 0 < st.budget)
    ∧ (let x : ListSt := { lst 4 [] with segment := some (1 / 1000) }
       let s := step1 4 127 [] (fun d => d.setList 127 x)
       s.dev.list (listKey (.ingest 15)) = some x ∧ (0 : Rat) < 1 / 1000) := by decide +kernel

theorem witness_SelfTestProgress :
    ((on (fun d => d.modTile 95 (fun t => { t with chunk := some 3 }))).dev.tile 95).chunk = some 3
    ∧ (let s := on (fun d => (d.wf Reg.SAF_CTRL Fld.SAF_CTRL.ST_EN 1).wf Reg.SAF_STAT Fld.SAF_STAT.OUT_EN 1)
       s.dev.tileOn 95 = true ∧ s.dev.rfB Reg.SAF_CTRL Fld.SAF_CTRL.ST_EN = true
         ∧ s.dev.rfB Reg.SAF_STAT Fld.SAF_STAT.OUT_EN = true) := by decide +kernel

theorem test_token_verifies :
    (on challenged).dev.tokenStatus debugToken false = ST.OK
      ∧ (on challenged).dev.tokenStatus (debugToken.set 0x30 6) false = ST.SIGNATURE := by decide +kernel

theorem witness_ChallengesAndTokens :
    ((on challenged).dev.pwr.porst = false ∧ (on challenged).dev.tokenFails < 3 ∧ (on challenged).dev.dbgOpen = false)
    ∧ (on (fun d => d.wf Reg.DBG_STAT Fld.DBG_STAT.FAILS 3)).dev.tokenFails ≥ 3 ∧ State.reset.dev.pwr.porst = true
    ∧ (on challenged).dev.tokenStatus [] false ≠ ST.OK ∧ (on challenged).dev.tokenStatus debugToken false = ST.OK
    ∧ (on challenged).dev.boot.challenge ≠ none := by decide +kernel

theorem witness_ReplyEntersBuffer :
    let p := pk 0x0102 [1, 2]
    let d := (got p).dev
    d.servedFor p.tag = none ∧ d.sdio.waiting = [] ∧ ST.FAULT ≠ ST.DEFERRED ∧ ST.FAULT ≠ ST.OK
      ∧ d.sdio.replyBytes + (mkPacket p.op p.tag 1 p.pkg ST.FAULT []).length ≤ 65536
      ∧ ∀ x ∈ d.sdio.outstanding, x.pkg = d.pkg := by decide +kernel

theorem witness_IdentityEchoAndTimePackets :
    (∀ op ∈ [0x0101, 0x0102, 0x0901, 0x0601], Safety.ready (got (pk op [9])) op (7#16).toNat (pk op [9]))
    ∧ (let p := pk 0x0602 (leBytes 8 (2 ^ 30 + 999999999))
       Safety.ready (got p) 0x0602 (7#16).toNat p ∧ pay64 p.payload 0 % 2 ^ 30 < 1000000000 ∧ (got p).dev.tbState = tbFree)
    ∧ (let p := pk 0x0602 (leBytes 8 (2 ^ 30 + 999999999))
       let s := got p (fun d => d.wf Reg.TB_STAT Fld.TB_STAT.STATE tbLocked)
       Safety.ready s 0x0602 (7#16).toNat p ∧ s.dev.tbState ≠ tbFree) := by
  unfold Safety.ready; and_intros <;> decide +kernel

/-- A register command on `n` words at `a`. -/
def regCmd (op a n : Nat) (rest : List Byte := []) : Packet := pk op (leBytes 8 a ++ leBytes 4 n ++ rest)

theorem witness_RegisterPackets :
    (let p := regCmd 0x0201 regSpace 0
     Safety.ready (got p) 0x0201 (7#16).toNat p
      ∧ (got p).dev.regRange (pay64 p.payload 0) (pay32 p.payload 8) = some ST.BAD_PARAM)
    ∧ (let p := regCmd 0x0201 Reg.GEN_ID 2
       Safety.ready (got p) 0x0201 (7#16).toNat p ∧ (got p).dev.regRange (pay64 p.payload 0) (pay32 p.payload 8) = none)
    ∧ (let p := regCmd 0x0202 Reg.GEN_PACE_SLOW 1 [1, 0, 0, 0]
       Safety.ready (got p) 0x0202 (7#16).toNat p ∧ (got p).dev.regRange (pay64 p.payload 0) (pay32 p.payload 8) = none)
    ∧ (let p := regCmd 0x0203 Reg.GEN_PACE_SLOW 1 [1, 0, 0, 0]
       let a := pay64 p.payload 0
       let (m1, old) := (Safety.mach (got p)).regRead (agentId .command) a
       Safety.ready (got p) 0x0203 (7#16).toNat p ∧ (got p).dev.regRange a 1 = none
        ∧ (m1.regWrite a (Nat.lor (Nat.land old (2 ^ 32 - 1 - Nat.lor (pay32 p.payload 8) (w1cMask a)))
            (Nat.land (pay32 p.payload 12) (pay32 p.payload 8)))).2 = false)
    ∧ (let p := regCmd 0x0203 (Reg.SCH_LOOPn_SAVE_SIZE 15) 0xFFFFFFFF [1, 0, 0, 0]
       let a := pay64 p.payload 0
       let s := got p (fun d => { d with loops := [(15, { step := some stp })] })
       let (m1, old) := (Safety.mach s).regRead (agentId .command) a
       Safety.ready s 0x0203 (7#16).toNat p ∧ s.dev.regRange a 1 = none
        ∧ (m1.regWrite a (Nat.lor (Nat.land old (2 ^ 32 - 1 - Nat.lor (pay32 p.payload 8) (w1cMask a)))
            (Nat.land (pay32 p.payload 12) (pay32 p.payload 8)))).2 = true) := by
  unfold Safety.ready; and_intros <;> decide +kernel

/-- A memory command at `a` with the bytes after the address. -/
def memCmd (op a : Nat) (rest : List Byte) : Packet := pk op (leBytes 8 a ++ rest)

theorem witness_MemoryWritePackets :
    (let p := memCmd 0x0302 0x1000 ([0, 0, 0, 0] ++ [1, 2, 3])
     Safety.memOk (got p) ∧ Safety.ready (got p) 0x0302 (7#16).toNat p ∧ Safety.noErrors (got p)
      ∧ (got p).dev.flash.flipped = []
      ∧ (Safety.mach (got p)).writeRefusal (pay64 p.payload 0) (p.payload.drop 12).length (bit (pay32 p.payload 8) 0) = none
      ∧ ∃ t, exec (.memWrite 7 [(95, 32767)] []) (got p) = .next t)
    ∧ (let p := memCmd 0x0303 0x1000 (leBytes 4 8 ++ leBytes 4 0x01020304 ++ [0, 0, 0, 0])
       Safety.memOk (got p) ∧ Safety.ready (got p) 0x0303 (7#16).toNat p ∧ Safety.noErrors (got p)
        ∧ (got p).dev.flash.flipped = [] ∧ pay64 p.payload 0 % 4 = 0 ∧ pay32 p.payload 8 % 4 = 0 ∧ pay32 p.payload 8 ≠ 0
        ∧ (Safety.mach (got p)).writeRefusal (pay64 p.payload 0) (pay32 p.payload 8) (bit (pay32 p.payload 16) 0) = none
        ∧ ∃ t, exec (.memFill 7 [] []) (got p) = .next t) := by
  unfold Safety.memOk Safety.ready Safety.noErrors
  and_intros <;> first | exact ⟨_, rfl⟩ | decide +kernel

theorem witness_MemoryReadPackets :
    (let p := memCmd 0x0301 0x1000 (leBytes 4 3)
     Safety.ready (got p) 0x0301 (7#16).toNat p ∧ 0 < pay32 p.payload 8 ∧ pay32 p.payload 8 ≤ 32768
      ∧ (((Safety.mach (got p)).upsets []).commandRead (pay64 p.payload 0) (pay32 p.payload 8)).2 = .inr [0, 0, 0])
    ∧ (let p := memCmd 0x0304 0x1000 (leBytes 4 2 ++ [3, 0, 0, 0])
       Safety.ready (got p) 0x0304 (7#16).toNat p ∧ 0 < pay32 p.payload 8 ∧ pay8 p.payload 12 ≤ 3
        ∧ (((Safety.mach (got p)).upsets []).commandRead (pay64 p.payload 0) (pay32 p.payload 8)).2 = .inr [0, 0]) := by
  unfold Safety.ready; and_intros <;> decide +kernel

theorem witness_RoutePackets :
    (let p := pk 0x0401 (leBytes 8 0x100000)
     let s := got p (fun d => { d with routes := (List.range 64).map (fun h => (h, route)) })
     Safety.ready s 0x0401 (7#16).toNat p ∧ (List.range 64).find? (fun h => (AMap.find s.dev.routes h).isNone) = none)
    ∧ (let p := pk 0x0401 (leBytes 8 0x100000)
       let s := { got p with mem := cells 0x100000 image }
       Safety.ready s 0x0401 (7#16).toNat p ∧ (List.range 64).find? (fun h => (AMap.find s.dev.routes h).isNone) = some 0
        ∧ ∃ r, validate (Safety.mach s) (pay64 p.payload 0) = .inr r)
    ∧ (let p := pk 0x0401 (leBytes 8 0x100000)
       Safety.ready (got p) 0x0401 (7#16).toNat p
        ∧ (List.range 64).find? (fun h => (AMap.find (got p).dev.routes h).isNone) = some 0
        ∧ ∃ f, validate (Safety.mach (got p)) (pay64 p.payload 0) = .inl f)
    ∧ (let p := pk 0x0403 ([5, 2, 0, 0] ++ leBytes 4 1 ++ List.replicate 64 0)
       let s := got p (fun d => { d with routes := [(5, route)] })
       let b := s.dev.askedBinding 5 route p.payload
       Safety.ready s 0x0403 (7#16).toNat p ∧ pay8 p.payload 0 = 5 ∧ pay8 p.payload 1 = 2 ∧ pay8 p.payload 2 ≤ 1
        ∧ AMap.find s.dev.routes 5 = some route ∧ route.nridges ≤ b.ridges.length ∧ s.dev.pmapBad b = false
        ∧ ((Safety.mach s).fetchAreas b).any (fun a => !inHbm a || anyArea a s.dev.tarinadyAreas) = false
        ∧ (Safety.mach s).bindQueueBad b (b.own s.dev.pkg) = none ∧ s.dev.spurOverlap 2 b = false
        ∧ (s.dev.boundTo 5).any (· != 2) = false ∧ (s.dev.pendingTo 5).any (· != 2) = false ∧ s.dev.rankClash 2 b = false ∧ s.dev.unsafeTile b (pay32 p.payload 4) = false
        ∧ s.dev.deadTile b = false ∧ ((s.dev.loop 2).step.isSome || !(s.dev.loop 2).deferred.isEmpty) = false)
    ∧ (∀ ph ∈ [StepPhase.running, .preempted], let p := pk 0x0404 [15, 0, 0, 0]
       let st : StepSt := { stp with phase := ph }
       let s := got p (fun d => { d with loops := [(15, { binding := some bound, step := some st })] })
       Safety.ready s 0x0404 (7#16).toNat p ∧ pay8 p.payload 0 = 15 ∧ (s.dev.loop 15).binding.isSome = true
        ∧ (s.dev.loop 15).step = some st ∧ st.phase = ph ∧ (s.dev.loop 15).deferred = [])
    ∧ (let p := pk 0x0404 [2, 0, 0, 0]
       let s := got p (fun d => { d with loops := [(2, { binding := some bound })] })
       Safety.ready s 0x0404 (7#16).toNat p ∧ pay8 p.payload 0 = 2 ∧ (s.dev.loop 2).binding.isSome = true
        ∧ (s.dev.loop 2).step = none ∧ (s.dev.loop 2).deferred = []) := by
  unfold Safety.ready
  have h : ∀ {α β : Type} {x : α ⊕ β}, x.isRight = true → ∃ r, x = .inr r := fun {_ _ x} hx => by
    cases x with
    | inl _ => simp at hx
    | inr r => exact ⟨r, rfl⟩
  have g : ∀ {α β : Type} {x : α ⊕ β}, x.isLeft = true → ∃ r, x = .inl r := fun {_ _ x} hx => by
    cases x with
    | inl r => exact ⟨r, rfl⟩
    | inr _ => simp at hx
  and_intros <;> first | exact h (by decide +kernel) | exact g (by decide +kernel) | decide +kernel

theorem witness_RouteUnloadFreesHandle :
    (Safety.ready (got (pk 0x0402 [64, 0, 0, 0])) 0x0402 (7#16).toNat (pk 0x0402 [64, 0, 0, 0])
      ∧ pay8 (pk 0x0402 [64, 0, 0, 0]).payload 0 = 64)
    ∧ (let p := pk 0x0402 [63, 0, 0, 0]
       Safety.ready (got p) 0x0402 (7#16).toNat p ∧ pay8 p.payload 0 = 63 ∧ AMap.find (got p).dev.routes 63 = none)
    ∧ (let p := pk 0x0402 [5, 0, 0, 0]
       let s := got p (fun d => { d with routes := [(5, route)], loops := [(15, { binding := some bound })] })
       Safety.ready s 0x0402 (7#16).toNat p ∧ pay8 p.payload 0 = 5 ∧ AMap.find s.dev.routes 5 ≠ none
        ∧ (s.dev.loop 15).binding = some bound ∧ bound.handle = 5)
    ∧ (let p := pk 0x0402 [5, 0, 0, 0]
       let s := got p (fun d => { d with routes := [(5, route)], loops := [(15, { deferred := [.bind 3 bound] })] })
       Safety.ready s 0x0402 (7#16).toNat p ∧ AMap.find s.dev.routes 5 ≠ none
        ∧ Deferred.bind 3 bound ∈ (s.dev.loop 15).deferred)
    ∧ (let p := pk 0x0402 [5, 0, 0, 0]
       let s := got p (fun d => { d with routes := [(5, route)] })
       Safety.ready s 0x0402 (7#16).toNat p ∧ AMap.find s.dev.routes 5 ≠ none
        ∧ ∀ n, n < 16 → (s.dev.loop n).binding = none ∧ (s.dev.loop n).deferred = []) := by
  unfold Safety.ready; and_intros <;> decide +kernel

theorem witness_LoopPackets :
    let cfg : List Byte := [1, 1, 0, 0, 5, 0, 0, 0] ++ leBytes 4 10 ++ leBytes 4 0 ++ leBytes 4 0 ++ leBytes 8 0x10000 ++ leBytes 4 1
    (let p := pk 0x0405 cfg
     Safety.ready (got p) 0x0405 (7#16).toNat p ∧ (got p).dev.loopConfigBad p.payload = false
      ∧ ((got p).dev.loop (pay8 p.payload 0)).step = none ∧ ((got p).dev.loop (pay8 p.payload 0)).deferred = [])
    ∧ (let p := pk 0x0405 cfg
       let s := got p (fun d => { d with loops := [(1, { step := some stp })] })
       Safety.ready s 0x0405 (7#16).toNat p ∧ s.dev.loopConfigBad p.payload = false
        ∧ (s.dev.loop (pay8 p.payload 0)).step.isSome = true)
    ∧ (let p := pk 0x0406 [15, 0, 0, 0]
       let s := got p (fun d => { d with loops := [(15, { step := some stp })] })
       Safety.ready s 0x0406 (7#16).toNat p ∧ pay8 p.payload 0 ≤ 15 ∧ (s.dev.loop (pay8 p.payload 0)).step = some stp
        ∧ stp.phase ≠ .preempted ∧ stp.phase ≠ .restoring)
    ∧ (∀ ph ∈ [StepPhase.restoring, .preempted], let p := pk 0x0406 [15, 0, 0, 0]
       let st : StepSt := { stp with phase := ph }
       let s := got p (fun d => { d with loops := [(15, { step := some st })] })
       Safety.ready s 0x0406 (7#16).toNat p ∧ pay8 p.payload 0 = 15 ∧ (s.dev.loop 15).step = some st ∧ st.phase = ph
        ∧ (s.dev.loop 14).step = none) := by
  unfold Safety.ready; and_intros <;> decide +kernel

/-- A namespace record of one layer, one head of 16 elements, 64 frames and 8 descriptors. -/
def nsPay : List Byte :=
  [1, 1, 1, 4, 16, 0, 0, 0] ++ leBytes 2 1 ++ leBytes 2 0 ++ leBytes 4 0 ++ leBytes 8 0x100000 ++ leBytes 4 64 ++ leBytes 4 0
    ++ leBytes 4 8

theorem witness_TarnPackets :
    (let p := pk 0x0407 nsPay
     let s := got p
     Safety.ready s 0x0407 (7#16).toNat p ∧ pay8 p.payload 0 < 16 ∧ (nsOf p.payload).outOfRange (pay8 p.payload 6) = false
      ∧ s.dev.nsRangesBad (pay8 p.payload 0) (nsOf p.payload) = false
      ∧ (Safety.mach s).openSeqs.any (fun q => (Safety.mach s).sq q Sq.NSID 1 == pay8 p.payload 0) = false)
    ∧ (let p := pk 0x0408 ([1, 0, 0, 0] ++ leBytes 4 262144 ++ leBytes 4 0 ++ leBytes 4 0 ++ leBytes 8 0)
       let s := got p (fun d => (d.setNs 1 (nsOf nsPay)).setReg Reg.TRN_CTRL 1)
       Safety.ready s 0x0408 (7#16).toNat p ∧ bit (s.dev.reg Reg.TRN_CTRL) 0 = true ∧ bit ((got p).dev.reg Reg.TRN_CTRL) 0 = false
        ∧ (Safety.mach s).freeSlot = some 0
        ∧ s.dev.nsRec (pay8 p.payload 0) = some (nsOf nsPay) ∧ pay32 p.payload 4 % 32 = 0 ∧ 32 ≤ pay32 p.payload 4
        ∧ pay32 p.payload 4 ≤ 262144 ∧ pay32 p.payload 12 ≤ pay32 p.payload 4
        ∧ inHbm (pay64 p.payload 16, 4 * pay32 p.payload 12) = true
        ∧ ((Safety.mach s).eccRead (pay64 p.payload 16) (4 * pay32 p.payload 12) 120 0xFF).2 = none)
    ∧ (let p := pk 0x0409 (leBytes 2 0x2003 ++ [0, 0])
       let s := { got p (fun d => d.modTarn (fun t => { t with openSlots := [3] })) with mem := seqMem 0 }
       Safety.ready s 0x0409 (7#16).toNat p ∧ (Safety.mach s).seqOfId (pay16 p.payload 0) = some 3
        ∧ (Safety.mach s).inuse 3 = false ∧ (((Safety.mach s).mod Dev.nextEpoch).applyEdit 0x0409 p.payload).2 = (ST.OK, [])
        ∧ (Safety.mach (got p)).seqOfId (pay16 p.payload 0) = none)
    ∧ (let p := pk 0x040B (leBytes 2 0x2003 ++ [0, 0] ++ leBytes 4 1)
       let s := { got p (fun d => d.modTarn (fun t => { t with openSlots := [3] })) with mem := seqMem 0 }
       Safety.ready s 0x040B (7#16).toNat p ∧ (Safety.mach s).seqOfId (pay16 p.payload 0) = some 3
        ∧ (Safety.mach s).inuse 3 = false ∧ (((Safety.mach s).mod Dev.nextEpoch).applyEdit 0x040B p.payload).2.1 ≠ ST.OK)
    ∧ (let p := pk 0x040C (leBytes 2 0x2003 ++ [0, 0])
       let s := { got p (fun d => d.modTarn (fun t => { t with openSlots := [3] })) with mem := seqMem 1 }
       Safety.ready s 0x040C (7#16).toNat p ∧ (Safety.mach s).seqOfId (pay16 p.payload 0) = some 3
        ∧ (Safety.mach s).inuse 3 = true ∧ s.dev.tarn.edits.length < 4096)
    ∧ (let p := pk 0x040D ([15, 0] ++ leBytes 2 256 ++ List.replicate 512 0)
       Safety.ready (got p) 0x040D (7#16).toNat p ∧ pay8 p.payload 0 ≤ 15 ∧ pay16 p.payload 2 ≤ 256) := by
  unfold Safety.ready; and_intros <;> decide +kernel

/-- SEQ_OPEN with every slot open. -/
theorem witness_TarnPackets_full :
    let p := pk 0x0408 (List.replicate 24 0)
    let s := got p (fun d => (d.setReg Reg.TRN_CTRL 1).modTarn (fun t => { t with openSlots := List.range 4096 }))
    Safety.ready s 0x0408 (7#16).toNat p ∧ bit (s.dev.reg Reg.TRN_CTRL) 0 = true ∧ (Safety.mach s).freeSlot = none := by
  refine ⟨by unfold Safety.ready; decide +kernel, by decide +kernel, ?_⟩
  simp only [Mach.freeSlot, List.find?_eq_none]
  intro x hx
  simpa [Mach.openSeqs, Safety.mach, got, on, Dev.modTarn] using hx

theorem witness_StreamPackets :
    (let p := pk 0x040E netEntry
     let s := got p (fun d => d.wf Reg.ING_CTRL Fld.ING_CTRL.EN 1)
     Safety.ready s 0x040E (7#16).toNat p ∧ s.dev.rfB Reg.ING_CTRL Fld.ING_CTRL.EN = true
      ∧ (List.range 64).find? (fun n => (s.dev.stream n).isNone) = some 0
      ∧ s.dev.streamLimit (slice p.payload 0 128) = false ∧ Se.kind (slice p.payload 0 128) ≠ 2
      ∧ (Safety.mach s).streamBad (slice p.payload 0 128) = false)
    ∧ (let p := pk 0x040F [63, 0, 0, 0]
       let x : StreamSt := { entry := netEntry, bufs := [{}, {}, {}] }
       let s := got p (fun d => { d with streams := [(63, x)] })
       Safety.ready s 0x040F (7#16).toNat p ∧ pay8 p.payload 0 < 64 ∧ s.dev.stream (pay8 p.payload 0) = some x
        ∧ x.closing = false ∧ x.bufs.any (fun b => !b.pins.isEmpty) = false)
    ∧ (let p := pk 0x040F [63, 0, 0, 0]
       let x : StreamSt := { entry := netEntry, bufs := [{}, { pins := [15] }, {}] }
       let s := got p (fun d => { d with streams := [(63, x)] })
       Safety.ready s 0x040F (7#16).toNat p ∧ pay8 p.payload 0 < 64 ∧ s.dev.stream (pay8 p.payload 0) = some x
        ∧ x.closing = false ∧ x.bufs.any (fun b => !b.pins.isEmpty) = true) := by
  unfold Safety.ready; and_intros <;> decide +kernel

theorem witness_ControlEnginePackets :
    (∀ x ∈ [(0x0701, (0 : Byte)), (0x0701, 1), (0x0702, 0)], Safety.ready (got (pk x.1 [x.2, 0, 0, 0])) x.1 (7#16).toNat
        (pk x.1 [x.2, 0, 0, 0]) ∧ pay8 (pk x.1 [x.2, 0, 0, 0]).payload 0 = x.2.toNat)
    ∧ (let p := pk 0x0703 (leBytes 4 1 ++ leBytes 16 255)
       Safety.ready (got p) 0x0703 (7#16).toNat p ∧ pay16 p.payload 0 ≠ 0 ∧ pay16 p.payload 0 ≤ 256
        ∧ (postRecords ((p.payload.drop 4).take (16 * pay16 p.payload 0))).any (fun r => decide (field r 0 2 ≥ 256)) = false)
    ∧ (let p := pk 0x0704 ([255, 3, 0, 0] ++ leBytes 4 0x3F800000)
       let s := got p (fun d => d.wf Reg.SAF_STAT Fld.SAF_STAT.F2_LATCHED 1)
       Safety.ready s 0x0704 (7#16).toNat p ∧ pay8 p.payload 1 ≤ 3 ∧ FFmt.f32.isFinite (pay32 p.payload 4) = true
        ∧ s.dev.f2 = true ∧ pay8 p.payload 1 = 3 ∧ (got p).dev.f2 = false)
    ∧ (let p := pk 0x0A01 (leBytes 2 0 ++ leBytes 2 4)
       Safety.ready (got p) 0x0A01 (7#16).toNat p ∧ Safety.noErrors (got p) ∧ pay16 p.payload 2 * (got p).dev.traceRec ≤ 32768) := by
  unfold Safety.ready Safety.noErrors; and_intros <;> decide +kernel

/-- The flash subsystem in a state, with region 5 and a capacity of 64 units. -/
def flashIn (st : Nat) (r : RegionRec) (d : Dev) : Dev :=
  { d.setFlState st with flash := { formatted := true, capacity := 64, spare := 1, regions := [(5, r)] } }

theorem witness_FlashPackets :
    (let p := pk 0x0501 ([3, 0, 0, 0] ++ leBytes 4 60)
     let s := got p (flashIn FL.READY ⟨1, 0, 4, false, 0⟩)
     Safety.ready s 0x0501 (7#16).toNat p ∧ s.dev.flState = FL.READY ∧ 1 ≤ pay8 p.payload 0 ∧ pay8 p.payload 0 ≤ 3
      ∧ 1 ≤ pay32 p.payload 4 ∧ pay32 p.payload 4 ≤ 536870912
      ∧ (List.range 64).find? (fun n => (s.dev.flRegion n).isNone) = some 0
      ∧ s.dev.flash.freeRun (pay32 p.payload 4) = some 4)
    ∧ (∀ k ∈ [0, 1], let p := pk 0x0502 [5, 0, 0, 0]
       let s := got p (flashIn FL.READY ⟨k, 0, 4, false, 0⟩)
       Safety.ready s 0x0502 (7#16).toNat p ∧ s.dev.flState = FL.READY ∧ pay8 p.payload 0 ≤ 63
        ∧ s.dev.flRegion (pay8 p.payload 0) = some ⟨k, 0, 4, false, 0⟩)
    ∧ (∀ op ∈ [0x0502, 0x0503, 0x0504, 0x0505, 0x0506], let p := pk op (63 :: List.replicate 23 0)
       let s := got p (flashIn FL.READY ⟨1, 0, 4, false, 0⟩)
       Safety.ready s op (7#16).toNat p ∧ s.dev.flState = FL.READY ∧ pay8 p.payload 0 ≤ 63
        ∧ s.dev.flRegion (pay8 p.payload 0) = none)
    ∧ (let r : RegionRec := ⟨2, 0, 4, true, 0⟩
       let p := pk 0x0503 ([5, 0, 0, 0] ++ leBytes 8 61440 ++ leBytes 4 4096 ++ leBytes 8 0x1000)
       let s := got p (flashIn FL.READONLY r)
       Safety.ready s 0x0503 (7#16).toNat p ∧ s.dev.flServing = true ∧ pay8 p.payload 0 ≤ 63
        ∧ s.dev.flRegion (pay8 p.payload 0) = some r ∧ r.rangeOk (pay64 p.payload 4) (pay32 p.payload 12) = true
        ∧ (Safety.mach s).writeRefusal (pay64 p.payload 16) (pay32 p.payload 12) false = none
        ∧ ((Safety.mach s).nandReads ((Safety.mach s).readUnits r (pay64 p.payload 4) (pay32 p.payload 12)) []).2 = true
        ∧ (((Safety.mach s).nandReads ((Safety.mach s).readUnits r (pay64 p.payload 4) (pay32 p.payload 12)) []).1.rmwCheck
            (pay64 p.payload 16) (pay32 p.payload 12) dmaReq 16).2 = none)
    ∧ (let r : RegionRec := ⟨1, 0, 4, false, 0⟩
       let p := pk 0x0504 ([5, 0, 0, 0] ++ leBytes 8 61440 ++ leBytes 4 4096 ++ leBytes 8 0x1000)
       let s := got p (flashIn FL.READY r)
       Safety.ready s 0x0504 (7#16).toNat p ∧ s.dev.flState = FL.READY ∧ pay8 p.payload 0 ≤ 63
        ∧ s.dev.flRegion (pay8 p.payload 0) = some r ∧ r.kind ≠ 3 ∧ r.isSealed = false ∧ r.kind ≠ 0
        ∧ r.rangeOk (pay64 p.payload 4) (pay32 p.payload 12) = true
        ∧ (((Safety.mach s).upsets []).commandRead (pay64 p.payload 16) (pay32 p.payload 12)).2.isRight = true)
    ∧ (∀ b ∈ [true, false], let r : RegionRec := ⟨1, 0, 4, b, 0⟩
       let p := pk 0x0505 ([5, 0, 0, 0] ++ leBytes 8 0 ++ leBytes 4 65536)
       let s := got p (flashIn FL.READY r)
       Safety.ready s 0x0505 (7#16).toNat p ∧ s.dev.flState = FL.READY ∧ s.dev.flRegion (pay8 p.payload 0) = some r
        ∧ r.rangeOk (pay64 p.payload 4) (pay32 p.payload 12) = true)
    ∧ (let r : RegionRec := ⟨1, 0, 4, false, 0⟩
       let s := got (pk 0x0506 [5, 0, 0, 0]) (flashIn FL.READY r)
       Safety.ready s 0x0506 (7#16).toNat (pk 0x0506 [5, 0, 0, 0]) ∧ s.dev.flServing = true ∧ s.dev.flRegion 5 = some r
        ∧ r.kind = 1)
    ∧ Safety.ready (got (pk 0x0507)) 0x0507 (7#16).toNat (pk 0x0507)
    ∧ (let p := pk 0x0508 (leBytes 4 0x464D5421)
       let s := got p (fun d => d.setFlState FL.BLANK)
       Safety.ready s 0x0508 (7#16).toNat p ∧ pay32 p.payload 0 = 0x464D5421 ∧ s.dev.mayFormat = true) := by
  unfold Safety.ready
  and_intros <;> decide +kernel

theorem read_low (bs : List Byte) : ∀ a x, x < a → Memory.read (cells a bs) x = 0 := by
  induction bs with
  | nil => intros; rfl
  | cons b bs ih =>
    intro a x h
    unfold cells
    split
    · exact ih _ _ (by omega)
    · simp only [Memory.read]
      rw [if_neg (by omega), if_pos h]

theorem read_cells (bs : List Byte) : ∀ a i, Memory.read (cells a bs) (a + i) = bs.getD i 0 := by
  induction bs with
  | nil => intros; rfl
  | cons b bs ih =>
    intro a i
    unfold cells
    cases i with
    | zero =>
      split
      · next h => rw [read_low _ _ _ (by omega)]; simp [h]
      · simp [Memory.read]
    | succ i =>
      have := ih (a + 1) i
      rw [show a + 1 + i = a + (i + 1) by omega] at this
      split
      · simpa using this
      · simp only [Memory.read]
        rw [if_neg (by omega), if_neg (by omega)]
        simpa using this

/-- The device whose flash holds the slot. -/
def fwS : State := { got (pk 0x0509 [1, 0, 0, 0]) slots with mem := slotMem }

theorem slot_bytes (off len k : Nat) (hk : off = 0x4000 * (k + 1)) (hl : 0 < len) (h2 : len ≤ 0x4000):
    (Safety.mach fwS).regionBytes ⟨0, 4, 4, false, 0⟩ off len
      = (Safety.mach fwS, (List.range len).map (fun i => (stage1 ++ pad ++ tarinady).getD (0x4000 * k + i) 0)) := by
  have h1 : off / unitSize = k + 1 := by simp [unitSize]; omega
  have h3 : off % unitSize = 0 := by simp [unitSize]; omega
  have h4 : ceilDiv len unitSize = 1 := by simp [ceilDiv, unitSize]; omega
  have hr : ∀ n, (Safety.mach fwS).unitBytes n = (Safety.mach fwS, (Safety.mach fwS).rdBytes (flashMem + n * unitSize) unitSize) := fun n => rfl
  have hb : ∀ a, (Safety.mach fwS).rd a = Memory.read slotMem a := fun a => rfl
  simp only [Mach.regionBytes, h1, h3, h4, Nat.zero_add, List.range_one, List.foldl, hr]
  simp only [Mach.rdBytes, hb, List.drop_zero, List.nil_append, ← List.map_take, List.take_range, Nat.min_eq_left (show len ≤ unitSize from h2)]
  congr 1
  apply List.map_congr_left
  intro i _
  rw [show flashMem + (4 + (k + 1) + 0) * unitSize + i = (flashMem + 0x14000) + (0x4000 * k + i) by
    rw [show unitSize = 16384 from rfl]; omega]
  exact read_cells _ _ _


theorem stage1_length : stage1.length = 528 := by decide +kernel
theorem tarinady_length : tarinady.length = 528 := by decide +kernel
theorem pad_length : pad.length = 15856 := List.length_replicate

theorem slot_image (k n : Nat) (hk : k < 2) (hn : n ≤ 528) :
    (List.range n).map (fun i => (stage1 ++ pad ++ tarinady).getD (0x4000 * k + i) 0)
      = (if k = 0 then stage1 else tarinady).take n := by
  have h : k = 0 ∨ k = 1 := by omega
  have a3 : ∀ i, 16384 + i - 528 - 15856 = i := by intro i; omega
  apply List.ext_getElem
  · obtain rfl | rfl := h <;> simp [stage1_length, tarinady_length] <;> omega
  · intro i h1 h2
    simp only [List.length_map, List.length_range] at h1
    have a1 : i < 528 := by omega
    have a2 : ¬ 16384 + i < 528 + 15856 := by omega
    obtain rfl | rfl := h
    · simp [List.getD_eq_getElem?_getD, List.getElem?_append, stage1_length, pad_length, a1]
    · simp [List.getD_eq_getElem?_getD, List.getElem?_append, stage1_length, pad_length]
      rw [if_neg (by omega), if_neg (by omega), a3 i,
        List.getElem?_eq_getElem (l := tarinady) (i := i) (by rw [tarinady_length]; exact a1), Option.getD_some]

theorem slot_read (k n : Nat) (hk : k < 2) (hl : 0 < n) (hn : n ≤ 528) :
    (Safety.mach fwS).regionBytes ⟨0, 4, 4, false, 0⟩ (0x4000 * (k + 1)) n
      = (Safety.mach fwS, (if k = 0 then stage1 else tarinady).take n) :=
  (slot_bytes _ n k rfl hl (by omega)).trans (by rw [slot_image k n hk hn])

/-- An image that verifies where it stands in a slot. -/
theorem slot_verifies (off kind room : Nat) (img : List Byte)
    (hb : ∀ n, 0 < n → n ≤ 528 →
      (Safety.mach fwS).regionBytes ⟨0, 4, 4, false, 0⟩ off n = (Safety.mach fwS, img.take n))
    (hr : 4 * unitSize - off = room) (hl : Ih.bodyLen (img.take 512) = 16)
    (h1 : (Safety.mach fwS).dev.headerFail (img.take 512) kind room = none)
    (h2 : slice (img.take 528) 0 512 = img.take 512)
    (h3 : (Safety.mach fwS).dev.bodyFail (img.take 512) (slice (img.take 528) 512 16) = none) :
    ∃ x, (Safety.mach fwS).slotImage ⟨0, 4, 4, false, 0⟩ off kind false false = (Safety.mach fwS, .inr x)
      ∧ x.stop - x.load = 16 := by
  unfold Mach.slotImage
  rw [hb 512 (by omega) (by omega)]
  simp only [Bool.false_eq_true, if_false, hr, h1]
  rw [hl, hb 528 (by omega) (by omega)]
  simp only [Mach.verify, h2, hl, h1, h3, Bool.false_eq_true, Bool.false_and, Option.isSome_none, if_false]
  exact ⟨_, rfl, by simp [imgRec, hl]⟩

theorem slot_stage1 : ∃ x, (Safety.mach fwS).slotImage ⟨0, 4, 4, false, 0⟩ 0x4000 1 false false = (Safety.mach fwS, .inr x)
      ∧ x.stop - x.load = 16 :=
  slot_verifies 0x4000 1 0xC000 stage1 (fun n h g => slot_read 0 n (by omega) h g) (by decide +kernel) (by decide +kernel)
    (by decide +kernel) (by decide +kernel) (by decide +kernel)
theorem slot_tarinady : ∃ x, (Safety.mach fwS).slotImage ⟨0, 4, 4, false, 0⟩ 0x8000 2 false false = (Safety.mach fwS, .inr x)
      ∧ x.stop - x.load = 16 :=
  slot_verifies 0x8000 2 0x8000 tarinady (fun n h g => by
      rw [show (0x8000 : Nat) = 0x4000 * (1 + 1) by norm_num, slot_read 1 n (by omega) h g, if_neg (by decide)])
    (by decide +kernel) (by decide +kernel) (by decide +kernel) (by decide +kernel) (by decide +kernel)

/-- The two images of a slot, over any reading of one image and any place of the second. -/
def twoImages (S : Mach → RegionRec → Nat → Nat → Bool → Bool → Mach × Sum Nat ImgRec) (T : Nat → Nat) (m : Mach)
    (r : RegionRec) : Mach × Sum Nat (ImgRec × ImgRec) :=
  let bad := fun k => ([] : List (Fin 2 × Fin 3)).any (fun x => x.1.val == 1 && x.2.val == k)
  match S m r 0x4000 1 (bad 1) false with
  | (m, .inl x) => (m, .inl x)
  | (m, .inr one) =>
    let m := m.mod id
    match S m r (T (one.stop - one.load)) 2 (bad 2) false with
    | (m, .inl x) => (m, .inl x)
    | (m, .inr two) => (m, .inr (one, two))

theorem twoImages_of (S : Mach → RegionRec → Nat → Nat → Bool → Bool → Mach × Sum Nat ImgRec) (T : Nat → Nat) (m : Mach)
    (r : RegionRec) (x y : ImgRec) (o : Nat) (hx : S m r 0x4000 1 false false = (m, .inr x)) (ho : T (x.stop - x.load) = o)
    (hy : S m r o 2 false false = (m, .inr y)) : twoImages S T m r = (m, .inr (x, y)) := by
  have hm : m.mod id = m := rfl
  simp only [twoImages, List.any_nil, hx, ho, hm, hy]

theorem slotImages_two (m : Mach) (r : RegionRec) (hf : AMap.find m.dev.flash.regions 1 = some r) :
    m.slotImages 1 [] false id = twoImages Mach.slotImage tarinadyOffset m r := by
  unfold Mach.slotImages twoImages
  first
    | (rw [hf]; done)
    | (rw [hf]; generalize Mach.slotImage = S; generalize tarinadyOffset = T; rfl)

theorem slot_images_verify : ∃ m x, (Safety.mach fwS).slotImages 1 [] false id = (m, .inr x) := by
  obtain ⟨x, hx, hl⟩ := slot_stage1
  obtain ⟨y, hy, _⟩ := slot_tarinady
  exact ⟨_, _, (slotImages_two _ _ (by decide +kernel)).trans (twoImages_of _ _ _ _ x y 0x8000 hx (by rw [hl]; decide) hy)⟩

theorem witness_FirmwarePackets :
    (let p := pk 0x0509 [1, 0, 0, 0]
     Safety.ready (got p) 0x0509 (7#16).toNat p ∧ pay8 p.payload 0 ≤ 1 ∧ (got p).dev.flState ≠ FL.READY)
    ∧ (let p := pk 0x0509 [1, 0, 0, 0]
       Safety.ready fwS 0x0509 (7#16).toNat p ∧ pay8 p.payload 0 = 1 ∧ fwS.dev.boot.slot ≠ some 1 ∧ fwS.dev.flState = FL.READY)
    ∧ (∃ m x, (Safety.mach fwS).slotImages 1 [] false id = (m, .inr x))
    ∧ (let p := pk 0x050A [0, 0, 0, 0]
       Safety.ready (got p) 0x050A (7#16).toNat p ∧ (got p).dev.boot.slot = none)
    ∧ (let p := pk 0x050A [0, 0, 0, 0]
       let rec' := (leBytes 4 0x5A564252 ++ leBytes 4 9 ++ [0, 1, 0, 0])
       let s := { got p (fun d => { slots d with boot := { (slots d).boot with slot := some 1 } }) with
                  mem := cells (flashMem + 0x10000) (rec' ++ leBytes 4 (crc32c rec')) }
       Safety.ready s 0x050A (7#16).toNat p ∧ s.dev.boot.slot = some 1 ∧ pay8 p.payload 0 = 0 ∧ s.dev.flState = FL.READY
        ∧ ((Safety.mach s).bootRec 1).2 = some ⟨9, 0, 1⟩)
    ∧ (let p := pk 0x050A [1, 0, 0, 0]
       let rec' := (leBytes 4 0x5A564252 ++ leBytes 4 9 ++ [0, 0, 0, 0])
       let s := { got p (fun d => ({ slots d with boot := { (slots d).boot with slot := some 1 } } : Dev).setFlState FL.READONLY) with
                  mem := cells (flashMem + 0x10000) (rec' ++ leBytes 4 (crc32c rec')) }
       let r := (Safety.mach s).bootRec 1
       Safety.ready s 0x050A (7#16).toNat p ∧ s.dev.boot.slot = some 1 ∧ pay8 p.payload 0 = 1 ∧ s.dev.flServing = true
        ∧ r.2 = some ⟨9, 0, 0⟩ ∧ r.1.dev.flState ≠ FL.READY)
    ∧ (∀ k ∈ [0, 1], let p := pk 0x050A [k, 0, 0, 0]
       let x : ImgRec := ⟨[], 0, 64, 0, 16⟩
       let rec' := (leBytes 4 0x5A564252 ++ leBytes 4 9 ++ [1, 0, 0, 0])
       let s := { got p (fun d => { slots d with boot := { (slots d).boot with slot := some 1, stage1 := some x, tarinady := some x } }) with
                  mem := cells (flashMem + 0x10000) (rec' ++ leBytes 4 (crc32c rec')) }
       let r := (Safety.mach s).bootRec 1
       Safety.ready s 0x050A (7#16).toNat p ∧ s.dev.boot.slot = some 1 ∧ pay8 p.payload 0 = k.toNat ∧ s.dev.flServing = true
        ∧ r.2 = some ⟨9, 1, 0⟩ ∧ r.1.dev.boot.stage1 = some x ∧ r.1.dev.boot.tarinady = some x)
    ∧ (∀ b ∈ [true, false], let p := pk 0x0907 (leBytes 4 512 ++ leBytes 4 1 ++ (if b then List.replicate 16 7 else []))
       let s := got p (fun d => { slots d with boot := { (slots d).boot with phase := .recovery, recovery := stage1.take 512 } })
       let bs := s.dev.boot.recovery ++ p.payload.drop 8
       Safety.ready s 0x0907 (7#16).toNat p ∧ pay32 p.payload 0 = s.dev.boot.recovery.length ∧ bit (pay32 p.payload 4) 0 = true
        ∧ ((Safety.mach s).verify bs 1 bs.length false).2.isRight = b)
    ∧ (let p := pk 0x0907 (leBytes 4 2 ++ leBytes 4 0 ++ [9])
       let s := got p (fun d => { d with boot := { d.boot with phase := .recovery, recovery := [1, 2] } })
       Safety.ready s 0x0907 (7#16).toNat p ∧ pay32 p.payload 0 = s.dev.boot.recovery.length
        ∧ bit (pay32 p.payload 4) 0 = false) := by
  unfold Safety.ready
  and_intros <;> first | exact slot_images_verify | decide +kernel

theorem witness_SecurityPackets :
    (let p := pk 0x0902 (List.replicate 32 1)
     Safety.ready (got p) 0x0902 (7#16).toNat p ∧ (got p).dev.rfB Reg.SEC_LCS Fld.SEC_LCS.ID_BLOCK = false
      ∧ (got p).dev.boot.fuses.lcs ≠ 0 ∧ (got p).dev.boot.fuses.lcs ≠ 4)
    ∧ (let p := pk 0x0902 (List.replicate 32 1)
       let s := got p (fun d => d.wf Reg.SEC_LCS Fld.SEC_LCS.ID_BLOCK 1)
       Safety.ready s 0x0902 (7#16).toNat p ∧ s.dev.rfB Reg.SEC_LCS Fld.SEC_LCS.ID_BLOCK = true)
    ∧ Safety.ready (got (pk 0x0903)) 0x0903 (7#16).toNat (pk 0x0903)
    ∧ (∀ op ∈ [0x0904, 0x0905], let s := got (pk op) (fun d => d.wf Reg.DBG_STAT Fld.DBG_STAT.FAILS 3)
       Safety.ready s op (7#16).toNat (pk op) ∧ s.dev.tokenFails ≥ 3)
    ∧ (let p := pk 0x0904 debugToken
       let s := got p challenged
       Safety.ready s 0x0904 (7#16).toNat p ∧ s.dev.tokenFails < 3 ∧ s.dev.dbgOpen = false
        ∧ s.dev.tokenStatus (slice p.payload 0 288) false = ST.OK)
    ∧ (let p := pk 0x0905 lifeToken
       let s := got p (fun d => (challenged d).wf Reg.SEC_LCS Fld.SEC_LCS.STATE 1)
       Safety.ready s 0x0905 (7#16).toNat p ∧ s.dev.tokenFails < 3 ∧ s.dev.lcs = 1
        ∧ bits (field (slice p.payload 0 288) 0x30 4) 2 0 = 2 ∧ s.dev.tokenStatus (slice p.payload 0 288) true = ST.OK
        ∧ s.dev.boot.fuses.lcs ≠ 4)
    ∧ (∀ k ∈ [1, 2], let p := pk 0x0905 retireToken
       let s := got p (fun d => (challenged d).wf Reg.SEC_LCS Fld.SEC_LCS.STATE k)
       Safety.ready s 0x0905 (7#16).toNat p ∧ s.dev.tokenFails < 3 ∧ s.dev.lcs = k
        ∧ bits (field (slice p.payload 0 288) 0x30 4) 2 0 = 4 ∧ s.dev.tokenStatus (slice p.payload 0 288) true = ST.OK)
    ∧ (let p := pk 0x0904 (debugToken.set 0x30 6)
       let s := got p challenged
       Safety.ready s 0x0904 (7#16).toNat p ∧ s.dev.tokenFails < 3 ∧ s.dev.dbgOpen = false
        ∧ s.dev.tokenStatus (slice p.payload 0 288) false ≠ ST.OK)
    ∧ (∀ k ∈ [2, 4], let p := pk 0x0905 (token (0x80000000 + k) 1)
       let s := got p (fun d => (challenged d).wf Reg.SEC_LCS Fld.SEC_LCS.STATE 1)
       Safety.ready s 0x0905 (7#16).toNat p ∧ s.dev.tokenFails < 3 ∧ s.dev.lcs = 1
        ∧ bits (field (slice p.payload 0 288) 0x30 4) 2 0 = k ∧ s.dev.tokenStatus (slice p.payload 0 288) true ≠ ST.OK)
    ∧ (let p := pk 0x0906 (4 :: beBytes 48 ecGx ++ beBytes 48 ecGy)
       let s := got p (fun d => d.wf Reg.SEC_LCS Fld.SEC_LCS.STATE 2)
       Safety.ready s 0x0906 (7#16).toNat p ∧ s.dev.lcs ≠ 1)
    ∧ (let p := pk 0x0906 (4 :: beBytes 48 ecGx ++ beBytes 48 ecGy)
       let s := got p (fun d => d.wf Reg.SEC_LCS Fld.SEC_LCS.STATE 1)
       Safety.ready s 0x0906 (7#16).toNat p ∧ s.dev.lcs = 1 ∧ bit s.dev.boot.fuses.present 2 = false) := by
  unfold Safety.ready; and_intros <;> decide +kernel

/-- SAF_SEQ at 9, SAF_F2_SEQ and SAF_ACK as given. -/
def saf (f2 ack : Nat) (d : Dev) : Dev := ((d.setReg Reg.SAF_SEQ 9).setReg Reg.SAF_F2_SEQ f2).setReg Reg.SAF_ACK ack

theorem witness_SafetyPackets :
    (let p := pk 0x0801 (leBytes 4 1 ++ leBytes 2 1000)
     Safety.ready (got p) 0x0801 (7#16).toNat p ∧ 1 ≤ pay16 p.payload 4 ∧ pay16 p.payload 4 ≤ 1000)
    ∧ (let p := pk 0x0802 (leBytes 4 10)
       let s := got p (saf 5 4)
       Safety.ready s 0x0802 (7#16).toNat p ∧ sext 32 (pay32 p.payload 0 + 2 ^ 32 - s.dev.reg Reg.SAF_SEQ) > 0)
    ∧ (let p := pk 0x0802 (leBytes 4 8)
       let s := got p (saf 5 9)
       Safety.ready s 0x0802 (7#16).toNat p ∧ sext 32 (pay32 p.payload 0 + 2 ^ 32 - s.dev.reg Reg.SAF_ACK) < 0)
    ∧ (let p := pk 0x0802 (leBytes 4 9)
       let s := got p (saf 5 9)
       Safety.ready s 0x0802 (7#16).toNat p ∧ sext 32 (pay32 p.payload 0 + 2 ^ 32 - s.dev.reg Reg.SAF_SEQ) ≤ 0
        ∧ sext 32 (pay32 p.payload 0 + 2 ^ 32 - s.dev.reg Reg.SAF_ACK) ≥ 0)
    ∧ (let s := got (pk 0x0803) (saf 5 4)
       Safety.ready s 0x0803 (7#16).toNat (pk 0x0803) ∧ sext 32 (s.dev.reg Reg.SAF_ACK + 2 ^ 32 - s.dev.reg Reg.SAF_F2_SEQ) < 0)
    ∧ (let s := got (pk 0x0803) (fun d => (saf 5 5 d).wf Reg.SAF_STAT Fld.SAF_STAT.OUT_EN 1)
       Safety.ready s 0x0803 (7#16).toNat (pk 0x0803) ∧ sext 32 (s.dev.reg Reg.SAF_ACK + 2 ^ 32 - s.dev.reg Reg.SAF_F2_SEQ) ≥ 0
        ∧ s.dev.saf.missF2 = false ∧ s.dev.col.lost = false ∧ s.dev.rfB Reg.SAF_STAT Fld.SAF_STAT.OUT_EN = true)
    ∧ (let p := pk 0x0103 (leBytes 4 0x52535421)
       Safety.ready (got p) 0x0103 (7#16).toNat p ∧ pay32 p.payload 0 = 0x52535421)
    ∧ (let p := pk 0x0804 ([0, 1, 1, 1, 1, 0, 0, 0] ++ leBytes 4 2 ++ List.replicate 244 0)
       let b := { bound with route := { route with flags := 1 } }
       let s := got p (fun d => { d.wf (Reg.SCH_LOOPn_CFG 0) Fld.SCH_LOOPn_CFG.CLASS 2 with loops := [(0, { binding := some b })] })
       Safety.ready s 0x0804 (7#16).toNat p ∧ s.dev.rfB Reg.SAF_CTRL Fld.SAF_CTRL.CAIRN_EN = false
        ∧ (Safety.mach s).cairnBad (slice p.payload 0 256) = false) := by
  unfold Safety.ready; and_intros <;> decide +kernel

/-- Logical array 1 of tile 3 with an open pass of entry 1, at its turn, awake, and with a front register. -/
def atPass (p : PassSt) (b : Block := {}) (f : LogArray → LogArray := id) : State :=
  step1 2 3 [] (fun d =>
    (((d.setList 3 { lst 2 [] with flights := [{ entry := 1, kind := Ent.kind p.word, word := p.word, array := some 1 }] }).modLarr
      3 1 (fun x => f { x with front := some b, parity := p.parity, pass := some p })).modParr 3 1 (fun x => { x with awake := 8 })))

def passE : Nat := entry K.PASS [(121, 1), (66, 1)]

theorem witness_LoadsPassesAndSwaps :
    (let e := entry K.SLOAD [(121, 1)]
     Safety.issues (step1 2 3 [e]) 3 (lst 2 [e]) stp 0 e ∧ Ent.kind e = K.SLOAD)
    ∧ (Safety.issues (step1 2 3 [passE]) 3 (lst 2 [passE]) stp 0 passE ∧ Ent.kind passE = K.PASS ∧ Pass.acc passE = false)
    ∧ (let p : PassSt := { entry := 1, word := passE, started := true, phase := .checksum }
       let s := atPass p
       s.dev.stepOn 3 = some (2, stp) ∧ (s.dev.larr 3 1).pass = some p ∧ (s.dev.larr 3 1).front = some {}
        ∧ (s.dev.larr 3 1).loads = [] ∧ (Safety.mach s).mayEnter 3 1 p = true ∧ p.started = true ∧ p.phase = .checksum)
    ∧ (let p : PassSt := { entry := 1, word := passE, started := true, sent := 1 }
       let s := atPass p
       (s.dev.larr 3 1).pass = some p ∧ (Safety.mach s).mayEnter 3 1 p = true ∧ p.phase = .rows ∧ p.rowsOf ≤ p.sent)
    ∧ (let p : PassSt := { entry := 1, word := passE, started := true }
       let s := atPass p
       s.dev.stepOn 3 = some (2, stp) ∧ (s.dev.larr 3 1).pass = some p ∧ (s.dev.larr 3 1).loads = []
        ∧ (Safety.mach s).mayEnter 3 1 p = true ∧ p.phase = .rows ∧ p.sent < p.rowsOf ∧ Ent.kind p.word = K.PASS
        ∧ Pass.rsrc p.word = false ∧ (((Safety.mach s).nextRow 2 3 1 stp p).2.bind id).isSome = true)
    ∧ (let p : PassSt := { entry := 1, word := passE }
       let s := atPass p {} (fun x => { x with front := none, back := some {} })
       s.dev.stepOn 3 = some (2, stp) ∧ (Safety.mach s).turn 3 1 = some 1 ∧ (s.dev.larr 3 1).pass = some p
        ∧ (s.dev.larr 3 1).swapReady = true ∧ (s.dev.tile 3).remap.contains 1 = false) := by
  unfold Safety.issues; and_intros <;> decide +kernel

theorem witness_CommitsDrainsAndRamps :
    (let p : PassSt := { entry := 1, word := passE, started := true, phase := .ended, chk := { value := 5 } }
     let s := atPass p
     s.dev.stepOn 3 = some (2, stp) ∧ (s.dev.larr 3 1).pass = some p ∧ (s.dev.larr 3 1).front = some {} ∧ p.phase = .ended
      ∧ (s.dev.runsOn 3 1).isSome = true ∧ (Safety.mach s).tapsBefore 3 p = false ∧ p.rerun = false
      ∧ compare (Ent.kind p.word == K.DTAP) {} p.base (s.dev.larr 3 1).tallies p.chk
        (p.rowChk.map (fun y => (y, p.rowRange))) p.sent = .failed)
    ∧ (let p : PassSt := { entry := 1, word := passE, started := true, phase := .ended, chk := { value := 5 }, rerun := true }
       let s := atPass p
       (s.dev.larr 3 1).pass = some p ∧ p.rerun = true ∧ (s.dev.runsOn 3 1).isSome = true
        ∧ compare (Ent.kind p.word == K.DTAP) {} p.base (s.dev.larr 3 1).tallies p.chk
          (p.rowChk.map (fun y => (y, p.rowRange))) p.sent = .failed)
    ∧ (let p : PassSt := { entry := 1, word := passE, started := true, phase := .ended }
       let s := atPass p
       s.dev.stepOn 3 = some (2, stp) ∧ (s.dev.larr 3 1).pass = some p
        ∧ compare (Ent.kind p.word == K.DTAP) {} p.base (s.dev.larr 3 1).tallies p.chk
          (p.rowChk.map (fun y => (y, p.rowRange))) p.sent = .exact)
    ∧ (let e := entry K.DRAIN [(121, 1), (93, 32767), (92, 1)]
       let s := step1 2 3 [e]
       Safety.memOk s ∧ Safety.issues s 3 (lst 2 [e]) stp 0 e ∧ s.dev.flash.flipped = [] ∧ Ent.kind e = K.DRAIN
        ∧ Drain.acc e = false ∧ Drain.sten e = true)
    ∧ (let e := entry K.DRAIN [(121, 1), (109, 1), (93, 4095)]
       let s := step1 2 3 [e]
       Safety.memOk s ∧ Safety.issues s 3 (lst 2 [e]) stp 0 e ∧ s.dev.flash.flipped = [] ∧ Ent.kind e = K.DRAIN
        ∧ Drain.acc e = false ∧ Drain.sten e = false)
    ∧ (let e := entry K.DRAIN [(121, 1), (108, 1), (93, 4095)]
       let s := step1 2 3 [e]
       Drain.acc e = true ∧ Safety.issues s 3 (lst 2 [e]) stp 0 e
        ∧ (((Safety.issued s 3 (lst 2 [e])).mod (fun d => (d.arrCnt 3 (s.dev.carrier 3 (Ent.array e)) 3 0).capture 3
          (s.dev.carrier 3 (Ent.array e)) (drainCols (s.dev.larr 3 (Ent.array e)) e))).drainWrite (Safety.iss 3 (lst 2 [e]) stp 0 e)
            ((drainCols (s.dev.larr 3 (Ent.array e)) e).map (·.1))).2 = true)
    ∧ (let s := step1 2 3 [] (fun d => d.modTile 3 (fun x => { x with remap := [(1, 2)] }))
       s.dev.stepOn 3 = some (2, stp) ∧ (s.dev.tile 3).remap = [(1, 2)] ∧ s.dev.runsOn 3 1 = none
        ∧ ∀ j < 4, j ≠ 1 → s.dev.runsOn 3 j = some (s.dev.physOf 3 1) → (s.dev.larr 3 j).pass = none)
    ∧ on.dev.stepOn 95 = none ∧ ((step1 2 3 []).dev.stepOn 3 = some (2, stp) ∧ ((step1 2 3 []).dev.tile 3).remap = [])
    ∧ on.dev.passOn 95 3 = false := by
  unfold Safety.issues Safety.memOk; and_intros <;> decide +kernel

/-- The list of tile 3 with the one weight fetch `e`, its image in HBM, and a table of one expert. -/
def fetching (e : Nat) (f : Dev → Dev := id) : State :=
  { step1 2 3 [e] f with mem := cells 0x2000 (leBytes 16 e) ++ cells 0x3000 [1] }
/-- A step whose route has that table. -/
def xstp : StepSt := { stp with b := { bound with route := { route with tabs := [⟨0x3000, 24, 5⟩] } } }

theorem witness_WeightFetches :
    (let e := entry K.WFETCH [(118, 7), (50, 1)]
     (Safety.mach (fetching e)).streamerStep 3 = some (2, stp) ∧ (Safety.mach (fetching e)).streamerHead 3 = some (0, e)
      ∧ Wf.mode e = 0)
    ∧ (let e := entry K.WFETCH [(121, 1), (95, 6)]
       (Safety.mach (fetching e)).streamerStep 3 = some (2, stp) ∧ (Safety.mach (fetching e)).streamerHead 3 = some (0, e)
        ∧ Wf.mode e = 1 ∧ Wf.anchored e = false ∧ stp.b.spec = false)
    ∧ (let e := entry K.WFETCH [(121, 1), (95, 6), (50, 1)]
       (Safety.mach (fetching e)).streamerStep 3 = some (2, stp) ∧ (Safety.mach (fetching e)).streamerHead 3 = some (0, e)
        ∧ Wf.mode e = 1 ∧ Wf.anchored e = true ∧ Safety.issues (fetching e) 3 (lst 2 [e]) stp 0 e)
    ∧ (let e := entry K.WFETCH [(121, 2), (95, 1)]
       let s := fetching e (fun d => { d with loops := [(2, { step := some xstp })] })
       (Safety.mach s).streamerStep 3 = some (2, xstp) ∧ (Safety.mach s).streamerHead 3 = some (0, e) ∧ Wf.mode e = 2
        ∧ (s.dev.tile 3).fillq = [] ∧ Safety.issues s 3 (lst 2 [e]) xstp 0 e ∧ Safety.noErrors s
        ∧ xstp.b.route.tabs[Wf.xtab e]? = some ⟨0x3000, 24, 5⟩
        ∧ badDecision ((Safety.mach s).experts ⟨0x3000, 24, 5⟩)
          (expertNumbers ((Safety.mach s).rdBytes (amAddr 3 (Wf.xrow e)) 64) (Wf.nx e)) [] = false)
    ∧ (let r : FillReq := ⟨some 0, 0x4000, 2048, 1, none, false⟩
       let s := step1 2 3 [] (fun d => (d.modTile 3 (fun x => { x with fillq := [r] })).wf (Reg.TILE_WR_STAT 3) Fld.TILE_WR_STAT.DEPTH 1)
       (Safety.mach s).streamerStep 3 = some (2, stp) ∧ (s.dev.tile 3).fillq = r :: []
        ∧ s.dev.rf (Reg.TILE_WR_STAT 3) Fld.TILE_WR_STAT.FILL_PTR < 6
        ∧ s.dev.token 3 (s.dev.rf (Reg.TILE_WR_STAT 3) Fld.TILE_WR_STAT.FILL_PTR) = Tok.EMPTY
        ∧ s.dev.slotsInUse 3 < s.dev.rf (Reg.TILE_WR_STAT 3) Fld.TILE_WR_STAT.DEPTH)
    ∧ (∀ bad ∈ [false, true], let r : FillReq := ⟨some 0, 0x4000, 2, 1, none, bad⟩
       let s := step1 2 3 [] (fun d => d.modTile 3 (fun x => { x with slots := x.slots.set 5 { req := some r } }))
       Safety.noErrors s ∧ s.dev.tileLoop 3 = some 2 ∧ ((s.dev.tile 3).slots.getD 5 {}).req = some r
        ∧ ((s.dev.tile 3).slots.getD 5 {}).landed = false ∧ s.dev.fetchGoes 3 r = true)
    ∧ (let s := step1 2 3 [] (fun d => (d.modTile 3 (fun x => { x with fills := [(0, .slot 5)] })).setToken 3 5 Tok.FULL)
       (s.dev.tile 3).fillIn 5 = some 0 ∧ s.dev.token 3 5 = Tok.FULL ∧ s.dev.slotUses 3 5 = 0
        ∧ (Safety.mach s).fillBusy 3 0 = false) := by
  unfold Safety.issues Safety.noErrors; and_intros <;> decide +kernel

theorem witness_StreamsOfRows :
    (let s := step1 2 3 []
     Safety.noErrors s ∧ s.dev.list (listKey (.tile 3)) = some (lst 2 []) ∧ (lst 2 []).bad = none ∧ (lst 2 []).buf.length < 4096
      ∧ (lst 2 []).next + (lst 2 []).buf.length < (lst 2 []).count
      ∧ s.dev.hbmOpen ((lst 2 []).addr + 16 * ((lst 2 []).next + (lst 2 []).buf.length)) 16 (listReq (listKey (.tile 3))) = true)
    ∧ (let e := entry K.SEND [(94, 5), (78, 3)]
       let b : Bound := { stream := 5, rows := 3 }
       let st : StepSt := { stp with bound := [b] }
       let s := step1 15 127 [e] (fun d => { d with loops := [(15, { binding := some bound, step := some st })] })
       Safety.issues s (112 + 15) (lst 15 [e]) st 0 e ∧ Ent.kind e = K.SEND
        ∧ st.bound.find? (fun b => b.stream == bits (Send.srow e) 5 0) = some b ∧ Send.trow e + Send.nrows e ≤ b.rows)
    ∧ (let e := entry K.SEND [(78, 1)]
       Safety.issues (step1 2 3 [e]) 3 (lst 2 [e]) stp 0 e ∧ Ent.kind e = K.SEND)
    ∧ (let e := entry K.RECV [(88, 1)]
       Safety.issues (step1 2 3 [e]) 3 (lst 2 [e]) stp 0 e ∧ Ent.kind e = K.RECV)
    ∧ (let r : Transit := ⟨none, 0, List.replicate 64 1, 0, 0x100, 1⟩
       let s := on (fun d => { d with transit := [(16 * 95 + 15, [r])] })
       Safety.memOk s ∧ s.dev.flash.flipped = [] ∧ AMap.getD s.dev.transit (16 * 95 + 15) [] = r :: []
        ∧ s.dev.behind 95 r = false ∧ s.dev.meshOpen r.srcRidge (95 / 4) (95 % 4) (srcReq r.src) = true
        ∧ s.dev.queue 95 15 = (0, 1, 0, 0)) := by
  unfold Safety.issues Safety.noErrors Safety.memOk; and_intros <;> decide +kernel

/-- A call of entry 4 in flight on tile 3 whose code is `li a0, 0` and then the word `w`. -/
def spurCalling (w : Nat) : State :=
  { step1 2 3 [] (fun d => d.modTile 3 (fun x => { x with spur := { call := some 4, pc := 0x300000 } })) with
    mem := cells (tileBase 3 + 0x300000) (leBytes 4 0x00000513 ++ leBytes 4 w) }

theorem witness_SpurCalls :
    (let e := entry K.SPUR [(72, 1)]
     Safety.issues (step1 2 3 [e, 0]) 3 (lst 2 [e, 0]) stp 0 e ∧ Ent.kind e = K.SPUR)
    ∧ (∀ x ∈ [(0x00000073, 8), (0x00100073, 3)], let s := spurCalling x.1
       let r := Mach.rvRun 2 3 1 (Safety.mach s)
       s.dev.spurCallOn 3 = some (2, 4) ∧ r.2 = none ∧ (r.1.rvStep 2 3).2 = some x.2
        ∧ ((r.1.rvStep 2 3).1.dev.tile 3).spur.xr 10 = 0) := by
  unfold Safety.issues; and_intros <;> decide +kernel

theorem witness_TapsArgmaxAndSign :
    (∀ k ∈ [K.CTAP, K.DTAP], let e := entry k [(121, 1), (66, 1)]
     Safety.issues (step1 2 3 [e]) 3 (lst 2 [e]) stp 0 e ∧ Ent.kind e = k ∧ Tap.nrows e ≠ 0 ∧ Pass.acc e = false)
    ∧ (∀ k ∈ [K.CTAP, K.DTAP], let e := entry k [(121, 1), (119, 1), (66, 65535)]
       let s := step1 2 3 [e] (fun d => d.modLarr 3 1 (fun x => { x with win := some 5 }))
       Safety.issues s 3 (lst 2 [e]) stp 0 e ∧ Tap.nrows e ≠ 0 ∧ Pass.acc e = true
        ∧ (s.dev.larr 3 (Ent.array e)).win = some 5 ∧ 5 ≠ Pass.win e)
    ∧ (∀ k ∈ [K.CTAP, K.DTAP], let e := entry k [(121, 1)]
       let s := step1 2 3 [e] (fun d => { d with loops := [(2, { binding := some xstp.b, step := some xstp })] })
       Safety.issues s 3 (lst 2 [e]) xstp 0 e ∧ Ent.kind e = k ∧ Tap.nrows e = 0
        ∧ xstp.b.route.tabs[Tap.table e]? = some ⟨0x3000, 24, 5⟩)
    ∧ (let e := entry K.ARGMAX [(89, 1), (73, 1), (58, 1)]
       Safety.memOk (step1 2 3 [e]) ∧ Safety.noErrors (step1 2 3 [e]) ∧ Safety.issues (step1 2 3 [e]) 3 (lst 2 [e]) stp 0 e
        ∧ Ent.kind e = K.ARGMAX)
    ∧ (let e := entry K.CHECK [(120, 3), (89, 1), (85, 15)]
       Safety.noErrors (step1 2 3 [e]) ∧ Safety.issues (step1 2 3 [e]) 3 (lst 2 [e]) stp 0 e ∧ Ent.kind e = K.CHECK
        ∧ Chk.op e = 3) := by
  unfold Safety.issues Safety.noErrors Safety.memOk; and_intros <;> decide +kernel

/-- A Tarn call of loop 15 with a batch of one empty position, one row in its inbox, and its parameter record in HBM. -/
def tstp : StepSt := { stp with b := { bound with route := { route with tabs := [⟨0x3000, 32, 6⟩] } }, ctx := some 0 }
def tns : NsRec := nsOf [1, 1, 1, 4, 16, 0]
def calling (e : Nat) : State :=
  { step1 15 111 [e] (fun d => { d with
      loops := [(15, { step := some tstp })]
      tarn := { ns := [(0, tns)], ctxs := [(0, { loop := 15, inboxes := [(0, [List.replicate 64 0])] })] } }) with
    mem := cells 0x3000 [0, 0, 0, 0, 1, 0, 1, 0] }

theorem witness_TarnCalls :
    (let e := entry K.TARN [(67, 1)]
     Safety.issues (step1 2 3 [e]) 3 (lst 2 [e]) stp 0 e ∧ Ent.kind e = K.TARN)
    ∧ (∀ op ∈ [1, 2, 3, 4, 5], let e := entry K.TARN [(115, op), (67, 1)]
       let p := (Safety.mach (calling e)).tparam tstp.b.route e
       let i := Safety.iss (96 + 15) (lst 15 [e]) tstp 0 e
       let m1 := (Safety.issued (calling e) (96 + 15) (lst 15 [e])).mod (fun d => d.takeInbox 0 (Tarn.chan e)
         (if op < 4 then Tarn.nrows e else 0))
       Safety.noErrors (calling e) ∧ (Safety.mach (calling e)).callOpen tstp e = true
        ∧ (Safety.mach (calling e)).callNs p (batchOf tstp p) = some tns
        ∧ m1.appendPast i p = false ∧ (m1.appendAll i p tns [List.replicate 64 0]).2 = none
        ∧ (m1.tokensAll i p [List.replicate 64 0]).2 = none ∧ (m1.decodeReads i p tns).2 = false
        ∧ (m1.readPages 15 120 p.layer tns (m1.walkNodes i p)).2 = false
        ∧ Safety.issues (calling e) (96 + 15) (lst 15 [e]) tstp 0 e ∧ (lst 15 [e]).loop = 15 ∧ Ent.kind e = K.TARN
        ∧ Tarn.op e = op ∧ tstp.ctx = some 0
        ∧ (∃ x, AMap.find (calling e).dev.tarn.ctxs 0 = some x ∧ Tarn.nrows e ≤ (x.inbox (Tarn.chan e)).length)
        ∧ (batchOf tstp p).all (fun o => o.isNone) = true ∧ (calling e).dev.nsRec p.nsid = some tns
        ∧ Tarn.nrows e = p.bcount * p.npos * rowsOf (2 * tns.nkv * tns.hd * tns.b) ∧ p.kvclass = tns.kvclass ∧ p.layer < tns.nl
        ∧ Tarn.nrows e = ceilDiv (p.bcount * p.npos) 16
        ∧ Tarn.nrows e = p.bcount * rowsOf (tns.nkv * p.g * tns.hd * 2) ∧ 1 ≤ Tarn.nrows e) := by
  unfold Safety.issues Safety.noErrors
  refine ⟨by decide +kernel, fun op h => ?_⟩
  fin_cases h <;> (and_intros <;> first | exact ⟨_, rfl, by decide +kernel⟩ | decide +kernel)

theorem witness_UnmappedAccesses :
    (∀ x ∈ [(Agent.summit, 0x001800000000), (.debug, 0x040000380000), (.spur 95, 0x010017F40000), (.remote 5, 0xFFFFFFFFFFFF)],
      let addr := BitVec.ofNat 54 x.2
      let s := on (fun d => d.wf Reg.DBG_STAT Fld.DBG_STAT.OPEN 1)
      x.1 ≠ .command ∧ bits addr.toNat 53 52 = s.dev.pkg ∧ s.dev.dbgOpen = true
        ∧ s.dev.region (addr.toNat % 2 ^ 48) = .unmapped ∧ reaches x.1 (addr.toNat % 2 ^ 48) = true)
    ∧ (Agent.summit ≠ .command ∧ Agent.summit ≠ .debug ∧ bits (0x000F000000000000#54).toNat 53 52 = on.dev.pkg
      ∧ bits (0x000F000000000000#54).toNat 51 48 ≠ 0)
    ∧ (∀ x ∈ [(0x0301, 4), (0x0302, 8), (0x0303, 4), (0x0304, 4)],
      let p := pk x.1 (leBytes 8 0x0017FFFFFFFC ++ leBytes 4 8 ++ List.replicate x.2 0)
      Safety.ready (got p) x.1 (7#16).toNat p ∧ pay32 p.payload 8 = 8 ∧ 4 < p.payload.length - 12 + 4
        ∧ (got p).dev.region (pay64 p.payload 0 + 4) = .unmapped)
    ∧ Safety.ready (got (pk 0x0302 (leBytes 8 0x0017FFFFFFFC ++ List.replicate 12 0))) 0x0302 (7#16).toNat
        (pk 0x0302 (leBytes 8 0x0017FFFFFFFC ++ List.replicate 12 0))
    ∧ (∀ op ∈ [0x0201, 0x0202, 0x0203],
      let p := pk op (leBytes 8 0x040000120000 ++ leBytes 4 1 ++ (if op = 0x0201 then [] else [0, 0, 0, 0]))
      Safety.ready (got p) op (7#16).toNat p ∧ (got p).dev.region (pay64 p.payload 0 + 4 * 0) = .unmapped
        ∧ (op = 0x0203 ∨ pay32 p.payload 8 = 1))
    ∧ (∀ a ∈ [0x001800000000, 0x00FFFFFFFFFF, 0x010018000000, 0x01FFFFFFFFFF, 0x020001000000, 0x020FFFFFFFFF, 0x021000C00000,
        0x02FFFFFFFFFF, 0x030000200000, 0x030FFFFFFFFF, 0x031000200000, 0x03FFFFFFFFFF, 0x040000120000, 0x0400001FFFFF,
        0x040000380000], (on.dev.region a = .unmapped))
    ∧ (0x340000 < 0x400000 ∧ 0x3EFFFF < 0x3F0000)
    ∧ (let s := on (fun d => d.wf Reg.GEN_RIDGE_EN Fld.GEN_RIDGE_EN.RIDGE_EN 0)
       s.dev.ridgeOn ((95 : Fin 96).val / 4) = false ∧ s.dev.ridgeOn (23 : Fin 24).val = false) := by
  unfold Safety.ready; and_intros <;> decide +kernel

theorem witness_RegisterFieldsAndAccess :
    (∀ x ∈ [(Agent.summit, Reg.SCH_CTRL), (.command, Reg.FL_CTRL), (.spur 95, Reg.TILE_ARR_CTRL 95), (.remote 5, Reg.GEN_ID)],
      on.dev.mayReach x.1 (BitVec.ofNat 48 x.2).toNat = true)
    ∧ (let s := on (fun d => d.wf Reg.DBG_STAT Fld.DBG_STAT.OPEN 1)
       s.dev.mayReach .debug (BitVec.ofNat 48 Reg.GEN_ID).toNat = true)
    ∧ on.dev.mayReach .debug (BitVec.ofNat 48 Reg.GEN_ID).toNat = false
    ∧ (∃ r, regDesc (Reg.SCH_LOOPn_SAVE_LO 15) = some r ∧ ∀ l, on.dev.lockAt (Reg.SCH_LOOPn_SAVE_LO 15) = some l → l.1 = false) :=
  ⟨by decide +kernel, by decide +kernel, by decide +kernel, _, rfl, by
    intro l h
    have e : on.dev.lockAt (Reg.SCH_LOOPn_SAVE_LO 15) = some (false, Reg.SCH_STAT, Fld.SCH_STAT.CFG_LOCKED_WRITE) := by decide +kernel
    rw [e] at h; cases h; rfl⟩

/-- What the pins and the fuses show as PORST is released. -/
def released : ReleaseEnv := ⟨true, false, 3, 3, true, []⟩

theorem witness_ResetsLeaveState :
    (State.reset.dev.pwr.porst = true ∧ released.pwrFailN = true ∧ released.coolOk = false)
    ∧ (Safety.memOk on)
    ∧ (let s := on (fun d => { d with saf := { resetAt := some 9 } })
       Safety.memOk s ∧ s.dev.saf.resetAt = some 9 ∧ 0x1FFFFF < 0x200000)
    ∧ on.dev.saf.resetAt = none ∧ on.dev.pwr.porst = false := by
  unfold Safety.memOk; and_intros <;> decide +kernel

/-- The debug port open with every scope, and the list of tile 95 selected and halted. -/
def opened (h : Bool) : State := step1 2 95 [] (fun d =>
  ((d.setList 95 { lst 2 [] with dbgHalt := h }).setReg Reg.DBG_STAT 0xFFFFFFFF).wf Reg.DBG_RT_CTRL Fld.DBG_RT_CTRL.TILE 95)

theorem witness_DebugPortCommands :
    ((opened false).dev.dbgOpen = true ∧ (opened false).dev.list 95 = some (lst 2 [])
      ∧ listUnit 95 = (opened false).dev.rf Reg.DBG_RT_CTRL Fld.DBG_RT_CTRL.TILE)
    ∧ ((opened true).dev.list 95 = some { lst 2 [] with dbgHalt := true })
    ∧ (bit ((opened true).dev.rf Reg.DBG_STAT Fld.DBG_STAT.SCOPE) 0 = true
      ∧ ((3 : Fin 100).val < 4 ∨ (opened true).dev.tileOn ((3 : Fin 100).val - 4) = true)
      ∧ (opened true).dev.tileOn ((99 : Fin 100).val - 4) = true)
    ∧ on.dev.dbgOpen = false ∧ (opened true).dev.harts.contains 99 = false
    ∧ ({ (opened true).dev with harts := [99] } : Dev).harts.contains (99 : Fin 100).val = true
    ∧ (∀ a ∈ [0, hbmSize - 8], (opened true).dev.busReaches (a / 8 * 8) = true ∧ (opened true).dev.region (a / 8 * 8) = .hbm)
    ∧ (0#48).toNat = 0 ∧ (0x17FFFFFFF8#48).toNat = hbmSize - 8
    ∧ Safety.noErrors (opened true) ∧ Safety.memOk (opened true) ∧ (opened true).dev.flash.flipped = [] := by
  unfold Safety.noErrors Safety.memOk; and_intros <;> decide +kernel

theorem witness_CommandWindowBytes :
    (let s := on (fun d => { d with sdio := { ioe1 := true, ior1 := true } })
     s.dev.sdio.ior1 = true ∧ s.dev.sdio.ioe1 = true ∧ s.dev.sdio.cmd = [] ∧ s.dev.sdio.skip = 0
      ∧ s.dev.sdio.hdr = none ∧ s.dev.pkg < s.dev.grp ∧ s.dev.sdio.outstanding.any (fun x => x.tag == 65535) = false
      ∧ s.dev.sdio.deferred.any (fun x => x.1 == 65535) = false ∧ s.dev.sdio.outstanding.length < 32
      ∧ s.dev.boot.phase ≠ .recovery ∧ (∀ x ∈ s.dev.sdio.outstanding, x.pkg = s.dev.pkg))
    ∧ (∀ x ∈ [(0x0102, 0), (0x0102, 32768), (0x0302, 32768)], (opLength x.1).isSome = true ∧ lengthOk x.1 (List.replicate x.2 0) = true)
    ∧ (let s := on (fun d => { d with sdio := { replies := [[1, 2, 3]], taken := 1 } })
       s.dev.sdio.waiting = [] ∧ (∀ x ∈ s.dev.sdio.outstanding, x.pkg = s.dev.pkg)
        ∧ takeReplies s.dev.sdio.replies s.dev.sdio.taken 5 = ([], 0, 3)) := by decide +kernel

/-- A step of a route that has a resource of rank 3 as its record 0 and a shared one of rank 9 as its record 1. -/
def rstp : StepSt :=
  { stp with b := { bound with route := { route with res := [⟨0, false, 3, 3⟩, ⟨0, true, 5, 9⟩] } } }
def holdingRes (e : Nat) (rank : Nat) (r : ResSt) : State :=
  step1 2 3 [e, 0] (fun d => { d.setList 3 { lst 2 [e, 0] with held := [(1, rank)] } with
    loops := [(2, { binding := some rstp.b, step := some rstp })]
    res := [(5, r)] })

theorem witness_MarksAndSemaphores :
    (∀ id ∈ [0, 1], let e := entry K.CHECK [(104, id), (72, 7)]
     Safety.issues (step1 2 3 [e]) (listKey (.tile 3)) (lst 2 [e]) stp 0 e ∧ Ent.kind e = K.CHECK ∧ Chk.op e = 0
      ∧ Chk.markid e = id ∧ (lst 2 [e]).nextMark = 0)
    ∧ (∀ x ∈ [(9, none), (8, none), (8, some (95, 1))], let e := entry K.CHECK [(120, 1), (110, 1)]
       let s := holdingRes e x.1 { holder := x.2 }
       let l : ListSt := { lst 2 [e, 0] with held := [(1, x.1)] }
       Safety.issues s (listKey (.tile 3)) l rstp 0 e ∧ Ent.kind e = K.CHECK ∧ Chk.op e = 1
        ∧ rstp.b.route.res[Chk.res e]? = some ⟨0, true, 5, 9⟩ ∧ (Safety.issued s 3 l).dev.highestRank l.loop = x.1
        ∧ (s.dev.resOf (s.dev.poolKey rstp.b ⟨0, true, 5, 9⟩)).holder = x.2)
    ∧ (let e := entry K.CHECK [(120, 2), (110, 1)]
       Safety.issues (holdingRes e 9 {}) 3 { lst 2 [e, 0] with held := [(1, 9)] } rstp 0 e ∧ Ent.kind e = K.CHECK ∧ Chk.op e = 2
        ∧ rstp.b.route.res[Chk.res e]? = some ⟨0, true, 5, 9⟩) := by
  unfold Safety.issues; and_intros <;> decide +kernel

/-- Node 1,048,575 of namespace 0 in GRACE, its frames given up, while the epochs `es` are open. -/
def inGrace (es : List Nat) : State := on (fun d => { d with
  tarn := { ns := [(0, nsOf [1, 1, 1, 4, 16, 0])], grace := [(1048575, false)] }
  loops := es.map (fun e => (15, { step := some { stp with epoch := some e } })) })

theorem witness_StepEndsLeaveLoop :
    (let e := entry K.END []
     Safety.issues (step1 2 3 [e]) (listKey (.tile 3)) (lst 2 [e]) stp 0 e ∧ Ent.kind e = K.END)
    ∧ (let s := on (fun d => { d with
         loops := [(15, { step := some { stp with cairn := true } })]
         lists := [(95, { lst 15 [] with ended := true }), (94, lst 14 [])] })
       (s.dev.loop 15).step = some { stp with cairn := true } ∧ stp.phase = .running
        ∧ (∀ c, stp.ctx = some c → (Safety.mach s).tarnEndFault c = none)
        ∧ (∀ p ∈ s.dev.lists, p.2.loop = 15 → p.2.ended = true) ∧ stp.ctx = none ∧ (s.dev.loop 15).deferred = [])
    ∧ (let st : StepSt := { stp with ctx := some 15 }
       let s := on (fun d => { d with
         loops := [(15, { step := some st })]
         tarn := { ns := [(0, nsOf [1, 2, 1, 4, 16, 0])], ctxs := [(15, { loop := 15, tx := [{ slot := 3, base := 0, layers := [(0, 1)] }] })] } })
       (s.dev.loop 15).step = some st ∧ st.ctx = some 15 ∧ ((Safety.mach s).tarnEndFault 15).isSome = true)
    ∧ AMap.getD (on (fun d => { d with posts := [(15, [(3, List.replicate 64 0), (4, [])])] })).dev.posts 15 []
        = (3, List.replicate 64 0) :: [(4, [])]
    ∧ (AMap.find (inGrace []).dev.tarn.grace 1048575 = some false ∧ (Safety.mach (inGrace [])).graceOver 1048575 = true
      ∧ ((inGrace []).dev.nsRec ((Safety.mach (inGrace [])).nd 1048575 Nd.NSID 1)).isSome = true)
    ∧ (AMap.find (inGrace [4294967295]).dev.tarn.grace 1048575 = some false ∧ (Safety.mach (inGrace [4294967295])).graceOver 1048575 = false)
    ∧ (on (fun d => { d with tarn := { openSlots := [3] } })).dev.tarn.openSlots ≠ [] ∧ on.dev.tarn.openSlots = [] := by
  unfold Safety.issues; and_intros <;> decide +kernel

/-- Loop 15 of a class, enabled or not, and bound. -/
def loop15 (cls : Nat) (en : Bool) (f : LoopSt → LoopSt := id) : State := on (fun d =>
  { (d.wf (Reg.SCH_LOOPn_CFG 15) Fld.SCH_LOOPn_CFG.CLASS cls).wf (Reg.SCH_LOOPn_CFG 15) Fld.SCH_LOOPn_CFG.EN (b2n en) with
    loops := [(15, f { binding := some bound })] })

theorem witness_ReleasesGuardsAndWindows :
    ((loop15 1 true).dev.loopClass 15 = 1 ∧ (loop15 1 true).dev.loopEn 15 = true
      ∧ ((loop15 1 true).dev.loop 15).release = false ∧ ((loop15 1 true).dev.loop 15).step = none)
    ∧ (let s := loop15 1 true (fun x => { x with release := true, step := some stp })
       s.dev.loopClass 15 = 1 ∧ s.dev.loopEn 15 = true ∧ (s.dev.loop 15).release = true ∧ (s.dev.loop 15).step ≠ none)
    ∧ ((loop15 1 false).dev.loopClass 15 = 1 ∧ (loop15 1 false).dev.loopEn 15 = false)
    ∧ ((loop15 2 true).dev.loopClass 15 = 2 ∧ (loop15 2 true).dev.loopEn 15 = true
      ∧ ((loop15 2 true).dev.loop 15).binding = some bound ∧ ((loop15 2 true).dev.loop 15).guard = false
      ∧ ((loop15 2 true).dev.loop 15).window = false)
    ∧ ((loop15 2 true (fun x => { x with window := true })).dev.loop 15).window = true
    ∧ on.dev.callForced.schedOn = false := by decide +kernel

/-- A step of loop 15 on ridge 0 whose route has a list for its tile 0, two live rows there and one CARRY row. -/
def lived : Binding := { bound with route := { route with
  lists := [(128, 1), (0, 0), (0, 0), (0, 0)]
  live := [⟨0, 0, 0, 0, 0, 2, 0, 0⟩, ⟨0, 3, 0, 0, 32767, 1, 0, 0⟩] } }
def preempting (st : StepSt) (f : LoopSt → LoopSt := id) : State :=
  on (fun d => { d with loops := [(15, f { binding := some lived, step := some { st with b := lived } })] })

theorem witness_PreemptionSavesAndRestores :
    ((3 : Fin 4).val ≠ on.dev.pkg ∧ ((preempting stp).dev.loop 15).step = some { stp with b := lived }
      ∧ ((preempting stp).dev.loop 14).step = none)
    ∧ (let st : StepSt := { stp with phase := .saving, holds := [(2, some 0), (3, none)] }
       ((preempting st).dev.loop 15).step = some { st with b := lived } ∧ st.phase = .saving ∧ (3, none) ∈ st.holds
        ∧ (preempting st).dev.holdOver st (3, none) = false)
    ∧ (let st : StepSt := { stp with b := lived, phase := .saving, holds := [(2, some 0)] }
       let s := preempting st
       let m1 := st.b.queueList.foldl (fun m x => m.returnRows x.1 x.2)
         (st.b.usedTiles.foldl (fun m t => (m.kickLoads t).finishPasses 15 t) ((Safety.mach s).spurProgress 15 []))
       let m2 := m1.mod (fun d => st.b.usedTiles.foldl (fun d t => ((d.cutLoads t).cutFlights t).squash t) d)
       (s.dev.loop 15).step = some st ∧ st.holds.all (s.dev.holdOver st) = true ∧ (m2.dev.loop 15).step ≠ none
        ∧ (m2.saveRows 15 (m2.dev.saveBase 15) 0 st.b.places).2 = true ∧ st.b.places.length = 3 ∧ st.b.usedTiles = [0])
    ∧ (let st : StepSt := { stp with b := lived, phase := .restoring, saved := [⟨0, {}, some (lst 15 []), [], [], [], []⟩] }
       let s := preempting st
       let m0 := (Safety.mach s).mod (fun d => d.charge (st.callers.headD 15) 3)
       let r := m0.restoreRows 15 (m0.dev.saveBase 15) st.b.places
       let m2 := st.saved.foldl (fun m x => if (m.dev.loop 15).step.isSome then m.restoreTile 15 st.b x else m)
         (st.b.records.foldl (fun m x => m.mod (fun d => d.fromHbm (m.dev.saveBase 15 + x.2) 256 x.1)) r.1)
       (s.dev.loop 15).step = some st ∧ r.2 = true ∧ (m2.dev.loop 15).step ≠ none)
    ∧ (let st : StepSt := { stp with b := lived, phase := .saving }
       let s := { preempting st with dev := { (preempting st).dev with ue := [amAddr 0 0] } }
       let m1 := st.b.queueList.foldl (fun m x => m.returnRows x.1 x.2)
         (st.b.usedTiles.foldl (fun m t => (m.kickLoads t).finishPasses 15 t) ((Safety.mach s).spurProgress 15 []))
       let m2 := m1.mod (fun d => st.b.usedTiles.foldl (fun d t => ((d.cutLoads t).cutFlights t).squash t) d)
       (m2.dev.loop 15).step ≠ none ∧ (m2.saveRows 15 (m2.dev.saveBase 15) 0 st.b.places).2 = false)
    ∧ (∀ b ∈ [true, false], let s := preempting stp (fun x => { x with carryBusy := some (b, 15) })
       Safety.memOk s ∧ Safety.noErrors s ∧ (s.dev.loop 15).carryBusy = some (b, 15) ∧ (s.dev.loop 15).binding = some lived
        ∧ lived.carryPlaces = [(amAddr 0 32767, 4096 + 16384 + 128)]) := by
  unfold Safety.memOk Safety.noErrors
  and_intros <;> decide +kernel

theorem witness_ArbitersAndLoops :
    (arbUsed 255 = true ∧ arbHas 255 8 = true ∧ arbHas 133 194 = true ∧ arbUsed 133 = true ∧ (∀ y ∈ (on.dev.arb 255).removed, y.1 ≠ 8)
      ∧ (∀ x ∈ (on.dev.arb 255).waiting, x.req ≠ 8) ∧ on.dev.tagFree 255 = true)
    ∧ (let s := on (fun d => d.setReg (Reg.ARB_FREEZE_k 7) (2 ^ 31))
       arbUsed 255 = true ∧ s.dev.arbFrozen 255 = true)
    ∧ ((on.dev.arb 255).owner = none ∧ on.dev.arbFrozen 255 = false)
    ∧ (let y := { on.dev.arb 255 with removed := [(8, none), (7, some 2)] }
       (∀ z ∈ y.removed.filter (fun y => y != (8, none)), z.1 ≠ 8))
    ∧ (let q : ArbReq := ⟨8, ⟨194, none, true, .bulk⟩, 65535, 0, true⟩
       let s := on (fun d => d.setArb 255 { waiting := [q] })
       (s.dev.arb 255).owner = none ∧ s.dev.arbFrozen 255 = false ∧ s.dev.tagFree 255 = true ∧ (s.dev.arb 255).waiting = [q])
    ∧ (let x : ArbReq := ⟨189, ⟨189, some 15, true, .bulk⟩, 0, 0, true⟩
       let s := on (fun d => d.setArb 133 { owner := some x })
       (s.dev.arb 133).owner = some x ∧ s.dev.arbLoop (x.source 133) x.origin.served = some 15)
    ∧ (let x : ArbReq := ⟨187, ⟨187, none, true, .bulk⟩, 0, 0, true⟩
       let p := memCmd 0x0301 0x1000 (leBytes 4 3)
       let s := got p (fun d => d.setArb 0 { owner := some x })
       (s.dev.arb 0).owner = some x ∧ s.dev.arbLoop (x.source 0) x.origin.served = none
        ∧ s.dev.sdio.outstanding.find? (fun p => (servedOps (x.source 0)).contains p.op && s.dev.sdio.mayStart p) = some p
        ∧ on.dev.sdio.outstanding.find? (fun p => (servedOps (x.source 0)).contains p.op && on.dev.sdio.mayStart p) = none)
    ∧ (let x : ArbReq := ⟨4, ⟨194, none, true, .bulk⟩, 65535, 0, true⟩
       ((on (fun d => d.setArb 136 { owner := some x })).dev.arb 136).owner = some x ∧ 136 ≤ (136 : Fin 256).val ∧ 4 ≤ x.req)
    ∧ on.dev.rf Reg.PWR_STAT Fld.PWR_STAT.BOOT_ONLY = 0
    ∧ (on (fun d => d.wf Reg.PWR_STAT Fld.PWR_STAT.BOOT_ONLY 1)).dev.rf Reg.PWR_STAT Fld.PWR_STAT.BOOT_ONLY = 1
    ∧ ((3 : Fin 4).val ≠ on.dev.pkg ∧ (on.dev.loop 15).binding = none) := by decide +kernel

/-- Port `p` of a group of four packages in state `st`, enabled. -/
def port (p st : Nat) (f : Dev → Dev := id) : State := on (fun d =>
  f (((d.wf (Reg.COL_Pp_CTRL p) Fld.COL_Pp_CTRL.EN 1).setPortState p st).wf Reg.COL_GRP Fld.COL_GRP.GRP 3))

theorem witness_ColLinkStates :
    (∀ n ∈ [6, 7], let s := port 5 PS.UP (fun d => d.modPort 5 (fun x => { x with unacked := [⟨4095, 1, 1, [3]⟩], resends := n }))
     (s.dev.port 5).unacked ≠ [] ∧ s.dev.portState 5 = PS.UP ∧ (s.dev.port 5).resends = n ∧ s.dev.linkUp 5 = true)
    ∧ ((port 5 PS.TRAINING).dev.linkUp 5 = false ∧ (port 5 PS.TRAINING).dev.portState 5 = PS.TRAINING)
    ∧ ((port 5 PS.TRAINING).dev.portEn 5 = true ∧ (port 5 PS.TRAINING).dev.colPower = true
      ∧ (port 5 PS.TRAINING).dev.portState 5 = PS.TRAINING ∧ (0#8).toNat = 0)
    ∧ (let s := port 5 PS.DOWN (fun d => (d.wf (Reg.COL_Pp_CTRL 5) Fld.COL_Pp_CTRL.ALLOW4 1).wf Reg.COL_CTRL Fld.COL_CTRL.AUTO 1)
       s.dev.portEn 5 = true ∧ s.dev.colPower = true ∧ s.dev.portState 5 = PS.DOWN ∧ s.dev.colAuto = true
        ∧ (0xF0#8).toNat ≠ 0 ∧ s.dev.rf (Reg.COL_Pp_CTRL 5) Fld.COL_Pp_CTRL.ALLOW4 = 1
        ∧ ((0xF0#8).toNat % 16 = 0 ∧ (0x0F#8).toNat < 16) ∧ (0x11#8).toNat % 16 ≠ 0 ∧ 16 ≤ (0x11#8).toNat)
    ∧ (port 5 PS.TRAINING (fun d => d.wf (Reg.COL_Pp_CTRL 5) Fld.COL_Pp_CTRL.ALLOW4 0)).dev.rf (Reg.COL_Pp_CTRL 5) Fld.COL_Pp_CTRL.ALLOW4 = 0
    ∧ (let s := port 5 PS.UP (fun d => d.modPort 5 (fun x => { x with unacked := [⟨4095, 1, 1, [3]⟩], resends := 7 }))
       s.dev.portState 5 = PS.UP ∧ (s.dev.port 5).unacked ≠ [] ∧ s.dev.portEn 5 = true)
    ∧ ((port 5 PS.RECOVERY).dev.portState 5 = PS.RECOVERY ∧ (port 5 PS.RECOVERY).dev.portEn 5 = true)
    ∧ ((port 5 PS.INIT).dev.portEn 5 = true ∧ (port 5 PS.INIT).dev.portState 5 ≠ PS.UP
      ∧ (port 5 PS.INIT).dev.portState 5 ≠ PS.RECOVERY)
    ∧ ((port 5 PS.DISABLED).dev.portState 5 = PS.DISABLED ∧ (port 5 PS.DISABLED).dev.colPower = true)
    ∧ (let x : RemoteReq := ⟨5, true, 0, 4096, 0⟩
       AMap.find (on (fun d => { d with col := { outstanding := [(65535, x)] } })).dev.col.outstanding (65535#16).toNat = some x)
    ∧ (let p : Packet := ⟨0x0101, 7, false, 3, [0, 0, 0, 0], 0⟩
       let s := on (fun d => { d with sdio := { outstanding := [p], remote := [(7, 3)] } })
       AMap.find s.dev.col.outstanding (7#16).toNat = none ∧ AMap.find s.dev.sdio.remote (7#16).toNat = some 3
        ∧ s.dev.sdio.outstanding.find? (fun p => p.tag == (7#16).toNat && p.pkg != s.dev.pkg) = some p)
    ∧ (let s := on (fun d => { d with boot := { phase := .colBoot } })
       s.dev.boot.phase = .colBoot ∧ s.dev.boot.stage1 = none)
    ∧ (let s := port 4 PS.UP (fun d => d.wf Reg.COL_GRP Fld.COL_GRP.PKG 3)
       s.dev.tbSource = 2 ∧ s.dev.reachable 0 = true ∧ s.dev.col.exchange = none)
    ∧ (let s := port 4 PS.UP (fun d => { d.wf Reg.COL_GRP Fld.COL_GRP.PKG 3 with col := { d.col with exchange := some (1, 2, 3, 4) } })
       s.dev.tbSource = 2 ∧ s.dev.reachable 0 = true ∧ s.dev.col.exchange = some (1, 2, 3, 4)) := by decide +kernel

/-- A flit with this type, channel and sequence number, and 244 bytes of ones (R318, R320). -/
def flit (type vc seq : Nat) : List Byte :=
  let b := leBytes 8 (type * 2 ^ 62 + vc * 2 ^ 60 + seq * 2 ^ 48 + 244 * 2 ^ 18) ++ List.replicate 244 1
  b ++ leBytes 4 (crc32c b)
/-- Port 0 of the group up, with this message received on channel `vc`. -/
def rxMsg (vc : Nat) (m : List Byte) (f : Dev → Dev := id) : State :=
  port 0 PS.UP (fun d => f (d.modPort 0 (fun x => { x with rx := x.rx.set vc m })))
/-- Loop 15 with a running step. -/
def stepOf15 (d : Dev) : Dev := { d with loops := [(15, { step := some stp })] }

theorem witness_flits : (parseFlit (flit 3 0 0) = none ∧ parseFlit [] = none)
    ∧ (∀ x ∈ [(0, 0, 5), (1, 3, 0), (1, 2, 4095)], (parseFlit (flit x.1 x.2.1 x.2.2)).map (fun f => (f.type, f.vc, f.seq)) = some x)
    ∧ (∀ st ∈ [PS.UP, PS.INIT], (port 0 st).dev.portState 0 = st ∧ ((port 0 st).dev.fecFlit 0 .clean).2 = false
      ∧ ((port 0 st).dev.fecFlit 0 .uncorrectable).2 = true)
    ∧ (parseFlit (flit 2 0 7)).map (fun f => f.type) = some 2
    ∧ ((port 0 PS.UP).dev.portState 0 = PS.UP ∧ 0 = (((port 0 PS.UP).dev.port 0).ackOut + 1) % 4096)
    ∧ 4095 ≠ (((port 0 PS.UP).dev.port 0).ackOut + 1) % 4096 := by decide +kernel

theorem witness_ColMessagesTaken :
    (∀ x ∈ [(0x01, 0, false), (0x01, 64, true), (0x01, 65, false), (0x02, 64, true), (0x02, 65, false)],
      let bs := List.replicate (if x.1 = 0x02 then x.2.1 else 0) (1 : Byte)
      let s := rxMsg VC.REQUEST (mkMsg x.1 0 1 0 65535 x.2.1 0 0x5FC0 bs)
      s.dev.colMsg 0 VC.REQUEST = (s.dev, some ⟨x.1, 4, 65535, x.2.1, 0, 0x5FC0, bs⟩)
        ∧ accessOk (0x5FC0 % 2 ^ 48) x.2.1 = x.2.2)
    ∧ (∀ op ∈ [0x10, 0x11], let s := rxMsg VC.RESPONSE (mkMsg op 0 1 0 7 0 0 0 [])
       s.dev.colMsg 0 VC.RESPONSE = (s.dev, some ⟨op, 4, 7, 0, 0, 0, []⟩))
    ∧ (let a := 3 + 15 * 2 ^ 7 + 15 * 2 ^ 11
       let s := rxMsg VC.STREAM (mkMsg 0x20 0 1 0 0 128 0 a (List.replicate 128 9)) (fun d =>
         stepOf15 ((d.setReg (Reg.TILE_LQn_CFG 3 15) (2 ^ 31)).setReg (Reg.TILE_LQn_SRC 3 15) (2 ^ 28)))
       s.dev.colMsg 0 VC.STREAM = (s.dev, some ⟨0x20, 4, 0, 128, 0, a, List.replicate 128 9⟩) ∧ bits a 6 0 = 3
        ∧ bits a 10 7 = 15 ∧ bits a 14 11 = 15 ∧ (s.dev.loop 15).step = some stp ∧ stp.phase = .running
        ∧ stp.b.holdsTile 3 = true ∧ 2 ^ 31 ≤ s.dev.reg (Reg.TILE_LQn_CFG 3 15)
        ∧ bits (s.dev.reg (Reg.TILE_LQn_SRC 3 15)) 31 28 = s.dev.peerOf 0 ∧ s.dev.fenced 3 = false)
    ∧ (let a := 3 + 15 * 2 ^ 7 + 15 * 2 ^ 11 + 65535 * 2 ^ 15
       let s := rxMsg VC.RESPONSE (mkMsg 0x21 0 1 0 0 0 0 a []) stepOf15
       s.dev.colMsg 0 VC.RESPONSE = (s.dev, some ⟨0x21, 4, 0, 0, 0, a, []⟩) ∧ (s.dev.loop (bits a 14 11)).step = some stp)
    ∧ (let s := rxMsg VC.MGMT (mkMsg 0x30 0 1 0 0 4 0 0 [1, 2, 3, 4])
       s.dev.colMsg 0 VC.MGMT = (s.dev, some ⟨0x30, 4, 0, 4, 0, 0, [1, 2, 3, 4]⟩) ∧ s.dev.boot.phase ≠ .colBoot)
    ∧ (let s := rxMsg VC.MGMT (mkMsg 0x30 0 0 1 0 0 0 0 []) (fun d =>
         { d.wf Reg.COL_GRP Fld.COL_GRP.PKG 1 with boot := { d.boot with phase := .colBoot } })
       (s.dev.colMsg 0 VC.MGMT).2.isSome = true ∧ s.dev.boot.phase = .colBoot ∧ s.dev.peerOf 0 = 0) := by
  and_intros <;> decide +kernel

/-- HBM ready, with these uncorrectable and correctable bursts. -/
def hbm (ue ce : List Nat) : State := on (fun d => { d.wf Reg.HBM_STAT Fld.HBM_STAT.READY 1 with ue := ue, ce := ce })

theorem witness_HbmReadsWritesAndFill :
    ((hbm [] []).dev.hbmGoes (hbmSize - 1) 1 194 = true ∧ on.dev.hbmGoes (hbmSize - 1) 1 194 = false
      ∧ (hbm [] []).dev.hbmReady = true ∧ Safety.noErrors (hbm [] []) ∧ Safety.memOk (hbm [] [])
      ∧ (hbm [] []).dev.flash.flipped = [] ∧ hbmSize - 1 + 1 ≤ hbmSize)
    ∧ (let s := hbm [hbmSize - 32] []
       s.dev.hbmGoes (hbmSize - 1) 1 194 = true
        ∧ ((Safety.mach s).eccRead (hbmSize - 1) (min 64 (hbmSize - (hbmSize - 1))) 194 (s.dev.hbmLoop 194 (some 15))).2
          = some (hbmSize - 32)
        ∧ ((Safety.mach s).rmwCheck (hbmSize - 1) 1 194 (s.dev.hbmLoop 194 (some 15))).2 = some (hbmSize - 32))
    ∧ (∀ x ∈ [([hbmSize - 32], []), ([], [hbmSize - 32]), ([], [])],
       let s := { hbm x.1 x.2 with dev := (hbm x.1 x.2).dev.wf Reg.HBM_CTRL Fld.HBM_CTRL.SCRUB_EN 1 }
       s.dev.hbmReady = true ∧ s.dev.rf Reg.HBM_CTRL Fld.HBM_CTRL.SCRUB_EN = 1
        ∧ (s.dev.ue.contains ((hbmSize - 1) / 32 * 32) = !x.1.isEmpty) ∧ (s.dev.ce.contains ((hbmSize - 1) / 32 * 32) = !x.2.isEmpty))
    ∧ (let s := { on (fun d => { d with boot := { phase := .filling } }) with mem := [(5, 7), (hbmSize, 3)] }
       s.dev.boot.phase = .filling ∧ Safety.memOk s) := by
  unfold Safety.noErrors Safety.memOk; and_intros <;> decide +kernel

/-- The flash enabled or not, in state `st`. -/
def flash (en st : Nat) (f : FlashSt → FlashSt := id) : State := on (fun d =>
  { (d.wf Reg.FL_CTRL Fld.FL_CTRL.EN en).setFlState st with flash := f { formatted := true, capacity := 64, spare := 1 } })
/-- What a mount finds on an array whose target 7.3 answers. -/
def found (fmt mk : Bool) : MountFound := ⟨[⟨7, 3, 1, 4, 1024, 256, 16384, 2048⟩], fmt, mk, 64, 1, []⟩

theorem witness_FlashMountsServesAndCloses :
    ((flash 0 FL.OFF).dev.rf Reg.FL_CTRL Fld.FL_CTRL.EN = 0 ∧ (flash 0 FL.OFF).dev.flState = FL.OFF)
    ∧ (∀ st ∈ [FL.READY, FL.READONLY], (flash 1 st).dev.rf Reg.FL_CTRL Fld.FL_CTRL.EN = 1 ∧ (flash 1 st).dev.flServing = true)
    ∧ ((flash 1 FL.MOUNTING).dev.flState = FL.MOUNTING ∧ (flash 1 FL.MOUNTING).dev.boot.phase ≠ .mounting
      ∧ (flash 1 FL.MOUNTING).dev.flash.formatted = true ∧ Safety.memOk (flash 1 FL.MOUNTING)
      ∧ (∀ b ∈ [true, false], (useTargets (found b b).targets).1 ≠ [] ∧ (found b b).formatted = b)
      ∧ (useTargets []).1 = [])
    ∧ (let s := { flash 1 FL.MOUNTING with dev := { (flash 1 FL.MOUNTING).dev with boot := { phase := .mounting } } }
       s.dev.flState = FL.MOUNTING ∧ s.dev.boot.phase = .mounting)
    ∧ ((flash 0 FL.BLANK).dev.rf Reg.FL_CTRL Fld.FL_CTRL.EN = 0 ∧ (flash 0 FL.BLANK).dev.flState ≠ FL.OFF
      ∧ (flash 1 FL.BLANK).dev.flServing = false ∧ (flash 1 FL.BLANK).dev.flState ≠ FL.CLOSING)
    ∧ ((flash 1 FL.READY).dev.flash.inBlock 1 = [] ∧ (flash 1 FL.READY).dev.wornApart = none
      ∧ (flash 1 FL.READY (fun f => { f with map := [(5, 4096), (6, 8192)], erases := [(1, 0), (2, 100000)] })).dev.wornApart = some 1)
    ∧ (let w : WbUnit := ⟨4095, 5, none⟩
       (flash 1 FL.READY (fun f => { f with wb := [w, ⟨0, 6, none⟩] })).dev.flash.wb = w :: [⟨0, 6, none⟩])
    ∧ (let s := flash 1 FL.READY (fun f => { f with records := 1021, pages := 4096, map := [(5, 4096)] })
       s.dev.flServing = true ∧ s.dev.flash.records ≠ 0 ∧ 4096 ≤ s.dev.flash.pages ∧ s.dev.flash.inBlock 1 ≠ []
        ∧ s.dev.flash.leastValid = some 1
        ∧ s.dev.rf Reg.FL_POLICY Fld.FL_POLICY.SCRUB_THR < s.dev.rf Reg.FL_POLICY Fld.FL_POLICY.SCRUB_THR + 1)
    ∧ (∀ en ∈ [0, 1], (flash en FL.CLOSING).dev.flState = FL.CLOSING ∧ (flash en FL.CLOSING).dev.flash.wb = []
      ∧ (flash en FL.CLOSED).dev.rf Reg.FL_CTRL Fld.FL_CTRL.EN = en ∧ (flash en FL.CLOSED).dev.flState = FL.CLOSED) := by
  unfold Safety.memOk; and_intros <;> decide +kernel

/-- Unit `u` claimed. -/
def claimed (u : Nat) (c : Bool) : State := on (fun d =>
  (d.wf (Reg.CV_Un_SEL u) Fld.CV_Un_SEL.CLAIM (b2n c)).wf (Reg.CV_Un_SEL u) Fld.CV_Un_SEL.CLAIMED (b2n c))

theorem witness_CheckUnitJobsAndClaims :
    (let j : CvJob := ⟨0, 0, [], 0, 0⟩
     (List.range 16).find? (on (fun d => { d with cv := { serving := (List.range 16).map (fun u => (u, j)) } })).dev.cvIdle = none)
    ∧ (let j : CvJob := ⟨0, 0, [], 0, 0⟩
       (List.range 16).find? (on (fun d => { d with cv := { serving := (List.range 15).map (fun u => (u, j)) } })).dev.cvIdle = some 15)
    ∧ (let j : CvJob := ⟨194, 3, List.replicate 1024 1, (crcParams 3).init, 0⟩
       let s := on (fun d => { d.wf Reg.CV_CTRL Fld.CV_CTRL.SLICE 1 with cv := { serving := [(15, j)] } })
       AMap.find s.dev.cv.serving 15 = some j ∧ s.dev.cvClaim 15 = false ∧ s.dev.cv.waiting = [] ∧ s.dev.cvSlice = 1024)
    ∧ (List.replicate 1024 (1 : Byte)).length ≤ 1024
    ∧ (AMap.find on.dev.cv.serving 15 = none ∧ on.dev.cv.waiting = [])
    ∧ (let j : CvJob := ⟨194, 3, List.replicate 1025 1, 0, 0⟩
       let s := on (fun d => { d.wf Reg.CV_CTRL Fld.CV_CTRL.SLICE 1 with cv := { serving := [(15, j)] } })
       s.dev.cvSlice < j.data.length ∧ s.dev.cvClaimed 15 = false
        ∧ ({ (claimed 15 true).dev with cv := { serving := [(15, j)] } } : Dev).cvClaim 15 = true)
    ∧ (let j : CvJob := ⟨194, 3, [1], 0, 0⟩
       let d := ({ on.dev with cv := { waiting := [j] } } : Dev)
       d.cv.waiting = j :: [] ∧ AMap.find d.cv.serving 15 = none)
    ∧ (claimed 15 true).dev.cvClaimed 15 = true ∧ (claimed 15 false).dev.cvClaimed 15 = false := by
  and_intros <;> decide +kernel

/-- MAC 3 is the SLAVE, and the timebase is in state `st`. -/
def slave (st : Nat) : State := on (fun d => (d.wf (Reg.ETH_CTRL 3) Fld.ETH_CTRL.PTP_ROLE 1).setTbState st)

theorem witness_TimebaseFollowsAndFires :
    ((slave tbFree).dev.tbSource = 1 ∧ (slave tbFree).dev.tbState = tbFree) ∧ on.dev.tbSource ≠ 1
    ∧ (∀ st ∈ [tbAcquiring, tbLocked, tbHoldover], (slave st).dev.tbState = st)
    ∧ (let s := on (fun d => d.wf (Reg.TB_CMPn_CTRL 7) Fld.TB_CMPn_CTRL.EN 1)
       s.dev.rf (Reg.TB_CMPn_CTRL 7) Fld.TB_CMPn_CTRL.EN = 1 ∧ bit s.dev.sync.cmpDone 7 = false
        ∧ s.dev.rf (Reg.TB_CMPn_CTRL 7) Fld.TB_CMPn_CTRL.PERIOD = 0)
    ∧ (let s := on (fun d => ((d.wf (Reg.TB_CMPn_CTRL 7) Fld.TB_CMPn_CTRL.EN 1).wf (Reg.TB_CMPn_CTRL 7)
         Fld.TB_CMPn_CTRL.PERIOD 1).setReg64 (Reg.TB_CMPn_LO 7) 5)
       s.dev.rf (Reg.TB_CMPn_CTRL 7) Fld.TB_CMPn_CTRL.PERIOD ≠ 0
        ∧ stampDiff (s.dev.reach (s.dev.reg64 (Reg.TB_CMPn_LO 7))).stamp
          (stampMove (s.dev.reg64 (Reg.TB_CMPn_LO 7)) (s.dev.cmpPeriod 7)) < 0)
    ∧ on.dev.rf (Reg.TB_CMPn_CTRL 7) Fld.TB_CMPn_CTRL.EN = 0
    ∧ bit (on (fun d => { d with sync := { d.sync with cmpDone := 128 } })).dev.sync.cmpDone 7 = true := by decide +kernel

/-- An Ethernet frame to every station, with its EtherType and what comes after, padded to 60 bytes. -/
def ethFrame (etype : Nat) (p : List Byte) : List Byte :=
  let b := List.replicate 6 0xFF ++ List.replicate 6 1 ++ beBytes 2 etype ++ p
  b ++ List.replicate (60 - b.length) 0
/-- A Stardoul frame after its EtherType: kind, one record or one sensor byte, and CHECK (R405 to R408). -/
def stardoul (kind : Nat) : List Byte :=
  let b : List Byte := [1, BitVec.ofNat 8 kind, 0, if kind = 3 then 0 else 1, 0, 0, 0, 9] ++ List.replicate 8 0
    ++ (if kind = 3 then [0, 0, 0, 5] ++ leBytes 8 0 ++ [0, 1, 0, 0, 7] else [0, 3, 1, 0, 0, 0, 0, 5])
  b ++ beBytes 4 (crc32c b)
/-- MAC 3 up, in a state of its own. -/
def mac (x : MacSt) (f : Dev → Dev := id) : State := on (fun d =>
  f ((d.wf (Reg.ETH_CTRL 3) Fld.ETH_CTRL.EN 1).setMac 3 x))

theorem witness_EthernetFramesReceived :
    ((mac {}).dev.macUp 3 = true ∧ 60 ≤ (ethFrame 0x0800 []).length ∧ (ethFrame 0x0800 []).length ≤ 1518)
    ∧ ((mac {}).dev.passes 3 ((List.replicate 60 (3 : Byte)).take 6) = false)
    ∧ (let bs := ethFrame 0x0800 []
       (mac {}).dev.passes 3 (bs.take 6) = true
        ∧ beField bs (etypeAt bs) 2 ≠ (mac {}).dev.rf (Reg.ETH_CTRL 3) Fld.ETH_CTRL.ETYPE ∧ ((mac {}).dev.mac 3).ring.length < 256)
    ∧ (∀ k ∈ [1, 2, 3], let s := mac {}
       let bs := ethFrame (s.dev.rf (Reg.ETH_CTRL 3) Fld.ETH_CTRL.ETYPE) (stardoul k)
       60 ≤ bs.length ∧ bs.length ≤ 1518 ∧ s.dev.passes 3 (bs.take 6) = true
        ∧ beField bs (etypeAt bs) 2 = s.dev.rf (Reg.ETH_CTRL 3) Fld.ETH_CTRL.ETYPE ∧ beField (bs.drop (etypeAt bs + 2)) 0 1 = 1
        ∧ stardoulOk (s.dev.ethRfB 3 Fld.ETH_CTRL.JUMBO) (decide (bs.length ≤ 48 + etypeAt bs)) (bs.drop (etypeAt bs + 2)) = true)
    ∧ (∀ k ∈ [1, 2], let s := mac { sorted := [(5, stardoul 3), (6, stardoul k)] }
       takeKind k (s.dev.mac 3).sorted = some ((6, stardoul k), [(5, stardoul 3)]) ∧ Safety.memOk s)
    ∧ (let s := mac {}
       let bs := ethFrame (s.dev.rf (Reg.ETH_CTRL 3) Fld.ETH_CTRL.ETYPE) (1 :: List.replicate 40 9)
       s.dev.passes 3 (bs.take 6) = true ∧ beField bs (etypeAt bs) 2 = s.dev.rf (Reg.ETH_CTRL 3) Fld.ETH_CTRL.ETYPE
        ∧ beField (bs.drop (etypeAt bs + 2)) 0 1 = 1
        ∧ stardoulOk (s.dev.ethRfB 3 Fld.ETH_CTRL.JUMBO) (decide (bs.length ≤ 48 + etypeAt bs)) (bs.drop (etypeAt bs + 2)) = false)
    ∧ 256 ≤ ((mac { ring := List.replicate 256 (0, []) }).dev.mac 3).ring.length
    ∧ ((List.replicate 59 (0 : Byte)).length < 60 ∧ (mac {}).dev.ethRfB 3 Fld.ETH_CTRL.JUMBO = false
      ∧ (mac {} (fun d => d.wf (Reg.ETH_CTRL 3) Fld.ETH_CTRL.JUMBO 1)).dev.ethRfB 3 Fld.ETH_CTRL.JUMBO = true) := by
  unfold Safety.memOk; and_intros <;> decide +kernel

/-- A CAN frame of eight record bytes. -/
def canFrame (n : Nat) : CanFrame := ⟨true, 0x1FFFFFFF, false, false, List.replicate n 1⟩
/-- CAN controller 3 enabled, with filter 63 routing that frame. -/
def can (r : Nat) (x : CanSt := {}) (f : Dev → Dev := id) : State := on (fun d => f
  (((d.wf (Reg.CAN_CTRL 3) Fld.CAN_CTRL.EN 1).setReg (Reg.CAN_FLTf_ID 3 63) (r * 2 ^ 30 + 2 ^ 29 + 0x1FFFFFFF)).modCan 3 (fun _ => x)))

theorem witness_EthernetAndCanFrames :
    (let f : TxFrame := ⟨ethFrame 0x0800 [], none⟩
     let s := mac { queues := (List.replicate 8 []).set 7 [f] }
     s.dev.macUp 3 = true ∧ (s.dev.mac 3).oper.en = false ∧ (s.dev.mac 3).queues.getD 7 [] = f :: []
      ∧ s.dev.shaped 3 7 = false)
    ∧ (let f : TxFrame := ⟨ethFrame 0x0800 [], none⟩
       let s := mac { queues := (List.replicate 8 []).set 0 [f] }
       (s.dev.mac 3).queues.getD 0 [] = f :: [] ∧ s.dev.shaped 3 0 = false ∧ (s.dev.mac 3).queues.drop 1 = List.replicate 7 [])
    ∧ ((mac {}).dev.mac 3).pend = none
    ∧ ((mac { pend := some ({}, 5) }).dev.mac 3).pend = some ({}, 5)
    ∧ ((3#2).toNat ≠ 1 ∧ on.dev.slaveMac = none ∧ (slave 0).dev.slaveMac = some 3 ∧ 3 ≠ (2 : Fin 4).val)
    ∧ (∀ r ∈ [0, 1, 2], (can r).dev.canOn 3 = true ∧ (can r).dev.canRoute 3 (canFrame 8) = r)
    ∧ ((canFrame 8).fd = false ∧ (canFrame 8).rtr = false ∧ (canFrame 8).data.length % 8 = 0 ∧ (canFrame 7).data.length % 8 ≠ 0
      ∧ (can 2).dev.canRoute 3 (canFrame 7) = 2 ∧ ((can 1).dev.can 3).ring.length < 128)
    ∧ (can 1 { ring := List.replicate 128 (0, canFrame 8) }).dev.canRoute 3 (canFrame 8) = 1
    ∧ 128 ≤ ((can 1 { ring := List.replicate 128 (0, canFrame 8) }).dev.can 3).ring.length
    ∧ (∀ k ∈ [1, 2, 3], let x : CanTxSt := ⟨canFrame 8, false⟩
       let s := can 0 { tx := [(31, x)] } (fun d => (d.wf (Reg.CAN_CTRL 3) Fld.CAN_CTRL.MODE k).wf (Reg.CAN_CTRL 3) Fld.CAN_CTRL.FD 0)
       s.dev.canOn 3 = true ∧ s.dev.rf (Reg.CAN_CTRL 3) Fld.CAN_CTRL.MODE = k ∧ s.dev.rf (Reg.CAN_CTRL 3) Fld.CAN_CTRL.FD = 0
        ∧ (s.dev.can 3).first = some (31, x))
    ∧ (let x : CanTxSt := ⟨canFrame 8, false⟩
       let s := can 0 { tx := [(31, x)] } (fun d => d.wf (Reg.CAN_CTRL 3) Fld.CAN_CTRL.MODE 0)
       s.dev.canOn 3 = true ∧ s.dev.rf (Reg.CAN_CTRL 3) Fld.CAN_CTRL.MODE = 0 ∧ (s.dev.can 3).first = some (31, x)) := by
  decide +kernel

theorem witness_CanErrorStates :
    ((can 0).dev.canOn 3 = true ∧ (can 0).dev.canState 3 ≠ 1)
    ∧ ((can 0 {} (fun d => d.wf (Reg.CAN_STAT 3) Fld.CAN_STAT.ESTATE 1)).dev.canOn 3 = true
      ∧ (can 0 {} (fun d => d.wf (Reg.CAN_STAT 3) Fld.CAN_STAT.ESTATE 1)).dev.canState 3 = 1)
    ∧ (∀ b ∈ [true, false], let s := can 0 { recovering := b } (fun d => d.wf (Reg.CAN_STAT 3) Fld.CAN_STAT.ESTATE 2)
       s.dev.canState 3 = 2 ∧ (s.dev.can 3).recovering = b)
    ∧ (∀ k ∈ [0, 1], let s := can 0 {} (fun d => (d.wf (Reg.CAN_STAT 3) Fld.CAN_STAT.ESTATE 2).wf (Reg.CAN_CTRL 3)
         Fld.CAN_CTRL.AUTO_REC k)
       s.dev.canState 3 = 2 ∧ (s.dev.can 3).recovering = false ∧ s.dev.rf (Reg.CAN_CTRL 3) Fld.CAN_CTRL.AUTO_REC = k) := by
  decide +kernel

/-- An entry of a stream of RAW8 frames of 2 by 2 (or of a replay list of four samples) from port 15, channel 15, source 5. -/
def sEntry (kind : Nat) : List Byte :=
  leBytes 1 kind ++ [0, 15, 15, 5, 0, 0, 0, 2, 0, 2, 0, 1, 0, 1, 0] ++ leBytes 4 1000 ++ [2, 2, 4, 0] ++ leBytes 8 0x10000
    ++ List.replicate 24 0 ++ leBytes 4 4 ++ List.replicate 68 0
/-- Stream 63 of that kind, with CSI port 15 enabled. -/
def stream63 (kind : Nat) (f : StreamSt → StreamSt := id) (g : Dev → Dev := id) : State := on (fun d =>
  g { d.wf (Reg.ING_CSIp_CTRL 15) Fld.ING_CSIp_CTRL.EN 1 with
    streams := [(63, f { entry := sEntry kind, bufs := List.replicate 2 {} })] })
/-- That stream. -/
def st63 (kind : Nat) : StreamSt := { entry := sEntry kind, bufs := List.replicate 2 {} }
/-- A frame that it receives, with two lines in. -/
def inFrame : FrameSt := { buf := some 1, stamp := 7, number := 9, lines := 2 }

/-- A SENSOR frame of source 5, frame 9, after its EtherType. -/
def sensor : List Byte := [1, 3, 0, 0, 0, 0, 0, 5] ++ leBytes 8 0 ++ beBytes 4 9 ++ leBytes 8 0 ++ [0, 1, 0, 0, 7, 0, 0, 0, 0]

theorem witness_IngestFramesAndSamples :
    ((stream63 0).dev.csiOn 15 = true ∧ (stream63 0).dev.csiStreams 15 14 = [] ∧ (stream63 0).dev.csiStreams 15 15 = [63]
      ∧ (stream63 0).dev.stream 63 = some (st63 0) ∧ (st63 0).frame = none)
    ∧ (let x : StreamSt := { st63 0 with frame := some inFrame }
       let s := stream63 0 (fun x => { x with frame := some inFrame })
       s.dev.csiOn 15 = true ∧ s.dev.csiStreams 15 15 = [63] ∧ s.dev.stream 63 = some x
        ∧ s.dev.csiFor 15 15 (0x2A#6).toNat = some 63 ∧ s.dev.csiFor 15 15 0 = none ∧ inFrame.bad = false ∧ inFrame.lines = Se.h x.entry
        ∧ ({ inFrame with lines := 1 } : FrameSt).lines ≠ Se.h x.entry)
    ∧ (let s := stream63 0 id (fun d => d.setMac 3 { sorted := [(5, stardoul 1), (6, sensor)] })
       takeKind 3 (s.dev.mac 3).sorted = some ((6, sensor), [(5, stardoul 1)])
        ∧ (s.dev.modMac 3 (fun y => { y with sorted := [(5, stardoul 1)] })).netStream (beField sensor 6 2) = none)
    ∧ (let x : StreamSt := { st63 1 with frame := some inFrame }
       let s := stream63 1 (fun x => { x with frame := some inFrame }) (fun d => d.setMac 3 { sorted := [(6, sensor)] })
       takeKind 3 (s.dev.mac 3).sorted = some ((6, sensor), [])
        ∧ (s.dev.modMac 3 (fun y => { y with sorted := [] })).netStream (beField sensor 6 2) = some 63
        ∧ s.dev.stream 63 = some x ∧ s.dev.pwr.pwrFail = false
        ∧ (((s.dev.modMac 3 (fun y => { y with sorted := [] })).sensorFrame 63 6 (beField sensor 16 4)).stream 63).bind
            (fun x => x.frame) = some inFrame ∧ inFrame.number = beField sensor 16 4)
    ∧ (let s := stream63 1 (fun x => { x with frame := some { inFrame with number := 10 } })
         (fun d => d.setMac 3 { sorted := [(6, sensor)] })
       let e := (s.dev.modMac 3 (fun y => { y with sorted := [] })).sensorFrame 63 6 (beField sensor 16 4)
       ((e.stream 63).bind (fun x => x.frame)).map (fun f => f.number) = some 10 ∧ beField sensor 16 4 = 9
        ∧ ({ s.dev with pwr := { s.dev.pwr with pwrFail := true } } : Dev).pwr.pwrFail = true)
    ∧ (let s := stream63 0 (fun x => { x with ready := [inFrame] })
       s.dev.stream 63 = some { st63 0 with ready := [inFrame] })
    ∧ (let b : Bound := { stream := 63, waitNew := some 4 }
       let st : StepSt := { stp with bound := [b] }
       let s := stream63 0 (fun x => { x with completions := 5, bufs := x.bufs.set 1 { phase := .complete, order := 5 } })
         (fun d => { d with loops := [(15, { step := some st })] })
       (s.dev.loop 15).step = some st ∧ st.bound.find? (fun b => b.stream == 63 && b.waitNew.isSome) = some b
        ∧ (s.dev.stream 63).map (fun x => (x.live, decide (4 < x.completions), x.newest)) = some (true, true, some 1))
    ∧ (let s := stream63 2 (fun x => { x with cursor := 3 })
       s.dev.stream 63 = some { st63 2 with cursor := 3 } ∧ (st63 2).live = true ∧ Se.kind (st63 2).entry = 2
        ∧ 3 < Se.listLen (st63 2).entry ∧ 3 ≤ 0 * Se.listLen (st63 2).entry + 3 ∧ 16 * Se.listLen (st63 2).entry + 2 < 3 + 64
        ∧ AMap.find (st63 2).done (0 * Se.listLen (st63 2).entry + 3) = none ∧ s.dev.pwr.pwrFail = false)
    ∧ (let s := stream63 2 (fun x => { x with cursor := 3, done := [(66, (true, none))] })
       (s.dev.stream 63).map (fun x => (x.cursor, (AMap.find x.done 66).isSome)) = some (3, true))
    ∧ (let x : StreamSt := { st63 2 with corruptRun := 256, bufs := List.replicate 2 { phase := .complete, pins := [1] } }
       let s := stream63 2 (fun _ => x)
       s.dev.stream 63 = some x ∧ x.building (s.dev.batchLoops 63) = none)
    ∧ (∀ n ∈ [255, 256], let x : StreamSt := { st63 2 with corruptRun := n }
       let s := stream63 2 (fun x => { x with corruptRun := n })
       s.dev.stream 63 = some x ∧ (x.building ((Safety.mach s).dev.batchLoops 63)).isSome = true) := by
  and_intros <;> decide +kernel

/-- The control engine running or not, with outputs enabled. -/
def ce (run : Nat) (f : CeSt → CeSt := id) (g : Dev → Dev := id) : State := on (fun d =>
  g { (d.wf Reg.CE_STAT Fld.CE_STAT.RUN run).wf Reg.SAF_STAT Fld.SAF_STAT.OUT_EN 1 with eng := f {} })

theorem witness_ControlEngineRuns :
    ((ce 0).dev.ceRun = false ∧ (ce 1).dev.ceRun = true ∧ (ce 1).dev.eng.apply = none ∧ (ce 1).dev.eng.swap = none
      ∧ (ce 1).dev.eng.inFrame = false)
    ∧ (ce 1 (fun e => { e with apply := some 5 })).dev.eng.apply = some 5
    ∧ ((ce 1).dev.eng.inFrame = false ∧ (255 : Nat) ∉ (ce 1 (fun e => { e with inFrame := true })).dev.toEvaluate)
    ∧ ((ce 1 (fun e => { e with inFrame := true, sched := [7, 255], swap := some (3, none) })).dev.eng.swap ≠ none
      ∧ (on (fun d => d.wf Reg.PWR_STAT Fld.PWR_STAT.BOOT_ONLY 1)).dev.rf Reg.PWR_STAT Fld.PWR_STAT.BOOT_ONLY = 1)
    ∧ (let s := ce 1 (fun e => { e with inFrame := true, sched := [7, 255] })
       s.dev.ceRun = true ∧ s.dev.eng.inFrame = true ∧ 255 ∈ s.dev.toEvaluate ∧ s.dev.eng.swap = none)
    ∧ (on.dev.rf Reg.SAF_STAT Fld.SAF_STAT.OUT_EN = 0 ∧ (ce 0).dev.rf Reg.SAF_STAT Fld.SAF_STAT.OUT_EN = 1
      ∧ (ce 0).dev.rf Reg.PWR_STAT Fld.PWR_STAT.BOOT_ONLY = 0)
    ∧ ((Safety.mach (ce 0)).validateBank (ce 0).dev.bank = none ∧ (Safety.mach (ce 0)).validateBank (1 - (ce 0).dev.bank) = none)
    ∧ (∀ b ∈ [0, 1], ((⟨cells (bankBase b) [0, 0, 0, 0x80, 0, 0, 0, 0x80], [], (ce 0).dev⟩ : Mach).validateBank b).isSome = true)
    ∧ (ce 0 (fun e => { e with swap := some (3, none) })).dev.eng.swap ≠ none
    ∧ ((ce 0).dev.f2 = false ∧ (3#2).toNat = 3 ∧ (2#2).toNat ≠ 3
      ∧ (ce 0 id (fun d => d.wf Reg.SAF_STAT Fld.SAF_STAT.F2_LATCHED 1)).dev.f2 = true)
    ∧ (FFmt.f32.isFinite (0x7F7FFFFF#32).toNat = true ∧ FFmt.f32.isFinite (0x7F800000#32).toNat = false)
    ∧ (∀ n ∈ [0, 1], let s := ce 0 id (fun d => (d.wf Reg.CE_TR_WIN Fld.CE_TR_WIN.PRE (d.traceCap - 1)).wf Reg.CE_TR_WIN Fld.CE_TR_WIN.POST n)
       s.dev.rf Reg.CE_TR_CTRL Fld.CE_TR_CTRL.ARM = 0
        ∧ decide (s.dev.traceCap < s.dev.rf Reg.CE_TR_WIN Fld.CE_TR_WIN.PRE + s.dev.rf Reg.CE_TR_WIN Fld.CE_TR_WIN.POST + 1) = (n == 1))
    ∧ (let s := ce 0 id (fun d => (d.wf Reg.CE_TR_CTRL Fld.CE_TR_CTRL.ARM 1).setTraceState 1)
       s.dev.rf Reg.CE_TR_CTRL Fld.CE_TR_CTRL.ARM = 1 ∧ s.dev.traceState = 1)
    ∧ (ce 0).dev.traceState ≠ 1 := by
  and_intros <;> decide +kernel

/-! ### What is not well formed is refused: one term at least for each check of WellFormed.lean -/

theorem test_ill_formed_addresses :
    [Instr.registerWrite .summit 0x040000000002 0, .registerRead .debug 0x040000000001,
      .sload 0 0 0 [.correctable 0x1800000000], .recv 0 [.uncorrectable 0x010018000000 []], .argmax 0 [.wrongOffset 0x010000000000],
      .hbmRead 103079215103 2 0 none [], .hbmWrite 103079215103 [1, 2] 0 none [], .cvJob 186 0 []].all (fun c => !c.wf) = true
    ∧ [Instr.registerWrite .summit 0x040000000004 0, .sload 0 0 0 [.correctable 0x17FFFFFFFF], .recv 0 [.uncorrectable 0x010017FFFFFF [511]],
      .hbmRead 103079215103 1 0 none [], .hbmWrite 103079215103 [1] 0 none [], .cvJob 255 0 []].all Instr.wf = true := by decide +kernel

theorem test_ill_formed_lengths :
    [Instr.paceSample (List.replicate 27 0) [] [], .paceSample (List.replicate 29 0) [] [],
      .spurEcall 0 5 [.correctable 0x1800000000], .flitRx 0 (List.replicate 255 0) .clean, .hbmRefresh [1, 2, 3],
      .tbMeasurement ⟨0, 0, false⟩, .ethRx 0 (List.replicate 13 0) true, .thermalCheck 0 [1, 2, 3, 4, 5],
      .tapToken (List.replicate 287 0)].all (fun c => !c.wf) = true
    ∧ [Instr.paceSample (List.replicate 28 0) [] [], .spurEcall 0 5 [], .flitRx 0 (List.replicate 256 0) .uncorrectable,
      .tapToken (List.replicate 288 0)].all Instr.wf = true := by decide +kernel

theorem test_ill_formed_long_inputs (bs : List Byte) (h : bs.length = 65536) :
    (Instr.csiPacket 0 0 0 false true false bs).wf = false ∧ (Instr.sdioWrite (0 :: bs)).wf = false
      ∧ (Instr.sdioWrite bs).wf = true := by
  simp [Instr.wf, h]

theorem test_ill_formed_frames_and_injection :
    [Instr.canRx 0 ⟨false, 2048, false, false, []⟩, .canRx 0 ⟨true, 0, true, true, []⟩, .canRx 0 ⟨true, 0, false, true, [1]⟩,
      .canRx 0 ⟨true, 0, true, false, List.replicate 9 0⟩, .canRx 0 ⟨true, 0, false, false, List.replicate 9 0⟩,
      .errorInjection (List.replicate 10 .passed), .errorInjection (.failedTiles [0] :: List.replicate 10 .passed)].all
      (fun c => !c.wf) = true
    ∧ (Instr.errorInjection (List.replicate 11 .passed)).wf = true := by decide +kernel

/-! ### The spec's own examples -/

/-- Chapter 1: 702 ps at monitor 14 is the slowest valid reading. -/
theorem test_pace_slow :
    ∃ t, exec (.paceSample ((List.replicate 28 (BitVec.ofNat 16 (600 * 8))).set 14 (BitVec.ofNat 16 (702 * 8))) [] []) on = .next t
      ∧ t.dev.reg Reg.GEN_PACE_SLOW = 0x000E15F0 := ⟨_, rfl, by decide +kernel⟩

/-- Chapter 1, R43: the registers of tile 17.2 and of its ridge. -/
theorem test_register_addresses : Reg.TILE_STAT 70 = 0x010011BF0000 ∧ Reg.RDG_STAT 17 = 0x040000310000 := by decide +kernel

/-- Chapter 2: the FP4 products with block scales, at two windows. -/
theorem test_fp4_block_scales :
    (let p0 := mulV (withScale (opValue 3 0x5) 0x7C) (withScale (opValue 3 0xB) 0x79)
     let p1 := mulV (withScale (opValue 3 0x2) 0x7C) (withScale (opValue 3 0x6) 0x79)
     let y := (({} : Tally).add p0 (-10) none).add p1 (-10) none
     let z := (({} : Tally).add p0 (-9) none).add p1 (-9) none
     y.val96 = -1 ∧ y.loss = false ∧ (y.drain 1 (-10)).1 = 0xBA80 ∧ z.val96 = -1 ∧ z.loss = true ∧ (z.drain 1 (-9)).1 = 0xBB00) := by
  decide +kernel

/-- Chapter 2: ties to even at the drain. -/
theorem test_drain_ties :
    finiteOut 1 385 0 = (0x43C0, false) ∧ finiteOut 1 387 0 = (0x43C2, false) ∧ finiteOut 4 5 (-1) = (0x02, false)
      ∧ finiteOut 4 7 (-1) = (0x04, false) ∧ finiteOut 4 (-5) (-1) = (0xFE, false) ∧ finiteOut 4 385 (-1) = (0x7F, true) := by
  decide +kernel

/-- Chapter 2: three products in one tally, and in FP32 in two orders. -/
theorem test_tally_against_fp32 :
    (let y := ((({} : Tally).add (.fin false 1 24) 0 none).add (.fin false 1 0) 0 none).add (.fin true 1 24) 0 none
     (y.drain 0 0).1 = 0x3F800000)
    ∧ FFmt.f32.add (FFmt.f32.add 0x4B800000 0x3F800000) 0xCB800000 = 0
    ∧ FFmt.f32.add (FFmt.f32.add 0x4B800000 0xCB800000) 0x3F800000 = 0x3F800000 := by decide +kernel

/-- Chapter 2: GEN_ND_LAST after a COLLIDE of loop 3 on tile 17.2. -/
theorem test_nd_last : (on.dev.ndEvent 2 3 70).reg Reg.GEN_ND_LAST = 0x83000046 := by decide +kernel

/-- Chapter 3: the block and the two data rows of the example of two faults. -/
def block2 : Block := formChecks { sfmt := 1, lanes :=
  [[3, 0xFE] ++ List.replicate 62 0, [5, 7] ++ List.replicate 62 0] ++ List.replicate 14 (List.replicate 64 0) }
def row2 (a b : Nat) : RowIn := ⟨[a, b] ++ List.replicate 14 0, 0, []⟩
/-- How the pass ends, with faulty bits in its second row. -/
def verdict2 (fs : List Flip) : Verdict :=
  let b := block2.upset fs
  let rows := [row2 4 0xFF, row2 2 6]
  let ts := rowIntoTallies (rowIntoTallies (List.replicate 64 {}) b (row2 4 0xFF) 1 false 0 []) b (row2 2 6) 1 false 0 fs
  let c := rowIntoCheck (rowIntoCheck {} b (row2 4 0xFF) 1 false 0) b (row2 2 6) 1 false 0
  compare false b (List.replicate 64 {}) ts c ((List.range 64).map (rowCheckOf b rows 1 false 0)) 2

theorem test_two_faults_caught :
    verdict2 [] = .exact ∧ verdict2 [⟨false, 1, 1, 3⟩] = .failed ∧ verdict2 [⟨true, 1, 1, 3⟩] = .failed
      ∧ block2.checks.map (fun c => c.m) = [1, 12] ++ List.replicate 14 0 := by decide +kernel

/-- Chapter 3, R116: TILE_ARR_MAP with array 2 retired. -/
theorem test_arr_map : arrMap 4 = 0x434 := by decide +kernel

/-- Chapter 4: where a byte of tile 17.2 stands. -/
theorem test_tile_row : tileMemRow (0x010011800000 + 0x0A3C40) = (70, 0, 10481) := by decide +kernel

/-- Chapter 5: the worked decoding of a list, and entry 0 as it is stored. -/
theorem test_worked_decoding :
    (let e := leNat [0, 0, 0, 0, 0, 0, 4, 0, 0x40, 0, 0, 0, 1, 0, 0x40, 0x48]
     e = 0x48400001000000400004000000000000 ∧ Ent.kind e = K.WFETCH ∧ Wf.mode e = 0 ∧ Wf.base e = 1 ∧ Wf.offset e = 0x40000
      ∧ Wf.len e = 17 ∧ Wf.uses e = 1)
    ∧ (let e := 0x0800001E000000000000000000000000
       Ent.kind e = K.SLOAD ∧ Ent.array e = 0 ∧ Sload.src e = false ∧ Sload.fref e = 0 ∧ Sload.row e = 0 ∧ Sload.sfmt e = 3
        ∧ Sload.sscale e = true ∧ Sload.dual e = true)
    ∧ (let e := 0x103FEC00040001001000000000000000
       Ent.kind e = K.PASS ∧ Pass.par e = false ∧ Pass.acc e = false ∧ Pass.rfmt e = 3 ∧ Pass.rscale e = true ∧ Pass.win e = -10
        ∧ Pass.run e = 0 ∧ Pass.rrow e = 0x100 ∧ Pass.nrows e = 64 ∧ Pass.srow e = 0x200 ∧ Pass.koff e = 0)
    ∧ (let e := 0x18400060106040000000000000000000
       Ent.kind e = K.DRAIN ∧ Drain.ofmt e = 1 ∧ Drain.oshift e = 0 ∧ Drain.ps e = false ∧ Drain.drow e = 0x300
        ∧ Drain.sten e = true ∧ Drain.strow e = 0x302)
    ∧ (let e := 0x385480C0000080000000000000000000
       Ent.kind e = K.SEND ∧ Send.dpkg e = 0 ∧ Send.dtile e = 21 ∧ Send.dq e = 2 ∧ Send.ps e = false ∧ Send.srow e = 0x300
        ∧ Send.nrows e = 2)
    ∧ Ent.kind 0xF8000000000000000000000000000000 = K.END
    ∧ (let b : Binding := { bound with ridges := (List.range 24).filter (fun r => r != 5 && r != 18) }
       b.tile 24 = 28 ∧ b.tile 21 = 25) := by decide +kernel

/-- Chapter 6: ARGMAX over three BF16 planes of three pixels. -/
theorem test_argmax :
    argmaxOf ([0x3F80, 0x4000, 0x4000].map (argValue 1)) = (1, false) ∧ argmaxOf ([0x8000, 0x0000, 0xBF80].map (argValue 1)) = (0, false)
      ∧ argmaxOf ([0x4040, 0x7FC0, 0x7FC0].map (argValue 1)) = (1, true) := by decide +kernel

/-- Chapter 7: the descriptor of a RESIDENT page. -/
theorem test_descriptor : descWord .resident 2 3 0x1234 0x456 = 0x4406024680000456 := by decide +kernel

/-- Chapter 8, after R283: 16 tiles for 3,200,000 beats; chapter 8's example of a save: the bytes of the area. -/
theorem test_accounts_and_save_area :
    ((on (fun d => d.modLoop 1 (fun l => { l with acct := 12000000000 }))).dev.charge 1 (16 * 3200000)).loop 1
      = { acct := 12051200000 }
    ∧ saveBytes { route with
        nridges := 8
        lists := List.replicate 32 (128, 1)
        live := (List.range 32).flatMap (fun t => [⟨t, 0, 0, 0, 0, 16384, 0, 0⟩, ⟨t, 1, 0, 0, 0, 2048, 0, 0⟩]) } = 38277120 := by
  decide +kernel

/-- Chapter 10: the pseudo-channel of an address, the check values of R377, and CRC-16 in two pieces. -/
theorem test_interleave_and_check_values :
    pseudoChannel 0x12345640 = 118
    ∧ (let bs := [0x31, 0x32, 0x33, 0x34, 0x35, 0x36, 0x37, 0x38, 0x39]
       crc32c bs = 0xE3069283 ∧ crc32 bs = 0xCBF43926 ∧ crc16 bs = 0x29B1 ∧ crc64 bs = 0x995DC9BBDF1939FA
        ∧ (crcParams 2).finish ((crcParams 2).run ((crcParams 2).run 0xFFFF (bs.take 5)) (bs.drop 5)) = 0x29B1) := by decide +kernel

/-- Chapter 11: the difference of two stamps, and the servo's first step. -/
theorem test_stamps_and_servo :
    stampDiff (100 * 2 ^ 30 + 999999900) (101 * 2 ^ 30 + 100) = -200
    ∧ ∃ t, exec (.tbMeasurement ⟨-2500, 125000000, false⟩) (slave tbAcquiring) = .next t
      ∧ t.dev.reg Reg.TB_RATE = wrap 32 (-12369506) := ⟨by decide +kernel, _, rfl, by decide +kernel⟩

/-- Chapter 13: channel 17 of the worked example, PID with its coefficients. -/
def chan17 : Mach := ⟨cells (chanAddr 0 17) ([1] ++ List.replicate 35 0 ++ leBytes 4 0x3E800000 ++ leBytes 4 0xC0800000
  ++ leBytes 4 0x40800000 ++ leBytes 4 0 ++ leBytes 4 0x40000000 ++ leBytes 4 0x3F000000 ++ leBytes 8 0 ++ leBytes 4 0x3F800000
  ++ leBytes 4 0xC1200000 ++ leBytes 4 0x41200000), [], on.dev⟩
/-- One frame of it from a setpoint target, the integrator and the last setpoint: u, the setpoint, the integrator after, and
whether the output was limited. -/
def frame17 (t i r : Nat) : Nat × Nat × Nat × Bool :=
  let o := chan17.evalAuto 0 17 0x3F800000 t 0 { i := i, rPrev := r }
  (o.u, o.st.rPrev, o.st.i, o.sat)

theorem test_pid_frames :
    frame17 0x40000000 0x3F000000 0x40000000 = (0x40200000, 0x40000000, 0x3F800000, false)
    ∧ frame17 0x40000000 0x3F800000 0x40000000 = (0x40400000, 0x40000000, 0x3FC00000, false)
    ∧ frame17 0x40000000 0x3FC00000 0x40000000 = (0x40600000, 0x40000000, 0x40000000, false)
    ∧ frame17 0 0x40000000 0x40000000 = (0x40600000, 0x3FE00000, 0x40180000, false)
    ∧ frame17 0 0x40180000 0x3FE00000 = (0x40580000, 0x3FC00000, 0x40280000, false)
    ∧ frame17 0x40000000 0x40280000 0x3FC00000 = (0x40800000, 0x3FE00000, 0x40280000, true) := by decide +kernel

/-- Chapter 13: the records of a trace of 32 nodes. -/
theorem test_trace_ring : (on.dev.wf Reg.CE_TR_CTRL Fld.CE_TR_CTRL.NNODES 32).traceRec = 144
    ∧ (on.dev.wf Reg.CE_TR_CTRL Fld.CE_TR_CTRL.NNODES 32).traceCap = 7281 := by decide +kernel

/-- R145: a compressed `li a0, -1` is the addi that RVC gives for it; `div a0, a1, a2` by zero is all ones (RISC-V's M). -/
theorem test_spur_instructions : rvcExpand 0x557D = some 0xFFF00513
    ∧ (let o := ({ x := setX (setX [] 11 7) 12 0 } : SpurSt).rvPlain 0x02C5C533 4
       o.trap = none ∧ o.c.xr 10 = 0xFFFFFFFFFFFFFFFF) := by decide +kernel

/-- Chapter 16: the first packet of the example, and the REG_RMW of its order 12. -/
theorem test_session :
    (∃ t, exec (.sdioWrite [0x5A, 1, 1, 1, 1, 0, 0, 0, 0, 0, 0, 0, 0, 0, 0x91, 0xA8])
        (on (fun d => { d with sdio := { ioe1 := true, ior1 := true } })) = .next t
      ∧ t.dev.sdio.outstanding.map (fun p => (p.op, p.tag)) = [(0x0101, 1)])
    ∧ (let p := pk 0x0203 (leBytes 8 0x040000020180 ++ leBytes 4 0x20000000 ++ leBytes 4 0x20000000)
       ∃ t, exec (.regRmw 7) (got p (fun d => d.setReg 0x040000020180 0x40000064)) = .next t
      ∧ t.dev.reg 0x040000020180 = 0x60000064
      ∧ t.dev.sdio.replies.map (fun r => slice r 16 8) = [leBytes 4 0x40000064 ++ leBytes 4 0x60000064]) :=
  ⟨⟨_, rfl, by decide +kernel⟩, _, rfl, by decide +kernel, by decide +kernel⟩

end Sys2Proof.Tests
end

section
/-!
PROOFS. Identity, echo and time packets (O20), and registers by field and by access (O35).
-/
namespace Sys2Proof

/-! ### Bytes: a number in little-endian bytes reads back, wherever it stands in a payload -/

@[simp] theorem leBytes_length (n v : Nat) : (leBytes n v).length = n := by
  induction n generalizing v with
  | zero => rfl
  | succ n ih => simp [leBytes, ih]

theorem leNat_leBytes (n v : Nat) : leNat (leBytes n v) = v % 2 ^ (8 * n) := by
  induction n generalizing v with
  | zero => simp [leBytes, leNat, Nat.mod_one]
  | succ n ih =>
    rw [leBytes, leNat, ih, BitVec.toNat_ofNat, Nat.mul_succ, Nat.add_comm (8 * n), Nat.pow_add, Nat.mod_mul]

theorem leNat_lt (bs : List Byte) : leNat bs < 2 ^ (8 * bs.length) := by
  induction bs with
  | nil => simp [leNat]
  | cons b bs ih =>
    have hb := b.isLt
    rw [leNat, List.length_cons, Nat.mul_succ, Nat.pow_add]
    omega

@[simp] theorem slice_length (bs : List Byte) (o n : Nat) : (slice bs o n).length = n := by
  simp only [slice, List.length_append, List.length_replicate, List.length_take]
  omega

theorem field_lt (bs : List Byte) (o n : Nat) : field bs o n < 2 ^ (8 * n) := by
  simpa [field] using leNat_lt (slice bs o n)

/-- The number at the front of a payload. -/
theorem field_leBytes_append (n v : Nat) (bs : List Byte) : field (leBytes n v ++ bs) 0 n = v % 2 ^ (8 * n) := by
  simp [field, slice, leNat_leBytes]

/-- A number behind a part of known length. -/
theorem field_append_skip {as : List Byte} {k : Nat} (h : as.length = k) (bs : List Byte) (o n : Nat) :
    field (as ++ bs) (k + o) n = field bs o n := by
  subst h
  simp only [field, slice, List.drop_length_add_append]

/-! ### Bits -/

theorem bit_eq_testBit (v i : Nat) : bit v i = v.testBit i := by
  rw [bit, Nat.testBit_eq_decide_div_mod_eq, beq_eq_decide]

/-- A bit of a field is the bit of the whole at the field's place. -/
theorem testBit_bits {hi lo i : Nat} (v : Nat) (hl : lo ≤ hi) (h : i ≤ hi - lo) :
    (bits v hi lo).testBit i = v.testBit (lo + i) := by
  rw [bits, Nat.testBit_mod_two_pow, Nat.testBit_div_two_pow, decide_eq_true (by omega : i < hi + 1 - lo), Bool.true_and,
    Nat.add_comm]

theorem bits_lt (v hi lo : Nat) : bits v hi lo < 2 ^ (hi + 1 - lo) := Nat.mod_lt _ (Nat.two_pow_pos _)

namespace Machine

/-! ### Fields and registers (R12, R13) -/

/-- A W1C field written (R12): each bit stays unless it is written one. -/
theorem bit_fieldNext_w1c {hi lo i : Nat} (rst old v : Nat) (locked : Bool) (hl : lo ≤ hi) (h : i ≤ hi - lo) :
    bit (fieldNext ⟨hi, lo, .W1C, rst⟩ old v locked) (lo + i) = (bit old (lo + i) && !bit v (lo + i)) := by
  have inv : (2 ^ (hi + 1 - lo) - 1 - bits v hi lo).testBit i = !v.testBit (lo + i) := by
    rw [Nat.sub_sub, Nat.add_comm 1, Nat.testBit_two_pow_sub_succ (bits_lt v hi lo), testBit_bits v hl h,
      decide_eq_true (by omega : i < hi + 1 - lo), Bool.true_and]
  simp only [bit_eq_testBit]
  calc (Nat.land (bits old hi lo) (2 ^ (hi + 1 - lo) - 1 - bits v hi lo) * 2 ^ lo).testBit (lo + i)
      = (bits old hi lo &&& (2 ^ (hi + 1 - lo) - 1 - bits v hi lo)).testBit i := by
        rw [Nat.testBit_mul_two_pow, decide_eq_true (Nat.le_add_right lo i), Bool.true_and, Nat.add_sub_cancel_left]; rfl
    _ = (old.testBit (lo + i) && !v.testBit (lo + i)) := by rw [Nat.testBit_and, testBit_bits old hl h, inv]

/-- A plain write of a register whose block is not active writes all its fields and meets no lock. -/
theorem Dev.plainWrite_unlocked {r : RegDesc} {d : Dev} {a : Nat} (v : Nat) (hr : regDesc a = some r)
    (hl : ∀ l, d.lockAt a = some l → l.1 = false) :
    d.plainWrite a v [] = (d.setReg a (regNext r (d.reg a) v false), false) := by
  simp only [Dev.plainWrite, hr]
  cases e : d.lockAt a with
  | none => simp
  | some l =>
    obtain ⟨on, a', f⟩ := l
    have h : on = false := hl _ e
    subst h
    simp

/-! ### Register reads store nothing (R10) -/

theorem Mach.foldl_mod_log {α : Type} (g : Mach → α → Dev → Dev) (xs : List α) (m : Mach) :
    (xs.foldl (fun x h => x.mod (g x h)) m).log = m.log := by
  induction xs generalizing m with
  | nil => rfl
  | cons x xs ih => rw [List.foldl_cons, ih, Mach.mod_log]

theorem Mach.regRead_log (m : Mach) (who a : Nat) : (m.regRead who a).1.log = m.log := by
  cases latched : AMap.find m.dev.latch (who * 2 ^ 48 + a) with
  | some w =>
    simp only [Mach.regRead, latched]
    split <;> rfl
  | none =>
    simp only [Mach.regRead, latched]
    cases regIdx a (Reg.TB_EVTn_LO 0) 8 4 with
    | none => exact Mach.foldl_mod_log _ _ _
    | some n => exact Mach.foldl_mod_log _ _ _

/-! ### A register access and its agent (R43) -/

theorem exec_registerWrite (who : Agent) (addr : BitVec 48) (v : Word) (s : State) :
    exec (.registerWrite who addr v) s = execRegisterWrite who addr v s := rfl

theorem exec_registerRead (who : Agent) (addr : BitVec 48) (s : State) :
    exec (.registerRead who addr) s = execRegisterRead who addr s := rfl

theorem registerWrite_allowed {who : Agent} {addr : BitVec 48} {s : State} (v : Word)
    (h : s.dev.mayReach who addr.toNat = true) :
    Safety.gives (.registerWrite who addr v) s ((Safety.mach s).regWrite addr.toNat v.toNat).1 := by
  rw [Safety.gives, exec_registerWrite, execRegisterWrite, run_eq]
  simp only [h, if_true, Safety.mach]

theorem registerWrite_refused {who : Agent} {addr : BitVec 48} {s : State} (v : Word)
    (h : s.dev.mayReach who addr.toNat = false) : Safety.givesDev (.registerWrite who addr v) s s.dev := by
  rw [Safety.givesDev, exec_registerWrite, execRegisterWrite, run_eq]
  simp only [h, Bool.false_eq_true, if_false, Memory.writeLog]

theorem registerRead_refused {who : Agent} {addr : BitVec 48} {s : State}
    (h : s.dev.mayReach who addr.toNat = false) : Safety.givesDev (.registerRead who addr) s s.dev := by
  rw [Safety.givesDev, exec_registerRead, execRegisterRead, run_eq]
  simp only [h, Bool.not_false, if_true, Memory.writeLog]

/-- A read by an agent that takes the value itself (every one but the command interface): the machine of the read, with
the value on the read data. -/
theorem registerRead_allowed {who : Agent} {addr : BitVec 48} {s : State} (h : s.dev.mayReach who addr.toNat = true)
    (hw : who ≠ .command) :
    Safety.givesDev (.registerRead who addr) s { ((Safety.mach s).regRead (agentId who) addr.toNat).1.dev with
      readData := ((Safety.mach s).regRead (agentId who) addr.toNat).2, readFlag := false } := by
  have hlog := Mach.regRead_log (Safety.mach s) (agentId who) addr.toNat
  simp only [Safety.mach] at hlog
  rw [Safety.givesDev, exec_registerRead, execRegisterRead, run_eq]
  simp only [h, Bool.not_true, Bool.false_eq_true, if_false, if_neg hw, Mach.mod_log, Mach.mod_dev, hlog, Memory.writeLog,
    Safety.mach]

/-! ### Packets that reply and store nothing -/

/-- A command whose packet may run and whose meaning stores nothing leaves the state with the device of its meaning. -/
theorem givesDev_of_cmd {c : Instr} {s : State} {op tag : Nat} {p : Packet} {f : Mach → Packet → Mach}
    (hc : exec c s = run (fun m => m.cmd op tag f) s) (h : Safety.ready s op tag p)
    (hlog : (f (Safety.mach s) p).log = []) : Safety.givesDev c s (f (Safety.mach s) p).dev := by
  unfold Safety.mach at *
  rw [Safety.givesDev, hc, run_eq, Mach.cmd_ready h, hlog]
  rfl

/-- The stamp after the time is set (R386, R392). -/
theorem Dev.stamp_setTime (d : Dev) {stamp : Nat} (frac : Nat) (h : stamp < 2 ^ 64) : (d.setTime stamp frac).stamp = stamp := by
  simp only [Dev.stamp, Dev.setTime]
  omega

theorem timeSet_free {tag : BitVec 16} {p : Packet} {s : State} (h : Safety.ready s 0x0602 tag.toNat p)
    (hns : pay64 p.payload 0 % 2 ^ 30 < 1000000000) (hst : s.dev.tbState = tbFree) :
    Safety.givesDev (.timeSet tag) s
      ((s.dev.setTime (pay64 p.payload 0) (pay16 p.payload 8)).reply p ST.OK []) := by
  have hd := givesDev_of_cmd (c := .timeSet tag) rfl h
  simp only [Nat.not_le.mpr hns, Safety.mach, hst, ne_eq, not_true, if_false] at hd
  exact hd rfl

theorem timeSet_notFree {tag : BitVec 16} {p : Packet} {s : State} (h : Safety.ready s 0x0602 tag.toNat p)
    (hns : pay64 p.payload 0 % 2 ^ 30 < 1000000000) (hst : s.dev.tbState ≠ tbFree) :
    Safety.givesDev (.timeSet tag) s (s.dev.reply p ST.STATE []) := by
  have hd := givesDev_of_cmd (c := .timeSet tag) rfl h
  simp only [Nat.not_le.mpr hns, Safety.mach, hst, ne_eq, not_false_eq_true, if_false, if_true] at hd
  exact hd rfl

/-- DEV_INFO (R6): 64 bytes, which begin with the identity, GEN_ID and GEN_RIDGE_EN. -/
theorem devInfo_payload {tag : BitVec 16} {p : Packet} {s : State} (h : Safety.ready s 0x0101 tag.toNat p) :
    ∃ rest : List Byte, rest.length = 48 ∧ Safety.givesDev (.devInfo tag) s (s.dev.reply p ST.OK
      (leBytes 8 s.dev.boot.fuses.uid.toNat ++ (leBytes 4 (s.dev.reg Reg.GEN_ID)
        ++ (leBytes 4 (s.dev.reg Reg.GEN_RIDGE_EN) ++ rest)))) := by
  have hd := givesDev_of_cmd (c := .devInfo tag) rfl h rfl
  simp only [List.append_assoc] at hd
  exact ⟨_, by simp, hd⟩

/-- Settles O20: each packet runs its meaning (`givesDev_of_cmd`); the fields of a reply are read back from its bytes. -/
theorem identityEchoAndTimePackets : Obligations.IdentityEchoAndTimePackets := by
  unfold Obligations.IdentityEchoAndTimePackets
  refine ⟨?devInfo, ?echo, ?idCert, ?timeGet, ?timeSet, ?refused⟩
  case devInfo =>
    intro tag p s h
    obtain ⟨rest, hlen, hd⟩ := devInfo_payload h
    refine ⟨_, hd, by simp [hlen], ?uid, ?id, ?ridges⟩
    case uid => rw [field_leBytes_append]; exact Nat.mod_eq_of_lt (BitVec.isLt _)
    case id =>
      rw [field_append_skip (k := 8) (leBytes_length _ _) _ 0, field_leBytes_append]
      exact Nat.mod_eq_of_lt (Dev.reg_lt _ _)
    case ridges =>
      rw [field_append_skip (k := 8) (leBytes_length _ _) _ 4, field_append_skip (k := 4) (leBytes_length _ _) _ 0,
        field_leBytes_append]
      exact Nat.mod_eq_of_lt (Dev.reg_lt _ _)
  case echo => exact fun tag _ _ h => (givesDev_of_cmd (c := .echo tag) rfl h rfl :)
  case idCert => exact fun tag _ _ h => (givesDev_of_cmd (c := .idCert tag) rfl h rfl :)
  case timeGet =>
    intro tag p s h
    have hd := givesDev_of_cmd (c := .timeGet tag) rfl h rfl
    simp only [List.append_assoc] at hd
    exact ⟨_, hd, field_leBytes_append _ _ _⟩
  case timeSet => exact fun _ _ _ h hns hst => ⟨_, timeSet_free h hns hst, Dev.stamp_setTime _ _ (field_lt _ _ _)⟩
  case refused => exact fun _ _ _ h hns hst => timeSet_notFree h hns hst

/-- Settles O35: fields by access code, accesses by what the agent may reach, and a plain write with no lock held. -/
theorem registerFieldsAndAccess : Obligations.RegisterFieldsAndAccess := by
  unfold Obligations.RegisterFieldsAndAccess
  refine ⟨?fields, ?write, ?read, ?refused, ?plain⟩
  case fields =>
    intro hi lo rst old v locked hl
    exact ⟨rfl, rfl, Nat.zero_mul _, rfl, fun i h => bit_fieldNext_w1c rst old v locked hl h⟩
  case write => exact fun _ _ v _ h => registerWrite_allowed v h
  case read => exact fun _ _ _ h hw => ⟨_, registerRead_allowed h hw, ⟨rfl, rfl⟩, rfl, rfl⟩
  case refused => exact fun _ _ v _ h => ⟨registerWrite_refused v h, registerRead_refused h⟩
  case plain =>
    intro r d a v hr hl
    rw [Dev.plainWrite_unlocked v hr hl]
    exact ⟨Dev.reg_setReg_same _ _ _, rfl⟩

end Machine
end Sys2Proof
end

section
/-!
PROOFS. The canonical form of the memories at reset and along every step (O4, O5).
-/
namespace Sys2Proof
namespace Machine

/-- With no command waiting no memory changes (log 53). -/
@[simp] theorem idle_mem (s : State) : (idle s).mem = s.mem := by
  unfold idle
  split <;> rfl

/-- PORST cuts the flash subsystem and then keeps only the flash array: two ends of a meaning, one after the other. -/
theorem execPorstAssert_wf {s t : State} (h : s.mem.wf = true) (e : execPorstAssert s = .next t) : t.mem.wf = true := by
  unfold execPorstAssert at e
  split at e
  next u cut => exact runKeep_wf (run_wf h cut) e
  next => exact run_wf h e

/-- A warm reset that is due cuts the flash subsystem and then clears Summit RAM; one that is not due changes nothing. -/
theorem execWarmReset_wf {s t : State} (h : s.mem.wf = true) (e : execWarmReset s = .next t) : t.mem.wf = true := by
  unfold execWarmReset at e
  split at e
  next notDue =>
    cases e
    exact h
  next due =>
    split at e
    next u cut => exact runKeep_wf (run_wf h cut) e
    next => exact run_wf h e

/-- Every command keeps the canonical form: each meaning ends in one of the three ends, or is one of the two resets. -/
theorem exec_wf {c : Instr} {s t : State} (h : s.mem.wf = true) (e : exec c s = .next t) : t.mem.wf = true := by
  rcases exec_shape c s with ⟨f, hf⟩ | ⟨f, hf⟩ | ⟨keep, f, hf⟩ | rfl | rfl
  · exact run_wf h (hf.symm.trans e)
  · exact runDev_wf h (hf.symm.trans e)
  · exact runKeep_wf h (hf.symm.trans e)
  · exact execWarmReset_wf h e
  · exact execPorstAssert_wf h e

/-- Settles O4: a step either idles or runs the command at the front, and both keep the canonical form. -/
theorem stepKeepsMemoryCanonical : Obligations.StepKeepsMemoryCanonical := by
  unfold Obligations.StepKeepsMemoryCanonical Safety.memOk
  intro s t h e
  cases queue : s.pending with
  | nil =>
    simp only [step, queue] at e
    cases e
    rw [idle_mem]
    exact h
  | cons c rest =>
    rw [step_cons c rest s queue] at e
    exact exec_wf (s := { s with pending := rest }) h e

/-- Settles O5: no cell is listed at reset. -/
theorem resetMemoryCanonical : Obligations.ResetMemoryCanonical := rfl

end Machine
end Sys2Proof
end

section
/-!
PROOFS. The pace monitors (O8), and the monitors and watch rings that raise their faults (O9).
-/
namespace Sys2Proof

/-! ### Registers along a fold -/

/-- What every round of a fold keeps, the fold keeps. -/
theorem foldl_keeps {σ α β : Type} (g : σ → β) {f : σ → α → σ} {xs : List α}
    (h : ∀ x ∈ xs, ∀ s, g (f s x) = g s) (s : σ) : g (xs.foldl f s) = g s := by
  induction xs generalizing s with
  | nil => rfl
  | cons x xs ih =>
    rw [List.foldl_cons, ih fun y hy => h y (List.mem_cons_of_mem x hy), h x List.mem_cons_self]

/-- A value that only the round of `x` changes: rounds have distinct keys, and a round with another key keeps it. -/
theorem foldl_at {σ α β : Type} (g : σ → β) (key : α → Nat) {f : σ → α → σ} {xs : List α} {x : α} (v : β → β)
    (nodup : (xs.map key).Nodup) (hx : x ∈ xs) (same : ∀ s, g (f s x) = v (g s))
    (other : ∀ y, key y ≠ key x → ∀ s, g (f s y) = g s) (s : σ) : g (xs.foldl f s) = v (g s) := by
  obtain ⟨before, after, rfl⟩ := List.append_of_mem hx
  simp only [List.map_append, List.map_cons, List.nodup_append, List.nodup_cons, List.mem_cons] at nodup
  obtain ⟨-, ⟨notAfter, -⟩, apart⟩ := nodup
  have keepAfter : ∀ y ∈ after, ∀ s, g (f s y) = g s :=
    fun y hy => other y fun e => notAfter (e ▸ List.mem_map_of_mem hy)
  have keepBefore : ∀ y ∈ before, ∀ s, g (f s y) = g s :=
    fun y hy => other y (apart _ (List.mem_map_of_mem hy) _ (.inl rfl))
  rw [List.foldl_append, List.foldl_cons, foldl_keeps g keepAfter, same, foldl_keeps g keepBefore]

/-! ### Fields -/

/-- A bit just written reads back. -/
theorem bit_setBits_same (v i x : Nat) : bit (setBits v i i x) i = (x % 2 == 1) := by
  have h := bits_setBits_same v i i x
  rw [bits, Nat.add_sub_cancel_left, pow_one] at h
  rw [bit, h]

/-- Two halfwords packed into a word read back. -/
theorem bits_halves {hi lo : Nat} (h : hi < 2 ^ 16) (l : lo < 2 ^ 16) :
    bits ((hi * 2 ^ 16 + lo) % 2 ^ 32) 31 16 = hi ∧ bits ((hi * 2 ^ 16 + lo) % 2 ^ 32) 15 0 = lo := by
  simp only [bits]
  omega

namespace Machine

/-- Rounds that change registers and nothing else, one after the other, change registers and nothing else. -/
theorem Dev.foldl_frame {α : Type} {f : Dev → α → Dev} (h : ∀ d x, f d x = { d with regs := (f d x).regs }) (xs : List α)
    (d : Dev) : xs.foldl f d = { d with regs := (xs.foldl f d).regs } := by
  induction xs generalizing d with
  | nil => rfl
  | cons x xs ih =>
    rw [List.foldl_cons, ih (f d x)]
    generalize (xs.foldl f (f d x)).regs = regs
    rw [h d x]

/-! ### Which registers a sampling writes (R30, R32) -/

theorem Dev.paceCur_lt (d : Dev) (m : Nat) : d.paceCur m < 2 ^ 16 := bits_lt _ _ _

/-- The registers of two monitors are two registers. -/
theorem GEN_PACE_n_ne {m k : Nat} (h : m ≠ k) : Reg.GEN_PACE_n m ≠ Reg.GEN_PACE_n k := by
  simp only [Reg.GEN_PACE_n]
  omega

/-- The monitors' registers stand below those that report on them together. -/
theorem GEN_PACE_n_ne_shared {m : Nat} (h : m < 28) :
    Reg.GEN_PACE_n m ≠ Reg.GEN_PACE_CTRL ∧ Reg.GEN_PACE_n m ≠ Reg.GEN_PACE_SLOW := by
  simp only [Reg.GEN_PACE_n, Reg.GEN_PACE_CTRL, Reg.GEN_PACE_SLOW]
  omega

theorem GEN_PACE_CTRL_ne_SLOW : Reg.GEN_PACE_CTRL ≠ Reg.GEN_PACE_SLOW := by decide

/-- The report of the slowest monitor is one register. -/
theorem Dev.paceSlow_eq (d : Dev) : ∃ v, d.paceSlow = d.setReg Reg.GEN_PACE_SLOW v := by
  unfold Dev.paceSlow
  dsimp only
  split <;> exact ⟨_, rfl⟩

@[simp] theorem Dev.paceSlow_raised (d : Dev) : d.paceSlow.raised = d.raised := by
  obtain ⟨v, hv⟩ := d.paceSlow_eq
  rw [hv, Dev.setReg_raised]

theorem Dev.reg_paceSlow_ne (d : Dev) {a : Nat} (h : a ≠ Reg.GEN_PACE_SLOW) : d.paceSlow.reg a = d.reg a := by
  obtain ⟨v, hv⟩ := d.paceSlow_eq
  rw [hv, Dev.reg_setReg_ne d v h]

@[simp] theorem Dev.reg_stretchSampled (d : Dev) (a : Nat) : d.stretchSampled.reg a = d.reg a := by
  unfold Dev.stretchSampled
  split <;> rfl

/-- The supervisors' budgets stand in no register. -/
theorem Dev.reg_superviseLoop (d : Dev) (dec : Rat) (started marked : List Nat) (n a : Nat) :
    (d.superviseLoop dec started marked n).reg a = d.reg a := by
  unfold Dev.superviseLoop
  split
  · rfl
  · split
    · rfl
    · exact foldl_keeps (Dev.reg · a) (fun k _ e => Dev.reg_modList e k a _) _

/-- A reading writes its monitor's register and its counts, and may exclude the monitor. -/
theorem Dev.paceRead_eq (d : Dev) (m r : Nat) : ∃ counts e,
    e = { d.setReg (Reg.GEN_PACE_n m) (max (bits (d.reg (Reg.GEN_PACE_n m)) 31 16) r * 2 ^ 16 + r) with paces := counts }
      ∧ (d.paceRead m r = e.paceExclude m ∨ d.paceRead m r = e) :=
  ⟨_, _, rfl, ite_eq_or_eq _ _ _⟩

/-- Of the registers a reading writes, GEN_PACE_CTRL left out, only its monitor's changes. -/
theorem Dev.reg_paceRead (d : Dev) (m r : Nat) {a : Nat} (h : a ≠ Reg.GEN_PACE_CTRL) : (d.paceRead m r).reg a
    = (d.setReg (Reg.GEN_PACE_n m) (max (bits (d.reg (Reg.GEN_PACE_n m)) 31 16) r * 2 ^ 16 + r)).reg a := by
  obtain ⟨counts, e, he, excluded | kept⟩ := d.paceRead_eq m r
  · rw [excluded, Dev.paceExclude, Dev.reg_raise, Dev.reg_setReg_ne _ _ h, he]
    rfl
  · rw [kept, he]
    rfl

/-- The readings of one sampling, taken in the order of the monitors. -/
def Dev.paceReadings (d : Dev) (rs : List (BitVec 16)) : Dev :=
  ((List.range 28).zip rs).foldl (fun d p => d.paceRead p.1 p.2.toNat) d

theorem Dev.reg_paceReadings (d : Dev) {rs : List (BitVec 16)} {m : Nat} {r : BitVec 16} (hm : m < 28) (hr : rs[m]? = some r) :
    (d.paceReadings rs).reg (Reg.GEN_PACE_n m)
      = (max (bits (d.reg (Reg.GEN_PACE_n m)) 31 16) r.toNat * 2 ^ 16 + r.toNat) % 2 ^ 32 := by
  have mem : (m, r) ∈ (List.range 28).zip rs := List.mem_iff_getElem?.mpr ⟨m, by
    rw [List.getElem?_zip_eq_some]
    exact ⟨List.getElem?_range hm, hr⟩⟩
  have nodup : (((List.range 28).zip rs).map Prod.fst).Nodup := by
    rw [List.zip_eq_zip_take_min, List.map_fst_zip (by simp)]
    exact (List.take_sublist _ _).nodup List.nodup_range
  have hctrl := (GEN_PACE_n_ne_shared hm).1
  exact foldl_at (Dev.reg · (Reg.GEN_PACE_n m)) Prod.fst
    (fun old => (max (bits old 31 16) r.toNat * 2 ^ 16 + r.toNat) % 2 ^ 32) nodup mem
    (fun e => (e.reg_paceRead m r.toNat hctrl).trans (Dev.reg_setReg_same _ _ _))
    (fun y hy e => (e.reg_paceRead y.1 y.2.toNat hctrl).trans (Dev.reg_setReg_ne _ _ (GEN_PACE_n_ne (Ne.symm hy)))) d

/-- A sampling takes the readings, and of the registers it then writes only GEN_PACE_SLOW. -/
theorem exec_paceSample {rs : List (BitVec 16)} {started : List (Fin 16)} {marked : List ListId} {s : State}
    (h : s.dev.pwr.fabOn = true) : ∃ d, Safety.givesDev (.paceSample rs started marked) s d
      ∧ ∀ a, a ≠ Reg.GEN_PACE_SLOW → d.reg a = (s.dev.paceReadings rs).reg a := by
  refine ⟨_, rfl, fun a ha => ?_⟩
  simp only [h, Bool.not_true, Bool.false_eq_true, if_false]
  refine (foldl_keeps (Dev.reg · a) (fun n _ e => Dev.reg_superviseLoop e _ _ _ n a) _).trans ?_
  rw [Dev.reg_paceSlow_ne _ ha, Dev.reg_stretchSampled]
  split
  · exact Dev.reg_wf_ne _ _ _ ha
  · rfl

/-! ### CLR_PEAK (R30) -/

/-- CLR_PEAK changes registers and nothing else. -/
theorem Dev.clrPeak_frame (d : Dev) : d.clrPeak = { d with regs := d.clrPeak.regs } :=
  Dev.foldl_frame (fun _ _ => rfl) _ d

theorem Dev.reg_clrPeak_ne (d : Dev) {a : Nat} (h : a ∉ (List.range 28).map Reg.GEN_PACE_n) :
    d.clrPeak.reg a = d.reg a :=
  foldl_keeps (Dev.reg · a) (fun _ hm e => Dev.reg_setReg_ne e _ fun ha => h (ha ▸ List.mem_map_of_mem hm)) d

theorem Dev.reg_clrPeak_same (d : Dev) {m : Nat} (h : m < 28) :
    d.clrPeak.reg (Reg.GEN_PACE_n m) = (d.paceCur m * 2 ^ 16 + d.paceCur m) % 2 ^ 32 :=
  foldl_at (Dev.reg · (Reg.GEN_PACE_n m)) id (fun old => (bits old 15 0 * 2 ^ 16 + bits old 15 0) % 2 ^ 32)
    (by rw [List.map_id]; exact List.nodup_range) (List.mem_range.mpr h)
    (fun _ => Dev.reg_setReg_same _ _ _) (fun _ hk _ => Dev.reg_setReg_ne _ _ (GEN_PACE_n_ne hk.symm)) d

/-! ### A frozen monitor, and one that is good again (R32) -/

/-- INVALID of a monitor after its bit has been written. -/
theorem Dev.paceInvalid_setReg (d : Dev) {m : Nat} (x : Nat) (h : m < 28) :
    (d.setReg Reg.GEN_PACE_CTRL (setBits (d.reg Reg.GEN_PACE_CTRL) m m x)).paceInvalid m = (x % 2 == 1) := by
  rw [Dev.paceInvalid, Dev.reg_setReg_same, Nat.mod_eq_of_lt (setBits_lt x (d.reg_lt _) (by omega) le_rfl), bit_setBits_same]

theorem Dev.paceInvalid_paceSlow (d : Dev) (m : Nat) : d.paceSlow.paceInvalid m = d.paceInvalid m := by
  rw [Dev.paceInvalid, Dev.reg_paceSlow_ne d GEN_PACE_CTRL_ne_SLOW, Dev.paceInvalid]

/-- A current reading fits the 64 bits of DETAIL. -/
theorem Dev.paceCur_mod (d : Dev) (m : Nat) : d.paceCur m % 2 ^ 64 = d.paceCur m :=
  Nat.mod_eq_of_lt ((d.paceCur_lt m).trans (by decide))

theorem exec_paceFrozen {m : Fin 28} {s : State} (on : s.dev.pwr.fabOn = true) (same : 10 ≤ (s.dev.pace m.val).same)
    (valid : s.dev.paceInvalid m.val = false) :
    Safety.givesDev (.paceFrozen m) s (s.dev.paceExclude m.val).paceSlow := by
  have hd : exec (.paceFrozen m) s = execPaceFrozen m s := rfl
  rw [Safety.givesDev, hd, execPaceFrozen, runDev_eq]
  simp only [on, valid, ge_iff_le, same, decide_true, Bool.not_false, Bool.and_self, if_true]

theorem exec_paceRecovered {m : Fin 28} {s : State} (good : 100 ≤ (s.dev.pace m.val).good)
    (invalid : s.dev.paceInvalid m.val = true) : Safety.givesDev (.paceRecovered m) s
      ((s.dev.setReg Reg.GEN_PACE_CTRL (setBits (s.dev.reg Reg.GEN_PACE_CTRL) m.val m.val 0)).raise 0 Src.PACE 0x0002 m.val
        (s.dev.paceCur m.val)).paceSlow := by
  have hd : exec (.paceRecovered m) s = execPaceRecovered m s := rfl
  rw [Safety.givesDev, hd, execPaceRecovered, runDev_eq]
  simp only [invalid, ge_iff_le, good, decide_true, Bool.and_self, if_true]

/-- Settles O8: a sampling and CLR_PEAK by the one round that writes the monitor's register; the two events by the bit of
GEN_PACE_CTRL that they write and the record that they raise. -/
theorem paceMonitors : Obligations.PaceMonitors := by
  unfold Obligations.PaceMonitors
  refine ⟨?sample, ?clrPeak, ?frozen, ?recovered⟩
  case sample =>
    intro rs started marked s on
    obtain ⟨d, hd, regs⟩ := exec_paceSample (rs := rs) (started := started) (marked := marked) on
    refine ⟨_, hd, ⟨rfl, rfl⟩, fun m r hm hr => ?_⟩
    have peak : max (bits (s.dev.reg (Reg.GEN_PACE_n m)) 31 16) r.toNat < 2 ^ 16 := max_lt (bits_lt _ _ _) r.isLt
    obtain ⟨readPeak, readCur⟩ := bits_halves peak r.isLt
    simp only [Dev.rf, regs _ (GEN_PACE_n_ne_shared hm).2, Dev.reg_paceReadings _ hm hr]
    exact ⟨readCur, readPeak⟩
  case clrPeak =>
    intro s
    refine ⟨{ s with dev := s.dev.clrPeak }, rfl, ⟨?frame, fun a ha => s.dev.reg_clrPeak_ne ha⟩, fun m hm => ?_⟩
    case frame => exact congrArg (fun d => { s with dev := d }) s.dev.clrPeak_frame
    simp only [Dev.rf, Dev.reg_clrPeak_same _ hm]
    exact bits_halves (s.dev.paceCur_lt m) (s.dev.paceCur_lt m)
  case frozen =>
    intro m s on same valid
    refine ⟨_, exec_paceFrozen on same valid, ?_, rfl, ?_⟩
    · exact (Dev.paceInvalid_paceSlow _ _).trans (s.dev.paceInvalid_setReg 1 m.isLt)
    · rw [Dev.paceSlow_raised, Dev.paceExclude, Dev.raise_raised, Dev.setReg_raised, Dev.paceCur_mod]
  case recovered =>
    intro m s good invalid
    refine ⟨_, exec_paceRecovered good invalid, ?_, rfl, ?_⟩
    · exact (Dev.paceInvalid_paceSlow _ _).trans (s.dev.paceInvalid_setReg 0 m.isLt)
    · rw [Dev.paceSlow_raised, Dev.raise_raised, Dev.setReg_raised, Dev.paceCur_mod]

/-! ### Faults raised and nothing else (R25, R490, R594) -/

/-- A fault raised with no step concerned is the one change, when its DETAIL fits 64 bits. -/
theorem Dev.raises_raise (d : Dev) (cls src code unit : Nat) {detail : Nat} (h : detail < 2 ^ 64) :
    Safety.raises d (d.raise cls src code unit detail) (Safety.rec cls src code unit detail) := by
  rw [Safety.raises, Dev.raise, Nat.mod_eq_of_lt h]
  rfl

theorem exec_rail (r : Fin 12) (mv : BitVec 16) (s : State) : Safety.givesDev (.rail r mv) s
    (if 100 * mv.toNat < (s.dev.railLimits r.val).1 * (100 - (s.dev.railLimits r.val).2)
        || 100 * mv.toNat > (s.dev.railLimits r.val).1 * (100 + (s.dev.railLimits r.val).2)
      then s.dev.raise 2 Src.MONITOR 0x0009 r.val mv.toNat else s.dev) := rfl

/-- A rail inside its tolerance raises nothing. -/
theorem exec_rail_inside {r : Fin 12} {mv : BitVec 16} {s : State}
    (h : (s.dev.railLimits r.val).1 * (100 - (s.dev.railLimits r.val).2) ≤ 100 * mv.toNat
      ∧ 100 * mv.toNat ≤ (s.dev.railLimits r.val).1 * (100 + (s.dev.railLimits r.val).2)) :
    Safety.givesDev (.rail r mv) s s.dev := by
  have e := exec_rail r mv s
  rwa [if_neg (by simp only [Bool.or_eq_true, decide_eq_true_eq]; omega)] at e

theorem exec_rail_outside {r : Fin 12} {mv : BitVec 16} {s : State}
    (h : ¬((s.dev.railLimits r.val).1 * (100 - (s.dev.railLimits r.val).2) ≤ 100 * mv.toNat
      ∧ 100 * mv.toNat ≤ (s.dev.railLimits r.val).1 * (100 + (s.dev.railLimits r.val).2))) :
    Safety.givesDev (.rail r mv) s (s.dev.raise 2 Src.MONITOR 0x0009 r.val mv.toNat) := by
  have e := exec_rail r mv s
  rwa [if_pos (by simp only [Bool.or_eq_true, decide_eq_true_eq]; omega)] at e

theorem exec_ringBreak {dom : Fin 4} {mem : Fin 24} {s : State} (h : s.dev.ridgeOn mem.val = true) :
    Safety.givesDev (.ringBreak dom mem) s (s.dev.raise 1 Src.WATCH 0x0001 dom.val mem.val) := by
  have e : Safety.givesDev (.ringBreak dom mem) s _ := rfl
  simpa only [h, if_true] using e

theorem exec_parity {dom : Fin 4} {mem : Fin 24} {s : State} (h : s.dev.ridgeOn mem.val = true) :
    Safety.givesDev (.parity dom mem) s (s.dev.raise 1 Src.WATCH 0x0002 dom.val mem.val) := by
  have e : Safety.givesDev (.parity dom mem) s _ := rfl
  simpa only [h, if_true] using e

/-- Settles O9: each monitor's meaning is one fault raised, and a rail inside its tolerance is none. -/
theorem monitorsRaiseFaults : Obligations.MonitorsRaiseFaults := by
  unfold Obligations.MonitorsRaiseFaults
  refine ⟨?clock, ?rail, ?counter, ?ring, ?parity⟩
  case clock => exact fun s => ⟨_, rfl, Dev.raises_raise _ _ _ _ _ (by decide)⟩
  case counter => exact fun s => ⟨_, rfl, Dev.raises_raise _ _ _ _ _ (by decide)⟩
  case rail =>
    intro r mv s
    dsimp only
    split
    next inside => exact exec_rail_inside inside
    next outside => exact ⟨_, exec_rail_outside outside, Dev.raises_raise _ _ _ _ _ (mv.isLt.trans (by decide))⟩
  case ring => exact fun _ mem _ on => ⟨_, exec_ringBreak on, Dev.raises_raise _ _ _ _ _ (mem.isLt.trans (by decide))⟩
  case parity => exact fun _ mem _ on => ⟨_, exec_parity on, Dev.raises_raise _ _ _ _ _ (mem.isLt.trans (by decide))⟩

end Machine
end Sys2Proof
end

section
/-!
PROOFS. Unmapped addresses (O34): the gaps of the map, the packets of the command interface, and the accesses of the agents.
-/
namespace Sys2Proof
namespace Machine

/-! ### The gaps of the map (R3, R38, R42) -/

/-- Outside every region of the map. -/
theorem Dev.region_gap (d : Dev) {a : Nat} (h : 0x001800000000 ≤ a ∧ a < 0x010000000000
    ∨ 0x010018000000 ≤ a ∧ a < 0x020000000000 ∨ 0x020001000000 ≤ a ∧ a < 0x021000000000
    ∨ 0x021000C00000 ≤ a ∧ a < 0x030000000000 ∨ 0x030000200000 ≤ a ∧ a < 0x031000000000
    ∨ 0x031000200000 ≤ a ∧ a < 0x040000000000 ∨ 0x040000120000 ≤ a ∧ a < 0x040000200000 ∨ 0x040000380000 ≤ a) :
    d.region a = .unmapped := by
  unfold Dev.region
  simp only [Bool.and_eq_true, decide_eq_true_eq]
  unfold hbmSize tarnMem ingCache summitRam ceMem regSpace
  rw [if_neg (by omega), if_neg (by omega), if_neg (by omega), if_neg (by omega), if_neg (by omega), if_neg (by omega),
    if_neg (by omega), if_neg (by omega)]

/-- The region of a place in a tile's window. -/
theorem Dev.region_tile (d : Dev) (t : Fin 96) {o : Nat} (h : o < 0x400000) : d.region (tileBase t.val + o) =
    if !d.tileOn t.val then .unmapped
    else if o < 0x200000 then .tileAm t.val
    else if o < 0x2C0000 then .tileWm t.val
    else if o < 0x300000 then .tilePs t.val
    else if o < 0x340000 then .tileSpur t.val
    else if o < 0x3F0000 then .unmapped
    else .reg := by
  have ht := t.isLt
  have tile : (tileBase t.val + o - 0x010000000000) / 0x400000 = t.val := by simp only [tileBase]; omega
  have offset : (tileBase t.val + o - 0x010000000000) % 0x400000 = o := by simp only [tileBase]; omega
  simp only [Dev.region, tile, offset, hbmSize, Bool.and_eq_true, decide_eq_true_eq]
  rw [if_neg (by simp only [tileBase]; omega), if_pos (by simp only [tileBase]; omega)]

theorem Dev.region_tile_unmapped (d : Dev) (t : Fin 96) {o : Nat} (h : o < 0x400000)
    (gap : 0x340000 ≤ o ∧ o < 0x3F0000 ∨ d.ridgeOn (t.val / 4) = false) : d.region (tileBase t.val + o) = .unmapped := by
  rw [d.region_tile t h]
  cases on : d.tileOn t.val with
  | false => rfl
  | true =>
    have ridge : d.ridgeOn (t.val / 4) = true := (Bool.and_eq_true_iff.mp on).2
    have inGap : 0x340000 ≤ o ∧ o < 0x3F0000 := gap.resolve_right (by simp [ridge])
    rw [Bool.not_true, if_neg Bool.false_ne_true, if_neg (by omega), if_neg (by omega), if_neg (by omega),
      if_neg (by omega), if_pos inGap.2]

/-- The registers of a fused-off ridge (R3). -/
theorem Dev.region_ridge_off (d : Dev) (r : Fin 24) {o : Nat} (h : o < 0x10000) (off : d.ridgeOn r.val = false) :
    d.region (regSpace + 0x200000 + r.val * 0x10000 + o) = .unmapped := by
  have hr := r.isLt
  have ridge : (regSpace + 0x200000 + r.val * 0x10000 + o - regSpace - 0x200000) / 0x10000 = r.val := by omega
  unfold Dev.region
  simp only [ridge, off, Bool.and_eq_true, decide_eq_true_eq]
  unfold hbmSize tarnMem ingCache summitRam ceMem regSpace
  rw [if_neg (by omega), if_neg (by omega), if_neg (by omega), if_neg (by omega), if_neg (by omega), if_neg (by omega),
    if_neg (by omega), if_pos (by omega), if_neg Bool.false_ne_true]

/-! ### A span of memory has no gap -/

/-- The memory of a tile whose ridge is enabled. -/
theorem Dev.region_tile_memory {d : Dev} {t x : Nat} (on : d.tileOn t = true) (lo : tileBase t ≤ x)
    (hi : x < tileBase t + 0x340000) : d.region x ≠ .unmapped := by
  have ht : t < 96 := of_decide_eq_true (Bool.and_eq_true_iff.mp on).1
  obtain ⟨o, rfl⟩ := Nat.exists_eq_add_of_le lo
  rw [d.region_tile ⟨t, ht⟩ (by omega), on, Bool.not_true, if_neg Bool.false_ne_true]
  split_ifs <;> simp
  omega

/-- The memories above the tiles'. -/
theorem Dev.region_engine_memory (d : Dev) {x : Nat} (h : tarnMem ≤ x ∧ x < tarnMem + 0x1000000
    ∨ ingCache ≤ x ∧ x < ingCache + 0xC00000 ∨ summitRam ≤ x ∧ x < summitRam + 0x200000
    ∨ ceMem ≤ x ∧ x < ceMem + 0x18C000 ∨ ceMem + 0x1FC000 ≤ x ∧ x < ceMem + 0x200000) : d.region x ≠ .unmapped := by
  unfold Dev.region
  simp only [Bool.and_eq_true, decide_eq_true_eq]
  unfold hbmSize tarnMem ingCache summitRam ceMem regSpace at *
  split_ifs <;> simp <;> omega

/-- The places that a region of memory takes up. -/
def Dev.holds (d : Dev) (a : Nat) : Region → Prop
  | .hbm => a < hbmSize
  | .tileAm t | .tileWm t | .tilePs t | .tileSpur t => d.tileOn t = true ∧ tileBase t ≤ a ∧ a < tileBase t + 0x340000
  | .tarn => tarnMem ≤ a ∧ a < tarnMem + 0x1000000
  | .ingest => ingCache ≤ a ∧ a < ingCache + 0xC00000
  | .summit => summitRam ≤ a ∧ a < summitRam + 0x200000
  | .ce => ceMem ≤ a ∧ a < ceMem + 0x18C000 ∨ ceMem + 0x1FC000 ≤ a ∧ a < ceMem + 0x200000
  | .reg | .unmapped => True

theorem Dev.holds_region_tile (d : Dev) (t : Fin 96) {o : Nat} (h : o < 0x400000) :
    d.holds (tileBase t.val + o) (d.region (tileBase t.val + o)) := by
  rw [d.region_tile t h]
  cases on : d.tileOn t.val with
  | false => trivial
  | true =>
    have memory (hm : o < 0x340000) : d.tileOn t.val = true ∧ tileBase t.val ≤ tileBase t.val + o
        ∧ tileBase t.val + o < tileBase t.val + 0x340000 := ⟨on, by omega, by omega⟩
    rw [Bool.not_true, if_neg Bool.false_ne_true]
    split_ifs
    · exact memory (by omega)
    · exact memory (by omega)
    · exact memory (by omega)
    · exact memory (by omega)
    · trivial
    · trivial

/-- A place lies in its region. -/
theorem Dev.holds_region (d : Dev) (a : Nat) : d.holds a (d.region a) := by
  by_cases window : 0x010000000000 ≤ a ∧ a < 0x010018000000
  · obtain ⟨b, rfl⟩ := Nat.exists_eq_add_of_le window.1
    have back : 0x010000000000 + b = tileBase (b / 0x400000) + b % 0x400000 := by
      unfold tileBase
      omega
    rw [back]
    exact d.holds_region_tile ⟨b / 0x400000, by omega⟩ (by omega)
  · unfold Dev.region
    simp only [Bool.and_eq_true, decide_eq_true_eq, if_neg window]
    split_ifs with hbm tarn ingest summit ce gap
    · exact hbm
    · exact tarn
    · exact ingest
    · exact summit
    · trivial
    · exact Or.imp (fun low => ⟨ce.1, low⟩) (fun high => ⟨high, ce.2⟩) (by omega)
    all_goals trivial

/-- From any place of a span up to its end, memory is mapped. -/
theorem Dev.region_of_span {d : Dev} {a b e x : Nat} (h : d.span a = some (b, e)) (hx : a ≤ x) (he : x < e) :
    d.region x ≠ .unmapped := by
  have place := d.holds_region a
  unfold Dev.span at h
  cases region : d.region a <;> rw [region] at h place <;> simp only [Dev.holds] at place
  case hbm =>
    cases h
    rw [Dev.region, if_pos he]
    exact Region.noConfusion
  case tileAm | tileWm | tilePs | tileSpur =>
    cases h
    obtain ⟨on, lo, -⟩ := place
    exact Dev.region_tile_memory on (lo.trans hx) he
  case tarn | ingest | summit =>
    cases h
    exact d.region_engine_memory (by omega)
  case ce =>
    dsimp only at h
    split at h
    next => cases h; exact d.region_engine_memory (by omega)
    next => cases h; exact d.region_engine_memory (by omega)
  case reg | unmapped => cases h

theorem Dev.region_of_inSpan {d : Dev} {a n i : Nat} (h : d.inSpan a n = true) (hi : i < n) :
    d.region (a + i) ≠ .unmapped := by
  unfold Dev.inSpan at h
  split at h
  next b e span => exact Dev.region_of_span span (Nat.le_add_right a i) (by simp only [decide_eq_true_eq] at h; omega)
  next => cases h

/-! ### Ranges that the command interface refuses (R42, R565, R568) -/

/-- A range with an unmapped byte in it is refused. -/
theorem Dev.readRefusal_unmapped {d : Dev} {a n i : Nat} (hi : i < n) (h : d.region (a + i) = .unmapped) :
    d.readRefusal a n = some ST.BAD_PARAM := by
  have out : d.inSpan a n = false := Bool.eq_false_iff.mpr fun inside => Dev.region_of_inSpan inside hi h
  simp only [Dev.readRefusal, out, Bool.not_false, if_true]

/-- A range of registers with an unmapped one in it is refused. -/
theorem Dev.regRange_unmapped {d : Dev} {a n i : Nat} (hi : i < n) (h : d.region (a + 4 * i) = .unmapped) :
    d.regRange a n = some ST.BAD_PARAM := by
  have other : ((List.range n).map (fun i => a + 4 * i)).any (fun w => d.region w != .reg) = true :=
    List.any_eq_true.mpr ⟨a + 4 * i, List.mem_map_of_mem (List.mem_range.mpr hi), by rw [h]; rfl⟩
  simp only [Dev.regRange, other, if_true, ite_self]

theorem Mach.commandRead_unmapped {m : Mach} {a n i : Nat} (hi : i < n) (h : m.dev.region (a + i) = .unmapped) :
    m.commandRead a n = (m, .inl ST.BAD_PARAM) := by
  simp only [Mach.commandRead, Dev.readRefusal_unmapped hi h]

theorem Mach.commandWrite_unmapped {m : Mach} {a i : Nat} {bs : List Byte} (hi : i < bs.length)
    (h : m.dev.region (a + i) = .unmapped) (p : Packet) (force : Bool) (rows : List (Nat × Nat)) :
    m.commandWrite p a bs force rows = m.fail p ST.BAD_PARAM := by
  simp only [Mach.commandWrite, Mach.writeRefusal, Mach.refuseWrite, Dev.readRefusal_unmapped hi h]

/-! ### The environment's errors hold back no packet -/

/-- An error that the environment makes changes the marks of the units with errors and one counter, and nothing else. -/
theorem Dev.upset_frame (d : Dev) (u : Upset) : d.upset u = { d with
    regs := (d.upset u).regs, ue := (d.upset u).ue, ce := (d.upset u).ce, wb := (d.upset u).wb, off := (d.upset u).off } := by
  cases u with
  | onDie c => exact d.cnt_frame _ _
  | bankWait b n => rfl
  | correctable a | uncorrectable a flips | wrongOffset a =>
    simp only [Dev.upset]
    split <;> rfl

theorem Dev.reg_upset (d : Dev) (u : Upset) {a : Nat} (h : a ≠ Reg.HBM_CNT_k 3) : (d.upset u).reg a = d.reg a := by
  cases u with
  | onDie c => exact d.reg_cnt_ne _ h
  | bankWait b n => rfl
  | correctable b | uncorrectable b flips | wrongOffset b =>
    simp only [Dev.upset]
    split <;> rfl

@[simp] theorem Mach.flipBits_dev (m : Mach) (u : Upset) : (m.flipBits u).dev = m.dev := by
  cases u with
  | uncorrectable a flips =>
    unfold Mach.flipBits
    exact foldl_keeps Mach.dev (by intros; rfl) m
  | _ => rfl

/-- What no error changes, the errors of a command do not change. -/
theorem Mach.upsets_keep {β : Type} {g : Dev → β} (h : ∀ d u, g (Dev.upset d u) = g d) (m : Mach) (us : List Upset) :
    g (m.upsets us).dev = g m.dev :=
  foldl_keeps (fun m : Mach => g m.dev) (fun u _ m => by rw [Mach.mod_dev, h, Mach.flipBits_dev]) m

/-- The map hangs on the fuses alone (R5). -/
theorem Mach.region_upsets (m : Mach) (us : List Upset) (a : Nat) : (m.upsets us).dev.region a = m.dev.region a := by
  have fuses := Mach.upsets_keep (g := (Dev.reg · Reg.GEN_RIDGE_EN)) (fun d u => d.reg_upset u (by decide)) m us
  unfold Dev.region Dev.tileOn Dev.ridgeOn
  simp only [fuses]

/-- A packet that may run does so behind the errors that the environment has made. -/
theorem Mach.cmd_upsets_ready {s : State} {op tag : Nat} {p : Packet} (h : Safety.ready s op tag p) (us : List Upset)
    (f : Mach → Packet → Mach) : ((Safety.mach s).upsets us).cmd op tag f = f ((Safety.mach s).upsets us) p := by
  obtain ⟨found, harts, mayStart, served⟩ := h
  have hsdio : ((Safety.mach s).upsets us).dev.sdio = s.dev.sdio := Mach.upsets_keep (fun d u => by rw [d.upset_frame u]) _ us
  have hharts : ((Safety.mach s).upsets us).dev.harts = s.dev.harts := Mach.upsets_keep (fun d u => by rw [d.upset_frame u]) _ us
  have hboot : ((Safety.mach s).upsets us).dev.boot = s.dev.boot := Mach.upsets_keep (fun d u => by rw [d.upset_frame u]) _ us
  have hgrp : ((Safety.mach s).upsets us).dev.reg Reg.COL_GRP = s.dev.reg Reg.COL_GRP :=
    Mach.upsets_keep (g := (Dev.reg · Reg.COL_GRP)) (fun d u => d.reg_upset u (by decide)) _ us
  have hpkg : ((Safety.mach s).upsets us).dev.pkg = s.dev.pkg := by rw [Dev.pkg, Dev.rf, hgrp, Dev.pkg, Dev.rf]
  have hop : ((Safety.mach s).upsets us).dev.opRefused op = s.dev.opRefused op := by
    rw [Dev.opRefused, hboot, Dev.opRefused]
  simp only [Mach.cmd, hsdio, hharts, hpkg, hop, found, harts, mayStart, served]
  rfl

theorem gives_of_cmd_upsets {c : Instr} {s : State} {op tag : Nat} {p : Packet} {us : List Upset} {f : Mach → Packet → Mach}
    (hc : exec c s = run (fun m => (m.upsets us).cmd op tag f) s) (h : Safety.ready s op tag p) :
    Safety.gives c s (f ((Safety.mach s).upsets us) p) := by
  rw [Safety.gives, hc, run_eq]
  have run := Mach.cmd_upsets_ready h us f
  simp only [Safety.mach] at run ⊢
  rw [run]

/-! ### Memory packets at unmapped locations -/

section MemoryPackets
variable {s : State} {tag : BitVec 16} {us : List Upset} {p : Packet} {i : Nat}
  (h : s.dev.region (pay64 p.payload 0 + i) = .unmapped)
include h

theorem region_upsets_unmapped : ((Safety.mach s).upsets us).dev.region (pay64 p.payload 0 + i) = .unmapped :=
  (Mach.region_upsets _ us _).trans h

theorem memRead_unmapped (hi : i < pay32 p.payload 8) (ready : Safety.ready s 0x0301 tag.toNat p) :
    Safety.gives (.memRead tag us) s (((Safety.mach s).upsets us).fail p ST.BAD_PARAM) := by
  have e := gives_of_cmd_upsets (c := .memRead tag us) rfl ready
  simpa only [Mach.commandRead_unmapped hi (region_upsets_unmapped h), ite_self] using e

theorem memCheck_unmapped (hi : i < pay32 p.payload 8) (ready : Safety.ready s 0x0304 tag.toNat p) :
    Safety.gives (.memCheck tag us) s (((Safety.mach s).upsets us).fail p ST.BAD_PARAM) := by
  have e := gives_of_cmd_upsets (c := .memCheck tag us) rfl ready
  simpa only [Mach.commandRead_unmapped hi (region_upsets_unmapped h), ite_self] using e

theorem memWrite_unmapped (hit : List (Fin 96 × Fin 32768)) (hi : i < p.payload.length - 12)
    (ready : Safety.ready s 0x0302 tag.toNat p) :
    Safety.gives (.memWrite tag hit us) s (((Safety.mach s).upsets us).fail p ST.BAD_PARAM) := by
  have e := gives_of_cmd_upsets (c := .memWrite tag hit us) rfl ready
  have inData : i < (p.payload.drop 12).length := by rwa [List.length_drop]
  simpa only [Mach.commandWrite_unmapped inData (region_upsets_unmapped h)] using e

theorem memFill_unmapped (hit : List (Fin 96 × Fin 32768)) (hi : i < pay32 p.payload 8)
    (ready : Safety.ready s 0x0303 tag.toNat p) :
    Safety.gives (.memFill tag hit us) s (((Safety.mach s).upsets us).fail p ST.BAD_PARAM) := by
  have e := gives_of_cmd_upsets (c := .memFill tag hit us) rfl ready
  dsimp only at e
  split at e
  next => exact e
  next words =>
    have inData : i < ((List.replicate (pay32 p.payload 8 / 4) (leBytes 4 (pay32 p.payload 12))).flatMap id).length := by
      simp at words ⊢
      omega
    rwa [Mach.commandWrite_unmapped inData (region_upsets_unmapped h)] at e

end MemoryPackets

/-! ### Register packets at unmapped locations -/

section RegisterPackets
variable {s : State} {tag : BitVec 16} {p : Packet} {i n : Nat}
  (h : s.dev.region (pay64 p.payload 0 + 4 * i) = .unmapped)
include h

theorem regRead_unmapped (hi : i < pay32 p.payload 8) (ready : Safety.ready s 0x0201 tag.toNat p) :
    Safety.givesDev (.regRead tag) s (s.dev.reply p ST.BAD_PARAM []) := by
  have refused := Dev.regRange_unmapped hi h
  have e := givesDev_of_cmd (c := .regRead tag) rfl ready
  simp only [Safety.mach, refused] at e
  exact e rfl

theorem regWrite_unmapped (hi : i < pay32 p.payload 8) (ready : Safety.ready s 0x0202 tag.toNat p) :
    Safety.givesDev (.regWrite tag) s (s.dev.reply p ST.BAD_PARAM []) := by
  have refused := Dev.regRange_unmapped hi h
  have e := givesDev_of_cmd (c := .regWrite tag) rfl ready
  simp only [Safety.mach, refused] at e
  exact e rfl

theorem regRmw_unmapped (hi : i < 1) (ready : Safety.ready s 0x0203 tag.toNat p) :
    Safety.givesDev (.regRmw tag) s (s.dev.reply p ST.BAD_PARAM []) := by
  have refused := Dev.regRange_unmapped hi h
  have e := givesDev_of_cmd (c := .regRmw tag) rfl ready
  simp only [Safety.mach, refused] at e
  exact e rfl

end RegisterPackets

/-! ### Accesses of the other agents (R42) -/

section Agents
variable {who : Agent} {addr : BitVec 54} {s : State} (place : bits addr.toNat 51 48 ≠ 0
    ∨ s.dev.region (addr.toNat % 2 ^ 48) = .unmapped ∧ reaches who (addr.toNat % 2 ^ 48) = true)
include place

/-- An address with a high bit set has no place in the map, and one that the agent reaches in a gap has an unmapped one. -/
theorem localOf_gap : localOf addr.toNat = none
    ∨ ∃ a, localOf addr.toNat = some a ∧ s.dev.region a = .unmapped ∧ reaches who a = true := by
  by_cases inMap : bits addr.toNat 51 48 = 0
  · exact .inr ⟨_, if_pos inMap, place.resolve_left (not_not.mpr inMap)⟩
  · exact .inl (if_neg inMap)

variable (agent : who ≠ .command) (here : bits addr.toNat 53 52 = s.dev.pkg) (openPort : who = .debug → s.dev.dbgOpen = true)
include agent here openPort

theorem unmappedRead_here (form : AccessForm) :
    Safety.givesDev (.unmappedRead who addr form) s (s.dev.unmapped who addr.toNat false) := by
  have hd : exec (.unmappedRead who addr form) s = execUnmappedRead who addr form s := rfl
  have notShut : ¬(decide (who = .debug) && !s.dev.dbgOpen) = true := by simpa using openPort
  rw [Safety.givesDev, hd, execUnmappedRead, runDev_eq]
  simp only [if_neg agent, here, ne_eq, not_true, if_false, notShut, Bool.false_eq_true]
  obtain outside | ⟨a, inside, gap, reach⟩ := localOf_gap place
  · simp only [outside]
  · simp only [inside, gap, reach, beq_self_eq_true, Bool.and_self, if_true]

theorem unmappedWrite_here (v : DWord) (form : AccessForm) :
    Safety.givesDev (.unmappedWrite who addr v form) s (s.dev.unmapped who addr.toNat true) := by
  have hd : exec (.unmappedWrite who addr v form) s = execUnmappedWrite who addr v form s := rfl
  have notShut : ¬(decide (who = .debug) && !s.dev.dbgOpen) = true := by simpa using openPort
  rw [Safety.givesDev, hd, execUnmappedWrite, runDev_eq]
  simp only [if_neg agent, here, ne_eq, not_true, if_false, notShut, Bool.false_eq_true]
  obtain outside | ⟨a, inside, gap, reach⟩ := localOf_gap place
  · simp only [outside]
  · simp only [inside, gap, reach, beq_self_eq_true, Bool.and_self, if_true]

end Agents

/-- The record that an access to an unmapped place logs: the address fits DETAIL. -/
theorem Dev.unmapped_detail (addr : BitVec 54) : addr.toNat % 2 ^ 54 % 2 ^ 64 = addr.toNat := by
  have := addr.isLt
  omega

theorem Dev.raises_unmappedRead (d : Dev) (who : Agent) (addr : BitVec 54) :
    Safety.raises { d with readData := 0, readFlag := false } (d.unmapped who addr.toNat false)
      (Safety.rec 0 Src.ACCESS 1 (agentUnit who) addr.toNat) := by
  simp only [Safety.raises, Dev.unmapped, Dev.raise, Dev.unmapped_detail]
  rfl

theorem Dev.raises_unmappedWrite (d : Dev) (who : Agent) (addr : BitVec 54) :
    Safety.raises d (d.unmapped who addr.toNat true) (Safety.rec 0 Src.ACCESS 2 (agentUnit who) addr.toNat) := by
  simp only [Safety.raises, Dev.unmapped, Dev.raise, Dev.unmapped_detail]
  rfl

/-- Settles O34: the agents' accesses by the record they log, the packets by the range check that refuses them, and the gaps
by the map. -/
theorem unmappedAccesses : Obligations.UnmappedAccesses := by
  unfold Obligations.UnmappedAccesses
  refine ⟨?read, ?write, ?memory, ?registers, fun d a h => d.region_gap h, fun d t o h gap => d.region_tile_unmapped t h gap,
    fun d r o h off => d.region_ridge_off r h off⟩
  case read =>
    intro who addr form s agent here openPort place
    exact ⟨_, unmappedRead_here place agent here openPort form, rfl, rfl, s.dev.raises_unmappedRead who addr, rfl, rfl⟩
  case write =>
    intro who addr v form s agent here openPort place
    exact ⟨_, unmappedWrite_here place agent here openPort v form, s.dev.raises_unmappedWrite who addr, rfl, rfl⟩
  case memory =>
    intro c op n tag hit us p s which ready ⟨i, hi, gap⟩
    simp only [List.mem_cons, Prod.mk.injEq, List.not_mem_nil, or_false] at which
    obtain ⟨rfl, rfl, rfl⟩ | ⟨rfl, rfl, rfl⟩ | ⟨rfl, rfl, rfl⟩ | ⟨rfl, rfl, rfl⟩ := which
    · exact memRead_unmapped gap hi ready
    · exact memWrite_unmapped gap hit hi ready
    · exact memFill_unmapped gap hit hi ready
    · exact memCheck_unmapped gap hi ready
  case registers =>
    intro c op n tag p s which ready ⟨i, hi, gap⟩
    simp only [List.mem_cons, Prod.mk.injEq, List.not_mem_nil, or_false] at which
    obtain ⟨rfl, rfl, rfl⟩ | ⟨rfl, rfl, rfl⟩ | ⟨rfl, rfl, rfl⟩ := which
    · exact regRead_unmapped gap hi ready
    · exact regWrite_unmapped gap hi ready
    · exact regRmw_unmapped gap hi ready

end Machine
end Sys2Proof
end

section
/-!
PROOFS. Streams of rows (O42): reading ahead, sends and receives, and a row that lands.
-/
namespace Sys2Proof
namespace Machine

/-! ### Reading ahead (R189) -/

/-- A checked read finds nothing where no unit of memory has an error. -/
theorem Mach.eccRead_noErrors {m : Mach} (hue : m.dev.ue = []) (hce : m.dev.ce = []) (a n req loop : Nat) :
    m.eccRead a n req loop = (m, none) := by
  unfold Mach.eccRead
  rw [hue, hce]
  rfl

/-- One entry read ahead joins the buffer. -/
theorem Mach.readAhead_one {m : Mach} {k : Nat} {x : ListSt} (hue : m.dev.ue = []) (hce : m.dev.ce = [])
    (hl : m.dev.list k = some x) (hbad : x.bad = none) (room : x.buf.length < 4096) (more : x.next + x.buf.length < x.count)
    (isOpen : m.dev.hbmOpen (x.addr + 16 * (x.next + x.buf.length)) 16 (listReq k) = true) :
    m.readAhead k 1 = m.mod (fun d => d.setList k
      { x with buf := x.buf ++ [m.rdNat (x.addr + 16 * (x.next + x.buf.length)) 16] }) := by
  simp only [Mach.readAhead, hl, hbad, isOpen, Mach.eccRead_noErrors hue hce, ge_iff_le, Nat.not_le.mpr more,
    Nat.not_le.mpr room, decide_false, Option.isSome_none, Bool.not_true, Bool.or_self, Bool.false_eq_true, if_false]

theorem exec_listFetch (l : ListId) (n : Fin 4097) (us : List Upset) (s : State) : Safety.gives (.listFetch l n us) s
    (((((Safety.mach s).upsets us).readAhead (listKey l) n.val).passFetches (listKey l) 4096).checkBad (listKey l)) := rfl

/-! ### An issued entry that only joins the flights of its list (R187) -/

theorem Dev.list_modList_same (d : Dev) (k : Nat) (f : ListSt → ListSt) : (d.modList k f).list k = (d.list k).map f := by
  unfold Dev.modList
  cases hl : d.list k with
  | none => rw [Option.map_none]; exact hl
  | some l => exact Dev.list_setList_same _ _ _

section Issued
variable {s : State} {k i e : Nat} {l : ListSt} {st : StepSt}

/-- The list whose entry has joined its flights has been read without error. -/
theorem checkBad_issued_fly (h : Safety.issues s k l st i e) :
    ((Safety.issued s k l).fly (Safety.iss k l st i e)).checkBad k
      = (Safety.issued s k l).fly (Safety.iss k l st i e) := by
  refine Mach.checkBad_good fun l' hl' => ?_
  obtain ⟨-, -, -, good⟩ := running_spec h
  rw [Mach.fly, Mach.mod_dev, Safety.iss, Dev.list_modList_same, Safety.issued, Dev.list_setList_same, Option.map_some] at hl'
  cases hl'
  exact l.take_bad.trans good

/-- An entry whose issue puts it in flight leaves the list's machine with that flight. -/
theorem issue_fly (h : Safety.issues s k l st i e) {want : Nat → Bool} (hw : want e = true) {f : Mach → Iss → Mach}
    (hf : f (Safety.issued s k l) (Safety.iss k l st i e) = (Safety.issued s k l).fly (Safety.iss k l st i e)) :
    (Safety.mach s).issue k want f = (Safety.issued s k l).fly (Safety.iss k l st i e) :=
  (Mach.issue_eq h want hw f).trans ((congrArg (Mach.checkBad · k) hf).trans (checkBad_issued_fly h))

end Issued

theorem isKind_of_kind {k e : Nat} (h : Ent.kind e = k) : isKind k e = true := beq_iff_eq.mpr h

/-- A send flies, but for one of an ingest list that asks for more rows than its stream's tensor has (R434). -/
theorem exec_send {id : ListId} {i e : Nat} {l : ListSt} {st : StepSt} {s : State} (h : Safety.issues s (listKey id) l st i e)
    (kind : Ent.kind e = K.SEND) (rows : listKey id < 96
      ∨ ∀ b, st.bound.find? (fun b => b.stream == bits (Send.srow e) 5 0) = some b → Send.trow e + Send.nrows e ≤ b.rows) :
    Safety.gives (.send id []) s
      (((Safety.issued s (listKey id) l).fly (Safety.iss (listKey id) l st i e)).sendAll (listKey id)) := by
  have hd : exec (.send id []) s = execSend id [] s := rfl
  have noErrors : (if listKey id < 96 then (Safety.mach s).tileUpsets (listKey id) [] else (Safety.mach s).upsets [])
      = Safety.mach s := by
    split <;> rfl
  rw [Safety.gives, hd, execSend, run_eq]
  dsimp only
  rw [show (⟨s.mem, [], s.dev⟩ : Mach) = Safety.mach s from rfl, noErrors, issue_fly h (isKind_of_kind kind)]
  split
  next => rfl
  next engine =>
    split
    next => rfl
    next b found =>
      refine if_neg fun asksMore => ?_
      have beyond := of_decide_eq_true (Bool.and_eq_true_iff.mp asksMore).2
      exact absurd (rows.resolve_left engine b found) (Nat.not_le.mpr beyond)

theorem exec_recv {t : Fin 96} {i e : Nat} {l : ListSt} {st : StepSt} {s : State} (h : Safety.issues s t.val l st i e)
    (kind : Ent.kind e = K.RECV) : Safety.gives (.recv t []) s
      (((Safety.issued s t.val l).fly (Safety.iss t.val l st i e)).recvAll t.val) := by
  have hd : exec (.recv t []) s = execRecv t [] s := rfl
  rw [Safety.gives, hd, execRecv, run_eq, show (⟨s.mem, [], s.dev⟩ : Mach).tileUpsets t.val [] = Safety.mach s from rfl,
    issue_fly h (isKind_of_kind kind) rfl]

/-! ### Bytes stored (R123) -/

/-- With no region of flash held complemented, a byte is stored as it is. -/
theorem Dev.held8_plain {d : Dev} (h : d.flash.flipped = []) (a : Nat) (b : Byte) : d.held8 a b = b := by
  simp [Dev.held8, h]

/-- The stores of a run of bytes: each place of the run reads its byte, and every other place as before. -/
theorem Memory.read_stored {base : Memory} (h : base.wf = true) (log : List Host.Cell) (a : Nat) (bs : List Byte) (x : Nat) :
    Memory.read (Memory.writeLog base (((List.range bs.length).zip bs).foldl (fun l p => (a + p.1, p.2) :: l) log)) x
      = if a ≤ x ∧ x < a + bs.length then bs.getD (x - a) 0 else Memory.read (Memory.writeLog base log) x := by
  induction bs using List.reverseRecOn with
  | nil => rw [if_neg (by simp)]; rfl
  | append_singleton bs b ih =>
    rw [List.length_append, List.length_singleton, List.range_succ, List.zip_append (List.length_range),
      List.foldl_append]
    simp only [List.zip_cons_cons, List.zip_nil_right, List.foldl_cons, List.foldl_nil, Memory.writeLog]
    rw [Memory.read_write _ _ _ (Memory.wf_writeLog _ h), ih]
    by_cases last : x = a + bs.length
    · rw [if_pos last, if_pos (by omega), last, Nat.add_sub_cancel_left]
      simp
    · rw [if_neg last]
      by_cases before : a ≤ x ∧ x < a + bs.length
      · rw [if_pos before, if_pos (by omega), List.getD_append _ _ _ _ (by omega)]
      · rw [if_neg before, if_neg (by omega)]

theorem Mach.store_log_plain {m : Mach} (h : m.dev.flash.flipped = []) (a : Nat) (bs : List Byte) :
    (m.store a bs).log = ((List.range bs.length).zip bs).foldl (fun l p => (a + p.1, p.2) :: l) m.log := by
  simp only [Mach.store, Dev.held8_plain h]

/-! ### What a message to a peer leaves (R328 to R333) -/

/-- From `d` to `e` only the state of the Col ports changes, and registers outside the tiles' windows. -/
structure Dev.ColOnly (d e : Dev) : Prop where
  rest : e = { d with regs := e.regs, col := e.col }
  regs : ∀ a, a < regSpace → e.reg a = d.reg a

namespace Dev.ColOnly

theorem refl (d : Dev) : ColOnly d d := ⟨rfl, fun _ _ => rfl⟩

theorem trans {d e f : Dev} (h : ColOnly d e) (h' : ColOnly e f) : ColOnly d f :=
  ⟨h'.rest.trans (by rw [h.rest]), fun a ha => (h'.regs a ha).trans (h.regs a ha)⟩

theorem setReg (d : Dev) {a : Nat} (v : Nat) (h : regSpace ≤ a) : ColOnly d (d.setReg a v) :=
  ⟨rfl, fun _ hb => d.reg_setReg_ne v (by omega)⟩

theorem cnt (d : Dev) {a : Nat} (n : Nat) (h : regSpace ≤ a) : ColOnly d (d.cnt a n) := by
  unfold Dev.cnt
  split
  · exact refl d
  · exact setReg d _ h

theorem setPort (d : Dev) (p : Nat) (x : PortSt) : ColOnly d (d.setPort p x) := ⟨rfl, fun _ _ => rfl⟩

theorem modPort (d : Dev) (p : Nat) (f : PortSt → PortSt) : ColOnly d (d.modPort p f) := setPort d p _

theorem nextFlit (d : Dev) (p type vc : Nat) (bs : List Byte) : ColOnly d (d.nextFlit p type vc bs).1 := setPort d p _

theorem sendIdle (d : Dev) (p : Nat) : ColOnly d (d.sendIdle p) := by
  unfold Dev.sendIdle
  split
  · exact refl d
  · exact (nextFlit d p 0 0 (leBytes 1 d.pkg ++ leBytes 1 p ++ leBytes 1 d.grp ++ [1])).trans (modPort _ p _)

theorem fillFlit (d : Dev) (p vc fuel room : Nat) : ColOnly d (d.fillFlit p vc fuel room).1 := by
  induction fuel generalizing d room with
  | zero => exact refl d
  | succ fuel ih =>
    unfold Dev.fillFlit
    split
    · exact refl d
    · exact (modPort d p _).trans (ih _ _)

theorem COL_Pp_CRED_ge (p : Nat) : regSpace ≤ Reg.COL_Pp_CRED p := by
  unfold regSpace Reg.COL_Pp_CRED
  omega

theorem COL_Pp_CNT_k_ge (p k : Nat) : regSpace ≤ Reg.COL_Pp_CNT_k p k := by
  unfold regSpace Reg.COL_Pp_CNT_k
  omega

theorem sendData1 (d : Dev) (p vc : Nat) : ColOnly d (d.sendData1 p vc) := by
  have filled := fillFlit d p vc 17 244
  unfold Dev.sendData1
  generalize d.fillFlit p vc 17 244 = x at filled ⊢
  obtain ⟨d', bs⟩ := x
  exact filled.trans ((nextFlit d' p 1 vc bs).trans ((modPort _ p _).trans
    ((setReg _ _ (COL_Pp_CRED_ge p)).trans (cnt _ 1 (COL_Pp_CNT_k_ge p 0)))))

theorem colKick (d : Dev) (p fuel : Nat) : ColOnly d (d.colKick p fuel) := by
  induction fuel generalizing d with
  | zero => exact refl d
  | succ fuel ih =>
    unfold Dev.colKick
    split
    · exact sendIdle d p
    · split
      · exact sendIdle d p
      · exact (sendData1 d p _).trans (ih _)

theorem colSend (d : Dev) (p vc who : Nat) (msg : List Byte) : ColOnly d (d.colSend p vc who msg) :=
  (modPort d p _).trans (colKick _ p 1024)

theorem toPeer (d : Dev) (k fuel : Nat) (bs : List Byte) : ColOnly d (d.toPeer k bs fuel) := by
  induction fuel generalizing d bs with
  | zero => exact refl d
  | succ fuel ih =>
    unfold Dev.toPeer
    split
    · exact refl d
    · split
      · exact refl d
      · exact (colSend d _ VC.MGMT 16 _).trans (ih _ _)

theorem tellSource (d : Dev) (op src t q : Nat) : ColOnly d (d.tellSource op src t q) := by
  unfold Dev.tellSource
  split
  · exact refl d
  · split
    · exact refl d
    · exact toPeer d _ 1 _

/-- Rows forwarded along the mesh count at the ridges (R157). -/
theorem meshRows (d : Dev) (a b port n : Nat) : ColOnly d (d.meshRows a b port n) := by
  unfold Dev.meshRows
  generalize meshPath 10 a b ++ [(b, port)] = path
  induction path generalizing d with
  | nil => exact refl d
  | cons x path ih =>
    exact (cnt d n (by unfold regSpace Reg.RDG_PORT_ROWS_p; omega)).trans (ih _)

end Dev.ColOnly

/-! ### A row that lands (R20, R141, R187) -/

/-- A change of one list is a change of the lists. -/
theorem Mach.modList_frame (m : Mach) (k : Nat) (f : ListSt → ListSt) :
    ∃ lists, m.mod (fun d => d.modList k f) = m.mod (fun d => { d with lists := lists }) :=
  ⟨_, congrArg (fun d => { m with dev := d }) (m.dev.modList_frame k f)⟩

/-- An entry's count of landed rows, and its completion, stand with its list. -/
theorem Mach.landed_frame (m : Mach) (k entry : Nat) :
    ∃ lists, m.landed k entry = m.mod (fun d => { d with lists := lists }) := by
  obtain ⟨counted, hc⟩ := m.modList_frame k
    (fun l => { l with flights := l.flights.map (fun f => if f.entry = entry then { f with landed := f.landed + 1 } else f) })
  rw [Mach.landed, Mach.modFlight, hc]
  split
  · split
    · obtain ⟨completed, hf⟩ := (m.mod (fun d => { d with lists := counted })).modList_frame k
        (fun l => { l with flights := l.flights.filter (fun f => f.entry != entry) })
      exact ⟨completed, hf⟩
    · exact ⟨counted, rfl⟩
  · exact ⟨counted, rfl⟩

/-- The device once a row has landed: it has left the way to its queue, has been counted along the mesh, and its source is
told. -/
def Dev.rowArrived (d : Dev) (t q : Nat) (r : Transit) (rest : List Transit) : Dev :=
  (({ d with transit := AMap.set d.transit (16 * t + q) rest }).meshRows r.srcRidge (t / 4) (t % 4) 1).tellSource 0x4E
    r.src t q

theorem Dev.rowArrived_colOnly (d : Dev) (t q : Nat) (r : Transit) (rest : List Transit) :
    Dev.ColOnly { d with transit := AMap.set d.transit (16 * t + q) rest } (d.rowArrived t q r rest) :=
  (Dev.ColOnly.meshRows _ _ _ _ _).trans (Dev.ColOnly.tellSource _ _ _ _ _)

/-- The oldest row on its way, with nothing before it and its way open, lands; an entry of this package counts it. -/
theorem exec_landingRow {t : Fin 96} {q : Fin 16} {r : Transit} {rest : List Transit} {s : State}
    (oldest : AMap.getD s.dev.transit (16 * t.val + q.val) [] = r :: rest) (alone : s.dev.behind t.val r = false)
    (way : s.dev.meshOpen r.srcRidge (t.val / 4) (t.val % 4) (srcReq r.src) = true) :
    ∃ lists, Safety.gives (.landingRow t q []) s (((Safety.mach s).landRow t.val q.val r.data).mod
      (fun d => { d.rowArrived t.val q.val r rest with lists := lists })) := by
  have hd : exec (.landingRow t q []) s = execLandingRow t q [] s := rfl
  rw [Safety.mach]
  simp only [Safety.gives, hd, execLandingRow, run_eq]
  rw [show (⟨s.mem, [], s.dev⟩ : Mach).tileUpsets t.val [] = ⟨s.mem, [], s.dev⟩ from rfl]
  simp only [oldest, alone, way, Bool.not_true, Bool.or_self, Bool.false_eq_true, if_false]
  split
  next => exact ⟨_, rfl⟩
  next key _ =>
    obtain ⟨lists, hl⟩ := Mach.landed_frame (((⟨s.mem, [], s.dev⟩ : Mach).landRow t.val q.val r.data).mod
      (fun d => d.rowArrived t.val q.val r rest)) key r.entry
    exact ⟨lists, congrArg (fun m : Mach => Host.Outcome.next
      ({ s with mem := Memory.writeLog s.mem m.log, dev := m.dev } : State)) hl⟩

/-- The write position after a row has landed is in the queue, so that the field holds it. -/
theorem Mach.rf_landRow_wptr {m : Mach} {t q base len rel held : Nat} (hq : m.dev.queue t q = (base, len, rel, held))
    (bs : List Byte) : (m.landRow t q bs).dev.rf (Reg.TILE_LQn_PTR t q) Fld.TILE_LQn_PTR.WPTR
      = (m.dev.rf (Reg.TILE_LQn_PTR t q) Fld.TILE_LQn_PTR.WPTR + 1) % len := by
  have hlen : len = m.dev.rf (Reg.TILE_LQn_CFG t q) Fld.TILE_LQn_CFG.LENM1 + 1 := by
    rw [Dev.queue] at hq
    cases hq
    rfl
  have fits : m.dev.rf (Reg.TILE_LQn_CFG t q) Fld.TILE_LQn_CFG.LENM1 < 2 ^ 15 := bits_lt _ _ _
  have apart : Reg.TILE_LQn_PTR t q ≠ Reg.TILE_LQn_RD t q := by
    simp only [Reg.TILE_LQn_PTR, Reg.TILE_LQn_RD]
    omega
  simp only [Mach.landRow, hq, Mach.mod_dev]
  rw [Dev.rf_wf_ne _ _ _ _ apart, Dev.rf_wf_same]
  have small : (m.dev.rf (Reg.TILE_LQn_PTR t q) Fld.TILE_LQn_PTR.WPTR + 1) % len < len := Nat.mod_lt _ (by omega)
  exact Nat.mod_eq_of_lt (small.trans_le (by rw [hlen]; exact fits))

/-- The row that landed, byte for byte, and every other byte as before. -/
theorem Memory.read_landRow {s : State} {t q base len rel held : Nat} (ok : Safety.memOk s) (plain : s.dev.flash.flipped = [])
    (hq : s.dev.queue t q = (base, len, rel, held)) (bs : List Byte) (x : Nat) {a : Nat}
    (ha : a = amAddr t (base + s.dev.rf (Reg.TILE_LQn_PTR t q) Fld.TILE_LQn_PTR.WPTR)) :
    Memory.read (Memory.writeLog s.mem ((Safety.mach s).landRow t q bs).log) x
      = if a ≤ x ∧ x < a + bs.length then bs.getD (x - a) 0 else Memory.read s.mem x := by
  have stores : ((Safety.mach s).landRow t q bs).log
      = ((List.range bs.length).zip bs).foldl (fun l p => (a + p.1, p.2) :: l) [] := by
    rw [ha]
    simp only [Mach.landRow, Safety.mach, hq, Mach.mod_log]
    exact Mach.store_log_plain plain _ _
  rw [stores]
  exact Memory.read_stored ok [] a bs x

/-- Settles O42: the entries that only fly by `issue_fly`, the row that lands by its stores and the frame of what its landing
tells its source. -/
theorem streamsOfRows : Obligations.StreamsOfRows := by
  unfold Obligations.StreamsOfRows
  refine ⟨?one, exec_listFetch, fun n i e l st s h kind rows => exec_send (id := .ingest n) h kind (.inr rows),
    fun t i e l st s h kind => exec_send (id := .tile t) h kind (.inl t.isLt),
    fun t i e l st s h kind => exec_recv h kind, ?landing⟩
  case one =>
    intro l x s noErrors hl hbad room more isOpen
    obtain ⟨hue, hce, -, -⟩ := noErrors
    have fetched := exec_listFetch l 1 [] s
    rwa [Mach.upsets_nil, show ((1 : Fin 4097).val) = 1 from rfl,
      Mach.readAhead_one (m := Safety.mach s) hue hce hl hbad room more isOpen] at fetched
  case landing =>
    intro t q r rest base len rel held s ok plain oldest alone way hq
    obtain ⟨lists, landed⟩ := exec_landingRow oldest alone way
    have arrived := ((Safety.mach s).landRow t.val q.val r.data).dev.rowArrived_colOnly t.val q.val r rest
    have bytes := fun x => Memory.read_landRow ok plain hq r.data x rfl
    refine ⟨_, landed, ?transit, ?wptr, fun k hk => ?row, fun x out => ?others⟩
    case transit =>
      have moved := congrArg Dev.transit arrived.rest
      exact (congrArg (AMap.getD · _ _) moved).trans (AMap.getD_set_same _ _ _ _)
    case wptr =>
      have low : Reg.TILE_LQn_PTR t.val q.val < regSpace := by
        unfold Reg.TILE_LQn_PTR regSpace
        omega
      exact (congrArg (bits · 30 16) (arrived.regs _ low)).trans (Mach.rf_landRow_wptr (m := Safety.mach s) hq r.data)
    case row =>
      exact (bytes _).trans (by rw [if_pos (by omega), Nat.add_sub_cancel_left])
    case others =>
      exact (bytes x).trans (if_neg (by omega))

end Machine
end Sys2Proof
end

section
/-!
PROOFS. The commands that clear the counters of the fabric (O6).
-/
namespace Sys2Proof
namespace Machine

/-- The registers that a command clears read zero, and nothing else of the state changes. -/
theorem clears_of_exec_clearRegs {c : Instr} {as : List Nat} (h : ∀ s, exec c s = runDev (fun _ d => d.clearRegs as) s) :
    Safety.clears c as := by
  intro s
  refine ⟨{ s with dev := s.dev.clearRegs as }, h s, fun a listed => ?zero, ?frame, fun a unlisted => ?other⟩
  case zero => rw [Dev.reg_clearRegs, if_pos listed]
  case frame => exact congrArg (fun d => ({ s with dev := d } : State)) (s.dev.clearRegs_frame as)
  case other => rw [Dev.reg_clearRegs, if_neg unlisted]

/-- Settles O6: each command clears the registers of its list, which is the list that the statement names. -/
theorem fabricCountersClear : Obligations.FabricCountersClear := by
  unfold Obligations.FabricCountersClear
  refine ⟨fun t => ?arrays, fun t => ?memories, fun r => ?ridge, fun t => ?runAhead, fun t => ?conversions, ?events,
    ?arbiters, ?scheduler, ?tarn, ?col, ?hbm, ?flash, ?ingest⟩
  case arrays => exact clears_of_exec_clearRegs (as := arrCounters t.val) fun _ => rfl
  case memories => exact clears_of_exec_clearRegs (as := memCounters t.val) fun _ => rfl
  case ridge => exact clears_of_exec_clearRegs (as := rdgCounters r.val) fun _ => rfl
  case runAhead => exact clears_of_exec_clearRegs (as := specCounters t.val) fun _ => rfl
  case conversions => exact clears_of_exec_clearRegs (as := convCounters t.val) fun _ => rfl
  case events => exact clears_of_exec_clearRegs (as := ndCounters) fun _ => rfl
  case arbiters => exact clears_of_exec_clearRegs (as := arbCounters) fun _ => rfl
  case scheduler => exact clears_of_exec_clearRegs (as := schCounters) fun _ => rfl
  case tarn => exact clears_of_exec_clearRegs (as := trnCounters) fun _ => rfl
  case col => exact clears_of_exec_clearRegs (as := colCounters) fun _ => rfl
  case hbm => exact clears_of_exec_clearRegs (as := hbmCounters) fun _ => rfl
  case flash => exact clears_of_exec_clearRegs (as := flCounters) fun _ => rfl
  case ingest => exact clears_of_exec_clearRegs (as := ingCounters) fun _ => rfl

end Machine
end Sys2Proof
end

section
/-!
PROOFS. Loads, passes and the swap of the matrix arrays (O39).
-/
namespace Sys2Proof
namespace Machine

/-! ### What the issue of an entry leaves of its list (R186, R189) -/

/-- A command that issues the entry at the front of a list does what that entry does. -/
theorem gives_of_issue {c : Instr} {s : State} {k i e : Nat} {l : ListSt} {st : StepSt} (h : Safety.issues s k l st i e)
    {want : Nat → Bool} {f : Mach → Iss → Mach} (hc : exec c s = run (fun m => m.issue k want f) s) (hw : want e = true) :
    Safety.gives c s ((f (Safety.issued s k l) (Safety.iss k l st i e)).checkBad k) := by
  rw [Safety.gives, hc, run_eq, Mach.issue_eq h want hw f]
  rfl

@[simp] theorem Mach.tileUpsets_nil (m : Mach) (t : Nat) : m.tileUpsets t [] = m := rfl

section Issued
variable {s : State} {k i e : Nat} {l : ListSt} {st : StepSt}

/-- A list that has met no error since its entry was taken has been read without error. -/
theorem checkBad_of_taken (h : Safety.issues s k l st i e) {m : Mach}
    (taken : (m.dev.list k).map ListSt.bad = some l.take.bad) : m.checkBad k = m := by
  obtain ⟨-, -, -, good⟩ := running_spec h
  refine Mach.checkBad_good fun l' hl' => ?_
  rw [hl'] at taken
  exact (Option.some.inj taken).trans (l.take_bad.trans good)

theorem issued_bad : ((Safety.issued s k l).dev.list k).map ListSt.bad = some l.take.bad :=
  congrArg (Option.map ListSt.bad) (Dev.list_setList_same s.dev k l.take)

theorem issued_fly_bad :
    (((Safety.issued s k l).fly (Safety.iss k l st i e)).dev.list k).map ListSt.bad = some l.take.bad := by
  rw [Mach.fly, Mach.mod_dev, Safety.iss, Dev.list_modList_same, Option.map_map]
  exact issued_bad

end Issued

/-! ### A load and a pass issued (R171, R173, R175) -/

theorem exec_sload {t : Fin 96} {i e : Nat} {l : ListSt} {st : StepSt} {s : State} (wait stall : Nat)
    (h : Safety.issues s t.val l st i e) (kind : Ent.kind e = K.SLOAD) : Safety.gives (.sload t wait stall []) s
      ((((((Safety.issued s t.val l).mod (fun d =>
          (d.cnt (Reg.TILE_WR_CNT_k t.val 2) wait).arrCnt t.val (d.carrier t.val (Ent.array e)) 3 stall)).fly
        (Safety.iss t.val l st i e)).addLoad t.val (Ent.array e)
          ⟨i, false, (Safety.issued s t.val l).loadFill (Safety.iss t.val l st i e), Sload.row e, Sload.sfmt e, Sload.sscale e,
            Sload.dual e⟩).kickLoad l.loop t.val (Ent.array e)).checkBad t.val) := by
  have loaded := gives_of_issue (c := .sload t wait stall []) h rfl (isKind_of_kind kind)
  exact loaded

/-- A pass that clears the tallies, or accumulates with the WIN that they have, opens on its array. -/
theorem Mach.openPass_pass {m : Mach} {i : Iss} (kind : Ent.kind i.word = K.PASS)
    (win : Pass.acc i.word = false ∨ (m.dev.larr i.key (Ent.array i.word)).win = none
      ∨ (m.dev.larr i.key (Ent.array i.word)).win = some (Pass.win i.word)) :
    m.openPass i = (m.fly i).mod (fun d =>
      (d.modLarr i.key (Ent.array i.word) (fun x => { x with pass := some { entry := i.idx, word := i.word } })).modParr i.key
        (d.carrier i.key (Ent.array i.word)) PhysArray.wake) := by
  have noTap : (Ent.kind i.word != K.PASS) = false := bne_eq_false_iff_eq.mpr kind
  have sameWin : (Pass.acc i.word && (m.dev.larr i.key (Ent.array i.word)).win.isSome
      && (m.dev.larr i.key (Ent.array i.word)).win != some (Pass.win i.word)) = false := by
    obtain clears | unset | same := win
    · rw [clears]; rfl
    · rw [unset, Option.isSome_none, Bool.and_false, Bool.false_and]
    · rw [same, bne_self_eq_false, Bool.and_false]
  simp only [Mach.openPass, noTap, sameWin, Bool.false_and, Bool.false_eq_true, if_false]

theorem exec_pass {t : Fin 96} {i e : Nat} {l : ListSt} {st : StepSt} {s : State} (h : Safety.issues s t.val l st i e)
    (kind : Ent.kind e = K.PASS) (win : Pass.acc e = false ∨ (s.dev.larr t.val (Ent.array e)).win = none
      ∨ (s.dev.larr t.val (Ent.array e)).win = some (Pass.win e)) : Safety.gives (.pass t) s
        (((Safety.issued s t.val l).fly (Safety.iss t.val l st i e)).mod (fun d =>
          (d.modLarr t.val (Ent.array e) (fun x => { x with pass := some { entry := i, word := e } })).modParr t.val
            (d.carrier t.val (Ent.array e)) PhysArray.wake)) := by
  have opened := gives_of_issue (c := .pass t) h rfl (isKind_of_kind kind) (f := Mach.openPass)
  rwa [Mach.openPass_pass (m := Safety.issued s t.val l) (i := Safety.iss t.val l st i e) kind win,
    checkBad_of_taken h] at opened
  exact issued_fly_bad

/-! ### A row slot of a pass (R97, R98, R104) -/

@[simp] theorem Block.upset_nil (b : Block) : b.upset [] = b := rfl

@[simp] theorem Dev.arrCnt_zero (d : Dev) (t p k : Nat) : d.arrCnt t p k 0 = d := rfl

/-- A change made under a condition, or none. -/
theorem Mach.mod_ite (m : Mach) (c : Prop) [Decidable c] (f : Dev → Dev) :
    m.mod (fun d => if c then f d else d) = if c then m.mod f else m := by
  split <;> rfl

/-- A logical array with no load to make makes none. -/
theorem Mach.kickLoad_noLoads {m : Mach} {t l : Nat} (n : Nat) (noLoads : (m.dev.larr t l).loads = []) : m.kickLoad n t l = m := by
  simp only [Mach.kickLoad, noLoads]
  cases (m.dev.larr t l).back <;> rfl

/-- The front block as an entry uses it: a tap pass has no stationary scales (log 60). -/
def Block.usedBy (b : Block) (e : Nat) : Block := if Ent.kind e = K.PASS then b else b.scalesOff

/-- The checks of the 64 columns and of the checksum column over the data rows that a pass has sent (R104). -/
def LogArray.rowChecks (x : LogArray) (p : PassSt) (b : Block) : List (Tally × Bool) :=
  (List.range 65).map (rowCheckOf (b.usedBy p.word) p.rows (Pass.rfmt p.word) (Pass.scaled p.word) (x.win.getD 0))

/-- The array after one data row of its pass: the row in the tallies, in the checksum column and among the rows sent. -/
def LogArray.takeRow (x : LogArray) (p : PassSt) (b : Block) (w : Int) (r : RowIn) : LogArray :=
  { x with
    tallies := rowIntoTallies x.tallies (b.usedBy p.word) r (Pass.rfmt p.word) (Pass.scaled p.word) w []
    pass := x.pass.map (fun q => { q with
      sent := p.sent + 1
      rows := p.rows ++ [r]
      chk := if Ent.kind p.word = K.DTAP then p.chk
        else rowIntoCheck p.chk (b.usedBy p.word) r (Pass.rfmt p.word) (Pass.scaled p.word) w }) }

/-- A row of an open pass that has begun may enter, and no load of its array stands before it. -/
structure Mach.RowEnters (m : Mach) (t l : Nat) (p : PassSt) (b : Block) : Prop where
  pass : (m.dev.larr t l).pass = some p
  front : (m.dev.larr t l).front = some b
  noLoads : (m.dev.larr t l).loads = []
  enters : m.mayEnter t l p = true
  started : p.started = true

section RowSlot
variable {m : Mach} {n t l : Nat} {st : StepSt} {p : PassSt} {b : Block}

/-- After the last data row and the checksum row comes the end of the pass. -/
theorem Mach.rowSlot_checksum (h : m.RowEnters t l p b) (phase : p.phase = .checksum) : m.rowSlot n t l st false [] =
    m.mod (fun d => d.modLarr t l (fun x => { x with pass := some { p with phase := .ended } })) := by
  obtain ⟨pass, front, noLoads, enters, started⟩ := h
  simp only [Mach.rowSlot, pass, front, enters, started, phase, Mach.kickLoad_noLoads n noLoads, Bool.not_true,
    Bool.false_eq_true, if_false, if_true]

/-- A bubble counts, and nothing else. -/
theorem Mach.rowSlot_bubble (h : m.RowEnters t l p b) (phase : p.phase = .rows) (more : p.sent < p.rowsOf) :
    m.rowSlot n t l st true [] = m.mod (fun d => d.arrCnt t (d.carrier t l) 2 1) := by
  obtain ⟨pass, front, noLoads, enters, started⟩ := h
  simp only [Mach.rowSlot, pass, front, enters, started, phase, Mach.kickLoad_noLoads n noLoads, ge_iff_le,
    Nat.not_le.mpr more, Bool.not_true, Bool.false_eq_true, if_false, if_true]

/-- Once all data rows have been sent the checksum row follows, with the checks of the rows. -/
theorem Mach.rowSlot_allSent (h : m.RowEnters t l p b) (phase : p.phase = .rows) (all : p.rowsOf ≤ p.sent) :
    m.rowSlot n t l st false [] = m.mod (fun d => d.modLarr t l (fun x => { x with pass := some { p with
      phase := .checksum
      rowChk := ((m.dev.larr t l).rowChecks p b).map (·.1)
      rowRange := ((m.dev.larr t l).rowChecks p b).any (·.2) } })) := by
  obtain ⟨pass, front, noLoads, enters, started⟩ := h
  simp only [Mach.rowSlot, pass, front, enters, started, phase, Mach.kickLoad_noLoads n noLoads, ge_iff_le, all,
    Bool.not_true, Bool.false_eq_true, if_false, if_true, Block.upset_nil]
  rfl

/-- A data row joins the rows sent, and a row of a landing queue has been read (R141). -/
theorem Mach.rowSlot_dataRow {m' : Mach} {r : RowIn} (h : m.RowEnters t l p b) (phase : p.phase = .rows)
    (more : p.sent < p.rowsOf) (row : m.nextRow n t l st p = (m', some (some r))) : m.rowSlot n t l st false [] =
      (m'.mod (fun d => d.modLarr t l (fun x => x.takeRow p b ((m.dev.larr t l).win.getD 0) r))).mod (fun d =>
        if Ent.kind p.word == K.PASS && Pass.rsrc p.word then
          d.setRead t (Pass.queue p.word) (p.sent / rowsPer (Pass.rfmt p.word) + 1) else d) := by
  obtain ⟨pass, front, noLoads, enters, started⟩ := h
  simp only [Mach.rowSlot, pass, front, enters, started, phase, Mach.kickLoad_noLoads n noLoads, ge_iff_le,
    Nat.not_le.mpr more, Bool.not_true, Bool.false_eq_true, if_false, if_true, row, Block.upset_nil]
  exact (Mach.mod_ite _ _ _).symm

end RowSlot

/-- The slot of a row that may enter, without stall, upset or error. -/
theorem exec_arrayRow {t : Fin 96} {a : Fin 4} {n : Nat} {st : StepSt} {p : PassSt} {b : Block} {s : State} {bubble : Bool}
    {m : Mach} (runs : s.dev.stepOn t.val = some (n, st)) (h : (Safety.mach s).RowEnters t.val a.val p b)
    (slot : (Safety.mach s).rowSlot n t.val a.val st bubble [] = m) : Safety.gives (.arrayRow t a bubble 0 [] []) s m := by
  subst slot
  have pass : (s.dev.larr t.val a.val).pass = some p := h.pass
  have enters : Mach.mayEnter ⟨s.mem, [], s.dev⟩ t.val a.val p = true := h.enters
  have hd : exec (.arrayRow t a bubble 0 [] []) s = execArrayRow t a bubble 0 [] [] s := rfl
  rw [Safety.gives, hd, execArrayRow, run_eq]
  simp only [Mach.tileUpsets_nil, runs, pass, enters, Bool.not_true, Bool.false_eq_true, if_false, Dev.arrCnt_zero]
  rfl

/-! ### The swap (R93, R95) -/

/-- The logical array whose turn it is on a physical array runs there. -/
theorem Mach.runsOn_of_turn {m : Mach} {t p a : Nat} (h : m.turn t p = some a) : m.dev.runsOn t a = some p := by
  unfold Mach.turn at h
  split at h
  · cases h
  next l _ =>
    obtain ⟨f, -, hf⟩ := List.exists_of_findSome?_eq_some h
    split at hf
    next k _ =>
      split at hf
      next turn =>
        cases hf
        exact beq_iff_eq.mp (Bool.and_eq_true_iff.mp turn).2
      · cases hf
    · cases hf

theorem exec_swapFrontBack {t : Fin 96} {p : Fin 4} {n a : Nat} {st : StepSt} {q : PassSt} {s : State}
    (runs : s.dev.stepOn t.val = some (n, st)) (turn : (Safety.mach s).turn t.val p.val = some a)
    (pass : (s.dev.larr t.val a).pass = some q) (ready : (s.dev.larr t.val a).swapReady = true) :
    Safety.gives (.swapFrontBack t p) s (((Safety.mach s).mod (fun d => d.modLarr t.val a (fun x => { x with
      front := x.back
      parity := q.parity
      back := none }))).kickLoad n t.val a) := by
  have placed : s.dev.runsOn t.val a = some p.val := Mach.runsOn_of_turn turn
  have hd : exec (.swapFrontBack t p) s = execSwapFrontBack t p s := rfl
  unfold Safety.mach at turn
  rw [Safety.gives, hd, execSwapFrontBack, run_eq]
  simp only [runs, turn, Mach.swapNow, pass, ready, placed, Option.isSome_some, Bool.and_self, if_true]
  rfl

/-- Settles O39: the entries by their issue, the row slot by the phase of its pass, the swap by the turn of its array. -/
theorem loadsPassesAndSwaps : Obligations.LoadsPassesAndSwaps := by
  unfold Obligations.LoadsPassesAndSwaps
  refine ⟨fun t wait stall i e l st s h kind => exec_sload wait stall h kind, fun t i e l st s h kind win => exec_pass h kind win,
    ?row, fun t p n a st q s runs turn pass ready => exec_swapFrontBack runs turn pass ready⟩
  intro t a n st p b s runs pass front noLoads enters started
  have slot : (Safety.mach s).RowEnters t.val a.val p b := ⟨pass, front, noLoads, enters, started⟩
  refine ⟨fun phase => exec_arrayRow runs slot (Mach.rowSlot_checksum slot phase),
    fun phase more => exec_arrayRow runs slot (Mach.rowSlot_bubble slot phase more), fun f used phase all => ?allSent,
    fun m r f used phase more next => ?dataRow⟩
  case allSent =>
    subst used
    exact exec_arrayRow runs slot (Mach.rowSlot_allSent slot phase all)
  case dataRow =>
    subst used
    exact exec_arrayRow runs slot (Mach.rowSlot_dataRow slot phase more next)

end Machine
end Sys2Proof
end

section
/-!
PROOFS. Commits, drains and the activity ramp of the matrix arrays (O40).
-/
namespace Sys2Proof
namespace Machine

/-! ### The compare (R105 to R107, R113) -/

/-- What the comparison beat finds for the open pass of a logical array. -/
def LogArray.verdict (x : LogArray) (p : PassSt) (b : Block) : Verdict :=
  compare (Ent.kind p.word == K.DTAP) (b.usedBy p.word) p.base x.tallies p.chk (p.rowChk.map (fun y => (y, p.rowRange))) p.sent

/-- The pass of a logical array has ended, and nothing holds its comparison back. -/
structure Mach.Compares (m : Mach) (t l : Nat) (p : PassSt) (b : Block) : Prop where
  pass : (m.dev.larr t l).pass = some p
  front : (m.dev.larr t l).front = some b
  ended : p.phase = .ended
  placed : (m.dev.runsOn t l).isSome = true
  noTaps : m.tapsBefore t p = false

section Compare
variable {m : Mach} {n t l : Nat} {st : StepSt} {p : PassSt} {b : Block}

/-- The fault F0 of a compare that fails, with its entry and its logical and physical array, and its count (R106). -/
def Dev.failedOnce (d : Dev) (n t l p entry : Nat) : Dev :=
  (d.raiseFor n 0 Src.TILE 0x0002 t (entry + l * 2 ^ 32 + p * 2 ^ 34)).arrCnt t p 4 1

theorem Mach.comparePass_failedOnce (h : m.Compares t l p b) (v : (m.dev.larr t l).verdict p b = .failed)
    (first : p.rerun = false) :
    m.comparePass n t l st = (m.mod (fun d => d.failedOnce n t l (m.dev.carrier t l) p.entry)).restartPass t l p true := by
  obtain ⟨pass, front, ended, placed, noTaps⟩ := h
  unfold LogArray.verdict Block.usedBy at v
  simp only [Mach.comparePass, pass, front, ended, Option.isNone_eq_false_iff.mpr placed, noTaps, v, first, bne_self_eq_false,
    Bool.or_self, Bool.not_false, Bool.false_eq_true, if_false, if_true, Dev.failedOnce]

theorem Mach.comparePass_failedAgain (h : m.Compares t l p b) (v : (m.dev.larr t l).verdict p b = .failed)
    (again : p.rerun = true) :
    m.comparePass n t l st = ((m.mod (fun d => d.retire n t (m.dev.carrier t l) 1 p.entry)).restartPass t l p false).noArray
      n t := by
  obtain ⟨pass, front, ended, placed, noTaps⟩ := h
  unfold LogArray.verdict Block.usedBy at v
  simp only [Mach.comparePass, pass, front, ended, Option.isNone_eq_false_iff.mpr placed, noTaps, v, again, bne_self_eq_false,
    Bool.or_self, Bool.not_true, Bool.false_eq_true, if_false]

theorem Mach.comparePass_passed (h : m.Compares t l p b) (v : (m.dev.larr t l).verdict p b ≠ .failed) :
    m.comparePass n t l st = m.commitPass n t l st p ((m.dev.larr t l).verdict p b) := by
  obtain ⟨pass, front, ended, placed, noTaps⟩ := h
  simp only [Mach.comparePass, pass, front, ended, Option.isNone_eq_false_iff.mpr placed, noTaps, bne_self_eq_false,
    Bool.or_self, Bool.false_eq_true, if_false]
  unfold LogArray.verdict Block.usedBy at v ⊢
  generalize compare _ _ _ _ _ _ _ = verdict at v ⊢
  cases verdict with
  | failed => exact absurd rfl v
  | exact | lossy | unchecked => rfl

end Compare

/-- The comparison beat of a running step, without upsets. -/
theorem exec_passCompare {t : Fin 96} {a : Fin 4} {n : Nat} {st : StepSt} {s : State} {m : Mach}
    (runs : s.dev.stepOn t.val = some (n, st)) (compared : (Safety.mach s).comparePass n t.val a.val st = m) :
    Safety.gives (.passCompare t a []) s m := by
  subst compared
  have hd : exec (.passCompare t a []) s = execPassCompare t a [] s := rfl
  rw [Safety.gives, hd, execPassCompare, run_eq]
  simp only [Mach.tileUpsets_nil, runs]
  rfl

/-- A count by one or more is exact in every state, whatever its register held: the sum stays below 2^32. -/
theorem Dev.reg_cnt_pos (d : Dev) (a : Nat) {n : Nat} (h : n ≠ 0) : (d.cnt a n).reg a = satAdd 32 (d.reg a) n := by
  rw [Dev.cnt, if_neg h, Dev.reg_setReg_same]
  unfold satAdd
  omega

/-! ### A drain (R108 to R110) -/

/-- Where a drain writes the codes of its columns (R109). -/
def drainAddr (t e : Nat) : Nat := if Drain.ps e then psAddr t (Drain.drow e) else amAddr t (Drain.drow e)

/-- The bytes of a drain's columns, in memory order. -/
def drainBytes (e : Nat) (cols : List (Nat × Nat)) : List Byte := cols.flatMap (fun c => leBytes (outBytes (Drain.ofmt e)) c.1)

/-- The machine once the codes of a drain have been written: its slot is free again, and its statuses are stored and are
in DFLAGS. -/
def Mach.drained (m : Mach) (t p e : Nat) (cols : List (Nat × Nat)) : Mach :=
  (if Drain.sten e then (m.mod (fun d => d.freeSlot t p)).store (amAddr t (Drain.strow e)) (cols.map (fun c => BitVec.ofNat 8 c.2))
    else m.mod (fun d => d.freeSlot t p)).mod (fun d =>
      d.wf (Reg.TILE_ARRn_STAT t p) Fld.TILE_ARRn_STAT.DFLAGS
        (cols.foldl (fun v c => v ||| c.2) (d.rf (Reg.TILE_ARRn_STAT t p) Fld.TILE_ARRn_STAT.DFLAGS)))

/-- The machine as a drain writes its codes: the columns stand in a slot of the drain buffer. -/
def Mach.captured (m : Mach) (t p stall : Nat) (cols : List (Nat × Nat)) : Mach :=
  m.mod (fun d => (d.arrCnt t p 3 stall).capture t p cols)

theorem Mach.captured_lists (m : Mach) (t p stall : Nat) (cols : List (Nat × Nat)) :
    (m.captured t p stall cols).dev.lists = m.dev.lists := by
  have counted := congrArg Dev.lists (m.dev.cnt_frame (Reg.TILE_ARRn_CNT_k t p 3) stall)
  exact counted

theorem Mach.captured_flash (m : Mach) (t p stall : Nat) (cols : List (Nat × Nat)) :
    (m.captured t p stall cols).dev.flash = m.dev.flash := by
  have counted := congrArg Dev.flash (m.dev.cnt_frame (Reg.TILE_ARRn_CNT_k t p 3) stall)
  exact counted

/-- The machine after a drain that does not accumulate: it stores its columns at its row, then its statuses. -/
def Mach.drainedPlain (m : Mach) (t p e stall : Nat) (cols : List (Nat × Nat)) : Mach :=
  ((m.captured t p stall cols).store (drainAddr t e) (drainBytes e cols)).drained t p e cols

section Drain
variable {t : Fin 96} {stall i e : Nat} {l : ListSt} {st : StepSt} {cols : List (Nat × Nat)} {m : Mach} {s : State}

theorem exec_drain (h : Safety.issues s t.val l st i e) (kind : Ent.kind e = K.DRAIN)
    (hcols : cols = drainCols (s.dev.larr t.val (Ent.array e)) e)
    (written : ((Safety.issued s t.val l).captured t.val (s.dev.carrier t.val (Ent.array e)) stall cols).drainWrite
      (Safety.iss t.val l st i e) (cols.map (·.1)) = (m, true)) : Safety.gives (.drain t stall []) s
        ((m.drained t.val (s.dev.carrier t.val (Ent.array e)) e cols).checkBad t.val) := by
  subst hcols
  have drained := gives_of_issue (c := .drain t stall []) h rfl (isKind_of_kind kind)
  have sameCarrier : (Safety.issued s t.val l).dev.carrier = s.dev.carrier := rfl
  have sameArray : (Safety.issued s t.val l).dev.larr = s.dev.larr := rfl
  have sameWord : (Safety.iss t.val l st i e).word = e := rfl
  unfold Mach.captured at written
  simp only [sameCarrier, sameArray, sameWord, written] at drained
  exact drained

/-- After a drain whose codes were written without a change of the lists, its list has been read without error. -/
theorem checkBad_drained (h : Safety.issues s t.val l st i e) {p : Nat}
    (same : m.dev.lists = (Safety.issued s t.val l).dev.lists) :
    (m.drained t.val p e cols).checkBad t.val = m.drained t.val p e cols := by
  have drained : (m.drained t.val p e cols).dev.lists = m.dev.lists := by
    unfold Mach.drained
    split <;> rfl
  refine checkBad_of_taken h ?_
  rw [Dev.list, drained, same]
  exact issued_bad

/-- A drain that does not accumulate writes its codes at its row. -/
theorem Mach.drainWrite_plain (plain : Drain.acc e = false) : m.drainWrite (Safety.iss t.val l st i e) (cols.map (·.1)) =
    (m.store (drainAddr t.val e) (drainBytes e cols), true) := by
  have acc : Drain.acc (Safety.iss t.val l st i e).word = false := plain
  rw [Mach.drainWrite, drainBytes, ← List.flatMap_map (fun c : Nat × Nat => c.1)]
  simp only [acc, Bool.false_eq_true, if_false]
  rfl

theorem exec_drain_plain (h : Safety.issues s t.val l st i e) (kind : Ent.kind e = K.DRAIN) (plain : Drain.acc e = false)
    (hcols : cols = drainCols (s.dev.larr t.val (Ent.array e)) e) : Safety.gives (.drain t stall []) s
      ((Safety.issued s t.val l).drainedPlain t.val (s.dev.carrier t.val (Ent.array e)) e stall cols) := by
  have drained := exec_drain h kind hcols (stall := stall) (Mach.drainWrite_plain plain)
  rwa [checkBad_drained h] at drained
  exact (Safety.issued s t.val l).captured_lists _ _ stall cols

end Drain

/-! ### The bytes that a drain stores (R109, R110, R123) -/

/-- The bytes stored read back, and every other byte as before. -/
theorem Memory.read_store {base : Memory} {m : Mach} (ok : base.wf = true) (plain : m.dev.flash.flipped = []) (a : Nat)
    (bs : List Byte) (x : Nat) : Memory.read (Memory.writeLog base (m.store a bs).log) x
      = if a ≤ x ∧ x < a + bs.length then bs.getD (x - a) 0 else Memory.read (Memory.writeLog base m.log) x := by
  rw [Mach.store_log_plain plain]
  exact Memory.read_stored ok m.log a bs x

/-- A drain that does not accumulate changes the bytes at its row, its statuses' row, and no other byte. -/
theorem Memory.read_drainedPlain {base : Memory} {m : Mach} {t e x : Nat} {cols : List (Nat × Nat)} (p stall : Nat)
    (ok : base.wf = true) (plain : m.dev.flash.flipped = []) (noStatus : Drain.sten e = false
      ∨ x < amAddr t (Drain.strow e) ∨ amAddr t (Drain.strow e) + cols.length ≤ x) :
    Memory.read (Memory.writeLog base (m.drainedPlain t p e stall cols).log) x
      = if drainAddr t e ≤ x ∧ x < drainAddr t e + (drainBytes e cols).length then
          (drainBytes e cols).getD (x - drainAddr t e) 0
        else Memory.read (Memory.writeLog base m.log) x := by
  have captured : (m.captured t p stall cols).dev.flash.flipped = [] :=
    (congrArg FlashSt.flipped (m.captured_flash t p stall cols)).trans plain
  have columns := Memory.read_store ok captured (drainAddr t e) (drainBytes e cols) x
  rw [Mach.drainedPlain, Mach.drained]
  split
  next stored =>
    have apart := noStatus.resolve_left (ne_false_of_eq_true stored)
    have statuses := Memory.read_store
      (m := ((m.captured t p stall cols).store (drainAddr t e) (drainBytes e cols)).mod (fun d => d.freeSlot t p)) ok captured
      (amAddr t (Drain.strow e)) (cols.map (fun c => BitVec.ofNat 8 c.2)) x
    rw [List.length_map, if_neg (by omega)] at statuses
    exact statuses.trans columns
  next => exact columns

/-! ### The move of a logical array, and the ramp (R114, R117, R118) -/

/-- A tile without a running step has no array left to move. -/
theorem exec_arrayRemap_idle {t : Fin 96} {s : State} (idle : s.dev.stepOn t.val = none) :
    Safety.givesDev (.arrayRemap t) s (s.dev.modTile t.val (fun x => { x with remap := [] })) := by
  have hd : exec (.arrayRemap t) s = execArrayRemap t s := rfl
  rw [Safety.givesDev, hd, execArrayRemap, run_eq]
  simp only [idle]
  rfl

/-- Where no array has to move, nothing changes. -/
theorem exec_arrayRemap_settled {t : Fin 96} {n : Nat} {st : StepSt} {s : State} (runs : s.dev.stepOn t.val = some (n, st))
    (settled : (s.dev.tile t.val).remap = []) : Safety.givesDev (.arrayRemap t) s s.dev := by
  have hd : exec (.arrayRemap t) s = execArrayRemap t s := rfl
  rw [Safety.givesDev, hd, execArrayRemap, run_eq]
  simp only [runs, settled]
  rfl

/-- The loop of the step that runs on a tile is the tile's. -/
theorem Dev.tileLoop_of_stepOn {d : Dev} {t n : Nat} {st : StepSt} (h : d.stepOn t = some (n, st)) : d.tileLoop t = some n := by
  unfold Dev.stepOn at h
  split at h
  · cases h
  next k hk =>
    obtain ⟨st', -, hs⟩ := Option.bind_eq_some_iff.mp h
    split at hs
    · cases hs
      exact hk
    · cases hs

/-- The one array that has to move does so once no pass stands before it on its new physical array. -/
theorem exec_arrayRemap_one {t : Fin 96} {n k o : Nat} {st : StepSt} {s : State} (runs : s.dev.stepOn t.val = some (n, st))
    (moves : (s.dev.tile t.val).remap = [(k, o)]) (waits : s.dev.runsOn t.val k = none)
    (free : ∀ j, j < 4 → j ≠ k → s.dev.runsOn t.val j = some (s.dev.physOf t.val k) → (s.dev.larr t.val j).pass = none) :
    Safety.gives (.arrayRemap t) s ((Safety.mach s).moveLarr n t.val k) := by
  have hd : exec (.arrayRemap t) s = execArrayRemap t s := rfl
  have notBusy : (List.range 4).any (fun j => j != k && s.dev.runsOn t.val j == some (s.dev.physOf t.val k)
      && (s.dev.larr t.val j).pass.isSome) = false := by
    rw [List.any_eq_false]
    intro j hj busy
    obtain ⟨other, opened⟩ := Bool.and_eq_true_iff.mp busy
    obtain ⟨ne, there⟩ := Bool.and_eq_true_iff.mp other
    rw [free j (List.mem_range.mp hj) (bne_iff_ne.mp ne) (beq_iff_eq.mp there)] at opened
    cases opened
  have ownStep : (s.dev.tileLoop t.val != some n) = false := bne_eq_false_iff_eq.mpr (Dev.tileLoop_of_stepOn runs)
  rw [Safety.gives, hd, execArrayRemap, run_eq]
  simp only [runs, moves, List.foldl_cons, List.foldl_nil, notBusy, waits, ownStep, Option.isSome_none, Bool.or_self,
    Bool.false_eq_true, if_false]
  rfl

/-- An array with no pass open starts to ramp down, or is idle at once where it was not yet awake. -/
theorem exec_arrayIdle {t : Fin 96} {p : Fin 4} {s : State} (quiet : s.dev.passOn t.val p.val = false) :
    Safety.givesDev (.arrayIdle t p) s (s.dev.modParr t.val p.val (fun x =>
      if x.ramp = .active ∨ x.ramp = .up then { x with ramp := if x.awake = 0 then .idle else .down } else x)) := by
  have hd : exec (.arrayIdle t p) s = execArrayIdle t p s := rfl
  rw [Safety.givesDev, hd, execArrayIdle, runDev_eq]
  simp only [quiet, Bool.false_eq_true, if_false]
  congr 3
  funext x
  obtain ⟨ramp, awake, drain⟩ := x
  cases ramp with
  | active | up => simp only [reduceCtorEq, or_true, true_or, if_true]; split <;> rfl
  | idle | down => rfl

/-- Settles O40: the comparison beat by its verdict, the drain by what it stores, the moves by the arrays that wait for one,
the ramp by its states. -/
theorem commitsDrainsAndRamps : Obligations.CommitsDrainsAndRamps := by
  unfold Obligations.CommitsDrainsAndRamps
  refine ⟨?compare, ?bytes, ?drain, fun t n k o st s runs moves waits free => exec_arrayRemap_one runs moves waits free,
    fun t s idle => ⟨_, exec_arrayRemap_idle idle, ⟨rfl, rfl⟩, ?cleared⟩,
    fun t n st s runs settled => exec_arrayRemap_settled runs settled, fun t p s => rfl, fun t p s quiet => exec_arrayIdle quiet⟩
  case compare =>
    intro t a n st p b s runs pass front ended placed noTaps v hv
    have beat : (Safety.mach s).Compares t.val a.val p b := ⟨pass, front, ended, placed, noTaps⟩
    have verdict : ((Safety.mach s).dev.larr t.val a.val).verdict p b = v := hv
    refine ⟨fun failed first => ⟨(Safety.mach s).mod (fun d =>
      d.failedOnce n t.val a.val (s.dev.carrier t.val a.val) p.entry), ?once, rfl, ?count⟩, fun failed again => ?again,
      fun passed => ?passed⟩
    case once => exact exec_passCompare runs (Mach.comparePass_failedOnce beat (verdict.trans failed) first)
    case count => exact Dev.reg_cnt_pos _ _ Nat.one_ne_zero
    case again => exact exec_passCompare runs (Mach.comparePass_failedAgain beat (verdict.trans failed) again)
    case passed =>
      subst verdict
      exact exec_passCompare runs (Mach.comparePass_passed beat passed)
  case bytes =>
    intro t stall i e l st s ok h flipped kind plain
    generalize hcols : drainCols (s.dev.larr t.val (Ent.array e)) e = cols
    have bytes := fun x => Memory.read_drainedPlain (m := Safety.issued s t.val l) (t := t.val) (e := e) (x := x) (cols := cols)
      (s.dev.carrier t.val (Ent.array e)) stall ok flipped
    refine ⟨_, exec_drain_plain h kind plain hcols.symm, fun x outside noStatus => ?others, fun noStatus k hk => ?columns⟩
    case others =>
      have apart : x < drainAddr t.val e ∨ drainAddr t.val e + (drainBytes e cols).length ≤ x := outside
      exact (bytes x noStatus).trans (if_neg (by omega))
    case columns =>
      have column := bytes (drainAddr t.val e + k) (.inl noStatus)
      rw [if_pos ⟨Nat.le_add_right _ _, Nat.add_lt_add_left hk _⟩, Nat.add_sub_cancel_left] at column
      exact column
  case drain =>
    intro t stall i e l st cols m s h kind hcols written
    exact exec_drain h kind hcols written
  case cleared => exact congrArg TileSt.remap (Dev.tile_setTile_same _ _ _)

end Machine
end Sys2Proof
end

section
/-!
PROOFS. The weight streamer (O41).
-/
namespace Sys2Proof
namespace Machine

/-- The state of a tile after it has been changed. -/
@[simp] theorem Dev.tile_modTile_same (d : Dev) (t : Nat) (f : TileSt → TileSt) : (d.modTile t f).tile t = f (d.tile t) :=
  Dev.tile_setTile_same d t _

/-- A counter counts exactly in every state: its register holds 32 bits. -/
theorem Dev.reg_cnt (d : Dev) (a n : Nat) : (d.cnt a n).reg a = satAdd 32 (d.reg a) n := Dev.reg_cnt_same d a n (d.reg_lt a)

/-! ### Reads of a step in memory without errors (R153, R154) -/

section NoErrors
variable {m : Mach} (noUe : m.dev.ue = []) (noCe : m.dev.ce = [])
include noUe noCe

theorem Mach.tileRead_noErrors (n t entry a len : Nat) : m.tileRead n t entry a len = (m, some (m.rdBytes a len)) := by
  rw [Mach.tileRead, Mach.eccRead_noErrors noUe noCe]

theorem Mach.expertHeader_noErrors (n t : Nat) (tr : TabRec) : m.expertHeader n t tr = (m, m.experts tr, false) := by
  rw [Mach.expertHeader, Mach.eccRead_noErrors noUe noCe]

end NoErrors

/-! ### The streamer takes the weight fetch at its read pointer (R136, R185, R190, R192, R193) -/

section Taken
variable {t : Fin 96} {n i e : Nat} {st : StepSt} {s : State}

/-- A plain fetch asks for one fill, with the next number. -/
theorem exec_wfetchPlain (works : (Safety.mach s).streamerStep t.val = some (n, st))
    (head : (Safety.mach s).streamerHead t.val = some (i, e)) (plain : Wf.mode e = 0) :
    Safety.givesDev (.wfetchPlain t) s (((s.dev.skipTo t.val i).modTile t.val (fun x =>
      { x with nextFill := (s.dev.tile t.val).nextFill + 1 })).pushFill t.val
        ⟨some (s.dev.tile t.val).nextFill, st.b.bases.getD (Wf.base e) 0 + Wf.offset e, Wf.len e, Wf.uses e, none, false⟩) := by
  have hd : exec (.wfetchPlain t) s = execWfetchPlain t s := rfl
  unfold Safety.mach at works head
  rw [Safety.givesDev, hd, execWfetchPlain, runDev_eq]
  simp only [works, head, plain, ne_eq, not_true_eq_false, if_false]

/-- A speculative fetch that is not anchored is taken at once. -/
theorem exec_wfetchSpec (works : (Safety.mach s).streamerStep t.val = some (n, st))
    (head : (Safety.mach s).streamerHead t.val = some (i, e)) (spec : Wf.mode e = 1) (free : Wf.anchored e = false) :
    Safety.gives (.wfetchSpec t []) s ((Safety.mach s).takeSpec n t.val i e st) := by
  have hd : exec (.wfetchSpec t []) s = execWfetchSpec t [] s := rfl
  unfold Safety.mach at works head
  rw [Safety.gives, hd, execWfetchSpec, run_eq]
  simp only [Mach.tileUpsets_nil, works, head, spec, free, ne_eq, not_true_eq_false, Bool.false_eq_true, if_false]
  rfl

/-- An anchored speculative fetch is taken as the sequencer issues it. -/
theorem exec_wfetchSpec_anchored {l : ListSt} {st' : StepSt} (works : (Safety.mach s).streamerStep t.val = some (n, st))
    (head : (Safety.mach s).streamerHead t.val = some (i, e)) (spec : Wf.mode e = 1) (anchored : Wf.anchored e = true)
    (h : Safety.issues s t.val l st' i e) :
    Safety.gives (.wfetchSpec t []) s (((Safety.issued s t.val l).takeSpec n t.val i e st).checkBad t.val) := by
  have hd : exec (.wfetchSpec t []) s = execWfetchSpec t [] s := rfl
  have wanted : (e == e && Wf.mode e == 1) = true := by rw [beq_self_eq_true, spec]; rfl
  unfold Safety.mach at works head
  rw [Safety.gives, hd, execWfetchSpec, run_eq]
  simp only [Mach.tileUpsets_nil, works, head, spec, anchored, ne_eq, not_true_eq_false, if_false, if_true]
  rw [Mach.issue_eq h (fun w => w == e && Wf.mode w == 1) wanted]
  simp only [if_true]
  rfl

/-- Where the binding allows no run-ahead, every prediction of a speculative fetch is wasted (R192). -/
theorem Mach.takeSpec_notAllowed {m : Mach} {t idx : Nat} (forbidden : st.b.spec = false) : m.takeSpec n t idx e st
    = m.mod (fun d => (d.skipTo t idx).specCnt t 4 (Wf.nx e)) := by
  rw [Mach.takeSpec]
  simp only [forbidden, Bool.not_false, if_true]
  rfl

/-- A decision read without errors, whose numbers are valid, is resolved as the sequencer issues it. -/
theorem exec_wfetchResolve {l : ListSt} {st' : StepSt} {tr : TabRec}
    (works : (Safety.mach s).streamerStep t.val = some (n, st)) (head : (Safety.mach s).streamerHead t.val = some (i, e))
    (decision : Wf.mode e = 2) (started : (s.dev.tile t.val).fillq = []) (h : Safety.issues s t.val l st' i e)
    (noErrors : Safety.noErrors s) (table : st.b.route.tabs[Wf.xtab e]? = some tr)
    (valid : badDecision ((Safety.mach s).experts tr)
      (expertNumbers ((Safety.mach s).rdBytes (amAddr t.val (Wf.xrow e)) 64) (Wf.nx e)) [] = false) :
    Safety.gives (.wfetchResolve t []) s
      (((((Safety.issued s t.val l).mod (fun d => d.skipTo t.val i)).resolve n t.val e st tr false
        (expertNumbers ((Safety.mach s).rdBytes (amAddr t.val (Wf.xrow e)) 64) (Wf.nx e))).kickLoads t.val).checkBad t.val) := by
  obtain ⟨noUe, noCe, -, -⟩ := noErrors
  have hd : exec (.wfetchResolve t []) s = execWfetchResolve t [] s := rfl
  have row := Mach.tileRead_noErrors (m := Safety.issued s t.val l) noUe noCe n t.val i (amAddr t.val (Wf.xrow e)) 64
  have header := Mach.expertHeader_noErrors (m := (Safety.issued s t.val l).mod (fun d => d.skipTo t.val i)) noUe noCe n t.val tr
  have sameBytes : (Safety.issued s t.val l).rdBytes = (Safety.mach s).rdBytes := rfl
  have sameExperts : ((Safety.issued s t.val l).mod (fun d => d.skipTo t.val i)).experts tr = (Safety.mach s).experts tr := rfl
  unfold Safety.mach at works head
  rw [Safety.gives, hd, execWfetchResolve, run_eq]
  simp only [Mach.tileUpsets_nil, works, head, decision, started, ne_eq, not_true_eq_false, decide_false, List.isEmpty_nil,
    Bool.not_true, Bool.or_self, Bool.false_eq_true, if_false, table]
  rw [Mach.issue_eq h (fun w => w == e) (beq_self_eq_true e)]
  unfold Safety.issued at *
  simp only [row, header, sameBytes, sameExperts, valid, Bool.false_eq_true, if_false]

end Taken

/-! ### A fetch starts in a slot (R131, R136) -/

/-- Registers are no part of a tile's state. -/
@[simp] theorem Dev.tile_setReg (d : Dev) (a v t : Nat) : (d.setReg a v).tile t = d.tile t := rfl
@[simp] theorem Dev.tile_wf (d : Dev) (a : Nat) (f : Fd) (v t : Nat) : (d.wf a f v).tile t = d.tile t := rfl
@[simp] theorem Dev.tile_cnt (d : Dev) (a n t : Nat) : (d.cnt a n).tile t = d.tile t := by
  rw [Dev.cnt_frame]
  rfl

/-- The count of reads in flight changes one field of the streamer's status (log 68). -/
theorem Dev.reg_setOutstanding_ne (d : Dev) {t a : Nat} (h : a ≠ Reg.TILE_WR_STAT t) : (d.setOutstanding t).reg a = d.reg a :=
  Dev.reg_wf_ne d _ _ h

@[simp] theorem Dev.fillPtr_setOutstanding (d : Dev) (t : Nat) :
    (d.setOutstanding t).rf (Reg.TILE_WR_STAT t) Fld.TILE_WR_STAT.FILL_PTR
      = d.rf (Reg.TILE_WR_STAT t) Fld.TILE_WR_STAT.FILL_PTR := Dev.rf_wf_field d _ _

/-- The registers that the start of a fetch writes are apart. -/
theorem TILE_WR_SLOTn_ne {t sl : Nat} (inRange : sl < 6) : Reg.TILE_WR_SLOTn t sl ≠ Reg.TILE_WR_STAT t
    ∧ Reg.TILE_WR_SLOTn t sl ≠ Reg.TILE_WR_CNT_k t 1 ∧ Reg.TILE_WR_SLOTn t sl ≠ Reg.TILE_SPEC_CNT_k t 0 := by
  unfold Reg.TILE_WR_SLOTn Reg.TILE_WR_STAT Reg.TILE_WR_CNT_k Reg.TILE_SPEC_CNT_k
  omega

theorem TILE_WR_STAT_ne_counter (t : Nat) :
    Reg.TILE_WR_STAT t ≠ Reg.TILE_WR_CNT_k t 1 ∧ Reg.TILE_WR_STAT t ≠ Reg.TILE_SPEC_CNT_k t 0 := by
  unfold Reg.TILE_WR_STAT Reg.TILE_WR_CNT_k Reg.TILE_SPEC_CNT_k
  omega

theorem TILE_WR_CNT_k_ne_SPEC (t : Nat) : Reg.TILE_WR_CNT_k t 1 ≠ Reg.TILE_SPEC_CNT_k t 0 := by
  unfold Reg.TILE_WR_CNT_k Reg.TILE_SPEC_CNT_k
  omega

/-- The word of a slot in which a fetch starts: its token, and the loads of the fill that are still to come (R133). -/
def FillReq.slotWord (r : FillReq) (x : TileSt) : Nat :=
  (match r.fill with
    | some _ => Tok.FILLING
    | none => Tok.SPECULATIVE) * 2 ^ 29 + (match r.fill with
    | some f => r.uses - x.pendingLoads f
    | none => 0)

/-- A tile whose oldest request has started in a slot. -/
def TileSt.startFill (x : TileSt) (sl : Nat) (r : FillReq) (rest : List FillReq) : TileSt :=
  { x with
    fillq := rest
    slots := modAt x.slots sl (fun _ => { req := some r })
    fills := match r.fill with
      | some f => AMap.set x.fills f (.slot sl)
      | none => x.fills }

/-- The device as a request starts in a slot of tile `t`: the slot's word, the tile, the fill pointer and the counters. -/
def Dev.startFill (d : Dev) (t sl wait : Nat) (r : FillReq) (rest : List FillReq) : Dev :=
  ((((((d.setReg (Reg.TILE_WR_SLOTn t sl) (r.slotWord (d.tile t))).modTile t (fun x => x.startFill sl r rest)).wf
    (Reg.TILE_WR_STAT t) Fld.TILE_WR_STAT.FILL_PTR ((sl + 1) % 6)).cnt (Reg.TILE_WR_CNT_k t 1) wait).specCnt t 0
      (b2n r.tag.isSome))).setOutstanding t

theorem exec_streamerFillStart {t : Fin 96} {wait n sl : Nat} {st : StepSt} {r : FillReq} {rest : List FillReq} {s : State}
    (works : (Safety.mach s).streamerStep t.val = some (n, st)) (oldest : (s.dev.tile t.val).fillq = r :: rest)
    (ptr : s.dev.rf (Reg.TILE_WR_STAT t.val) Fld.TILE_WR_STAT.FILL_PTR = sl) (empty : s.dev.token t.val sl = Tok.EMPTY)
    (depth : s.dev.slotsInUse t.val < s.dev.rf (Reg.TILE_WR_STAT t.val) Fld.TILE_WR_STAT.DEPTH) :
    Safety.givesDev (.streamerFillStart t wait) s (s.dev.startFill t.val sl wait r rest) := by
  have hd : exec (.streamerFillStart t wait) s = execStreamerFillStart t wait s := rfl
  unfold Safety.mach at works
  rw [Safety.givesDev, hd, execStreamerFillStart, runDev_eq]
  simp only [works, oldest, ptr, empty, ge_iff_le, Nat.not_le.mpr depth, ne_eq, not_true_eq_false, decide_false,
    Bool.or_self, Bool.false_eq_true, if_false]
  obtain ⟨fill, addr, rows, uses, tag, bad⟩ := r
  cases fill <;> rfl

section Started
variable (d : Dev) (t sl wait : Nat) (r : FillReq) (rest : List FillReq)

theorem Dev.tile_startFill : (d.startFill t sl wait r rest).tile t = (d.tile t).startFill sl r rest := by
  rw [Dev.startFill, Dev.setOutstanding, Dev.tile_wf, Dev.specCnt, Dev.tile_cnt, Dev.tile_cnt, Dev.tile_wf,
    Dev.tile_modTile_same, Dev.tile_setReg]

theorem Dev.slotWord_startFill (inRange : sl < 6) : (d.startFill t sl wait r rest).reg (Reg.TILE_WR_SLOTn t sl)
    = r.slotWord (d.tile t) % 2 ^ 32 := by
  obtain ⟨noStat, noWait, noSpec⟩ := TILE_WR_SLOTn_ne (t := t) inRange
  rw [Dev.startFill, Dev.reg_setOutstanding_ne _ noStat, Dev.specCnt, Dev.reg_cnt_ne _ _ noSpec, Dev.reg_cnt_ne _ _ noWait,
    Dev.reg_wf_ne _ _ _ noStat, Dev.reg_modTile, Dev.reg_setReg_same]

theorem Dev.fillPtr_startFill : (d.startFill t sl wait r rest).rf (Reg.TILE_WR_STAT t) Fld.TILE_WR_STAT.FILL_PTR
    = (sl + 1) % 6 := by
  obtain ⟨noWait, noSpec⟩ := TILE_WR_STAT_ne_counter t
  have fits : (sl + 1) % 6 < 2 ^ 3 := (Nat.mod_lt _ (by decide)).trans (by decide)
  rw [Dev.startFill, Dev.fillPtr_setOutstanding, Dev.rf, Dev.specCnt, Dev.reg_cnt_ne _ _ noSpec, Dev.reg_cnt_ne _ _ noWait,
    ← Dev.rf, Dev.rf_wf_same]
  exact Nat.mod_eq_of_lt fits

theorem Dev.waitCount_startFill (inRange : sl < 6) : (d.startFill t sl wait r rest).reg (Reg.TILE_WR_CNT_k t 1)
    = satAdd 32 (d.reg (Reg.TILE_WR_CNT_k t 1)) wait := by
  obtain ⟨-, noSlot, -⟩ := TILE_WR_SLOTn_ne (t := t) inRange
  obtain ⟨noStat, -⟩ := TILE_WR_STAT_ne_counter t
  rw [Dev.startFill, Dev.reg_setOutstanding_ne _ noStat.symm, Dev.specCnt, Dev.reg_cnt_ne _ _ (TILE_WR_CNT_k_ne_SPEC t),
    Dev.reg_cnt, Dev.reg_wf_ne _ _ _ noStat.symm, Dev.reg_modTile, Dev.reg_setReg_ne _ _ noSlot.symm]

end Started

/-! ### A fetch lands, and a slot is released (R132 to R134, R354) -/

/-- The slot's request has landed, and its rows are no longer in flight. -/
def Dev.slotLanded (d : Dev) (t sl : Nat) : Dev :=
  (d.modTile t (fun y => { y with slots := modAt y.slots sl (fun z => { z with landed := true }) })).setOutstanding t

section Landed
variable {t : Fin 96} {slot : Fin 6} {n : Nat} {r : FillReq} {s : State} (loop : s.dev.tileLoop t.val = some n)
  (req : ((s.dev.tile t.val).slots.getD slot.val {}).req = some r)
  (flying : ((s.dev.tile t.val).slots.getD slot.val {}).landed = false) (goes : s.dev.fetchGoes t.val r = true)
include loop req flying goes

/-- A fetch read without errors stores its rows, and its slot becomes FULL unless it is speculative. -/
theorem exec_fetchLanded_good (noErrors : Safety.noErrors s) (good : r.bad = false) : Safety.gives (.fetchLanded t slot []) s
    ((((Safety.mach s).store (wmAddr t.val slot.val 0) ((Safety.mach s).rdBytes r.addr (64 * r.rows))).mod (fun d =>
      let e := ((d.slotLanded t.val slot.val).cnt (Reg.TILE_WR_CNT_k t.val 0) 1).fromHbm r.addr r.rows t.val
      if e.token t.val slot.val = Tok.FILLING then e.setToken t.val slot.val Tok.FULL else e)).kickLoads t.val) := by
  obtain ⟨noUe, noCe, -, -⟩ := noErrors
  have hd : exec (.fetchLanded t slot []) s = execFetchLanded t slot [] s := rfl
  have read := Mach.eccRead_noErrors (m := ⟨s.mem, [], s.dev⟩) noUe noCe r.addr (64 * r.rows) t.val n
  rw [Safety.gives, hd, execFetchLanded, run_eq]
  simp only [Mach.upsets_nil, loop, req, flying, goes, good, read, Bool.not_true, Bool.or_self, Bool.false_eq_true, if_false]
  rfl

/-- A fetch whose table could not be read makes its slot POISONED (log 74). -/
theorem exec_fetchLanded_bad (bad : r.bad = true) : Safety.gives (.fetchLanded t slot []) s
    (((Safety.mach s).mod (fun d => ((d.slotLanded t.val slot.val).setToken t.val slot.val Tok.POISONED).cnt
      (Reg.TILE_WR_CNT_k t.val 3) 1)).kickLoads t.val) := by
  have hd : exec (.fetchLanded t slot []) s = execFetchLanded t slot [] s := rfl
  rw [Safety.gives, hd, execFetchLanded, run_eq]
  simp only [Mach.upsets_nil, loop, req, flying, goes, bad, Bool.not_true, Bool.or_self, Bool.false_eq_true, if_false, if_true]
  rfl

end Landed

theorem exec_slotRelease {t : Fin 96} {slot : Fin 6} {f : Nat} {s : State}
    (fill : (s.dev.tile t.val).fillIn slot.val = some f) (full : s.dev.token t.val slot.val = Tok.FULL)
    (unused : s.dev.slotUses t.val slot.val = 0) (idle : (Safety.mach s).fillBusy t.val f = false) :
    Safety.givesDev (.slotRelease t slot) s (s.dev.emptySlot t.val slot.val) := by
  have hd : exec (.slotRelease t slot) s = execSlotRelease t slot s := rfl
  unfold Safety.mach at idle
  rw [Safety.givesDev, hd, execSlotRelease, runDev_eq]
  simp only [fill, full, unused, idle, decide_true, Bool.and_self, Bool.not_false, if_true]

/-- Settles O41: the streamer's fetches by what each mode takes, the start of one by the registers it writes, its landing by
the state of its read. -/
theorem weightFetches : Obligations.WeightFetches := by
  unfold Obligations.WeightFetches
  refine ⟨?plain, fun t n i e st s works head spec free => exec_wfetchSpec works head spec free,
    fun t n i e l st st' s works head spec anchored h => exec_wfetchSpec_anchored works head spec anchored h, ?wasted,
    fun t n i e st st' l tr s works head decision started h noErrors table valid =>
      exec_wfetchResolve works head decision started h noErrors table valid, ?start, ?landed,
    fun t slot f s fill full unused idle => exec_slotRelease fill full unused idle⟩
  case plain =>
    intro t n i e st s works head plain
    refine ⟨_, exec_wfetchPlain works head plain, ⟨rfl, rfl⟩, ?_⟩
    simp only [Dev.pushFill, Dev.skipTo, Dev.tile_modTile_same, and_self]
  case wasted =>
    intro t n i e st s works head spec free forbidden
    have taken := exec_wfetchSpec works head spec free
    rw [Mach.takeSpec_notAllowed forbidden] at taken
    refine ⟨_, taken, ⟨rfl, rfl⟩, ?_⟩
    simp only [Mach.mod_dev, Dev.specCnt, Dev.tile_cnt, Dev.skipTo, Dev.tile_modTile_same, Dev.reg_cnt, Dev.reg_modTile,
      Safety.mach, and_self]
  case start =>
    intro t wait n st r rest s works oldest inRange empty depth
    generalize ptr : s.dev.rf (Reg.TILE_WR_STAT t.val) Fld.TILE_WR_STAT.FILL_PTR = sl at *
    have tile := s.dev.tile_startFill t.val sl wait r rest
    exact ⟨_, exec_streamerFillStart works oldest ptr empty depth, ⟨rfl, rfl⟩, congrArg TileSt.fillq tile,
      congrArg TileSt.slots tile, s.dev.slotWord_startFill t.val sl wait r rest inRange,
      s.dev.fillPtr_startFill t.val sl wait r rest, s.dev.waitCount_startFill t.val sl wait r rest inRange⟩
  case landed =>
    intro t slot n r s noErrors loop req flying goes land hland
    subst hland
    exact ⟨fun good => exec_fetchLanded_good loop req flying goes noErrors good,
      fun bad => exec_fetchLanded_bad loop req flying goes bad⟩

end Machine
end Sys2Proof
end

section
/-!
PROOFS. Spur calls (O43).
-/
namespace Sys2Proof

/-- An element of a list replaced: every other element stays, and so does the default past the end. -/
theorem getD_modAt {α : Type} (l : List α) (i k : Nat) (f : α → α) (a : α) :
    (modAt l i f).getD k a = if k = i ∧ k < l.length then f (l.getD k a) else l.getD k a := by
  induction l generalizing i k with
  | nil => simp [modAt]
  | cons x xs ih =>
    cases i with
    | zero => cases k <;> simp [modAt]
    | succ i =>
      cases k with
      | zero => simp [modAt]
      | succ k => simpa [modAt] using ih i k

namespace Machine

/-! ### The integer registers (R145) -/

/-- A register file after one of its 32 registers is set; registers that it does not list are zero. -/
theorem getD_setX (x : List DWord) {k : Nat} (i v : Nat) (inRange : k < 32) :
    (setX x i v).getD k 0 = if k = i then BitVec.ofNat 64 v else x.getD k 0 := by
  have padded : (x ++ List.replicate (32 - x.length) 0).getD k 0 = x.getD k 0 := by
    by_cases listed : k < x.length
    · exact List.getD_append _ _ _ _ listed
    · have past := Nat.le_of_not_lt listed
      rw [List.getD_append_right _ _ _ _ past, List.getD_eq_default _ _ past, List.getD_eq_getElem?_getD]
      exact List.getElem?_getD_replicate_default_eq _ _ _
  have long : k < (x ++ List.replicate (32 - x.length) 0).length := by
    rw [List.length_append, List.length_replicate]
    omega
  rw [setX, getD_modAt, padded]
  simp only [long, and_true]

/-- Registers set one after another: one that is set once reads as set. -/
theorem getD_foldl_setX_mem {ps : List (Nat × Nat)} (x : List DWord) {p : Nat × Nat} (once : (ps.map (·.1)).Nodup)
    (hp : p ∈ ps) (inRange : p.1 < 32) : (ps.foldl (fun x p => setX x p.1 p.2) x).getD p.1 0 = BitVec.ofNat 64 p.2 :=
  foldl_at (fun x : List DWord => x.getD p.1 0) (·.1) (fun _ => BitVec.ofNat 64 p.2) once hp
    (fun x => by rw [getD_setX x _ _ inRange, if_pos rfl]) (fun q ne x => by rw [getD_setX x _ _ inRange, if_neg ne.symm]) x

/-- One that is not set stays. -/
theorem getD_foldl_setX_notMem {ps : List (Nat × Nat)} (x : List DWord) {k : Nat} (unset : k ∉ ps.map (·.1)) (inRange : k < 32) :
    (ps.foldl (fun x p => setX x p.1 p.2) x).getD k 0 = x.getD k 0 := by
  refine foldl_keeps (fun x : List DWord => x.getD k 0) (fun p hp x => ?_) x
  have ne : k ≠ p.1 := fun e => unset (List.mem_map.mpr ⟨p, hp, e.symm⟩)
  rw [getD_setX x _ _ inRange, if_neg ne]

/-! ### A call is issued (R148, R182) -/

/-- The core as a call finds it: the first call of a step finds every register at zero (R69, R163, log 82). -/
def SpurSt.atCall (c : SpurSt) : SpurSt :=
  if c.called then c else { c with x := [], f := [], v := [], csrs := [], instret := 0, resv := none }

theorem SpurSt.xr_atCall (c : SpurSt) (k : Nat) : c.atCall.xr k = if c.called then c.xr k else 0 := by
  unfold SpurSt.atCall
  split
  · rfl
  · simp [SpurSt.xr]

/-- The registers that a call sets: its argument words, its access region and its stack pointer. -/
def spurArgs (r : Route) (e arg : Nat) : List (Nat × Nat) :=
  [(10, bits arg 31 0), (11, bits arg 63 32), (12, bits arg 95 64), (13, bits arg 127 96),
    (14, (if Spur.ps e then 0x2C0000 else 0) + 64 * Spur.arow e), (15, 64 * Spur.anrows e), (2, r.spurStack)]

/-- The core as the call of entry `i` begins. -/
def SpurSt.enter (c : SpurSt) (r : Route) (i e arg : Nat) : SpurSt :=
  { c.atCall with
    x := (spurArgs r e arg).foldl (fun x p => setX x p.1 p.2) c.atCall.x
    pc := 0x300000 + r.spurBase + Spur.code e
    call := some i
    region := ⟨Spur.ps e, Spur.arow e, Spur.anrows e⟩
    called := true }

theorem SpurSt.enter_x (c : SpurSt) (r : Route) (i e arg : Nat) :
    (c.enter r i e arg).x = (spurArgs r e arg).foldl (fun x p => setX x p.1 p.2) c.atCall.x := by
  rw [SpurSt.enter]

theorem spurArgs_keys (r : Route) (e arg : Nat) : (spurArgs r e arg).map (·.1) = [10, 11, 12, 13, 14, 15, 2] := rfl

theorem SpurSt.xr_enter_mem (c : SpurSt) (r : Route) (i e arg : Nat) {p : Nat × Nat} (hp : p ∈ spurArgs r e arg) :
    (c.enter r i e arg).xr p.1 = BitVec.ofNat 64 p.2 := by
  have key : p.1 ∈ (spurArgs r e arg).map (·.1) := List.mem_map.mpr ⟨p, hp, rfl⟩
  have once : ((spurArgs r e arg).map (·.1)).Nodup := by rw [spurArgs_keys]; decide
  rw [spurArgs_keys] at key
  obtain ⟨notZero, inRange⟩ := (by decide : ∀ k ∈ [10, 11, 12, 13, 14, 15, 2], k ≠ 0 ∧ k < 32) p.1 key
  rw [SpurSt.xr, if_neg notZero, SpurSt.enter_x]
  exact getD_foldl_setX_mem _ once hp inRange

theorem SpurSt.xr_enter_notMem (c : SpurSt) (r : Route) (i e arg : Nat) {k : Nat} (inRange : k < 32)
    (unset : k ∉ (spurArgs r e arg).map (·.1)) : (c.enter r i e arg).xr k = c.atCall.xr k := by
  rw [SpurSt.xr, SpurSt.xr, SpurSt.enter_x, getD_foldl_setX_notMem _ unset inRange]

@[simp] theorem ListSt.take_addr (l : ListSt) : l.take.addr = l.addr := by
  unfold ListSt.take
  dsimp only
  split
  · rfl
  · split <;> rfl
  · rfl

@[simp] theorem Mach.tile_fly (m : Mach) (i : Iss) (t : Nat) : (m.fly i).dev.tile t = m.dev.tile t := by
  rw [Mach.fly, Mach.mod_dev, Dev.modList_frame]
  rfl

/-- The machine as a call begins: it is in flight with its argument word, and its core is BUSY. -/
def Mach.beginCall (m : Mach) (i : Iss) (arg : Nat) : Mach :=
  (m.fly i).mod (fun d => (d.modTile i.key (fun x => { x with spur := x.spur.enter i.st.b.route i.idx i.word arg })).wf
    (Reg.TILE_SPUR_STAT i.key) Fld.TILE_SPUR_STAT.BUSY 1)

theorem Mach.spur_beginCall (m : Mach) (i : Iss) (arg : Nat) : ((m.beginCall i arg).dev.tile i.key).spur
    = (m.dev.tile i.key).spur.enter i.st.b.route i.idx i.word arg := by
  rw [Mach.beginCall, Mach.mod_dev, Dev.tile_wf, Dev.tile_modTile_same, Mach.tile_fly]

theorem Mach.log_beginCall (m : Mach) (i : Iss) (arg : Nat) : (m.beginCall i arg).log = m.log := rfl

theorem Mach.busy_beginCall (m : Mach) (i : Iss) (arg : Nat) :
    (m.beginCall i arg).dev.rf (Reg.TILE_SPUR_STAT i.key) Fld.TILE_SPUR_STAT.BUSY = 1 := Dev.rf_wf_same _ _ _

/-- A call issued begins with the argument word that follows it in its list. -/
theorem exec_spurCall {t : Fin 96} {i e : Nat} {l : ListSt} {st : StepSt} {s : State} (h : Safety.issues s t.val l st i e)
    (kind : Ent.kind e = K.SPUR) : Safety.gives (.spurCall t) s ((Safety.issued s t.val l).beginCall (Safety.iss t.val l st i e)
      ((Safety.mach s).rdNat (l.addr + 16 * (i + 1)) 16)) := by
  have called := gives_of_issue (c := .spurCall t) h rfl (isKind_of_kind kind)
  simp only [Safety.issued, Dev.list_setList_same, ListSt.take_addr] at called
  rw [checkBad_of_taken h] at called
  · exact called
  · exact issued_fly_bad

/-! ### A call ends (R150) -/

@[simp] theorem Dev.tile_setReg64 (d : Dev) (a v t : Nat) : (d.setReg64 a v).tile t = d.tile t := rfl

theorem Dev.reg_setReg64_ne (d : Dev) {a b : Nat} (v : Nat) (low : b ≠ a) (high : b ≠ a + 4) :
    (d.setReg64 a v).reg b = d.reg b := by
  rw [Dev.setReg64, Dev.reg_setReg_ne _ _ high, Dev.reg_setReg_ne _ _ low]

/-- The registers of a spur core are apart. -/
theorem TILE_SPUR_STAT_ne (t : Nat) : Reg.TILE_SPUR_STAT t ≠ Reg.TILE_SPUR_CAUSE t
    ∧ Reg.TILE_SPUR_STAT t ≠ Reg.TILE_SPUR_EPC_LO t ∧ Reg.TILE_SPUR_STAT t ≠ Reg.TILE_SPUR_EPC_LO t + 4
    ∧ Reg.TILE_SPUR_STAT t ≠ Reg.TILE_SPUR_CALLS t := by
  unfold Reg.TILE_SPUR_STAT Reg.TILE_SPUR_CAUSE Reg.TILE_SPUR_EPC_LO Reg.TILE_SPUR_CALLS
  omega

theorem TILE_SPUR_CAUSE_ne (t : Nat) : Reg.TILE_SPUR_CAUSE t ≠ Reg.TILE_SPUR_EPC_LO t
    ∧ Reg.TILE_SPUR_CAUSE t ≠ Reg.TILE_SPUR_EPC_LO t + 4 ∧ Reg.TILE_SPUR_CAUSE t ≠ Reg.TILE_SPUR_CALLS t := by
  unfold Reg.TILE_SPUR_CAUSE Reg.TILE_SPUR_EPC_LO Reg.TILE_SPUR_CALLS
  omega

theorem TILE_SPUR_CALLS_ne_EPC (t : Nat) : Reg.TILE_SPUR_CALLS t ≠ Reg.TILE_SPUR_EPC_LO t
    ∧ Reg.TILE_SPUR_CALLS t ≠ Reg.TILE_SPUR_EPC_LO t + 4 := by
  unfold Reg.TILE_SPUR_CALLS Reg.TILE_SPUR_EPC_LO
  omega

section SpurEnd
variable (d : Dev) (t : Nat) (trap : Bool) (result cause epc : Nat)

/-- The core is free again. -/
theorem Dev.tile_spurEnd : (d.spurEnd t trap result cause epc).tile t
    = { d.tile t with spur := { (d.tile t).spur with call := none } } := by
  simp only [Dev.spurEnd, Dev.tile_cnt, Dev.tile_setReg64, Dev.tile_setReg, Dev.tile_modTile_same]

theorem Dev.raised_spurEnd : (d.spurEnd t trap result cause epc).raised = d.raised := by
  rw [Dev.spurEnd, Dev.cnt_frame]
  rfl

theorem Dev.cause_spurEnd : (d.spurEnd t trap result cause epc).reg (Reg.TILE_SPUR_CAUSE t) = cause % 2 ^ 32 := by
  obtain ⟨noLow, noHigh, noCalls⟩ := TILE_SPUR_CAUSE_ne t
  rw [Dev.spurEnd, Dev.reg_cnt_ne _ _ noCalls, Dev.reg_setReg64_ne _ _ noLow noHigh, Dev.reg_setReg_same]

theorem Dev.calls_spurEnd : (d.spurEnd t trap result cause epc).reg (Reg.TILE_SPUR_CALLS t)
    = satAdd 32 (d.reg (Reg.TILE_SPUR_CALLS t)) 1 := by
  obtain ⟨noLow, noHigh⟩ := TILE_SPUR_CALLS_ne_EPC t
  obtain ⟨-, -, -, noStat⟩ := TILE_SPUR_STAT_ne t
  obtain ⟨-, -, noCause⟩ := TILE_SPUR_CAUSE_ne t
  rw [Dev.spurEnd, Dev.reg_cnt, Dev.reg_setReg64_ne _ _ noLow noHigh, Dev.reg_setReg_ne _ _ noCause.symm,
    Dev.reg_setReg_ne _ _ noStat.symm, Dev.reg_modTile]

/-- The status of the core holds TRAP and a result of 16 bits, and BUSY no more. -/
theorem Dev.busy_spurEnd : (d.spurEnd t trap result cause epc).rf (Reg.TILE_SPUR_STAT t) Fld.TILE_SPUR_STAT.BUSY = 0 := by
  obtain ⟨noCause, noLow, noHigh, noCalls⟩ := TILE_SPUR_STAT_ne t
  rw [Dev.rf, Dev.spurEnd, Dev.reg_cnt_ne _ _ noCalls, Dev.reg_setReg64_ne _ _ noLow noHigh, Dev.reg_setReg_ne _ _ noCause,
    Dev.reg_setReg_same]
  generalize hv : (b2n trap * 2 ^ 30 + if trap = true then _ else result % 2 ^ 16) = v
  have small : v < 2 ^ 31 := by
    subst hv
    cases trap with
    | true => exact Nat.add_lt_add_left ((bits_lt _ 15 0).trans (show 2 ^ 16 < 2 ^ 30 by decide)) (2 ^ 30)
    | false => simp only [b2n, Bool.false_eq_true, if_false]; omega
  unfold bits Fld.TILE_SPUR_STAT.BUSY
  dsimp only
  omega

end SpurEnd

/-- An entry's completion changes its list, and no tile, register or record. -/
@[simp] theorem Mach.tile_complete (m : Mach) (key entry t : Nat) : (m.complete key entry).dev.tile t = m.dev.tile t := by
  rw [Mach.complete, Mach.mod_dev, Dev.modList_frame]
  rfl
@[simp] theorem Mach.reg_complete (m : Mach) (key entry a : Nat) : (m.complete key entry).dev.reg a = m.dev.reg a :=
  Dev.reg_modList _ _ _ _
@[simp] theorem Mach.raised_complete (m : Mach) (key entry : Nat) : (m.complete key entry).dev.raised = m.dev.raised := by
  rw [Mach.complete, Mach.mod_dev, Dev.modList_frame]

/-- Code that retires its instructions and then traps ends its call by a trap of the kind awaited; else nothing changes. -/
theorem Mach.spurEvent_trap {m m1 m2 : Mach} {t k n i cause : Nat} (p : Nat → Bool)
    (flying : m.dev.spurCallOn t = some (n, i)) (ran : Mach.rvRun n t k m = (m1, none))
    (trap : m1.rvStep n t = (m2, some cause)) :
    m.spurEvent t k p [] = if p cause then m2.spurTrapped n t i cause else m := by
  simp only [Mach.spurEvent, flying, Mach.tileUpsets_nil, ran, trap]

/-- An ecall with a0 zero completes the call. -/
theorem Mach.spurTrapped_success {m : Mach} {t : Nat} (n i : Nat) (success : (m.dev.tile t).spur.xr 10 = 0) :
    m.spurTrapped n t i 8 = (m.mod (fun d => d.spurEnd t false 0 8 (m.dev.tile t).spur.pc)).complete t i := by
  have zero : ((m.dev.tile t).spur.xr 10).toNat = 0 := by rw [success]; rfl
  simp only [Mach.spurTrapped, zero, if_true]

section Traps
variable {t : Fin 96} {k n i cause : Nat} {m1 m2 : Mach} {s : State} (flying : s.dev.spurCallOn t.val = some (n, i))
  (ran : Mach.rvRun n t.val k (Safety.mach s) = (m1, none)) (trap : m1.rvStep n t.val = (m2, some cause))
include flying ran trap

theorem exec_spurEcall : Safety.gives (.spurEcall t k []) s
    (if cause == 8 then m2.spurTrapped n t.val i cause else Safety.mach s) := by
  have hd : exec (.spurEcall t k []) s = execSpurEcall t k [] s := rfl
  have event := Mach.spurEvent_trap (fun cause => cause == 8) flying ran trap
  rw [Safety.gives, hd, execSpurEcall, run_eq, ← event]
  rfl

theorem exec_spurTrap : Safety.gives (.spurTrap t k []) s
    (if cause != 8 then m2.spurTrapped n t.val i cause else Safety.mach s) := by
  have hd : exec (.spurTrap t k []) s = execSpurTrap t k [] s := rfl
  have event := Mach.spurEvent_trap (fun cause => cause != 8) flying ran trap
  rw [Safety.gives, hd, execSpurTrap, run_eq, ← event]
  rfl

end Traps

/-! ### A corrected row is written back (R153) -/

/-- A write-back ends the wait of its unit, and of no other (R153). -/
theorem Dev.mem_wb_writeBack (d : Dev) (a x : Nat) : x ∈ (d.writeBack a).wb ↔ x ∈ d.wb ∧ x ≠ eccUnit a := by
  unfold Dev.writeBack
  dsimp only
  split
  next => simp
  next gone => exact ⟨fun waits => ⟨waits, fun e => gone (e ▸ waits)⟩, And.left⟩

theorem exec_eccWriteBack (addr : BitVec 48) (s : State) : Safety.givesDev (.eccWriteBack addr) s (s.dev.writeBack addr.toNat) :=
  rfl

/-- Settles O43: the call by the core that enters it, its end by the trap that its code takes, the write-back by the units
that still wait. -/
theorem spurCalls : Obligations.SpurCalls := by
  unfold Obligations.SpurCalls
  refine ⟨?call, ?ends, fun addr s => ⟨_, exec_eccWriteBack addr s, ⟨rfl, rfl⟩, s.dev.mem_wb_writeBack addr.toNat⟩⟩
  case call =>
    intro t i e arg l st s h kind harg
    have called := exec_spurCall h kind
    have core : (((Safety.issued s t.val l).beginCall (Safety.iss t.val l st i e) arg).dev.tile t.val).spur
        = (s.dev.tile t.val).spur.enter st.b.route i e arg :=
      Mach.spur_beginCall (Safety.issued s t.val l) (Safety.iss t.val l st i e) arg
    rw [← harg] at called
    refine ⟨_, called, ⟨rfl, ?memory⟩, ?flying, ?entry, Mach.busy_beginCall _ _ _, fun p hp => ?set,
      fun k inRange unset => ?kept⟩
    case memory => rw [Mach.log_beginCall]; rfl
    case flying => rw [core, SpurSt.enter]
    case entry => rw [core, SpurSt.enter]
    case set => rw [core, SpurSt.xr_enter_mem _ _ _ _ _ hp]
    case kept =>
      have other : k ∉ (spurArgs st.b.route e arg).map (·.1) := by
        rw [spurArgs_keys]
        exact fun isSet => unset ((by decide : [10, 11, 12, 13, 14, 15, 2] ⊆ [2, 10, 11, 12, 13, 14, 15]) isSet)
      rw [core, SpurSt.xr_enter_notMem _ _ _ _ _ inRange other, SpurSt.xr_atCall]
  case ends =>
    intro t k n i cause m1 m2 s flying ran trap
    have ecall := exec_spurEcall flying ran trap
    have other := exec_spurTrap flying ran trap
    refine ⟨fun isEcall => ?ecall, fun isOther => ?other, fun isEcall success => ?success⟩
    case ecall =>
      subst isEcall
      rw [beq_self_eq_true, if_pos rfl] at ecall
      rw [bne_self_eq_false, if_neg Bool.false_ne_true] at other
      exact ⟨ecall, other⟩
    case other =>
      rw [beq_false_of_ne isOther, if_neg Bool.false_ne_true] at ecall
      rw [bne_iff_ne.mpr isOther, if_pos rfl] at other
      exact ⟨other, ecall⟩
    case success =>
      subst isEcall
      rw [beq_self_eq_true, if_pos rfl, Mach.spurTrapped_success n i success] at ecall
      refine ⟨_, ecall, rfl, ?free, ?cause, ?notBusy, ?counted, ?noFault⟩
      case free => simp only [Mach.tile_complete, Mach.mod_dev, Dev.tile_spurEnd]
      case cause => simp only [Mach.reg_complete, Mach.mod_dev, Dev.cause_spurEnd, Nat.reducePow, Nat.reduceMod]
      case notBusy =>
        rw [Dev.rf, Mach.reg_complete, Mach.mod_dev, ← Dev.rf]
        exact m2.dev.busy_spurEnd t.val false 0 8 _
      case counted => simp only [Mach.reg_complete, Mach.mod_dev, Dev.calls_spurEnd]
      case noFault => simp only [Mach.raised_complete, Mach.mod_dev, Dev.raised_spurEnd]

end Machine
end Sys2Proof
end

section
/-!
PROOFS. Routes loaded, bound and unbound (O24), and unloaded (O25).
-/
namespace Sys2Proof

/-! ### Finite maps: a key erased -/

theorem AMap.find_erase_same {β : Type} (m : AMap β) (k : Nat) : AMap.find (AMap.erase m k) k = none := by
  induction m with
  | nil => rfl
  | cons p r ih =>
    obtain ⟨j, v⟩ := p
    rw [AMap.erase] at ih ⊢
    by_cases same : j = k
    · rw [List.filter_cons_of_neg (by simpa using same), ih]
    · rw [List.filter_cons_of_pos (by simpa using same), AMap.find, if_neg same, ih, ite_self]

/-- Another key found before is found still: its search ends at its own pair. -/
theorem AMap.find_erase_ne {β : Type} {m : AMap β} {k j : Nat} {v : β} (other : j ≠ k) (found : AMap.find m j = some v) :
    AMap.find (AMap.erase m k) j = some v := by
  induction m with
  | nil => cases found
  | cons p r ih =>
    obtain ⟨i, u⟩ := p
    rw [AMap.erase] at ih ⊢
    rw [AMap.find] at found
    by_cases here : i = j
    · rw [if_pos here] at found
      rw [List.filter_cons_of_pos (by simpa [here] using other), AMap.find, if_pos here, found]
    · rw [if_neg here] at found
      by_cases past : j < i
      · rw [if_pos past] at found
        cases found
      · rw [if_neg past] at found
        by_cases erased : i = k
        · rw [List.filter_cons_of_neg (by simpa using erased), ih found]
        · rw [List.filter_cons_of_pos (by simpa using erased), AMap.find, if_neg here, if_neg past, ih found]

namespace Machine

/-! ### Packets (R557) -/

/-- A command whose packet may run leaves the machine of its meaning. -/
theorem gives_of_cmd {c : Instr} {s : State} {op tag : Nat} {p : Packet} {f : Mach → Packet → Mach}
    (hc : exec c s = run (fun m => m.cmd op tag f) s) (h : Safety.ready s op tag p) :
    Safety.gives c s (f (Safety.mach s) p) := by
  rw [Safety.gives, hc, run_eq, Mach.cmd_ready h]
  rfl

/-- A command whose meaning has stored nothing leaves the memory as it was. -/
theorem givesDev_of_gives {c : Instr} {s : State} {m : Mach} (h : Safety.gives c s m) (noStores : m.log = []) :
    Safety.givesDev c s m.dev := by
  rw [Safety.gives, noStores] at h
  exact h

/-! ### ROUTE_LOAD (R197, R531, R564) -/

/-- The device that holds a route under a handle, with the route's image measured (R531). -/
def Dev.holdRoute (d : Dev) (h : Nat) (r : Route) (image : List Byte) : Dev :=
  { d with routes := AMap.set d.routes h r }.modBoot (fun b => { b with measure := sha384 (b.measure ++ sha384 image) })

section RouteLoad
variable {tag : BitVec 16} {p : Packet} {s : State} (ready : Safety.ready s 0x0401 tag.toNat p)
include ready

theorem exec_routeLoad_full
    (full : (List.range 64).find? (fun h => (AMap.find s.dev.routes h).isNone) = none) :
    Safety.givesDev (.routeLoad tag) s (s.dev.reply p ST.TABLE_FULL
      (leBytes 1 0xFF ++ leBytes 3 0 ++ leBytes 4 (s.dev.reg Reg.SCH_RT_VERR))) := by
  have loaded := gives_of_cmd (c := .routeLoad tag) rfl ready
  simp only [Safety.mach, full] at loaded
  exact givesDev_of_gives loaded rfl

variable {h : Nat} (free : (List.range 64).find? (fun h => (AMap.find s.dev.routes h).isNone) = some h)
include free

theorem exec_routeLoad_valid {r : Route} (valid : validate (Safety.mach s) (pay64 p.payload 0) = .inr r) :
    Safety.givesDev (.routeLoad tag) s
      ((s.dev.holdRoute h r ((Safety.mach s).rdBytes (pay64 p.payload 0) r.len)).reply p ST.OK
        (leBytes 1 h ++ leBytes 3 0 ++ leBytes 4 0)) := by
  have loaded := gives_of_cmd (c := .routeLoad tag) rfl ready
  have freeHere : (List.range 64).find? (fun h => (AMap.find (Safety.mach s).dev.routes h).isNone) = some h := free
  simp only [freeHere, valid] at loaded
  exact givesDev_of_gives loaded rfl

theorem exec_routeLoad_failed {f : Nat × Nat × Nat} (failed : validate (Safety.mach s) (pay64 p.payload 0) = .inl f) :
    Safety.givesDev (.routeLoad tag) s ((s.dev.setVerr f).reply p (if f.1 = 3 then ST.BAD_CHECK else ST.BAD_PARAM)
      (leBytes 1 0xFF ++ leBytes 3 0 ++ leBytes 4 ((s.dev.setVerr f).reg Reg.SCH_RT_VERR))) := by
  have loaded := gives_of_cmd (c := .routeLoad tag) rfl ready
  have freeHere : (List.range 64).find? (fun h => (AMap.find (Safety.mach s).dev.routes h).isNone) = some h := free
  simp only [freeHere, failed] at loaded
  exact givesDev_of_gives loaded rfl

end RouteLoad

/-! ### ROUTE_UNLOAD (R202) -/

/-- A loop is found exactly when one is bound to the handle. -/
theorem Dev.isSome_boundTo {d : Dev} {h : Nat} :
    (d.boundTo h).isSome = true ↔ ∃ n, n < 16 ∧ ∃ b, (d.loop n).binding = some b ∧ b.handle = h := by
  simp only [Dev.boundTo, List.find?_isSome, List.mem_range, Option.any_eq_true, beq_iff_eq]

/-- A loop is found exactly when a bind of the handle is pending on one. -/
theorem Dev.isSome_pendingTo {d : Dev} {h : Nat} :
    (d.pendingTo h).isSome = true ↔ ∃ n, n < 16 ∧ ∃ t b, Deferred.bind t b ∈ (d.loop n).deferred ∧ b.handle = h := by
  simp only [Dev.pendingTo, List.find?_isSome, List.mem_range, List.any_eq_true]
  refine exists_congr fun n => and_congr_right fun _ => ⟨?named, ?waits⟩
  case named =>
    rintro ⟨x, hx, named⟩
    cases x with
    | bind t b => exact ⟨t, b, hx, beq_iff_eq.mp named⟩
    | unbind | config => cases named
  case waits => exact fun ⟨t, b, hx, named⟩ => ⟨_, hx, beq_iff_eq.mpr named⟩

/-- The answer to ROUTE_UNLOAD, by the handle that it names. -/
theorem exec_routeUnload {tag : BitVec 16} {p : Packet} {s : State} (ready : Safety.ready s 0x0402 tag.toNat p) :
    Safety.gives (.routeUnload tag) s (if pay8 p.payload 0 ≥ 64 then (Safety.mach s).fail p ST.BAD_PARAM
      else if (AMap.find s.dev.routes (pay8 p.payload 0)).isNone then (Safety.mach s).fail p ST.NOT_FOUND
      else if (s.dev.boundTo (pay8 p.payload 0)).isSome || (s.dev.pendingTo (pay8 p.payload 0)).isSome then
        (Safety.mach s).fail p ST.STATE
      else ((Safety.mach s).mod (fun d => { d with routes := AMap.erase d.routes (pay8 p.payload 0) })).ok p []) :=
  gives_of_cmd (c := .routeUnload tag) rfl ready

/-! ### ROUTE_BIND (R199 to R201, R292, R491, R599) -/

/-- A bind packet that passes every check that the bind makes, with the binding that it asks for. -/
structure Mach.BindPasses (m : Mach) (p : Packet) (h n : Nat) (r : Route) (b : Binding) : Prop where
  handle : pay8 p.payload 0 = h ∧ h < 64
  loop : pay8 p.payload 1 = n ∧ n < 16
  spec : pay8 p.payload 2 ≤ 1
  route : AMap.find m.dev.routes h = some r
  asked : m.dev.askedBinding h r p.payload = b
  ridges : r.nridges ≤ b.ridges.length
  pmap : m.dev.pmapBad b = false
  areas : (m.fetchAreas b).any (fun a => !inHbm a || anyArea a m.dev.tarinadyAreas) = false
  queues : m.bindQueueBad b (b.own m.dev.pkg) = none
  spur : m.dev.spurOverlap n b = false
  bound : (m.dev.boundTo h).any (· != n) = false
  pending : (m.dev.pendingTo h).any (· != n) = false
  ranks : m.dev.rankClash n b = false
  safe : m.dev.unsafeTile b (pay32 p.payload 4) = false
  served : m.dev.deadTile b = false

/-- A loop whose commands wait: it has a step, or a command that waits already. -/
def LoopSt.defers (l : LoopSt) : Bool := l.step.isSome || !l.deferred.isEmpty

/-- A bind that passes its checks takes effect at once or is deferred. -/
theorem exec_routeBind {tag : BitVec 16} {p : Packet} {h n : Nat} {r : Route} {b : Binding} {s : State}
    (ready : Safety.ready s 0x0403 tag.toNat p) (passes : (Safety.mach s).BindPasses p h n r b) :
    Safety.gives (.routeBind tag) s (if (s.dev.loop n).defers then
        ((Safety.mach s).mod (fun d => d.modLoop n (fun l => { l with deferred := l.deferred ++ [.bind p.tag b] }))).answer p
          ST.DEFERRED []
      else ((Safety.mach s).bindNow n b).ok p []) := by
  have bound := gives_of_cmd (c := .routeBind tag) rfl ready
  obtain ⟨⟨rfl, hh⟩, ⟨rfl, hn⟩, spec, route, rfl, ridges, pmap, areas, queues, spur, boundTo, pending, ranks, safe, served⟩ :=
    passes
  simp only [ge_iff_le, Nat.not_le.mpr hh, Nat.not_le.mpr hn, Nat.not_lt.mpr spec, decide_false, Bool.or_self,
    Bool.false_eq_true, if_false, route, Nat.not_lt.mpr ridges, pmap, areas, queues, spur, boundTo, pending, ranks, safe,
    served] at bound
  exact bound

/-! ### ROUTE_UNBIND (R563) -/

/-- An unbind of a bound loop is deferred while a step that is not pre-empted, or a command, waits; a pre-empted step is
discarded. -/
theorem exec_routeUnbind {tag : BitVec 16} {p : Packet} {n : Nat} {s : State}
    (ready : Safety.ready s 0x0404 tag.toNat p) (named : pay8 p.payload 0 = n) (inRange : n < 16)
    (bound : (s.dev.loop n).binding.isSome = true) : Safety.gives (.routeUnbind tag) s
      (if (s.dev.loop n).step.any (fun st => st.phase != .preempted) || !(s.dev.loop n).deferred.isEmpty then
        ((Safety.mach s).mod (fun d => d.modLoop n (fun l => { l with deferred := l.deferred ++ [.unbind p.tag] }))).answer p
          ST.DEFERRED []
      else ((if (s.dev.loop n).step.isSome then (Safety.mach s).discardStep n else Safety.mach s).unbindNow n).ok p []) := by
  have unbound := gives_of_cmd (c := .routeUnbind tag) rfl ready
  have boundHere : ((Safety.mach s).dev.loop n).binding.isNone = false := Option.isNone_eq_false_iff.mpr bound
  simp only [named, ge_iff_le, Nat.not_le.mpr inRange, boundHere, Bool.false_and, Bool.false_eq_true, if_false] at unbound
  exact unbound

/-- Settles O24: the load by the free handle and the check of its image, the bind by its checks, the unbind by the step that
it meets. -/
theorem routePackets : Obligations.RoutePackets := by
  unfold Obligations.RoutePackets
  refine ⟨fun tag p s ready full => exec_routeLoad_full ready full, ?held, fun tag p h f s ready free failed =>
    exec_routeLoad_failed ready free failed, ?bind, ?idle, ?steps⟩
  case held =>
    intro tag p h r s ready free valid
    exact ⟨_, exec_routeLoad_valid ready free valid, rfl, rfl⟩
  case bind =>
    intro tag p h n r b s ready handle loop hh hn spec route asked ridges pmap areas queues spur boundTo pending ranks safe served
    have bound := exec_routeBind ready
      ⟨⟨handle, hh⟩, ⟨loop, hn⟩, spec, route, asked, ridges, pmap, areas, queues, spur, boundTo, pending, ranks, safe, served⟩
    refine ⟨fun idle => ?now, fun waits => ?deferred⟩
    case now => rwa [LoopSt.defers, idle, if_neg Bool.false_ne_true] at bound
    case deferred =>
      rw [LoopSt.defers, waits, if_pos rfl] at bound
      exact ⟨_, givesDev_of_gives bound rfl, rfl⟩
  case idle =>
    intro tag p n s ready named inRange bound noStep noneWaits
    have unbound := exec_routeUnbind ready named inRange bound
    rw [noStep, noneWaits] at unbound
    exact unbound
  case steps =>
    intro tag p n st s ready named inRange bound hst
    have unbound := exec_routeUnbind ready named inRange bound
    rw [hst, Option.any_some] at unbound
    refine ⟨fun inProgress => ?deferred, fun preempted noneWaits => ?discarded⟩
    case deferred =>
      rw [bne_iff_ne.mpr inProgress, Bool.true_or, if_pos rfl] at unbound
      exact ⟨_, givesDev_of_gives unbound rfl, rfl⟩
    case discarded =>
      rw [bne_eq_false_iff_eq.mpr preempted, noneWaits] at unbound
      exact unbound

/-- Settles O25: each branch of the command by the handle it names; the erased table finds every other handle as before. -/
theorem routeUnloadFreesHandle : Obligations.RouteUnloadFreesHandle := by
  unfold Obligations.RouteUnloadFreesHandle
  intro tag p h s ready named
  have unloaded := exec_routeUnload ready
  rw [named] at unloaded
  refine ⟨fun high => ?badParam, fun low absent => ?notFound, fun low present inUse => ?inUse, fun low present idle => ?freed⟩
  case badParam =>
    rw [if_pos high] at unloaded
    exact givesDev_of_gives unloaded rfl
  case notFound =>
    rw [if_neg (Nat.not_le.mpr low), if_pos (Option.isNone_iff_eq_none.mpr absent)] at unloaded
    exact givesDev_of_gives unloaded rfl
  case inUse =>
    have held : ((s.dev.boundTo h).isSome || (s.dev.pendingTo h).isSome) = true := by
      rw [Bool.or_eq_true, Dev.isSome_boundTo, Dev.isSome_pendingTo]
      obtain ⟨n, hn, bound | pending⟩ := inUse
      · exact .inl ⟨n, hn, bound⟩
      · exact .inr ⟨n, hn, pending⟩
    rw [if_neg (Nat.not_le.mpr low), if_neg (mt Option.isNone_iff_eq_none.mp present), if_pos held] at unloaded
    exact givesDev_of_gives unloaded rfl
  case freed =>
    obtain ⟨notBound, notPending⟩ := forall₂_and.mp idle
    have notHeld : ¬((s.dev.boundTo h).isSome || (s.dev.pendingTo h).isSome) = true := by
      rw [Bool.or_eq_true, Dev.isSome_boundTo, Dev.isSome_pendingTo]
      rintro (⟨n, hn, b, bound, same⟩ | ⟨n, hn, t, b, pending, same⟩)
      · exact notBound n hn b bound same
      · exact notPending n hn t b pending same
    rw [if_neg (Nat.not_le.mpr low), if_neg (mt Option.isNone_iff_eq_none.mp present), if_neg notHeld] at unloaded
    exact ⟨_, givesDev_of_gives unloaded rfl, AMap.find_erase_same _ _, rfl, fun k r other => AMap.find_erase_ne other⟩

end Machine
end Sys2Proof
end

section
/-!
PROOFS. Tap entries, ARGMAX and SIGN (O44).
-/
namespace Sys2Proof

/-- A byte of the first bytes is the byte of the whole; past its end both read as zero. -/
theorem getD_slice_zero (bs : List Byte) {n i : Nat} (inside : i < n) : (slice bs 0 n).getD i 0 = bs.getD i 0 := by
  rw [slice, List.drop_zero]
  by_cases short : i < (bs.take n).length
  · rw [List.getD_append _ _ _ _ short, List.getD_eq_getElem?_getD, List.getElem?_take_of_lt inside,
      List.getD_eq_getElem?_getD]
  · have past : bs.length ≤ i := by rw [List.length_take] at short; omega
    rw [List.getD_append_right _ _ _ _ (not_lt.mp short), List.getD_eq_default _ _ past, List.getD_eq_getElem?_getD,
      List.getElem?_replicate]
    split <;> rfl

namespace Machine

/-! ### Tap entries (R183, R210, R219, R221) -/

section Tap
variable {m : Mach} {i : Iss}

/-- An entry with tap passes that clears the tallies, or accumulates with the WIN that they have, opens on its array. -/
theorem Mach.openPass_taps (taps : Tap.nrows i.word ≠ 0)
    (win : Pass.acc i.word = false ∨ (m.dev.larr i.key (Ent.array i.word)).win = none
      ∨ (m.dev.larr i.key (Ent.array i.word)).win = some (Pass.win i.word)) :
    m.openPass i = (m.fly i).mod (fun d =>
      (d.modLarr i.key (Ent.array i.word) (fun x => { x with pass := some { entry := i.idx, word := i.word } })).modParr i.key
        (d.carrier i.key (Ent.array i.word)) PhysArray.wake) := by
  have hasTaps : (Tap.nrows i.word == 0) = false := beq_false_of_ne taps
  have sameWin : (Pass.acc i.word && (m.dev.larr i.key (Ent.array i.word)).win.isSome
      && (m.dev.larr i.key (Ent.array i.word)).win != some (Pass.win i.word)) = false := by
    obtain clears | unset | same := win
    · rw [clears]; rfl
    · rw [unset, Option.isSome_none, Bool.and_false, Bool.false_and]
    · rw [same, bne_self_eq_false, Bool.and_false]
  simp only [Mach.openPass, hasTaps, sameWin, Bool.and_false, Bool.false_eq_true, if_false]

/-- One that accumulates in another window is a fault of its tile. -/
theorem Mach.openPass_otherWin (taps : Tap.nrows i.word ≠ 0) (acc : Pass.acc i.word = true) {w : Int}
    (set : (m.dev.larr i.key (Ent.array i.word)).win = some w) (other : w ≠ Pass.win i.word) :
    m.openPass i = m.tileFault i.loop i.key 0x0001 (i.idx + Ent.array i.word * 2 ^ 32) := by
  have hasTaps : (Tap.nrows i.word == 0) = false := beq_false_of_ne taps
  have differs : (some w != some (Pass.win i.word)) = true := bne_iff_ne.mpr (mt Option.some.inj other)
  simp only [Mach.openPass, hasTaps, acc, set, differs, Option.isSome_some, Bool.and_self, Bool.and_false, Bool.false_eq_true,
    if_false, if_true]

/-- A tap table without output flags itself in TILE_CONV_STAT (R219). -/
def Dev.flagEmpty (d : Dev) (t e : Nat) (tb : TapTable) : Dev :=
  if tb.oh = 0 || tb.ow = 0 then
    (d.wf (Reg.TILE_CONV_STAT t) Fld.TILE_CONV_STAT.EMPTY 1).wf (Reg.TILE_CONV_STAT t) Fld.TILE_CONV_STAT.ETABLE (Tap.table e)
  else d

/-- A tap entry with no tap passes opens none. -/
theorem Mach.openPass_noTaps (tap : Ent.kind i.word ≠ K.PASS) (noTaps : Tap.nrows i.word = 0) {tr : TabRec}
    (table : i.st.b.route.tabs[Tap.table i.word]? = some tr) :
    m.openPass i = m.mod (fun d => d.flagEmpty i.key i.word (tapTable m tr)) := by
  have isTap : (Ent.kind i.word != K.PASS) = true := bne_iff_ne.mpr tap
  simp only [Mach.openPass, isTap, noTaps, table, beq_self_eq_true, Bool.and_self, if_true, Dev.flagEmpty]
  split <;> rfl

end Tap

section TapEntry
variable {c : Instr} {k : Nat} {t : Fin 96} {i e : Nat} {l : ListSt} {st : StepSt} {s : State}
  (tap : (c, k) ∈ [(Instr.ctap t, K.CTAP), (.dtap t, K.DTAP)]) (h : Safety.issues s t.val l st i e) (kind : Ent.kind e = k)
include tap h kind

/-- CTAP and DTAP open their pass or tap entry. -/
theorem exec_tap : Safety.gives c s (((Safety.issued s t.val l).openPass (Safety.iss t.val l st i e)).checkBad t.val) := by
  simp only [List.mem_cons, Prod.mk.injEq, List.not_mem_nil, or_false] at tap
  obtain ⟨rfl, rfl⟩ | ⟨rfl, rfl⟩ := tap
  · exact gives_of_issue (c := .ctap t) h rfl (isKind_of_kind kind)
  · exact gives_of_issue (c := .dtap t) h rfl (isKind_of_kind kind)

theorem exec_tap_noTaps {tr : TabRec} (noTaps : Tap.nrows e = 0) (table : st.b.route.tabs[Tap.table e]? = some tr) :
    Safety.givesDev c s ((s.dev.setList t.val l.take).flagEmpty t.val e (tapTable (Safety.mach s) tr)) := by
  have notPass : Ent.kind e ≠ K.PASS := by
    simp only [List.mem_cons, Prod.mk.injEq, List.not_mem_nil, or_false] at tap
    obtain ⟨-, rfl⟩ | ⟨-, rfl⟩ := tap <;> rw [kind] <;> decide
  have tapped := exec_tap tap h kind
  rw [Mach.openPass_noTaps (i := Safety.iss t.val l st i e) notPass noTaps table, checkBad_of_taken h] at tapped
  · exact tapped
  · rw [Mach.mod_dev, Dev.flagEmpty]
    split <;> exact issued_bad

end TapEntry

/-! ### ARGMAX (R226 to R228) -/

/-- The word that ARGMAX stores for a pixel: its largest channel, and whether a NaN stood there. -/
def argmaxWord (e : Nat) (bs : List Byte) (px : Nat) : Nat :=
  let x := argmaxOf ((List.range (Argmax.nch e)).map (fun c => argValue (Argmax.ifmt e)
    (field bs (64 * ceilDiv (Argmax.npix e * outBytes (Argmax.ifmt e)) 64 * c + px * outBytes (Argmax.ifmt e))
      (outBytes (Argmax.ifmt e)))))
  x.1 + b2n x.2 * 2 ^ 15

/-- The bytes of the rows that ARGMAX reads. -/
def Mach.argmaxRows (m : Mach) (t e : Nat) : List Byte :=
  m.rdBytes (amAddr t (Argmax.srow e)) (64 * ceilDiv (Argmax.npix e * outBytes (Argmax.ifmt e)) 64 * Argmax.nch e)

/-- The rows that ARGMAX stores: a word for each pixel, and zeros up to the end of the last row. -/
def Mach.argmaxOut (m : Mach) (t e : Nat) : List Byte :=
  slice (((List.range (Argmax.npix e)).map (argmaxWord e (m.argmaxRows t e))).flatMap (leBytes 2)) 0
    (64 * ceilDiv (Argmax.npix e) 32)

/-- The machine after an ARGMAX: its rows are stored, and its pixels counted. -/
def Mach.argmaxed (m : Mach) (t e : Nat) : Mach :=
  (m.store (amAddr t (Argmax.drow e)) (m.argmaxOut t e)).mod (fun d =>
    d.cnt (Reg.TILE_CONV_CNT_k t 3) (Argmax.npix e))

theorem Mach.lists_argmaxed (m : Mach) (t e : Nat) : (m.argmaxed t e).dev.lists = m.dev.lists := by
  rw [Mach.argmaxed, Mach.mod_dev, Dev.cnt_frame]
  rfl

/-- ARGMAX stores its rows and counts its pixels. -/
theorem exec_argmax {t : Fin 96} {i e : Nat} {l : ListSt} {st : StepSt} {s : State} (noErrors : Safety.noErrors s)
    (h : Safety.issues s t.val l st i e) (kind : Ent.kind e = K.ARGMAX) :
    Safety.gives (.argmax t []) s ((Safety.issued s t.val l).argmaxed t.val e) := by
  obtain ⟨noUe, noCe, -, -⟩ := noErrors
  have stored := gives_of_issue (c := .argmax t []) h rfl (isKind_of_kind kind)
  simp only [Mach.tileRead_noErrors (m := Safety.issued s t.val l) noUe noCe] at stored
  have taken : (((Safety.issued s t.val l).argmaxed t.val e).dev.list t.val).map ListSt.bad = some l.take.bad := by
    rw [Dev.list, Mach.lists_argmaxed]
    exact issued_bad
  rw [← checkBad_of_taken h taken]
  exact stored

/-! ### SIGN (R183) -/

/-- SIGN folds the bytes of its rows into its signature register. -/
theorem exec_sign {t : Fin 96} {i e : Nat} {l : ListSt} {st : StepSt} {s : State} (noErrors : Safety.noErrors s)
    (h : Safety.issues s t.val l st i e) (kind : Ent.kind e = K.CHECK) (op : Chk.op e = 3) :
    Safety.givesDev (.sign t []) s ((s.dev.setList t.val l.take).modTile t.val (fun x => { x with
      sigs := modAt x.sigs (Chk.sig e) (fun v =>
        (crcParams 3).run v ((Safety.mach s).rdBytes (amAddr t.val (Chk.srow e)) (64 * Chk.nrows e))) })) := by
  obtain ⟨noUe, noCe, -, -⟩ := noErrors
  have isSign : (Ent.kind e == K.CHECK && Chk.op e == 3) = true := by rw [kind, op]; rfl
  have folded := gives_of_issue (c := .sign t []) h rfl isSign
  rw [Mach.tileRead_noErrors (m := Safety.issued s t.val l) noUe noCe, checkBad_of_taken h] at folded
  · exact folded
  · exact issued_bad

/-- Settles O44: a tap entry by what its opening meets, ARGMAX by the rows that it stores, SIGN by the register it folds. -/
theorem tapsArgmaxAndSign : Obligations.TapsArgmaxAndSign := by
  unfold Obligations.TapsArgmaxAndSign
  refine ⟨?taps, ?argmax, fun t i e l st s noErrors h kind op => exec_sign noErrors h kind op⟩
  case taps =>
    intro c k t i e l st s tap h kind
    have opened := exec_tap tap h kind
    refine ⟨fun taps win => ?opens, fun taps acc other set => ?faults, fun tr tb noTaps table htb => ?empty⟩
    case opens =>
      rw [Mach.openPass_taps (m := Safety.issued s t.val l) (i := Safety.iss t.val l st i e) taps win,
        checkBad_of_taken h] at opened
      · exact opened
      · exact issued_fly_bad
    case faults =>
      obtain ⟨w, hw⟩ := Option.ne_none_iff_exists'.mp set
      rwa [Mach.openPass_otherWin (m := Safety.issued s t.val l) (i := Safety.iss t.val l st i e) taps acc hw (other w hw)]
        at opened
    case empty =>
      subst htb
      exact exec_tap_noTaps tap h kind noTaps table
  case argmax =>
    intro t i e b pr l st bs words s ok noErrors flipped h kind hb hpr hbs hwords
    subst hb hpr hbs hwords
    have length : ((Safety.issued s t.val l).argmaxOut t.val e).length = 64 * ceilDiv (Argmax.npix e) 32 :=
      slice_length _ _ _
    have bytes := fun x => Memory.read_store (m := Safety.issued s t.val l) ok flipped (amAddr t.val (Argmax.drow e))
      ((Safety.issued s t.val l).argmaxOut t.val e) x
    rw [length] at bytes
    refine ⟨_, exec_argmax noErrors h kind, rfl, Dev.reg_cnt _ _ _, fun x inside => ?rows, fun x outside => ?others⟩
    case rows =>
      refine (bytes _).trans ?_
      rw [if_pos ⟨Nat.le_add_right _ _, Nat.add_lt_add_left inside _⟩, Nat.add_sub_cancel_left, Mach.argmaxOut,
        getD_slice_zero _ inside]
      rfl
    case others => exact (bytes x).trans (if_neg (by omega))

end Machine
end Sys2Proof
end

section
/-!
PROOFS. The ends of steps and what they leave (O47).
-/
namespace Sys2Proof
namespace Machine

/-! ### END (R184, R498) -/

theorem exec_endList {li : ListId} {i e : Nat} {l : ListSt} {st : StepSt} {s : State}
    (h : Safety.issues s (listKey li) l st i e) (kind : Ent.kind e = K.END) :
    Safety.givesDev (.endList li) s ((s.dev.setList (listKey li) l.take).setList (listKey li)
      { l.take with
        ended := true
        segment := none }) := by
  have ended := gives_of_issue (c := .endList li) h rfl (isKind_of_kind kind)
  have list : (s.dev.setList (listKey li) l.take).modList (listKey li) (fun x => { x with ended := true, segment := none })
      = (s.dev.setList (listKey li) l.take).setList (listKey li) { l.take with ended := true, segment := none } := by
    rw [Dev.modList, Dev.list_setList_same]
  rw [checkBad_of_taken h] at ended
  · rw [← list]
    exact givesDev_of_gives ended rfl
  · rw [Mach.mod_dev, Safety.iss, Dev.list_modList_same, Option.map_map]
    exact issued_bad

/-! ### What leaves the loops as they are: messages, replies and notifications -/

/-- A loop is read from the map of loops alone. -/
theorem Dev.loop_congr {d e : Dev} (h : d.loops = e.loops) (n : Nat) : d.loop n = e.loop n := by rw [Dev.loop, h, Dev.loop]

@[simp] theorem Dev.loops_cnt (d : Dev) (a n : Nat) : (d.cnt a n).loops = d.loops := by rw [d.cnt_frame]

@[simp] theorem Dev.loops_modList (d : Dev) (k : Nat) (f : ListSt → ListSt) : (d.modList k f).loops = d.loops := by
  rw [d.modList_frame]

@[simp] theorem Dev.loops_raise (d : Dev) (c s k u x : Nat) : (d.raise c s k u x).loops = d.loops := rfl
@[simp] theorem Dev.loops_raiseFor (d : Dev) (n c s k u x : Nat) : (d.raiseFor n c s k u x).loops = d.loops := rfl

theorem Dev.ColOnly.loops {d e : Dev} (h : Dev.ColOnly d e) : e.loops = d.loops := by
  rw [h.rest]

@[simp] theorem Dev.loops_putReply (d : Dev) (r : List Byte) (tag : Option Nat) : (d.putReply r tag).loops = d.loops :=
  Dev.loops_cnt _ _ _

@[simp] theorem Dev.loops_pumpRemote (d : Dev) : d.pumpRemote.loops = d.loops := by
  refine foldl_keeps Dev.loops (fun p _ e => ?_) d
  dsimp only
  split
  · split
    · exact (Dev.ColOnly.toPeer _ _ _ _).loops
    · rw [Dev.loops_putReply, Dev.loops_cnt]
  · rfl

@[simp] theorem Dev.loops_notify (d : Dev) (tag status : Nat) (payload : List Byte) :
    (d.notify tag status payload).loops = d.loops := by
  unfold Dev.notify
  split
  · rfl
  next op _ =>
    have counted (e : Dev) (ok : Prop) [Decidable ok] : (if ok then e else e.cnt (Reg.SDIO_CNT_k 7) 1).loops = e.loops := by
      split <;> simp
    dsimp only
    split
    · exact (Dev.ColOnly.toPeer _ _ _ _).loops.trans (counted _ _)
    · rw [Dev.place, Dev.loops_pumpRemote, Dev.loops_putReply, counted]

/-! ### What the end of a step leaves of the loops (R188, R280, R294, R466, R504)

Where a unit of tile memory is counted, its place is generalized first: the kernel would else compute it from the address. -/

@[simp] theorem Dev.loops_ndEvents (d : Dev) (es : List NdEvent) : (d.ndEvents es).loops = d.loops := by
  have counted : (es.foldl Dev.ndCount d).loops = d.loops := foldl_keeps Dev.loops (fun e _ d => by simp [Dev.ndCount]) d
  unfold Dev.ndEvents
  dsimp only
  split <;> exact counted

@[simp] theorem Dev.loops_grantOne (d : Dev) (key : Nat) (w : Waiter) : (d.grantOne key w).1.loops = d.loops :=
  Dev.loops_modList _ _ _

@[simp] theorem Dev.loops_releaseOne (d : Dev) (key : Nat) : (d.releaseOne key).1.loops = d.loops := by
  unfold Dev.releaseOne
  dsimp only
  split
  · rfl
  · generalize Dev.nextWaiter _ _ = next
    split
    · cases next <;> simp
    · rw [(Dev.ColOnly.colKick _ _ _).loops]
      cases next <;> simp

@[simp] theorem Dev.loops_dropResources (d : Dev) (n : Nat) : (d.dropResources n).loops = d.loops := by
  unfold Dev.dropResources
  dsimp only
  rw [Dev.loops_ndEvents]
  exact foldl_keeps (fun q : Dev × List NdEvent => q.1.loops) (fun p _ q => q.1.loops_releaseOne p.1) (d.withdraw n, [])

@[simp] theorem Dev.loops_safePassQ (d : Dev) (n : Nat) (b : Binding) : (d.safePassQ n b).loops = d.loops := by
  unfold Dev.safePassQ
  split
  · rfl
  · refine foldl_keeps Dev.loops (fun t _ e => ?_) d
    dsimp only
    have lossy : (if (e.tile t).lossy = 0 then e
        else (e.raiseFor n 1 Src.TILE 0x0100 t (e.tile t).lossy).cnt (Reg.SAF_CNT_k 11) (e.tile t).lossy).loops = e.loops := by
      split
      · rfl
      · exact Dev.loops_cnt _ _ _
    split
    · exact lossy
    · exact (Dev.loops_cnt _ _ _).trans lossy

@[simp] theorem Dev.loops_queuesLeft (d : Dev) (n : Nat) (b : Binding) : (d.queuesLeft n b).loops = d.loops := by
  refine foldl_keeps Dev.loops (fun t _ e => foldl_keeps Dev.loops (fun v _ e => ?_) e) d
  dsimp only
  split
  · rfl
  · rw [Dev.loops_raiseFor, Dev.setReg_loops]

@[simp] theorem Dev.loops_endTile (d : Dev) (t : Nat) : (d.endTile t).loops = d.loops := by
  have slots : ((List.range 6).foldl (fun d s => d.setReg (Reg.TILE_WR_SLOTn t s) 0) d).loops = d.loops :=
    foldl_keeps Dev.loops (fun s _ e => e.setReg_loops _ _) d
  rw [Dev.endTile]
  dsimp only
  rw [Dev.setReg_loops, Dev.modTile, Dev.setTile_loops, slots]

@[simp] theorem Dev.loops_modStream (d : Dev) (n : Nat) (f : StreamSt → StreamSt) : (d.modStream n f).loops = d.loops := by
  unfold Dev.modStream
  split <;> rfl

@[simp] theorem Dev.loops_finishClose (d : Dev) (n : Nat) : (d.finishClose n).loops = d.loops := by
  unfold Dev.finishClose
  split
  · rfl
  · split
    · dsimp only
      split
      · rw [Dev.loops_notify]
      · rfl
    · rfl

@[simp] theorem Dev.loops_unpin (d : Dev) (n : Nat) (bs : List Bound) : (d.unpin n bs).loops = d.loops := by
  refine foldl_keeps Dev.loops (fun b _ e => ?_) d
  rw [Dev.loops_finishClose, Dev.loops_modStream]

@[simp] theorem Dev.loops_corrected (d : Dev) (u : Nat) : (d.corrected u).loops = d.loops := by
  unfold Dev.corrected
  generalize tileMemRow u = place
  obtain ⟨t, mem, row⟩ := place
  dsimp only
  split
  · rw [Dev.loops_cnt]
  · split
    next => rw [Dev.loops_raise]
    next => rw [Dev.loops_raise]
    iterate 3
      next => rw [Dev.setReg_loops, Dev.loops_cnt]
    next => rfl

@[simp] theorem Dev.loops_uncorrectable (d : Dev) (u req loop : Nat) : (d.uncorrectable u req loop).loops = d.loops := by
  unfold Dev.uncorrectable
  generalize tileMemRow u = place
  obtain ⟨t, mem, row⟩ := place
  dsimp only
  split
  · have counted (e : Dev) (o : Prop) [Decidable o] : (if o then e.cnt (Reg.HBM_CNT_k 2) 1 else e).loops = e.loops := by
      split
      · rw [Dev.loops_cnt]
      · rfl
    split
    · rw [Dev.loops_raiseFor, Dev.setReg_loops, Dev.setReg64_loops, counted, Dev.loops_cnt]
    · rw [Dev.loops_raise, Dev.setReg_loops, Dev.setReg64_loops, counted, Dev.loops_cnt]
  · split
    next => rw [Dev.loops_raise]
    next => rw [Dev.loops_raise]
    iterate 3
      next => rw [Dev.setReg_loops, Dev.loops_cnt]
    next => rfl

@[simp] theorem Mach.loops_eccRead (m : Mach) (a n req loop : Nat) : (m.eccRead a n req loop).1.dev.loops = m.dev.loops := by
  have corrects (d : Dev) (us : List Nat) : (us.foldl Dev.corrected d).loops = d.loops :=
    foldl_keeps Dev.loops (fun u _ e => e.loops_corrected u) d
  unfold Mach.eccRead
  dsimp only
  split <;> simp only [Mach.mod_dev, Dev.loops_uncorrectable, corrects]

@[simp] theorem Mach.loops_copyPost (m : Mach) (n : Nat) (st : StepSt) : (m.copyPost n st).dev.loops = m.dev.loops := by
  unfold Mach.copyPost
  dsimp only
  split
  · rfl
  · split
    next read => exact (congrArg (fun x => x.1.dev.loops) read).symm.trans (m.loops_eccRead _ _ _ _)
    next read => exact (congrArg (fun x => x.1.dev.loops) read).symm.trans (m.loops_eccRead _ _ _ _)

theorem Dev.loops_cairnMiss (d : Dev) (n : Nat) : (d.cairnMiss n).loops = d.loops := by
  unfold Dev.cairnMiss
  split
  · rfl
  · dsimp only
    split <;> split <;> simp only [Dev.loops_raiseFor, Dev.setReg_loops, Dev.loops_cnt]

theorem Dev.loops_cairnPass (d : Dev) : d.cairnPass.loops = d.loops := by
  rw [Dev.cairnPass]
  exact Dev.loops_cnt _ _ _

theorem Dev.loops_cairnVoid (d : Dev) (n win : Nat) : (d.cairnVoid n win).loops = d.loops := by
  rw [Dev.cairnVoid, Dev.loops_raiseFor, Dev.wf_loops, Dev.loops_cnt]

@[simp] theorem Dev.loops_cairnCheck (d : Dev) (n : Nat) (st : StepSt) : (d.cairnCheck n st).loops = d.loops := by
  unfold Dev.cairnCheck
  split
  · rfl
  · dsimp only
    split
    · exact d.loops_cairnVoid n _
    · split
      · exact d.loops_cairnPass
      · exact d.loops_cairnMiss n

/-! ### The end of a step leaves its loop (R188, R280) -/

/-- The end of a boost changes the loop's step alone. -/
theorem Dev.deferred_endBoost (d : Dev) (n : Nat) : ((d.endBoost n).loop n).deferred = (d.loop n).deferred := by
  unfold Dev.endBoost
  split
  · rfl
  · split
    · rfl
    · rw [Dev.modStep, Dev.modLoop, Dev.loop_setLoop_same]
      rfl

/-- The account of a step that has ended: its boost ends, its beats are charged, and a Cairn step is checked. -/
def Dev.settleStep (d : Dev) (n beats : Nat) (st : StepSt) : Dev :=
  if st.cairn then ((d.endBoost n).charge n beats).cairnCheck n st else (d.endBoost n).charge n beats

theorem Dev.deferred_settleStep (d : Dev) (n beats : Nat) (st : StepSt) :
    ((d.settleStep n beats st).loop n).deferred = (d.loop n).deferred := by
  have charged : (((d.endBoost n).charge n beats).loop n).deferred = (d.loop n).deferred := by
    rw [Dev.charge, Dev.modLoop, Dev.loop_setLoop_same, Dev.deferred_endBoost]
  unfold Dev.settleStep
  split
  · rw [Dev.loop_congr (Dev.loops_cairnCheck _ _ _), charged]
  · exact charged

/-- A step that used no Tarn context leaves its loop without a step, and the loop otherwise as it was. -/
theorem Mach.loop_leaveStep {m : Mach} {n : Nat} {st : StepSt} (noCtx : st.ctx = none) (commit : Bool) :
    (m.leaveStep n st commit).dev.loop n = { m.dev.loop n with step := none } := by
  have notified (d : Dev) : (st.preemptTags.foldl (fun d t => d.notify t ST.STATE []) d).loops = d.loops :=
    foldl_keeps Dev.loops (fun t _ e => e.loops_notify t _ _) d
  have ended (d : Dev) (ts : List Nat) : (ts.foldl Dev.endTile d).loops = d.loops :=
    foldl_keeps Dev.loops (fun t _ e => e.loops_endTile t) d
  unfold Mach.leaveStep
  rw [noCtx]
  refine (Dev.loop_setLoop_same _ _ _).trans (congrArg (fun l : LoopSt => { l with step := none }) (Dev.loop_congr ?_ n))
  refine (notified _).trans ((Dev.loops_unpin _ _ _).trans ?_)
  cases st.phase != .preempted
  case false => exact (Dev.loops_safePassQ _ _ _).trans (Dev.loops_dropResources _ _)
  case true =>
    exact (ended _ _).trans ((Dev.loops_queuesLeft _ _ _).trans
      ((Dev.loops_safePassQ _ _ _).trans (Dev.loops_dropResources _ _)))

/-- With no command that waits, the end of a step changes nothing more of its loop. -/
theorem Mach.applyDeferred_none {m : Mach} {n : Nat} (noneWaits : (m.dev.loop n).deferred = []) :
    m.applyDeferred n = m.mod (fun d => d.modLoop n (fun l => { l with deferred := [] })) := by
  rw [Mach.applyDeferred, noneWaits]
  rfl

/-- The running step of a loop, each of whose lists has completed its END. -/
structure Dev.StepFinished (d : Dev) (n : Nat) (st : StepSt) : Prop where
  step : (d.loop n).step = some st
  running : st.phase = .running
  ended : ∀ p ∈ d.lists, p.2.loop = n → p.2.ended = true

/-- Every list either serves another loop or has ended. -/
theorem Dev.StepFinished.all_ended {d : Dev} {n : Nat} {st : StepSt} (finished : d.StepFinished n st) :
    List.all d.lists (fun p : Nat × ListSt => p.2.loop != n || p.2.ended) = true := by
  rw [List.all_eq_true]
  intro p hp
  rw [Bool.or_eq_true, bne_iff_ne]
  exact or_iff_not_imp_left.mpr fun own => finished.ended p hp (not_not.mp own)

/-- The machine once a step has left its loop: its post is copied, STEPS counts, and what waited for its end applies. -/
def Mach.stepLeft (m : Mach) (n : Nat) (st : StepSt) : Mach :=
  (((m.copyPost n st).leaveStep n st true).mod (fun d => d.loopCnt n 0)).applyDeferred n

/-- A step that used no Tarn context, with no command that waits, leaves its loop without a step. -/
theorem Mach.step_stepLeft {m : Mach} {n : Nat} {st : StepSt} (noCtx : st.ctx = none)
    (noneWaits : (m.dev.loop n).deferred = []) : ((m.stepLeft n st).dev.loop n).step = none := by
  have left : (((m.copyPost n st).leaveStep n st true).mod (fun d => d.loopCnt n 0)).dev.loop n
      = { m.dev.loop n with step := none } := by
    rw [Mach.mod_dev, Dev.loopCnt, Dev.loop_congr (Dev.loops_cnt _ _ _), Mach.loop_leaveStep noCtx,
      Dev.loop_congr (Mach.loops_copyPost _ _ _)]
  rw [Mach.stepLeft, Mach.applyDeferred_none (by rw [left]; exact noneWaits), Mach.mod_dev, Dev.modLoop,
    Dev.loop_setLoop_same, left]

section StepEnd
variable {n : Fin 16} {st : StepSt} {s : State} (finished : s.dev.StepFinished n.val st) (beats : Nat)
include finished

/-- With nothing against its Tarn context the step leaves its loop. -/
theorem exec_stepEnd_left (clean : ∀ c, st.ctx = some c → (Safety.mach s).tarnEndFault c = none) :
    Safety.gives (.stepEnd n beats) s (((Safety.mach s).mod (fun d => d.settleStep n.val beats st)).stepLeft n.val st) := by
  have hd : exec (.stepEnd n beats) s = execStepEnd n beats s := rfl
  have noFault : st.ctx.bind (fun c => ((Safety.mach s).tarnEndFault c).map (fun f => (c, f))) = none := by
    rw [Option.bind_eq_none_iff]
    exact fun c hc => by rw [clean c hc, Option.map_none]
  have settled : (if st.cairn then ((Safety.mach s).mod (fun d => (d.endBoost n.val).charge n.val beats)).mod (fun d =>
        d.cairnCheck n.val st) else (Safety.mach s).mod (fun d => (d.endBoost n.val).charge n.val beats))
      = (Safety.mach s).mod (fun d => d.settleStep n.val beats st) := by
    unfold Dev.settleStep
    cases st.cairn <;> rfl
  have allEnded := finished.all_ended
  unfold Safety.mach at noFault settled
  rw [Safety.gives, hd, execStepEnd, run_eq]
  simp only [finished.step, finished.running, allEnded, noFault, settled, bne_self_eq_false, Bool.not_true, Bool.or_self,
    Bool.false_eq_true, if_false]
  rfl

/-- The entry at which a fault of the Tarn engine's END stands (R267). -/
def Dev.tarnLastEntry (d : Dev) (n : Nat) : Nat :=
  match d.list (96 + n) with
  | some l => l.count - 1
  | none => 0

/-- What stands against its Tarn context is a fault that aborts the step. -/
theorem exec_stepEnd_fault {c code detail : Nat} (ctx : st.ctx = some c)
    (fault : (Safety.mach s).tarnEndFault c = some (code, detail)) : Safety.gives (.stepEnd n beats) s
      (((Safety.mach s).mod (fun d => d.raiseFor n.val 1 Src.TARN code c
        (if code = 5 then s.dev.tarnLastEntry n.val else detail))).abortWith n.val (some beats)) := by
  have hd : exec (.stepEnd n beats) s = execStepEnd n beats s := rfl
  have allEnded := finished.all_ended
  unfold Safety.mach at fault
  rw [Safety.gives, hd, execStepEnd, run_eq]
  simp only [finished.step, finished.running, allEnded, ctx, fault, Option.bind_some, Option.map_some, bne_self_eq_false,
    Bool.not_true, Bool.or_self, Bool.false_eq_true, if_false]
  rfl

end StepEnd

/-! ### A post becomes visible (R466) -/

theorem exec_post {n : Fin 16} {stamp : Nat} {rows : List Byte} {rest : List (Nat × List Byte)} {s : State}
    (oldest : AMap.getD s.dev.posts n.val [] = (stamp, rows) :: rest) : Safety.gives (.post n) s
      (((Safety.mach s).mod (fun d => { d with posts :=
        (if rest.isEmpty then AMap.erase d.posts n.val else AMap.set d.posts n.val rest) })).postRows (postRecords rows) stamp
          (n.val + 1)) := by
  have hd : exec (.post n) s = execPost n s := rfl
  rw [Safety.gives, hd, execPost, run_eq]
  simp only [oldest]
  rfl

/-! ### Grace (R246) -/

/-- A block of a namespace that has been freed is in the list of free nodes and in no grace. -/
theorem Mach.freeBlock_frees {m : Mach} {i : Nat} (held : Bool) (ns : (m.dev.nsRec (m.nd i Nd.NSID 1)).isSome) :
    i ∈ (m.freeBlock i held).dev.tarn.nodeFree ∧ AMap.find (m.freeBlock i held).dev.tarn.grace i = none := by
  obtain ⟨r, hr⟩ := Option.isSome_iff_exists.mp ns
  unfold Mach.freeBlock
  dsimp only
  rw [hr]
  cases AMap.find m.dev.tarn.orphans i with
  | some nl => exact ⟨List.mem_append_right _ (List.mem_singleton_self i), AMap.find_erase_same _ i⟩
  | none => exact ⟨List.mem_append_right _ (List.mem_singleton_self i), AMap.find_erase_same _ i⟩

section Grace
variable {node : Fin 1048576} {held : Bool} {s : State} (grace : AMap.find s.dev.tarn.grace node.val = some held)
include grace

theorem exec_graceFree_past (past : (Safety.mach s).graceOver node.val = true) :
    Safety.gives (.graceFree node) s ((Safety.mach s).freeBlock node.val held) := by
  have hd : exec (.graceFree node) s = execGraceFree node s := rfl
  unfold Safety.mach at past ⊢
  rw [Safety.gives, hd, execGraceFree, run_eq]
  simp only [grace, past, if_true]

theorem exec_graceFree_inUse (inUse : (Safety.mach s).graceOver node.val = false) :
    Safety.givesDev (.graceFree node) s s.dev := by
  have hd : exec (.graceFree node) s = execGraceFree node s := rfl
  unfold Safety.mach at inUse
  rw [Safety.givesDev, hd, execGraceFree, run_eq]
  simp only [grace, inUse, Bool.false_eq_true, if_false]
  rfl

end Grace

/-! ### TRN_CTRL.EN (R12, R232) -/

/-- The areas that the engine's region may not meet. -/
def Mach.areasInUse (m : Mach) : List Area :=
  m.dev.saveAreas ++ m.streamAreas ++ m.dev.poolAreas ++ m.dev.imageAreas ++ m.dev.tarinadyAreas ++ m.dev.flashAreas

theorem exec_trnEn (en : Bool) (s : State) : Safety.givesDev (.trnEn en) s
    (if !s.dev.tarn.openSlots.isEmpty || (en && anyArea s.dev.trnRegion (Safety.mach s).areasInUse) then
      s.dev.wf Reg.TRN_STAT Fld.TRN_STAT.CFG_LOCKED_WRITE 1
    else (if en && s.dev.rf Reg.TRN_CTRL Fld.TRN_CTRL.EN = 0 then s.dev.freshTables else s.dev).wf Reg.TRN_CTRL
      Fld.TRN_CTRL.EN (b2n en)) := rfl

/-- Settles O47: END by the list that it changes, the step's end by what stands against its context, the post and the grace by
their tables, TRN_CTRL.EN by what locks it. -/
theorem stepEndsLeaveLoop : Obligations.StepEndsLeaveLoop := by
  unfold Obligations.StepEndsLeaveLoop
  refine ⟨fun li i e l st s h kind => exec_endList h kind, ?left, ?noStep, ?fault,
    fun n stamp rows rest s oldest => exec_post oldest, ?grace, ?locked, ?disabled, ?enabled⟩
  case left =>
    intro n beats st m s step running ended clean hm
    subst hm
    exact exec_stepEnd_left ⟨step, running, ended⟩ beats clean
  case noStep =>
    intro n beats st s step running ended noCtx noneWaits
    have finished : s.dev.StepFinished n.val st := ⟨step, running, ended⟩
    have noContext : ∀ c, st.ctx = some c → (Safety.mach s).tarnEndFault c = none := fun c hc => nomatch noCtx.symm.trans hc
    have settled := (s.dev.deferred_settleStep n.val beats st).trans noneWaits
    exact ⟨_, exec_stepEnd_left finished beats noContext, Mach.step_stepLeft noCtx settled⟩
  case fault =>
    intro n beats c code detail st s step running ended ctx fault
    exact exec_stepEnd_fault ⟨step, running, ended⟩ beats ctx fault
  case grace =>
    intro node held s grace
    exact ⟨fun past ns => ⟨_, exec_graceFree_past grace past, Mach.freeBlock_frees held ns⟩, exec_graceFree_inUse grace⟩
  case locked =>
    intro en s opened
    have written := exec_trnEn en s
    have isOpen : s.dev.tarn.openSlots.isEmpty = false := by simpa using opened
    rwa [isOpen, Bool.not_false, Bool.true_or, if_pos rfl] at written
  case disabled =>
    intro s closed
    have written := exec_trnEn false s
    rw [closed] at written
    exact written
  case enabled =>
    intro s closed
    have written := exec_trnEn true s
    rw [closed] at written
    simp only [List.isEmpty_nil, Bool.not_true, Bool.false_or, Bool.true_and, decide_eq_true_eq] at written
    exact written

end Machine
end Sys2Proof
end

section
/-!
PROOFS. Namespaces, sequences, edits and batch tables (O27).
-/
namespace Sys2Proof
namespace Machine

/-! ### What leaves the engine's own state as it is: stores, counters, checked reads and the prompt's search -/

@[simp] theorem Mach.tarn_setSq (m : Mach) (q o n v : Nat) : (m.setSq q o n v).dev.tarn = m.dev.tarn := rfl
@[simp] theorem Mach.tarn_refreshSeq (m : Mach) (q : Nat) : (m.refreshSeq q).dev.tarn = m.dev.tarn := rfl

@[simp] theorem Dev.tarn_nextEpoch (d : Dev) : d.nextEpoch.tarn = d.tarn := rfl
@[simp] theorem Dev.tarn_cnt (d : Dev) (a n : Nat) : (d.cnt a n).tarn = d.tarn := by rw [d.cnt_frame]

/-- The place of a unit of tile memory is generalized first: the kernel would else compute it from the address. -/
theorem Dev.tarn_corrected (d : Dev) (u : Nat) : (d.corrected u).tarn = d.tarn := by
  unfold Dev.corrected
  generalize tileMemRow u = place
  obtain ⟨t, mem, row⟩ := place
  dsimp only
  split
  · rw [Dev.tarn_cnt]
  · split
    iterate 2
      next => rfl
    iterate 3
      next => rw [Dev.setReg_tarn, Dev.tarn_cnt]
    next => rfl

/-- A checked read that meets no uncorrectable unit only corrects others. -/
theorem Mach.tarn_eccRead {m m0 : Mach} {a n req loop : Nat} (read : m.eccRead a n req loop = (m0, none)) :
    m0.dev.tarn = m.dev.tarn := by
  unfold Mach.eccRead at read
  dsimp only at read
  split at read
  · cases read
    exact foldl_keeps Dev.tarn (fun u _ d => d.tarn_corrected u) m.dev
  · cases read

@[simp] theorem Mach.tarn_lookup (m : Mach) (h nsid parent : Nat) (toks : List Byte) :
    (m.lookup h nsid parent toks).1.dev.tarn = m.dev.tarn := by
  unfold Mach.lookup
  dsimp only
  split
  · exact Dev.tarn_cnt _ _ _
  · rfl

/-- The search of a prompt finds at most its full blocks, and leaves the engine's own state as it is. -/
theorem Mach.matchPrompt_spec (r : NsRec) (nsid : Nat) (toks : List Byte) (k parent ph : Nat) (m : Mach) :
    (m.matchPrompt r nsid toks k parent ph).2.length ≤ k
      ∧ (m.matchPrompt r nsid toks k parent ph).1.dev.tarn = m.dev.tarn := by
  induction k generalizing m toks parent ph with
  | zero => exact ⟨Nat.le_refl 0, rfl⟩
  | succ k ih =>
    have searched := m.tarn_lookup (blockHash ph (toks.take 128)) nsid parent (toks.take 128)
    rw [Mach.matchPrompt]
    dsimp only
    split
    next m' miss => rw [miss] at searched; exact ⟨Nat.zero_le _, searched⟩
    next m' i hit =>
      rw [hit] at searched
      obtain ⟨short, kept⟩ := ih (toks.drop 128) i (blockHash ph (toks.take 128)) m'
      exact ⟨Nat.succ_le_succ short, kept.trans searched⟩

/-! ### NS_CONFIG (R233, R234) -/

theorem Dev.nsRec_setNs_same (d : Dev) (n : Nat) (r : NsRec) : (d.setNs n r).nsRec n = some r :=
  AMap.find_set_same _ _ _

/-- A configuration that no check refuses takes effect once the namespace's old blocks have left the tree. -/
theorem exec_nsConfig {tag : BitVec 16} {p : Packet} {s : State} (ready : Safety.ready s 0x0407 tag.toNat p)
    (low : pay8 p.payload 0 < 16) (inRange : (nsOf p.payload).outOfRange (pay8 p.payload 6) = false)
    (clear : s.dev.nsRangesBad (pay8 p.payload 0) (nsOf p.payload) = false)
    (unused : (Safety.mach s).openSeqs.any (fun q => (Safety.mach s).sq q Sq.NSID 1 == pay8 p.payload 0) = false) :
    Safety.gives (.nsConfig tag) s (((((Safety.mach s).mod Dev.nextEpoch).clearNs (pay8 p.payload 0)).mod (fun d =>
      d.setNs (pay8 p.payload 0) (nsOf p.payload))).ok p []) := by
  have configured := gives_of_cmd (c := .nsConfig tag) rfl ready
  have clearHere : (Safety.mach s).dev.nsRangesBad (pay8 p.payload 0) (nsOf p.payload) = false := clear
  simp only [ge_iff_le, Nat.not_le.mpr low, decide_false, inRange, clearHere, unused, Bool.or_self, Bool.false_eq_true,
    if_false] at configured
  exact configured

/-! ### SEQ_OPEN (R237, R247, R257 to R259) -/

/-- The blocks that match a prompt, and the machine that has searched for them. -/
def Mach.promptMatch (m : Mach) (p : Packet) (r : NsRec) : Mach × List Nat :=
  (m.mod Dev.nextEpoch).matchPrompt r (pay8 p.payload 0)
    ((m.mod Dev.nextEpoch).rdBytes (pay64 p.payload 16) (128 * (pay32 p.payload 12 / 32))) (pay32 p.payload 12 / 32) noNode
    (rootHash r (pay8 p.payload 0))

/-- A matched block joins the blocks of a slot. -/
def Mach.takeMatch (m : Mach) (q : Nat) (h : Nat × Nat) : Mach :=
  ((m.setBlk q h.1 h.2).ref h.2).setNd h.2 Nd.LASTUSE 4 m.dev.epoch

theorem Mach.tarn_takeMatch (m : Mach) (q : Nat) (h : Nat × Nat) : (m.takeMatch q h).dev.tarn = m.dev.tarn := rfl

/-- A slot opened with the blocks that match its prompt. -/
def Mach.openMatched (m : Mach) (p : Packet) (q : Nat) (hits : List Nat) : Mach :=
  ((((((List.range hits.length).zip hits).foldl (fun m h => m.takeMatch q h)
      (m.openSlot q (pay8 p.payload 0) (pay32 p.payload 4) (pay32 p.payload 8))).setSq q Sq.NBLK 4 hits.length).setSq q
    Sq.LEN 4 (32 * hits.length)).refreshSeq q).mod (fun d => (d.cnt (Reg.TRN_CNT_k 4) hits.length).cnt (Reg.TRN_CNT_k 5)
      (b2n (decide (hits.length < pay32 p.payload 12 / 32))))

theorem Mach.openSlots_openSlot (m : Mach) (q nsid maxlen user : Nat) :
    (m.openSlot q nsid maxlen user).dev.tarn.openSlots = m.dev.tarn.openSlots ++ [q] := rfl

/-- The slot joins the open ones. -/
theorem Mach.openSlots_openMatched (m : Mach) (p : Packet) (q : Nat) (hits : List Nat) :
    (m.openMatched p q hits).dev.tarn.openSlots = m.dev.tarn.openSlots ++ [q] := by
  have linked (m' : Mach) : (((List.range hits.length).zip hits).foldl (fun m h => m.takeMatch q h) m').dev.tarn
      = m'.dev.tarn := foldl_keeps (fun m : Mach => m.dev.tarn) (fun h _ m => m.tarn_takeMatch q h) m'
  simp only [Mach.openMatched, Mach.mod_dev, Dev.tarn_cnt, Mach.tarn_refreshSeq, Mach.tarn_setSq, linked,
    Mach.openSlots_openSlot]

section SeqOpen
variable {tag : BitVec 16} {p : Packet} {s : State} (ready : Safety.ready s 0x0408 tag.toNat p)
include ready

theorem exec_seqOpen_disabled (off : bit (s.dev.reg Reg.TRN_CTRL) 0 = false) :
    Safety.givesDev (.seqOpen tag) s (s.dev.reply p ST.STATE []) := by
  have opened := gives_of_cmd (c := .seqOpen tag) rfl ready
  have offHere : bit ((Safety.mach s).dev.reg Reg.TRN_CTRL) 0 = false := off
  simp only [offHere, Bool.not_false, if_true] at opened
  exact givesDev_of_gives opened rfl

variable (on : bit (s.dev.reg Reg.TRN_CTRL) 0 = true)
include on

theorem exec_seqOpen_full (full : (Safety.mach s).freeSlot = none) :
    Safety.givesDev (.seqOpen tag) s (s.dev.reply p ST.TABLE_FULL []) := by
  have opened := gives_of_cmd (c := .seqOpen tag) rfl ready
  have onHere : bit ((Safety.mach s).dev.reg Reg.TRN_CTRL) 0 = true := on
  simp only [onHere, full, Bool.not_true, Bool.false_eq_true, if_false] at opened
  exact givesDev_of_gives opened rfl

/-- A prompt that can be read opens the lowest free slot with the blocks that match it. -/
theorem exec_seqOpen_matched {q : Nat} {r : NsRec} {m0 : Mach} (free : (Safety.mach s).freeSlot = some q)
    (ns : s.dev.nsRec (pay8 p.payload 0) = some r) (blocks : pay32 p.payload 4 % 32 = 0) (least : 32 ≤ pay32 p.payload 4)
    (most : pay32 p.payload 4 ≤ 262144) (fits : pay32 p.payload 12 ≤ pay32 p.payload 4)
    (inMem : inHbm (pay64 p.payload 16, 4 * pay32 p.payload 12) = true)
    (read : (Safety.mach s).eccRead (pay64 p.payload 16) (4 * pay32 p.payload 12) 120 0xFF = (m0, none)) :
    Safety.gives (.seqOpen tag) s (((m0.promptMatch p r).1.openMatched p q (m0.promptMatch p r).2).ok p
      (leBytes 2 (seqIdOf ((m0.promptMatch p r).1.openMatched p q (m0.promptMatch p r).2) q) ++ [0, 0]
        ++ leBytes 4 (32 * (m0.promptMatch p r).2.length))) := by
  have opened := gives_of_cmd (c := .seqOpen tag) rfl ready
  have onHere : bit ((Safety.mach s).dev.reg Reg.TRN_CTRL) 0 = true := on
  have nsHere : (Safety.mach s).dev.nsRec (pay8 p.payload 0) = some r := ns
  simp only [onHere, free, nsHere, blocks, Nat.not_lt.mpr least, gt_iff_lt, Nat.not_lt.mpr most, Nat.not_lt.mpr fits, inMem,
    read, ne_eq, not_true, decide_false, Bool.not_true, Bool.or_self, Bool.false_eq_true, if_false] at opened
  exact opened

end SeqOpen

/-! ### Edits (R251, R252) -/

section Edit
variable {c : Instr} {op : Nat} {tag : BitVec 16} {p : Packet} {s : State}
  (edit : (c, op) ∈ [(Instr.seqClose tag, 0x0409), (.seqFork tag, 0x040A), (.seqTruncate tag, 0x040B), (.seqDrop tag, 0x040C)])
include edit

/-- The four edits run one meaning, by their opcodes. -/
theorem exec_edit : exec c s = run (fun m => m.editCmd op tag.toNat) s := by
  simp only [List.mem_cons, Prod.mk.injEq, List.not_mem_nil, or_false] at edit
  obtain ⟨rfl, rfl⟩ | ⟨rfl, rfl⟩ | ⟨rfl, rfl⟩ | ⟨rfl, rfl⟩ := edit
  · exact (rfl : exec (.seqClose tag) s = execSeqClose tag s)
  · exact (rfl : exec (.seqFork tag) s = execSeqFork tag s)
  · exact (rfl : exec (.seqTruncate tag) s = execSeqTruncate tag s)
  · exact (rfl : exec (.seqDrop tag) s = execSeqDrop tag s)

variable (ready : Safety.ready s op tag.toNat p)
include ready

theorem exec_edit_notOpen (absent : (Safety.mach s).seqOfId (pay16 p.payload 0) = none) :
    Safety.givesDev c s (s.dev.reply p ST.NOT_FOUND []) := by
  have edited := gives_of_cmd (exec_edit edit) ready
  simp only [absent] at edited
  exact givesDev_of_gives edited rfl

variable {q : Nat} (named : (Safety.mach s).seqOfId (pay16 p.payload 0) = some q)
include named

theorem exec_edit_held (held : (Safety.mach s).inuse q = true) (room : s.dev.tarn.edits.length < 4096) :
    Safety.gives c s (((((Safety.mach s).mod Dev.nextEpoch).setSeqFlag q 2 true).mod (fun d => d.modTarn (fun t =>
      { t with edits := t.edits ++ [⟨p.tag, op, p.payload⟩] }))).answer p ST.DEFERRED []) := by
  have edited := gives_of_cmd (exec_edit edit) ready
  have roomHere : ¬ (Safety.mach s).dev.tarn.edits.length ≥ 4096 := Nat.not_le.mpr room
  simp only [named, held, roomHere, if_true, if_false] at edited
  exact edited

theorem exec_edit_free (idle : (Safety.mach s).inuse q = false) {m : Mach} {st : Nat} {out : List Byte}
    (applied : ((Safety.mach s).mod Dev.nextEpoch).applyEdit op p.payload = (m, st, out)) :
    Safety.gives c s (if st = ST.OK then m.ok p out else (Safety.mach s).fail p st) := by
  have edited := gives_of_cmd (exec_edit edit) ready
  simp only [named, idle, applied, Bool.false_eq_true, if_false] at edited
  exact edited

end Edit

/-! ### BATCH_SET (R239) -/

/-- The table that a BATCH_SET fills: its sequences, and 0xFFFF from COUNT up. -/
def batchTable (payload : List Byte) : List Nat :=
  (List.range (pay16 payload 2)).map (fun i => pay16 payload (4 + 2 * i)) ++ List.replicate (256 - pay16 payload 2) 0xFFFF

theorem batchTable_length {payload : List Byte} (fits : pay16 payload 2 ≤ 256) : (batchTable payload).length = 256 := by
  rw [batchTable, List.length_append, List.length_map, List.length_range, List.length_replicate, Nat.add_sub_cancel' fits]

theorem batchTable_named {payload : List Byte} {i : Nat} (named : i < pay16 payload 2) :
    (batchTable payload).getD i 0 = pay16 payload (4 + 2 * i) := by
  have inside : i < ((List.range (pay16 payload 2)).map (fun i => pay16 payload (4 + 2 * i))).length := by simpa using named
  rw [batchTable, List.getD_append _ _ _ _ inside, List.getD_eq_getElem _ _ inside, List.getElem_map, List.getElem_range]

theorem batchTable_empty {payload : List Byte} {i : Nat} (past : pay16 payload 2 ≤ i) (inside : i < 256) :
    (batchTable payload).getD i 0 = 0xFFFF := by
  have beyond : ((List.range (pay16 payload 2)).map (fun i => pay16 payload (4 + 2 * i))).length ≤ i := by simpa using past
  have left : i - pay16 payload 2 < 256 - pay16 payload 2 := by omega
  rw [batchTable, List.getD_append_right _ _ _ _ beyond, List.length_map, List.length_range, List.getD_replicate _ left]

theorem exec_batchSet {tag : BitVec 16} {p : Packet} {s : State} (ready : Safety.ready s 0x040D tag.toNat p)
    (loop : pay8 p.payload 0 ≤ 15) (fits : pay16 p.payload 2 ≤ 256) :
    Safety.givesDev (.batchSet tag) s ((s.dev.nextEpoch.modTarn (fun t =>
      { t with batches := AMap.set t.batches (pay8 p.payload 0) (batchTable p.payload) })).reply p ST.OK []) := by
  have filled := gives_of_cmd (c := .batchSet tag) rfl ready
  simp only [gt_iff_lt, Nat.not_lt.mpr loop, Nat.not_lt.mpr fits, decide_false, Bool.or_self, Bool.false_eq_true,
    if_false] at filled
  exact givesDev_of_gives filled rfl

/-- Settles O27: each packet by the branch that its checks take; the open slots, the queued edits and the batch table are read
from the engine's own state, which stores and counters leave as it is. -/
theorem tarnPackets : Obligations.TarnPackets := by
  unfold Obligations.TarnPackets
  refine ⟨?config, ?refused, ?opened, ?edited, fun c op tag p s edit ready absent => exec_edit_notOpen edit ready absent,
    ?queued, ?batch⟩
  case config =>
    intro tag p s ready low inRange clear unused
    exact ⟨_, exec_nsConfig ready low inRange clear unused, Dev.nsRec_setNs_same _ _ _⟩
  case refused =>
    intro tag p s ready
    exact ⟨exec_seqOpen_disabled ready, exec_seqOpen_full ready⟩
  case opened =>
    intro tag p q r m0 s ready on free ns blocks least most fits inMem read
    obtain ⟨short, kept⟩ := Mach.matchPrompt_spec r (pay8 p.payload 0)
      ((m0.mod Dev.nextEpoch).rdBytes (pay64 p.payload 16) (128 * (pay32 p.payload 12 / 32))) (pay32 p.payload 12 / 32) noNode
      (rootHash r (pay8 p.payload 0)) (m0.mod Dev.nextEpoch)
    refine ⟨_, _, exec_seqOpen_matched ready on free ns blocks least most fits inMem read, short, ?_⟩
    rw [Mach.openSlots_openMatched, Mach.promptMatch, kept, Mach.mod_dev, Dev.tarn_nextEpoch, Mach.tarn_eccRead read]
    rfl
  case edited =>
    intro c op tag p q s edit ready named idle m st out applied
    have answered := exec_edit_free edit ready named idle applied
    refine ⟨fun done => ?applied, fun failed => ?failed⟩
    case applied => rwa [if_pos done] at answered
    case failed =>
      rw [if_neg failed] at answered
      exact givesDev_of_gives answered rfl
  case queued =>
    intro c op tag p q s edit ready named held room
    exact ⟨_, exec_edit_held edit ready named held room, rfl⟩
  case batch =>
    intro tag p s ready loop fits
    exact ⟨_, exec_batchSet ready loop fits, batchTable p.payload, AMap.find_set_same _ _ _, batchTable_length fits,
      fun i => batchTable_named, fun i => batchTable_empty⟩

end Machine
end Sys2Proof
end

section
/-!
PROOFS. Calls of the Tarn list (O45).
-/
namespace Sys2Proof
namespace Machine

/-! ### Bytes read from one memory -/

/-- A byte is read from the memory, the stores of the log and the regions that flash holds complemented. -/
theorem Mach.rd_congr {m m' : Mach} (base : m.base = m'.base) (log : m.log = m'.log) (flash : m.dev.flash = m'.dev.flash)
    (a : Nat) : m.rd a = m'.rd a := by
  rw [Mach.rd, Mach.rd, base, log, Dev.held8, Dev.held8, flash]

theorem Mach.rdBytes_congr {m m' : Mach} (base : m.base = m'.base) (log : m.log = m'.log)
    (flash : m.dev.flash = m'.dev.flash) (a n : Nat) : m.rdBytes a n = m'.rdBytes a n :=
  List.map_congr_left fun _ _ => Mach.rd_congr base log flash _

/-! ### Rows of zeros (R266) -/

theorem rowsOf_rows (b k : Nat) : rowsOf (b * (64 * k)) = b * k := by
  rw [Nat.mul_left_comm, rowsOf, ceilDiv]
  omega

theorem slice_zeros (k o n : Nat) : slice (List.replicate k (0 : Byte)) o n = List.replicate n 0 := by
  rw [slice, List.drop_replicate, List.take_replicate, List.length_replicate, List.replicate_append_replicate,
    Nat.add_sub_cancel' (Nat.min_le_left _ _)]

theorem flatMap_zeros {α : Type} (xs : List α) (k : Nat) :
    xs.flatMap (fun _ => List.replicate k (0 : Byte)) = List.replicate (xs.length * k) 0 := by
  rw [List.flatMap_def, List.map_const', List.flatten_replicate_replicate]

theorem toRows_zeros (k : Nat) :
    toRows (List.replicate k (0 : Byte)) = List.replicate (rowsOf k) (List.replicate 64 0) := by
  simp only [toRows, slice_zeros, List.map_const', List.length_range, List.length_replicate]

/-! ### The start of a call (R262, R263) -/

theorem Dev.setCtx_frame (d : Dev) (c : Nat) (f : CtxSt → CtxSt) :
    d.setCtx c f = d.modTarn (fun t => { t with ctxs := (d.setCtx c f).tarn.ctxs }) := by
  unfold Dev.setCtx
  split <;> rfl

/-- Rows leave an inbox and nothing else. -/
theorem Dev.takeInbox_frame (d : Dev) (c ch k : Nat) :
    d.takeInbox c ch k = d.modTarn (fun t => { t with ctxs := (d.takeInbox c ch k).tarn.ctxs }) := d.setCtx_frame c _

@[simp] theorem iss_word (k : Nat) (l : ListSt) (st : StepSt) (i e : Nat) : (Safety.iss k l st i e).word = e := rfl
@[simp] theorem iss_st (k : Nat) (l : ListSt) (st : StepSt) (i e : Nat) : (Safety.iss k l st i e).st = st := rfl

/-- Rows that a call takes from its inbox: those of an APPEND, a TOKENS or a DECODE. -/
def callRows (op e : Nat) : Nat := if op ≥ 4 then 0 else Tarn.nrows e

/-- The machine as a call begins: its entry has been issued, and its rows have left their inbox. -/
def callStart (s : State) (n : Nat) (l : ListSt) (ctx op e : Nat) : Mach :=
  (Safety.issued s (96 + n) l).mod (fun d => d.takeInbox ctx (Tarn.chan e) (callRows op e))

/-- The Tarn list of loop `n` issues a call of operation `op`, whose rows have arrived, where nothing has an error and no
arbiter is frozen. -/
structure CallIssues (s : State) (n i e ctx op : Nat) (l : ListSt) (st : StepSt) (x : CtxSt) : Prop where
  noErrors : Safety.noErrors s
  issues : Safety.issues s (96 + n) l st i e
  loop : l.loop = n
  kind : Ent.kind e = K.TARN
  isOp : Tarn.op e = op
  inCtx : st.ctx = some ctx
  found : AMap.find s.dev.tarn.ctxs ctx = some x
  isOpen : (Safety.mach s).callOpen st e = true
  arrived : callRows op e ≤ (x.inbox (Tarn.chan e)).length

section CallStart
variable (s : State) (n : Nat) (l : ListSt) (ctx op e : Nat)

/-- A call begins with a change of its list and of the Tarn contexts alone. -/
theorem callStart_frame : callStart s n l ctx op e = ⟨s.mem, [], { s.dev with
    lists := (callStart s n l ctx op e).dev.lists
    tarn := { s.dev.tarn with ctxs := (callStart s n l ctx op e).dev.tarn.ctxs } }⟩ := by
  simp only [callStart, Mach.mod]
  rw [Dev.takeInbox_frame]
  rfl

theorem noErrors_callStart (h : Safety.noErrors s) :
    (callStart s n l ctx op e).dev.ue = [] ∧ (callStart s n l ctx op e).dev.ce = [] := by
  obtain ⟨noUe, noCe, -, -⟩ := h
  rw [callStart_frame]
  exact ⟨noUe, noCe⟩

@[simp] theorem nsRec_callStart (k : Nat) : (callStart s n l ctx op e).dev.nsRec k = s.dev.nsRec k := by
  rw [callStart_frame]
  rfl

@[simp] theorem rdBytes_callStart (a k : Nat) : (callStart s n l ctx op e).rdBytes a k = (Safety.mach s).rdBytes a k := by
  rw [callStart_frame]
  exact Mach.rdBytes_congr rfl rfl rfl a k

@[simp] theorem tparam_callStart (r : Route) : (callStart s n l ctx op e).tparam r e = (Safety.mach s).tparam r e := by
  rw [Mach.tparam, Mach.tparam, rdBytes_callStart]

@[simp] theorem callNs_callStart (p : TParam) (b : List (Option Nat)) :
    (callStart s n l ctx op e).callNs p b = (Safety.mach s).callNs p b := by
  simp only [Mach.callNs, Mach.sq, Mach.rdNat, rdBytes_callStart, nsRec_callStart]
  rfl

@[simp] theorem outq_callStart : (callStart s n l ctx op e).dev.outq = s.dev.outq := by
  rw [callStart_frame]

theorem bad_callStart : ((callStart s n l ctx op e).dev.list (96 + n)).map ListSt.bad = some l.take.bad := by
  rw [callStart, Mach.mod_dev, Dev.takeInbox_frame]
  exact issued_bad

end CallStart

/-- A call that may issue does what its operation does with the rows that it takes, and the engine's outputs go on. -/
theorem gives_of_call {c : Instr} {s : State} {n i e ctx op : Nat} {l : ListSt} {st : StepSt} {x : CtxSt}
    (h : CallIssues s n i e ctx op l st x) {f : Mach → Iss → List (List Byte) → Mach}
    (hc : exec c s = run (fun m => m.tarnCall n op f) s) :
    Safety.gives c s (((f (callStart s n l ctx op e) (Safety.iss (96 + n) l st i e)
      ((x.inbox (Tarn.chan e)).take (callRows op e))).checkBad (96 + n)).tarnOut n) := by
  obtain ⟨noUe, noCe⟩ := noErrors_callStart s n l ctx op e h.noErrors
  obtain ⟨noErrors, issues, loop, kind, isOp, inCtx, found, isOpen, arrived⟩ := h
  obtain ⟨-, step, -, -⟩ := running_spec issues
  rw [loop] at step
  have enough : (decide (op ≥ 4) || decide ((x.inbox (Tarn.chan e)).length ≥ Tarn.nrows e)) = true := by
    rw [Bool.or_eq_true, decide_eq_true_eq, decide_eq_true_eq]
    unfold callRows at arrived
    split at arrived
    next noRows => exact .inl noRows
    next => exact .inr arrived
  unfold Safety.mach at isOpen
  rw [Safety.gives, hc, run_eq, Mach.tarnCall]
  simp only [step, Option.bind_some, inCtx, found]
  rw [Mach.issue_eq issues _ (by simp only [kind, isOp, enough, isOpen, beq_self_eq_true, Option.all_some, Bool.and_self])]
  have read := Mach.eccRead_noErrors noUe noCe
  unfold callStart callRows Safety.issued at read
  simp only [read]
  rfl

/-! ### SUPPLY (R263) -/

theorem exec_supply {t : Fin 96} {i e : Nat} {l : ListSt} {st : StepSt} {s : State} (h : Safety.issues s t.val l st i e)
    (kind : Ent.kind e = K.TARN) : Safety.gives (.supply t []) s
      (((Safety.issued s t.val l).fly (Safety.iss t.val l st i e)).supplyAll t.val) := by
  have hd : exec (.supply t []) s = execSupply t [] s := rfl
  rw [Safety.gives, hd, execSupply, run_eq, show (⟨s.mem, [], s.dev⟩ : Mach).tileUpsets t.val [] = Safety.mach s from rfl,
    issue_fly h (isKind_of_kind kind) rfl]

/-! ### The calls (R266 to R269) -/

section Calls
variable {n : Fin 16} {i e ctx : Nat} {l : ListSt} {st : StepSt} {x : CtxSt} {s : State} {p : TParam} {r : NsRec} {m : Mach}

/-- An APPEND within MAXLEN, or of a recompute step, writes its records. -/
theorem exec_append (h : CallIssues s n.val i e ctx 1 l st x) (record : (Safety.mach s).tparam st.b.route e = p)
    (ns : (Safety.mach s).callNs p (batchOf st p) = some r)
    (rows : Tarn.nrows e = p.bcount * p.npos * rowsOf (2 * r.nkv * r.hd * r.b)) (kvclass : p.kvclass = r.kvclass)
    (layer : p.layer < r.nl)
    (within : (callStart s n.val l ctx 1 e).appendPast (Safety.iss (96 + n.val) l st i e) p = false)
    (written : (callStart s n.val l ctx 1 e).appendAll (Safety.iss (96 + n.val) l st i e) p r
      ((x.inbox (Tarn.chan e)).take (callRows 1 e)) = (m, none)) :
    Safety.gives (.append n) s ((m.checkBad (96 + n.val)).tarnOut n.val) := by
  have called := gives_of_call (c := .append n) h rfl
  simp only [iss_word, iss_st, tparam_callStart, record, callNs_callStart, ns, rows, kvclass, Nat.not_le.mpr layer, within,
    written, ne_eq, not_true, decide_false, Bool.or_self, Bool.false_eq_true, if_false, Mach.writesOver] at called
  exact called

/-- A TOKENS writes its identifiers. -/
theorem exec_tokens (h : CallIssues s n.val i e ctx 2 l st x) (record : (Safety.mach s).tparam st.b.route e = p)
    (ns : (Safety.mach s).callNs p (batchOf st p) = some r) (rows : Tarn.nrows e = ceilDiv (p.bcount * p.npos) 16)
    (written : (callStart s n.val l ctx 2 e).tokensAll (Safety.iss (96 + n.val) l st i e) p
      ((x.inbox (Tarn.chan e)).take (callRows 2 e)) = (m, none)) :
    Safety.gives (.tokens n) s ((m.checkBad (96 + n.val)).tarnOut n.val) := by
  have called := gives_of_call (c := .tokens n) h rfl
  simp only [iss_word, iss_st, tparam_callStart, record, callNs_callStart, ns, rows, written, ne_eq, not_true, if_false,
    Mach.writesOver] at called
  exact called

/-- What a DECODE counts (R268): page reads saved, positions that lost bits, and heads that saw no position. -/
def Dev.decodeCounts (d : Dev) (saved : Nat) (out : List (List Byte × Nat × Nat)) : Dev :=
  ((d.cnt (Reg.TRN_CNT_k 9) saved).cnt (Reg.TRN_CNT_k 10) (out.foldl (fun n y => n + y.2.1) 0)).cnt (Reg.TRN_CNT_k 15)
    (out.foldl (fun n y => n + y.2.2) 0)

theorem Dev.outq_cnt (d : Dev) (a n : Nat) : (d.cnt a n).outq = d.outq := by rw [d.cnt_frame]
theorem Dev.list_cnt (d : Dev) (a n k : Nat) : (d.cnt a n).list k = d.list k := by
  rw [d.cnt_frame]
  rfl

@[simp] theorem Dev.outq_decodeCounts (d : Dev) (saved : Nat) (out : List (List Byte × Nat × Nat)) :
    (d.decodeCounts saved out).outq = d.outq := by
  simp only [Dev.decodeCounts, Dev.outq_cnt]
@[simp] theorem Dev.list_decodeCounts (d : Dev) (saved : Nat) (out : List (List Byte × Nat × Nat)) (k : Nat) :
    (d.decodeCounts saved out).list k = d.list k := by
  simp only [Dev.decodeCounts, Dev.list_cnt]

/-- A DECODE counts, and puts the output rows of its batch positions. -/
theorem exec_decode (h : CallIssues s n.val i e ctx 3 l st x) (record : (Safety.mach s).tparam st.b.route e = p)
    (ns : (Safety.mach s).callNs p (batchOf st p) = some r)
    (rows : Tarn.nrows e = p.bcount * rowsOf (r.nkv * p.g * r.hd * 2)) (layer : p.layer < r.nl)
    (read : (callStart s n.val l ctx 3 e).decodeReads (Safety.iss (96 + n.val) l st i e) p r = (m, false))
    {out : List (List Byte × Nat × Nat)}
    (decoded : out = (callStart s n.val l ctx 3 e).decodeAll (Safety.iss (96 + n.val) l st i e) p r
      ((x.inbox (Tarn.chan e)).take (callRows 3 e))) :
    Safety.gives (.decode n) s ((((m.mod (fun d => d.decodeCounts
        ((callStart s n.val l ctx 3 e).decodeSaved (Safety.iss (96 + n.val) l st i e) p) out)).tarnPut
      (Safety.iss (96 + n.val) l st i e) (toRows (out.flatMap (·.1)))).checkBad (96 + n.val)).tarnOut n.val) := by
  subst decoded
  have called := gives_of_call (c := .decode n) h rfl
  simp only [iss_word, iss_st, tparam_callStart, record, callNs_callStart, ns, rows, Nat.not_le.mpr layer, read,
    ne_eq, not_true, decide_false, Bool.or_self, Bool.false_eq_true, if_false] at called
  exact called

/-- A WALK puts the pages that it has read. -/
theorem exec_walk (h : CallIssues s n.val i e ctx 4 l st x) (record : (Safety.mach s).tparam st.b.route e = p)
    (ns : (Safety.mach s).callNs p (batchOf st p) = some r) (layer : p.layer < r.nl)
    (read : (callStart s n.val l ctx 4 e).readPages n.val 120 p.layer r
      ((callStart s n.val l ctx 4 e).walkNodes (Safety.iss (96 + n.val) l st i e) p) = (m, false)) :
    Safety.gives (.walk n) s (((m.tarnPut (Safety.iss (96 + n.val) l st i e)
      ((callStart s n.val l ctx 4 e).walkRows (Safety.iss (96 + n.val) l st i e) p r)).checkBad (96 + n.val)).tarnOut n.val) := by
  have called := gives_of_call (c := .walk n) h rfl
  have loop : (Safety.iss (96 + n.val) l st i e).loop = n.val := h.loop
  simp only [iss_word, iss_st, tparam_callStart, record, callNs_callStart, ns, Nat.not_le.mpr layer, loop, read,
    if_false] at called
  exact called

/-- A FEED puts the identifiers of its windows. -/
theorem exec_feed (h : CallIssues s n.val i e ctx 5 l st x) (record : (Safety.mach s).tparam st.b.route e = p)
    (ns : (Safety.mach s).callNs p (batchOf st p) = some r) :
    Safety.gives (.feed n) s ((((callStart s n.val l ctx 5 e).tarnPut (Safety.iss (96 + n.val) l st i e)
      (toRows ((callStart s n.val l ctx 5 e).feedBytes (Safety.iss (96 + n.val) l st i e) p))).checkBad (96 + n.val)).tarnOut
        n.val) := by
  have called := gives_of_call (c := .feed n) h rfl
  simp only [iss_word, iss_st, tparam_callStart, record, callNs_callStart, ns] at called
  exact called

end Calls

/-! ### Empty batch positions (R266) -/

theorem batchOf_empty {st : StepSt} {p : TParam} (empty : (batchOf st p).all (fun o => o.isNone) = true) :
    batchOf st p = List.replicate p.bcount none := by
  have length : (batchOf st p).length = p.bcount := by rw [batchOf, List.length_map, List.length_range]
  rw [← length, List.eq_replicate_length]
  exact fun o ho => Option.isNone_iff_eq_none.mp (List.all_eq_true.mp empty o ho)

/-- A numbered position of an empty batch is empty. -/
theorem mem_zip_empty {b k : Nat} {y : Nat × Option Nat} (hy : y ∈ (List.range k).zip (List.replicate b none)) :
    y.2 = none := List.eq_of_mem_replicate (List.of_mem_zip hy).2

/-- A batch without sequences lies in every namespace. -/
theorem Mach.callNs_empty (m : Mach) (p : TParam) (b : Nat) : m.callNs p (List.replicate b none) = m.dev.nsRec p.nsid := by
  refine if_pos (List.all_eq_true.mpr fun o ho => ?_)
  rw [List.eq_of_mem_replicate ho]

section Empty
variable {i : Iss} {p : TParam} {b : Nat} (empty : batchOf i.st p = List.replicate b none)
include empty

theorem Mach.appendPast_empty (m : Mach) : m.appendPast i p = false := by
  rw [Mach.appendPast, empty, List.any_eq_false]
  intro o ho
  rw [List.eq_of_mem_replicate ho]
  exact Bool.false_ne_true

theorem Mach.appendAll_empty (m : Mach) (r : NsRec) (rows : List (List Byte)) : m.appendAll i p r rows = (m, none) := by
  rw [Mach.appendAll, empty]
  refine foldl_keeps id (fun y hy a => ?_) (m, none)
  rw [mem_zip_empty hy]

theorem Mach.tokensAll_empty (m : Mach) (rows : List (List Byte)) : m.tokensAll i p rows = (m, none) := by
  rw [Mach.tokensAll, empty]
  refine foldl_keeps id (fun y hy a => ?_) (m, none)
  rw [mem_zip_empty hy]

theorem Mach.decodeReads_empty (m : Mach) (r : NsRec) : m.decodeReads i p r = (m, false) := by
  rw [Mach.decodeReads, empty, List.map_replicate]
  refine foldl_keeps id (fun y hy a => ?_) (m, false)
  rw [List.eq_of_mem_replicate (List.of_mem_zip hy).2]
  obtain ⟨m', failed⟩ := a
  cases failed <;> rfl

theorem Mach.walkNodes_empty (m : Mach) : m.walkNodes i p = [] := by
  rw [Mach.walkNodes, empty, List.flatMap_eq_nil_iff]
  intro o ho
  rw [List.eq_of_mem_replicate ho]

/-- A DECODE of empty positions puts their output bytes as zeros and counts nothing. -/
theorem Mach.decodeAll_empty (m : Mach) (r : NsRec) (rows : List (List Byte)) : m.decodeAll i p r rows
    = List.replicate b (List.replicate (64 * rowsOf (r.nkv * p.g * r.hd * (if p.ofmt = 1 then 2 else 4))) 0, 0, 0) := by
  rw [Mach.decodeAll, empty, List.eq_replicate_iff]
  refine ⟨by simp only [List.length_map, List.length_zip, List.length_range, List.length_replicate, Nat.min_self], ?_⟩
  intro out hout
  obtain ⟨y, hy, rfl⟩ := List.mem_map.mp hout
  rw [mem_zip_empty hy, Mach.decodeLane]

theorem Mach.feedBytes_empty (m : Mach) : m.feedBytes i p = List.replicate (b * (4 * p.npos)) 0 := by
  rw [Mach.feedBytes, empty, List.flatMap_def, List.map_replicate, List.flatten_replicate_replicate]

end Empty

/-- The rows of a WALK's group of positions that do not exist are zeros. -/
theorem walkGroup_empty (kvfmt hd : Nat) (walkv toBf16 : Bool) (k : Nat) {row : List Byte}
    (hrow : row ∈ walkGroup kvfmt hd walkv toBf16 (List.replicate k none)) : row = List.replicate 64 0 := by
  have lane {w : Nat} (hrow : row ∈ toRows (List.replicate w 0)) : row = List.replicate 64 0 := by
    rw [toRows_zeros] at hrow
    exact List.eq_of_mem_replicate hrow
  have none_at (pos : Nat) : (List.replicate k (none : Option (List Nat))).getD pos none = none := by
    rw [List.getD_eq_getElem?_getD, List.getElem?_replicate]
    split <;> rfl
  simp only [walkGroup, none_at, Option.isSome_none, Bool.false_eq_true, if_false, ite_self,
    flatMap_zeros, List.map_const', List.length_range] at hrow
  rw [List.mem_append, List.mem_singleton] at hrow
  obtain body | mask := hrow
  · split at body
    · simp only [List.mem_flatMap] at body
      obtain ⟨_, _, _, _, body⟩ := body
      exact lane body
    · obtain ⟨_, _, body⟩ := List.mem_flatMap.mp body
      exact lane body
  · exact mask

theorem Mach.walkRows_empty {i : Iss} {p : TParam} {b : Nat} (empty : batchOf i.st p = List.replicate b none) (m : Mach)
    (r : NsRec) : m.walkRows i p r = List.replicate (m.walkRows i p r).length (List.replicate 64 0) := by
  rw [List.eq_replicate_length]
  intro row hrow
  simp only [Mach.walkRows, empty, List.mem_flatMap] at hrow
  obtain ⟨o, ho, g, hg, k, hk, hrow⟩ := hrow
  rw [List.eq_of_mem_replicate ho] at hrow
  simp only [List.drop_replicate, List.take_replicate] at hrow
  exact walkGroup_empty _ _ _ _ _ hrow

/-! ### Output rows (R262) -/

theorem Mach.outq_tarnPut (m : Mach) (i : Iss) (rows : List (List Byte)) :
    AMap.find (m.tarnPut i rows).dev.outq (i.st.b.dest (Tarn.dpkg i.word) (Tarn.dtile i.word) (Tarn.dq i.word)).key
      = some (AMap.getD m.dev.outq (i.st.b.dest (Tarn.dpkg i.word) (Tarn.dtile i.word) (Tarn.dq i.word)).key [] ++ rows) := by
  rw [Mach.tarnPut, Mach.fly]
  simp only [Mach.mod_dev, AMap.find_set_same]
  rw [Dev.modList_frame]

theorem Mach.bad_tarnPut (m : Mach) (i : Iss) (rows : List (List Byte)) :
    ((m.tarnPut i rows).dev.list i.key).map ListSt.bad = (m.dev.list i.key).map ListSt.bad := by
  have flown : (m.tarnPut i rows).dev.list i.key = (m.fly i).dev.list i.key := rfl
  rw [flown, Mach.fly, Mach.mod_dev, Dev.list_modList_same, Option.map_map]
  rfl

/-- The command leaves these rows in the queue of a destination, behind those that it held, and stores nothing; then the
engine's outputs go on. -/
def Puts (c : Instr) (s : State) (n : Nat) (dest : Dest) (rows : List (List Byte)) : Prop :=
  ∃ m : Mach, Safety.gives c s (m.tarnOut n) ∧ m.log = []
    ∧ AMap.find m.dev.outq dest.key = some (AMap.getD s.dev.outq dest.key [] ++ rows)

/-- A call that has put its rows, with no store and no error of its list. -/
theorem puts_of_tarnPut {c : Instr} {s : State} {n i e : Nat} {l : ListSt} {st : StepSt} {m : Mach} {rows : List (List Byte)}
    (h : Safety.issues s (96 + n) l st i e) (noStores : m.log = []) (outq : m.dev.outq = s.dev.outq)
    (taken : (m.dev.list (96 + n)).map ListSt.bad = some l.take.bad)
    (put : Safety.gives c s (((m.tarnPut (Safety.iss (96 + n) l st i e) rows).checkBad (96 + n)).tarnOut n)) :
    Puts c s n (st.b.dest (Tarn.dpkg e) (Tarn.dtile e) (Tarn.dq e)) rows := by
  rw [checkBad_of_taken h ((m.bad_tarnPut (Safety.iss (96 + n) l st i e) rows).trans taken)] at put
  refine ⟨_, put, noStores, (m.outq_tarnPut (Safety.iss (96 + n) l st i e) rows).trans ?_⟩
  rw [outq, iss_st, iss_word]

/-! ### Calls of an empty batch (R266) -/

section EmptyBatch
variable {n : Fin 16} {i e ctx : Nat} {l : ListSt} {st : StepSt} {x : CtxSt} {s : State} {p : TParam} {r : NsRec}
  (record : (Safety.mach s).tparam st.b.route e = p) (empty : (batchOf st p).all (fun o => o.isNone) = true)
  (ns : s.dev.nsRec p.nsid = some r)

include empty in
theorem iss_batch_empty : batchOf (Safety.iss (96 + n.val) l st i e).st p = List.replicate p.bcount none := batchOf_empty empty

include empty ns in
theorem callNs_of_empty : (Safety.mach s).callNs p (batchOf st p) = some r := by
  rw [batchOf_empty empty, Mach.callNs_empty]
  exact ns

include record empty ns

/-- An APPEND of empty positions only takes its rows. -/
theorem exec_append_empty (h : CallIssues s n.val i e ctx 1 l st x)
    (rows : Tarn.nrows e = p.bcount * p.npos * rowsOf (2 * r.nkv * r.hd * r.b)) (kvclass : p.kvclass = r.kvclass)
    (layer : p.layer < r.nl) : Safety.gives (.append n) s ((callStart s n.val l ctx 1 e).tarnOut n.val) := by
  have wrote := exec_append h record (callNs_of_empty empty ns) rows kvclass layer
    (Mach.appendPast_empty (iss_batch_empty empty) _) (Mach.appendAll_empty (iss_batch_empty empty) _ _ _)
  rwa [checkBad_of_taken h.issues (bad_callStart ..)] at wrote

/-- A TOKENS of empty positions only takes its rows. -/
theorem exec_tokens_empty (h : CallIssues s n.val i e ctx 2 l st x) (rows : Tarn.nrows e = ceilDiv (p.bcount * p.npos) 16) :
    Safety.gives (.tokens n) s ((callStart s n.val l ctx 2 e).tarnOut n.val) := by
  have wrote := exec_tokens h record (callNs_of_empty empty ns) rows (Mach.tokensAll_empty (iss_batch_empty empty) _ _)
  rwa [checkBad_of_taken h.issues (bad_callStart ..)] at wrote

theorem exec_decode_empty (h : CallIssues s n.val i e ctx 3 l st x)
    (rows : Tarn.nrows e = p.bcount * rowsOf (r.nkv * p.g * r.hd * 2)) (layer : p.layer < r.nl) :
    Puts (.decode n) s n.val (st.b.dest (Tarn.dpkg e) (Tarn.dtile e) (Tarn.dq e)) (List.replicate
      (p.bcount * rowsOf (r.nkv * p.g * r.hd * (if p.ofmt = 1 then 2 else 4))) (List.replicate 64 0)) := by
  have put := exec_decode h record (callNs_of_empty empty ns) rows layer
    (Mach.decodeReads_empty (iss_batch_empty empty) _ _) rfl
  rw [Mach.decodeAll_empty (iss_batch_empty empty), List.flatMap_def, List.map_replicate, List.flatten_replicate_replicate,
    toRows_zeros, rowsOf_rows] at put
  exact puts_of_tarnPut h.issues rfl ((Dev.outq_decodeCounts ..).trans (outq_callStart s n.val l ctx 3 e))
    ((congrArg _ (Dev.list_decodeCounts ..)).trans (bad_callStart s n.val l ctx 3 e)) put

theorem exec_walk_empty (h : CallIssues s n.val i e ctx 4 l st x) (layer : p.layer < r.nl) :
    ∃ k, Puts (.walk n) s n.val (st.b.dest (Tarn.dpkg e) (Tarn.dtile e) (Tarn.dq e))
      (List.replicate k (List.replicate 64 0)) := by
  have put := exec_walk h record (callNs_of_empty empty ns) layer (congrArg _ (Mach.walkNodes_empty (iss_batch_empty empty) _))
  rw [Mach.walkRows_empty (iss_batch_empty empty)] at put
  exact ⟨_, puts_of_tarnPut h.issues rfl (outq_callStart ..) (bad_callStart ..) put⟩

theorem exec_feed_empty (h : CallIssues s n.val i e ctx 5 l st x) :
    Puts (.feed n) s n.val (st.b.dest (Tarn.dpkg e) (Tarn.dtile e) (Tarn.dq e))
      (List.replicate (rowsOf (p.bcount * (4 * p.npos))) (List.replicate 64 0)) := by
  have put := exec_feed h record (callNs_of_empty empty ns)
  rw [Mach.feedBytes_empty (iss_batch_empty empty), toRows_zeros] at put
  exact puts_of_tarnPut h.issues rfl (outq_callStart ..) (bad_callStart ..) put

end EmptyBatch

/-- Settles O45: each call is its issue, the rows that it takes and its operation's own meaning (`gives_of_call`); what an empty
batch writes, reads and puts is read off the empty positions. -/
theorem tarnCalls : Obligations.TarnCalls := by
  unfold Obligations.TarnCalls
  refine ⟨fun t i e l st s h kind => exec_supply h kind, ?append, ?tokens, ?decode, ?walk, ?feed, ?writesNothing, ?putsZeros⟩
  case append =>
    intro n i e ctx l st p r x m1 m2 s noErrors h loop kind op inCtx found isOpen record ns arrived rows kvclass layer hm1
      within written
    subst hm1
    exact exec_append ⟨noErrors, h, loop, kind, op, inCtx, found, isOpen, arrived⟩ record ns rows kvclass layer within written
  case tokens =>
    intro n i e ctx l st p r x m1 m2 s noErrors h loop kind op inCtx found isOpen record ns arrived rows hm1 written
    subst hm1
    exact exec_tokens ⟨noErrors, h, loop, kind, op, inCtx, found, isOpen, arrived⟩ record ns rows written
  case decode =>
    intro n i e ctx l st p r x m1 m2 out s noErrors h loop kind op inCtx found isOpen record ns arrived rows layer hm1 read
      decoded
    subst hm1
    exact exec_decode ⟨noErrors, h, loop, kind, op, inCtx, found, isOpen, arrived⟩ record ns rows layer read decoded
  case walk =>
    intro n i e ctx l st p r x m1 m2 s noErrors h loop kind op inCtx found isOpen record ns layer hm1 read
    subst hm1
    exact exec_walk ⟨noErrors, h, loop, kind, op, inCtx, found, isOpen, Nat.zero_le _⟩ record ns layer read
  case feed =>
    intro n i e ctx l st p r x m1 s noErrors h loop kind op inCtx found isOpen record ns hm1
    subst hm1
    exact exec_feed ⟨noErrors, h, loop, kind, op, inCtx, found, isOpen, Nat.zero_le _⟩ record ns
  case writesNothing =>
    intro c op n i e ctx l st p r x s call noErrors h loop kind isOp inCtx found isOpen record empty ns arrived ofAppend ofTokens
    simp only [List.mem_cons, Prod.mk.injEq, List.not_mem_nil, or_false] at call
    obtain ⟨rfl, rfl⟩ | ⟨rfl, rfl⟩ := call
    · obtain ⟨rows, kvclass, layer⟩ := ofAppend rfl
      exact exec_append_empty record empty ns ⟨noErrors, h, loop, kind, isOp, inCtx, found, isOpen, arrived⟩ rows kvclass layer
    · exact exec_tokens_empty record empty ns ⟨noErrors, h, loop, kind, isOp, inCtx, found, isOpen, arrived⟩ (ofTokens rfl)
  case putsZeros =>
    intro c op n i e ctx l st p r x s call noErrors h loop kind isOp inCtx found isOpen record empty ns layer ofDecode
    simp only [List.mem_cons, Prod.mk.injEq, List.not_mem_nil, or_false] at call
    obtain ⟨rfl, rfl⟩ | ⟨rfl, rfl⟩ | ⟨rfl, rfl⟩ := call
    · obtain ⟨arrived, rows⟩ := ofDecode rfl
      obtain ⟨m, given, noStores, queued⟩ := exec_decode_empty record empty ns
        ⟨noErrors, h, loop, kind, isOp, inCtx, found, isOpen, arrived⟩ rows layer
      exact ⟨m, _, given, noStores, queued, fun _ => rfl, fun other => absurd other (by decide)⟩
    · obtain ⟨k, m, given, noStores, queued⟩ := exec_walk_empty record empty ns
        ⟨noErrors, h, loop, kind, isOp, inCtx, found, isOpen, Nat.zero_le _⟩ layer
      exact ⟨m, k, given, noStores, queued, fun other => absurd other (by decide), fun other => absurd other (by decide)⟩
    · obtain ⟨m, given, noStores, queued⟩ := exec_feed_empty record empty ns
        ⟨noErrors, h, loop, kind, isOp, inCtx, found, isOpen, Nat.zero_le _⟩
      exact ⟨m, _, given, noStores, queued, fun other => absurd other (by decide), fun _ => rfl⟩

end Machine
end Sys2Proof
end

section
/-!
PROOFS. LOOP_CONFIG and LOOP_PREEMPT (O26).
-/
namespace Sys2Proof
namespace Machine

/-! ### One loop changed -/

@[simp] theorem Dev.loop_modLoop_same (d : Dev) (n : Nat) (f : LoopSt → LoopSt) : (d.modLoop n f).loop n = f (d.loop n) :=
  Dev.loop_setLoop_same _ _ _

theorem Dev.loop_modLoop_ne (d : Dev) {n k : Nat} (f : LoopSt → LoopSt) (h : k ≠ n) : (d.modLoop n f).loop k = d.loop k :=
  Dev.loop_setLoop_ne _ _ h

@[simp] theorem Dev.step_modStep_same (d : Dev) (n : Nat) (f : StepSt → StepSt) :
    ((d.modStep n f).loop n).step = (d.loop n).step.map f := by
  rw [Dev.modStep, Dev.loop_modLoop_same]

/-- A charge changes the account of its loop, and no part of any loop that does not hang on its account. -/
theorem Dev.charge_keeps {β : Type} {g : LoopSt → β} (noAccount : ∀ l a, g { l with acct := a } = g l) (d : Dev)
    (k beats n : Nat) : g ((d.charge k beats).loop n) = g (d.loop n) := by
  by_cases h : n = k
  · rw [h, Dev.charge, Dev.loop_modLoop_same]
    exact noAccount _ _
  · rw [Dev.charge, Dev.loop_modLoop_ne _ _ h]

@[simp] theorem Dev.step_charge (d : Dev) (k beats n : Nat) : ((d.charge k beats).loop n).step = (d.loop n).step :=
  Dev.charge_keeps (g := LoopSt.step) (fun _ _ => rfl) d k beats n

@[simp] theorem Dev.step_chargeFree (d : Dev) (k n : Nat) : ((d.chargeFree k).loop n).step = (d.loop n).step :=
  Dev.step_charge _ _ _ _

/-- A reply changes no loop. -/
@[simp] theorem Dev.loops_reply (d : Dev) (p : Packet) (status : Nat) (payload : List Byte) :
    (d.reply p status payload).loops = d.loops := by
  unfold Dev.reply
  dsimp only
  split
  · refine (Dev.ColOnly.toPeer _ _ _ _).loops.trans ?_
    simp only [apply_ite Dev.loops, Dev.unserve, Dev.loops_cnt, ite_self]
  · rw [Dev.place, Dev.loops_pumpRemote, Dev.loops_putReply]
    simp only [apply_ite Dev.loops, Dev.loops_cnt, ite_self]

/-! ### LOOP_CONFIG (R312) -/

/-- A payload that is not refused takes effect at once, or waits behind the loop's step and its waiting commands. -/
theorem exec_loopConfig {tag : BitVec 16} {p : Packet} {s : State} (ready : Safety.ready s 0x0405 tag.toNat p)
    (good : s.dev.loopConfigBad p.payload = false) : Safety.gives (.loopConfig tag) s
      (if (s.dev.loop (pay8 p.payload 0)).defers then
        ((Safety.mach s).mod (fun d => d.modLoop (pay8 p.payload 0) (fun l =>
          { l with deferred := l.deferred ++ [.config p.tag p.payload] }))).answer p ST.DEFERRED []
      else ((Safety.mach s).mod (fun d => d.configNow p.payload)).ok p []) := by
  have configured := gives_of_cmd (c := .loopConfig tag) rfl ready
  have goodHere : (Safety.mach s).dev.loopConfigBad p.payload = false := good
  simp only [goodHere, Bool.false_eq_true, if_false] at configured
  exact configured

/-! ### A pre-emption called for (R286, R293, R295, R302) -/

/-- The end of a boost leaves the loop its step. -/
theorem Dev.isSome_step_endBoost (d : Dev) (n : Nat) : ((d.endBoost n).loop n).step.isSome = (d.loop n).step.isSome := by
  unfold Dev.endBoost
  split
  · rfl
  · split
    · rfl
    · rw [Dev.step_modStep_same, Option.isSome_map]
      rfl

/-- What holds of every value of a map holds of the value that it gives. -/
theorem exists_map_of_isSome {α β : Type} {o : Option α} {f : α → β} {P : β → Prop} (given : ∀ x, P (f x))
    (isSome : o.isSome = true) : ∃ y, o.map f = some y ∧ P y := by
  obtain ⟨x, rfl⟩ := Option.isSome_iff_exists.mp isSome
  exact ⟨f x, rfl, given x⟩

/-- The halt of a step begins its save. -/
theorem Dev.phase_beginSave {d : Dev} {n : Nat} {st : StepSt} (hst : (d.loop n).step = some st) :
    ∃ x, ((d.beginSave n).loop n).step = some x ∧ x.phase = .saving := by
  have halted (e : Dev) (ks : List Nat) (f : ListSt → ListSt) : (ks.foldl (fun d k => d.modList k f) e).loops = e.loops :=
    foldl_keeps Dev.loops (fun k _ e => e.loops_modList k f) e
  have told (e : Dev) (ks : List Nat) (bs : List Byte) : (ks.foldl (fun d k => d.toPeer k bs 1) e).loops = e.loops :=
    foldl_keeps Dev.loops (fun k _ e => (Dev.ColOnly.toPeer e k 1 bs).loops) e
  unfold Dev.beginSave
  rw [hst]
  dsimp only
  rw [Dev.step_modStep_same]
  refine exists_map_of_isSome (fun _ => rfl) ?_
  rw [Dev.isSome_step_endBoost, Dev.loop_congr ((told _ _ _).trans (halted _ _ _)) n]
  exact Option.isSome_iff_exists.mpr ⟨st, hst⟩

/-- A call by no step leaves a running step running or begins its save, and leaves a step that is being saved as it is. -/
theorem Dev.phase_callPreempt {d : Dev} {n : Nat} {st : StepSt} (hst : (d.loop n).step = some st)
    (notPreempted : st.phase ≠ .preempted) (notRestoring : st.phase ≠ .restoring) :
    ∃ x, ((d.callPreempt n none).loop n).step = some x ∧ x.phase ≠ .preempted := by
  have called (e : Dev) (f : StepSt → StepSt) {x : StepSt} (hx : (e.loop n).step = some x) :
      ((e.modStep n f).loop n).step = some (f x) := by
    rw [Dev.step_modStep_same, hx, Option.map_some]
  unfold Dev.callPreempt
  rw [hst]
  dsimp only
  cases phase : st.phase with
  | preempted => exact absurd phase notPreempted
  | restoring => exact absurd phase notRestoring
  | saving => exact ⟨st, hst, notPreempted⟩
  | running =>
    dsimp only
    split
    next halted => exact ⟨_, called d _ hst, notPreempted⟩
    next =>
      split
      next holdsResource =>
        split
        next boosted => exact ⟨_, called d _ hst, notPreempted⟩
        next =>
          have counted := fun e : Dev => congrArg LoopSt.step (Dev.loop_congr (e.loops_cnt (Reg.SCH_CNT_k 1) 1) n)
          exact ⟨_, (counted _).trans (called _ _ (called d _ hst)), notPreempted⟩
      next =>
        obtain ⟨x, hx, saving⟩ := Dev.phase_beginSave (called d _ hst)
        exact ⟨x, hx, by rw [saving]; decide⟩

/-- A call by no step stops a restore: the step is pre-empted at once (R302). -/
theorem Dev.step_callPreempt_restoring {d : Dev} {n : Nat} {st : StepSt} (hst : (d.loop n).step = some st)
    (restoring : st.phase = .restoring) :
    ((d.callPreempt n none).loop n).step = some { st with phase := .preempted, callers := [] } := by
  unfold Dev.callPreempt
  rw [hst]
  dsimp only
  rw [restoring]
  dsimp only
  rw [Dev.step_modStep_same, Dev.step_chargeFree, hst, Option.map_some]

/-! ### LOOP_PREEMPT (R302) -/

/-- The device once a call for a pre-emption has been accepted, its tag kept with the step. -/
def Dev.preemptCalled (d : Dev) (p : Packet) (n : Nat) : Dev :=
  ((d.reply p ST.DEFERRED []).modStep n (fun x => { x with preemptTags := x.preemptTags ++ [p.tag] })).callPreempt n none

/-- The notifications of a step's waiting pre-emption commands once it is pre-empted. -/
def Dev.tellPreempted (d : Dev) (n : Nat) : Dev :=
  match (d.loop n).step with
  | some st => if st.phase == .preempted then
      (st.preemptTags.foldl (fun d t => d.notify t ST.OK []) d).modStep n (fun x => { x with preemptTags := [] }) else d
  | none => d

theorem Dev.tellPreempted_notYet {d : Dev} {n : Nat} {st : StepSt} (hst : (d.loop n).step = some st)
    (notYet : st.phase ≠ .preempted) : d.tellPreempted n = d := by
  simp only [Dev.tellPreempted, hst, beq_eq_false_iff_ne.mpr notYet, Bool.false_eq_true, if_false]

theorem Dev.tellPreempted_preempted {d : Dev} {n : Nat} {st : StepSt} (hst : (d.loop n).step = some st)
    (preempted : st.phase = .preempted) : d.tellPreempted n
      = (st.preemptTags.foldl (fun d t => d.notify t ST.OK []) d).modStep n (fun x => { x with preemptTags := [] }) := by
  simp only [Dev.tellPreempted, hst, preempted, beq_self_eq_true, if_true]

/-- A step after the reply to its pre-emption command, with the command's tag. -/
theorem Dev.step_tagged {d : Dev} {n : Nat} {st : StepSt} (hst : (d.loop n).step = some st) (p : Packet) :
    (((d.reply p ST.DEFERRED []).modStep n (fun x => { x with preemptTags := x.preemptTags ++ [p.tag] })).loop n).step
      = some { st with preemptTags := st.preemptTags ++ [p.tag] } := by
  rw [Dev.step_modStep_same, Dev.loop_congr (Dev.loops_reply _ _ _ _), hst, Option.map_some]

section LoopPreempt
variable {tag : BitVec 16} {p : Packet} {s : State} (ready : Safety.ready s 0x0406 tag.toNat p) (low : pay8 p.payload 0 ≤ 15)
include ready low

/-- Of a pre-empted step, or of none, it is refused. -/
theorem exec_loopPreempt_refused
    (none : (s.dev.loop (pay8 p.payload 0)).step.all (fun st => st.phase == .preempted) = true) :
    Safety.givesDev (.loopPreempt tag) s (s.dev.reply p ST.STATE []) := by
  have refused := gives_of_cmd (c := .loopPreempt tag) rfl ready
  simp only [Safety.mach, gt_iff_lt, Nat.not_lt.mpr low, if_false] at refused
  cases hst : (s.dev.loop (pay8 p.payload 0)).step with
  | none =>
    rw [hst] at refused
    exact givesDev_of_gives refused rfl
  | some st =>
    rw [hst, Option.all_some] at none
    simp only [hst, none, if_true] at refused
    exact givesDev_of_gives refused rfl

variable {st : StepSt} (hst : (s.dev.loop (pay8 p.payload 0)).step = some st)
include hst

theorem exec_loopPreempt_called (notPreempted : st.phase ≠ .preempted) : Safety.givesDev (.loopPreempt tag) s
    ((s.dev.preemptCalled p (pay8 p.payload 0)).tellPreempted (pay8 p.payload 0)) := by
  have called := gives_of_cmd (c := .loopPreempt tag) rfl ready
  simp only [Safety.mach, gt_iff_lt, Nat.not_lt.mpr low, if_false, hst, beq_eq_false_iff_ne.mpr notPreempted,
    Bool.false_eq_true] at called
  exact givesDev_of_gives called rfl

/-- Of a step that runs or is being saved, it waits. -/
theorem exec_loopPreempt_waits (notPreempted : st.phase ≠ .preempted) (notRestoring : st.phase ≠ .restoring) :
    Safety.givesDev (.loopPreempt tag) s (s.dev.preemptCalled p (pay8 p.payload 0)) := by
  have called := exec_loopPreempt_called ready low hst notPreempted
  obtain ⟨x, hx, notYet⟩ := Dev.phase_callPreempt (Dev.step_tagged hst p) notPreempted notRestoring
  rwa [Dev.tellPreempted_notYet (d := s.dev.preemptCalled p _) hx notYet] at called

/-- Of a step that is being restored, it is answered at once. -/
theorem exec_loopPreempt_restoring (restoring : st.phase = .restoring) : Safety.givesDev (.loopPreempt tag) s
    (((st.preemptTags ++ [p.tag]).foldl (fun d t => d.notify t ST.OK []) (s.dev.preemptCalled p (pay8 p.payload 0))).modStep
      (pay8 p.payload 0) (fun x => { x with preemptTags := [] })) := by
  have called := exec_loopPreempt_called ready low hst (by rw [restoring]; decide)
  rwa [Dev.tellPreempted_preempted (d := s.dev.preemptCalled p _)
    (Dev.step_callPreempt_restoring (Dev.step_tagged hst p) restoring) rfl] at called

end LoopPreempt

/-- Settles O26: LOOP_CONFIG by whether the loop's commands wait, LOOP_PREEMPT by the phase of the step that it meets. -/
theorem loopPackets : Obligations.LoopPackets := by
  unfold Obligations.LoopPackets
  refine ⟨?now, ?later, ?waits, ?restoring, fun tag p s ready low none => exec_loopPreempt_refused ready low none⟩
  case now =>
    intro tag p s ready good noStep noneWaits
    have configured := exec_loopConfig ready good
    rw [LoopSt.defers, noStep, noneWaits] at configured
    exact givesDev_of_gives configured rfl
  case later =>
    intro tag p s ready good waits
    have defers : (s.dev.loop (pay8 p.payload 0)).defers = true := by simpa [LoopSt.defers] using waits
    have configured := exec_loopConfig ready good
    rw [defers, if_pos rfl] at configured
    exact ⟨_, givesDev_of_gives configured rfl, rfl, by rw [Mach.mod_dev, Dev.loop_modLoop_same]; rfl⟩
  case waits =>
    intro tag p st s ready low hst notPreempted notRestoring
    exact ⟨_, rfl, exec_loopPreempt_waits ready low hst notPreempted notRestoring⟩
  case restoring =>
    intro tag p n st e s ready named low hst restoring he
    subst named he
    exact exec_loopPreempt_restoring ready low hst restoring

end Machine
end Sys2Proof
end

section
/-!
PROOFS. Marks and semaphores (O46).
-/
namespace Sys2Proof
namespace Machine

/-- The entries that the command of a CHECK operation issues. -/
theorem isCheck_of_kind {e op : Nat} (kind : Ent.kind e = K.CHECK) (isOp : Chk.op e = op) :
    (Ent.kind e == K.CHECK && Chk.op e == op) = true := by
  rw [kind, isOp, beq_self_eq_true, beq_self_eq_true, Bool.and_self]

@[simp] theorem ListSt.take_nextMark (l : ListSt) : l.take.nextMark = l.nextMark := by
  unfold ListSt.take
  dsimp only
  split
  · rfl
  · split <;> rfl
  · rfl

/-! ### MARK (R498, R499) -/

section Mark
variable {li : ListId} {i e : Nat} {l : ListSt} {st : StepSt} {s : State}
  (h : Safety.issues s (listKey li) l st i e) (kind : Ent.kind e = K.CHECK) (op : Chk.op e = 0)
include h kind op

theorem exec_mark : Safety.gives (.mark li) s
    ((if Chk.markid e ≠ l.nextMark then
        (Safety.issued s (listKey li) l).superviseAbort l.loop 0x0002 (listUnit (listKey li)) i none
      else (Safety.issued s (listKey li) l).mod (fun d => d.setList (listKey li) { l.take with
        nextMark := l.nextMark + 1
        segment := if Chk.budget e = 0 then none else some (Chk.budget e : Rat)
        fresh := true })).checkBad (listKey li)) := by
  have marked := gives_of_issue (c := .mark li) h rfl (isCheck_of_kind kind op)
  have list : (Safety.issued s (listKey li) l).dev.list (Safety.iss (listKey li) l st i e).key = some l.take :=
    Dev.list_setList_same _ _ _
  simp only [list, ListSt.take_nextMark] at marked
  exact marked

theorem exec_mark_inOrder (inOrder : Chk.markid e = l.nextMark) : Safety.givesDev (.mark li) s
    ((s.dev.setList (listKey li) l.take).setList (listKey li) { l.take with
      nextMark := l.nextMark + 1
      segment := if Chk.budget e = 0 then none else some (Chk.budget e : Rat)
      fresh := true }) := by
  have marked := exec_mark h kind op
  rw [if_neg (not_not.mpr inOrder), checkBad_of_taken h (by rw [Mach.mod_dev, Dev.list_setList_same]; rfl)] at marked
  exact givesDev_of_gives marked rfl

end Mark

/-! ### ACQUIRE and RELEASE (R290, R291, R293) -/

/-- The device with a request that waits behind the others for a resource, and its list waiting for it. -/
def Dev.awaitRes (d : Dev) (key res : Nat) (w : Waiter) : Dev :=
  (d.setRes key { d.resOf key with waiters := (d.resOf key).waiters ++ [w] }).modList w.list (fun y =>
    { y with waiting := some res })

@[simp] theorem Dev.res_modList (d : Dev) (k : Nat) (f : ListSt → ListSt) : (d.modList k f).res = d.res := by
  rw [d.modList_frame]

theorem Dev.resOf_congr {d e : Dev} (h : d.res = e.res) (key : Nat) : d.resOf key = e.resOf key := by
  rw [Dev.resOf, h, Dev.resOf]

theorem Dev.waiters_awaitRes (d : Dev) (key res : Nat) (w : Waiter) :
    ((d.awaitRes key res w).resOf key).waiters = (d.resOf key).waiters ++ [w] := by
  rw [Dev.awaitRes, Dev.resOf_congr (Dev.res_modList _ _ _), Dev.resOf_setRes_same]

theorem Dev.waiting_awaitRes (d : Dev) (key res : Nat) (w : Waiter) :
    ((d.awaitRes key res w).list w.list).map ListSt.waiting = (d.list w.list).map (fun _ => some res) := by
  rw [Dev.awaitRes, Dev.list_modList_same, Option.map_map]
  rfl

/-- Two changes that agree on the device of a machine change it alike. -/
theorem Mach.mod_congr {m : Mach} {f g : Dev → Dev} (same : f m.dev = g m.dev) : m.mod f = m.mod g :=
  congrArg (fun d => ({ m with dev := d } : Mach)) same

theorem poolKey_issued (s : State) (k : Nat) (l : ListSt) (b : Binding) (r : ResRec) :
    (Safety.issued s k l).dev.poolKey b r = s.dev.poolKey b r := rfl

section Resource
variable {li : ListId} {i e : Nat} {l : ListSt} {st : StepSt} {r : ResRec} {s : State}
  (h : Safety.issues s (listKey li) l st i e) (kind : Ent.kind e = K.CHECK) (named : st.b.route.res[Chk.res e]? = some r)
include h kind named

/-- An ACQUIRE by its rank: a fault of the step, or a request that is granted at once or waits. -/
theorem exec_acquire (op : Chk.op e = 1) : Safety.gives (.acquire li) s
    ((if r.rank ≤ (Safety.issued s (listKey li) l).dev.highestRank l.loop then
        ((Safety.issued s (listKey li) l).mod (fun d => (d.cnt (Reg.SCH_CNT_k 0) 1).raiseFor l.loop 1 Src.SCHED 0x0001
          (listUnit (listKey li)) (i + Chk.res e * 2 ^ 32))).abortStep l.loop
      else if (s.dev.resOf (s.dev.poolKey st.b r)).holder.isNone then
        ((Safety.issued s (listKey li) l).fly (Safety.iss (listKey li) l st i e)).mod (fun d => d.grantRes
          (s.dev.poolKey st.b r) ⟨listKey li, l.loop, r.rank, r.shared⟩)
      else ((Safety.issued s (listKey li) l).fly (Safety.iss (listKey li) l st i e)).mod (fun d => d.awaitRes
          (s.dev.poolKey st.b r) (Chk.res e) ⟨listKey li, l.loop, r.rank, r.shared⟩)).checkBad (listKey li)) := by
  have acquired := gives_of_issue (c := .acquire li) h rfl (isCheck_of_kind kind op)
  have res (key : Nat) : ((Safety.issued s (listKey li) l).fly (Safety.iss (listKey li) l st i e)).dev.resOf key
      = s.dev.resOf key := Dev.resOf_congr (Dev.res_modList _ _ _) key
  have namedHere : (Safety.iss (listKey li) l st i e).st.b.route.res[Chk.res (Safety.iss (listKey li) l st i e).word]?
      = some r := named
  simp only [namedHere, res] at acquired
  exact acquired

/-- A RELEASE lets its resource go, and the pre-emption that waited for it proceeds (R290, R293). -/
theorem exec_release (op : Chk.op e = 2) : Safety.gives (.release li) s
    (((Safety.issued s (listKey li) l).mod (fun d =>
      (d.releaseRes (s.dev.poolKey st.b r)).afterRelease l.loop)).checkBad (listKey li)) := by
  have released := gives_of_issue (c := .release li) h rfl (isCheck_of_kind kind op)
  have namedHere : (Safety.iss (listKey li) l st i e).st.b.route.res[Chk.res (Safety.iss (listKey li) l st i e).word]?
      = some r := named
  have here : (Safety.issued s (listKey li) l).mod (fun d => (d.releaseRes (d.poolKey st.b r)).afterRelease l.loop)
      = (Safety.issued s (listKey li) l).mod (fun d => (d.releaseRes (s.dev.poolKey st.b r)).afterRelease l.loop) :=
    Mach.mod_congr (by rw [poolKey_issued])
  simp only [namedHere] at released
  rwa [← here]

end Resource

/-- Settles O46: MARK by its number, ACQUIRE by its rank and the resource's holder, RELEASE by the resource that it names. -/
theorem marksAndSemaphores : Obligations.MarksAndSemaphores := by
  unfold Obligations.MarksAndSemaphores
  refine ⟨?mark, ?acquire, fun li i e l st r s h kind op named => exec_release h kind named op⟩
  case mark =>
    intro li i e l st s h kind op
    refine ⟨exec_mark_inOrder h kind op, fun outOfOrder => ?_⟩
    have marked := exec_mark h kind op
    rwa [if_pos outOfOrder] at marked
  case acquire =>
    intro li i e l st r s h kind op named
    have acquired := exec_acquire h kind named op
    refine ⟨fun low => ?refused, fun above free => ?granted, fun above held => ?waits⟩
    case refused => rwa [if_pos low] at acquired
    case granted => rwa [if_neg (Nat.not_le.mpr above), if_pos (Option.isNone_iff_eq_none.mpr free)] at acquired
    case waits =>
      rw [if_neg (Nat.not_le.mpr above), if_neg (mt Option.isNone_iff_eq_none.mp held)] at acquired
      refine ⟨_, acquired, rfl, ?behind, ?waiting⟩
      case behind =>
        rw [Mach.mod_dev, Dev.waiters_awaitRes]
        exact congrArg (fun x => x.waiters ++ _) (Dev.resOf_congr (Dev.res_modList _ _ _) _)
      case waiting =>
        rw [Mach.mod_dev]
        refine (Dev.waiting_awaitRes _ _ _ _).trans ?_
        rw [Mach.fly, Mach.mod_dev, Safety.iss, Dev.list_modList_same, Safety.issued, Dev.list_setList_same]
        rfl

end Machine
end Sys2Proof
end

section
/-!
PROOFS. Releases, guards and windows (O48).
-/
namespace Sys2Proof
namespace Machine

/-! ### The timebase at an instant (R386, R396) -/

/-- Counting on to an instant changes the timebase and the rise of TB_PPS_OUT, and nothing else. -/
theorem Dev.reachUs_frame (d : Dev) (us : Nat) : ∃ tb sync, d.reachUs us = { d with tb := tb, sync := sync } := by
  have counted (t : TbSt) : ∃ tb sync, d.countTo t = { d with tb := tb, sync := sync } := by
    unfold Dev.countTo
    split
    · exact ⟨_, _, rfl⟩
    · exact ⟨_, _, rfl⟩
  unfold Dev.reachUs Dev.reach
  dsimp only
  split
  · exact counted _
  · exact ⟨d.tb, d.sync, rfl⟩

@[simp] theorem Dev.loop_reachUs (d : Dev) (us n : Nat) : (d.reachUs us).loop n = d.loop n := by
  obtain ⟨tb, sync, reached⟩ := d.reachUs_frame us
  rw [reached]
  rfl

@[simp] theorem Dev.reg_reachUs (d : Dev) (us a : Nat) : (d.reachUs us).reg a = d.reg a := by
  obtain ⟨tb, sync, reached⟩ := d.reachUs_frame us
  rw [reached]
  rfl

theorem Dev.ridgeFree_reachUs (d : Dev) (us r : Nat) : (d.reachUs us).ridgeFree r = d.ridgeFree r := by
  obtain ⟨tb, sync, reached⟩ := d.reachUs_frame us
  rw [reached]
  rfl

theorem Dev.reg_setLoop (d : Dev) (n a : Nat) (x : LoopSt) : (d.setLoop n x).reg a = d.reg a := rfl

theorem Dev.bindRidges_bound {d : Dev} {n : Nat} {b : Binding} (bound : (d.loop n).binding = some b) :
    d.bindRidges n = b.ridges := by
  rw [Dev.bindRidges, bound]

/-! ### Releases (R275) -/

theorem Dev.release_paced {d : Dev} {n : Nat} (paced : d.loopClass n = 1) (enabled : d.loopEn n = true) : d.release n
    = if (d.loop n).release || (d.loop n).step.isSome then d.loopCnt n 2
      else d.modLoop n (fun l => { l with release := true }) := by
  simp only [Dev.release, paced, enabled, ne_eq, not_true_eq_false, decide_false, Bool.not_true, Bool.or_self,
    Bool.false_eq_true, if_false]

section Release
variable {n : Fin 16} {s : State}

/-- The device at the next release instant of a loop (R275). -/
def Dev.atRelease (d : Dev) (n : Nat) : Dev :=
  (d.reachUs (d.nextInstant n)).modLoop n (fun l => { l with mark := d.nextInstant n })

theorem exec_pacedRelease (paced : s.dev.loopClass n.val = 1) (enabled : s.dev.loopEn n.val = true) :
    Safety.givesDev (.pacedRelease n) s (if (s.dev.loop n.val).release || (s.dev.loop n.val).step.isSome then
        (s.dev.atRelease n.val).loopCnt n.val 2
      else (s.dev.atRelease n.val).modLoop n.val (fun l => { l with release := true })) := by
  have hd : exec (.pacedRelease n) s = execPacedRelease n s := rfl
  obtain ⟨tb, sync, reached⟩ := s.dev.reachUs_frame (s.dev.nextInstant n.val)
  have pacedThen : (s.dev.atRelease n.val).loopClass n.val = 1 := by
    rw [Dev.atRelease, reached]
    exact paced
  have enabledThen : (s.dev.atRelease n.val).loopEn n.val = true := by
    rw [Dev.atRelease, reached]
    exact enabled
  have loopThen : (s.dev.atRelease n.val).loop n.val = { s.dev.loop n.val with mark := s.dev.nextInstant n.val } := by
    rw [Dev.atRelease, Dev.loop_modLoop_same, Dev.loop_reachUs]
  have released := Dev.release_paced pacedThen enabledThen
  rw [loopThen] at released
  rw [Safety.givesDev, hd, execPacedRelease, runDev_eq, ← released]
  simp only [paced, enabled, ne_eq, not_true_eq_false, decide_false, Bool.not_true, Bool.or_self, Bool.false_eq_true, if_false]
  rfl

theorem exec_pacedRelease_other (other : s.dev.loopClass n.val ≠ 1 ∨ s.dev.loopEn n.val = false) :
    Safety.givesDev (.pacedRelease n) s s.dev := by
  have hd : exec (.pacedRelease n) s = execPacedRelease n s := rfl
  rw [Safety.givesDev, hd, execPacedRelease, runDev_eq]
  dsimp only
  rw [if_pos (by simpa using other)]

end Release

/-! ### Guards and windows (R276, R277) -/

section Window
variable {n : Fin 16} {b : Binding} {s : State}

section Bound
variable (safety : s.dev.loopClass n.val = 2) (enabled : s.dev.loopEn n.val = true)
  (bound : (s.dev.loop n.val).binding = some b)
include safety enabled bound

theorem exec_guardStart (noGuard : (s.dev.loop n.val).guard = false) : Safety.givesDev (.guardStart n) s
    (((s.dev.reachUs (s.dev.nextInstant n.val - s.dev.loopGuard n.val)).modLoop n.val (fun l =>
      { l with guard := true })).clearRidges b.ridges (some n.val)) := by
  have hd : exec (.guardStart n) s = execGuardStart n s := rfl
  rw [Safety.givesDev, hd, execGuardStart, runDev_eq]
  simp only [safety, enabled, bound, noGuard, Dev.bindRidges_bound bound, ne_eq, not_true_eq_false, decide_false, Bool.not_true,
    Option.isNone_some, Bool.or_self, Bool.false_eq_true, if_false]

/-- A step that is due with a window cannot start at its opening (R277). -/
def Dev.windowBlocked (d : Dev) (n : Nat) (ridges : List Nat) : Bool :=
  (d.loop n).step.isSome || !(d.loop n).due.isEmpty || !ridges.all d.ridgeFree

/-- A loop as its window opens at an instant (R277, R503). -/
def LoopSt.openWindow (l : LoopSt) (t : Nat) (blocked counts : Bool) : LoopSt :=
  { l with
    guard := false
    window := true
    openedUs := t
    mark := t
    due := l.due ++ [⟨t, blocked, if counts then some l.winCount else none⟩]
    winCount := if counts then l.winCount + 1 else l.winCount }

theorem exec_windowOpen : Safety.givesDev (.windowOpen n) s ((s.dev.reachUs (s.dev.nextInstant n.val)).setLoop n.val
    ((s.dev.loop n.val).openWindow (s.dev.nextInstant n.val) (s.dev.windowBlocked n.val b.ridges)
      (s.dev.rfB Reg.SAF_CTRL Fld.SAF_CTRL.CAIRN_EN))) := by
  have hd : exec (.windowOpen n) s = execWindowOpen n s := rfl
  have boundThen (t : Nat) : (s.dev.reachUs t).bindRidges n.val = b.ridges := Dev.bindRidges_bound (by rwa [Dev.loop_reachUs])
  have freeThen (t : Nat) : (s.dev.reachUs t).ridgeFree = s.dev.ridgeFree := funext fun r => s.dev.ridgeFree_reachUs t r
  have hasBinding : (s.dev.loop n.val).binding.isNone = false := by rw [bound, Option.isNone_some]
  rw [Safety.givesDev, hd, execWindowOpen, runDev_eq]
  simp only [safety, enabled, hasBinding, boundThen, freeThen, Dev.loop_reachUs, Dev.rfB, Dev.rf, Dev.reg_reachUs, ne_eq,
    not_true_eq_false, decide_false, Bool.not_true, Bool.or_self, Bool.false_eq_true, if_false]
  rfl

end Bound

theorem exec_windowClose (s : State) (n : Fin 16) : Safety.givesDev (.windowClose n) s
    (if !(s.dev.loop n.val).window then s.dev
    else (s.dev.reachUs ((s.dev.loop n.val).openedUs + s.dev.loopLen n.val)).modLoop n.val (fun l =>
      { l with window := false, due := l.due.filter (·.late) })) := rfl

end Window

/-! ### The decision (R284, R285, R510) -/

/-- With the scheduler off a decision only calls for the pre-emptions of R510 and starts chunks. -/
theorem Mach.schedule_off {m : Mach} (us : Nat) (off : m.dev.callForced.schedOn = false) :
    m.schedule us = (m.mod Dev.callForced).mod (fun d => d.startChunks (List.range 24) us) := by
  simp only [Mach.schedule, Mach.mod_dev, off, Bool.not_false, if_true]

/-- Settles O48: releases by what the loop has pending, guards and windows by the loop's state at the instant that the timebase
reaches, the decision by whether the scheduler is on. -/
theorem releasesGuardsAndWindows : Obligations.ReleasesGuardsAndWindows := by
  unfold Obligations.ReleasesGuardsAndWindows
  refine ⟨?release, fun n s other => exec_pacedRelease_other other,
    fun n b s safety enabled bound noGuard => exec_guardStart safety enabled bound noGuard, ?opened, ?closed, ?noWindow,
    fun us s => rfl, ?off⟩
  case release =>
    intro n e s paced enabled he
    subst he
    have released := exec_pacedRelease paced enabled
    refine ⟨fun noRelease noStep => ?pending, fun busy => ?merged⟩
    case pending =>
      rw [noRelease, noStep] at released
      exact released
    case merged =>
      rwa [if_pos (by simpa [Option.isSome_iff_ne_none] using busy)] at released
  case opened =>
    intro n b t s safety enabled bound ht
    subst ht
    refine ⟨_, exec_windowOpen safety enabled bound, ⟨rfl, rfl⟩, ?_⟩
    simp only [Dev.loop_setLoop_same]
    refine ⟨rfl, rfl, rfl, rfl, ⟨_, rfl, rfl, ?late⟩, fun k other => ?others, fun a => ?regs⟩
    case late =>
      simp [Dev.windowBlocked, Option.isSome_iff_ne_none, or_assoc]
    case others =>
      rw [Dev.loop_setLoop_ne _ _ other, Dev.loop_reachUs]
    case regs =>
      rw [Dev.reg_setLoop, Dev.reg_reachUs]
  case closed =>
    intro n s isOpen
    have closed := exec_windowClose s n
    rwa [isOpen] at closed
  case noWindow =>
    intro n s noWindow
    have closed := exec_windowClose s n
    rwa [noWindow] at closed
  case off =>
    intro us s off
    have hd : exec (.schedDecision us) s = execSchedDecision us s := rfl
    rw [Safety.gives, hd, execSchedDecision, run_eq, Mach.schedule_off (m := ⟨s.mem, [], s.dev⟩) us off]
    rfl

end Machine
end Sys2Proof
end

section
/-!
PROOFS. The arbiters, the scheduler's registers and the reports of bindings (O50).
-/
namespace Sys2Proof
namespace Machine

/-! ### Requests (R306, R307) -/

/-- An arbiter as a request finds it: a reset of its unit lets its requester return (R310). -/
def ArbSt.returned (x : ArbSt) (reset : Bool) (r : Nat) : ArbSt :=
  if reset then { x with removed := x.removed.filter (fun y => y != (r, none)) } else x

theorem exec_arbRequest {a r : Fin 256} {reset : Bool} {x : ArbSt} {s : State} (o : ArbOrigin) (used : arbUsed a.val = true)
    (has : arbHas a.val r.val = true) (hx : x = (s.dev.arb a.val).returned reset r.val)
    (notRemoved : ∀ y ∈ x.removed, y.1 ≠ r.val)
    (notWaiting : ∀ y ∈ x.waiting, y.req ≠ r.val) :
    Safety.givesDev (.arbRequest a r o reset) s ((s.dev.setArb a.val { x with
      arrivals := (x.arrivals + 1) % 65536
      waiting := x.waiting ++ [⟨r.val, o, x.arrivals, 0, false⟩] }).promote a.val) := by
  have hd : exec (.arbRequest a r o reset) s = execArbRequest a r o reset s := rfl
  have removed : x.removed.any (fun y => y.1 == r.val) = false := by simpa using notRemoved
  have waiting : x.waiting.any (fun y => y.req == r.val) = false := by simpa using notWaiting
  rw [ArbSt.returned] at hx
  rw [Safety.givesDev, hd, execArbRequest, runDev_eq]
  simp only [← hx, used, has, removed, waiting, Bool.not_true, Bool.or_self, Bool.false_eq_true, if_false]

/-! ### Grants (R307 to R309, R311) -/

section Grant
variable {a : Fin 256} {s : State} (used : arbUsed a.val = true)
include used

/-- The owner's drop ends its grant, and the next one is picked unless the arbiter is frozen or has no tag. -/
theorem exec_arbGrant_drop : Safety.givesDev (.arbGrant a true) s
    (if s.dev.arbFrozen a.val || !s.dev.tagFree a.val then s.dev.setArb a.val { s.dev.arb a.val with owner := none }
      else (s.dev.setArb a.val { s.dev.arb a.val with owner := none }).arbPick a.val) := by
  have hd : exec (.arbGrant a true) s = execArbGrant a true s := rfl
  rw [Safety.givesDev, hd, execArbGrant, runDev_eq]
  simp only [used, Bool.not_true, Bool.false_eq_true, if_false, if_true, Dev.arb_setArb_same, Option.isSome_none, Bool.false_or]
  rfl

/-- An arbiter without an owner makes a grant unless it is frozen or has no tag. -/
theorem exec_arbGrant_pick (noOwner : (s.dev.arb a.val).owner = none) (notFrozen : s.dev.arbFrozen a.val = false)
    (tag : s.dev.tagFree a.val = true) : Safety.givesDev (.arbGrant a false) s (s.dev.arbPick a.val) := by
  have hd : exec (.arbGrant a false) s = execArbGrant a false s := rfl
  rw [Safety.givesDev, hd, execArbGrant, runDev_eq]
  simp only [used, noOwner, notFrozen, tag, Bool.not_true, Option.isSome_none, Bool.or_self, Bool.false_eq_true, if_false]

end Grant

theorem Dev.promote_noneWaits {d : Dev} {a : Nat} (noneWaits : (d.arb a).waiting = []) : d.promote a = d := by
  simp only [Dev.promote, noneWaits, List.all_nil, if_true]

/-- A request that waits alone is the one that rotating priority picks. -/
theorem rotate_single (pointer : Nat) (q : ArbReq) : rotate pointer [q] = some q := by
  simp [rotate]

/-- A request that waits alone is granted, whatever its class (R308). -/
theorem Dev.arbPick_single {d : Dev} {a : Nat} {q : ArbReq} (alone : (d.arb a).waiting = [q]) :
    ((d.arbPick a).arb a).owner = some q ∧ ((d.arbPick a).arb a).waiting = [] := by
  unfold Dev.arbPick
  dsimp only
  rw [alone]
  cases urgent : q.promoted || d.arbClass a q != .bulk with
  | true =>
    simp [urgent, oldest]
  | false =>
    simp only [List.filter_cons, urgent, List.filter_nil, oldest, rotate_single, bne_self_eq_false,
      Bool.false_eq_true, if_false,
      List.map_nil]
    rw [Dev.promote_noneWaits (by rw [Dev.arb_setArb_same]), Dev.arb_setArb_same]
    exact ⟨rfl, rfl⟩

/-! ### The watchdog (R310) -/

/-- The device once the watchdog has ended the grant of a request, with the loop whose step it served. -/
def Dev.bite (d : Dev) (a : Nat) (x : ArbReq) (loop : Option Nat) : Dev :=
  let d := d.setArb a { d.arb a with
    owner := none
    waiting := (d.arb a).waiting.filter (fun y => y.req != x.req)
    removed := (d.arb a).removed ++ [(x.req, if (d.loop (loop.getD 16)).step.isSome then loop else none)] }
  let d := (d.cnt Reg.ARB_BITES 1).setReg Reg.ARB_BITE_LAST (a * 2 ^ 16 + x.req)
  match loop with
  | some n => d.raiseFor n 1 Src.ARB 0x0001 a x.req
  | none => d.raise 1 Src.ARB 0x0001 a x.req

theorem Dev.arb_congr {d e : Dev} (h : d.arbs = e.arbs) (a : Nat) : d.arb a = e.arb a := by rw [Dev.arb, h, Dev.arb]

section BiteNoLoop
variable (d : Dev) (a : Nat) (x : ArbReq)

theorem Dev.arb_bite_none : (d.bite a x none).arb a = { d.arb a with
    owner := none
    waiting := (d.arb a).waiting.filter (fun y => y.req != x.req)
    removed := (d.arb a).removed ++ [(x.req, none)] } := by
  have arbs : (d.bite a x none).arbs = ((d.setArb a { d.arb a with
      owner := none
      waiting := (d.arb a).waiting.filter (fun y => y.req != x.req)
      removed := (d.arb a).removed ++ [(x.req, none)] }).cnt Reg.ARB_BITES 1).arbs := by
    rw [Dev.bite, ite_self]
    rfl
  rw [Dev.arb_congr arbs, Dev.cnt_frame]
  exact Dev.arb_setArb_same _ _ _

theorem Dev.bites_bite_none : (d.bite a x none).reg Reg.ARB_BITES = satAdd 32 (d.reg Reg.ARB_BITES) 1 := by
  rw [Dev.bite, Dev.reg_raise, Dev.reg_setReg_ne _ _ (by decide), Dev.reg_cnt]
  rfl

theorem Dev.raised_bite_none : (d.bite a x none).raised = d.raised ++ [Safety.rec 1 Src.ARB 0x0001 a (x.req % 2 ^ 64)] := by
  rw [Dev.bite, Dev.raise_raised, Dev.setReg_raised, Dev.cnt_frame]
  rfl

end BiteNoLoop

section Watchdog
variable {a : Fin 256} {x : ArbReq} {s : State} (owner : (s.dev.arb a.val).owner = some x)
include owner

/-- The requester's step aborts. -/
theorem exec_arbWatchdog_step {n : Nat} (serves : s.dev.arbLoop (x.source a.val) x.origin.served = some n) :
    Safety.gives (.arbWatchdog a) s (((Safety.mach s).mod (fun d => d.bite a.val x (some n))).abortStep n) := by
  have hd : exec (.arbWatchdog a) s = execArbWatchdog a s := rfl
  rw [Safety.gives, hd, execArbWatchdog, run_eq]
  simp only [owner, serves]
  rfl

variable (noLoop : s.dev.arbLoop (x.source a.val) x.origin.served = none)
include noLoop

/-- The command that the requester serves ends with ST_TIMEOUT. -/
theorem exec_arbWatchdog_served {p : Packet} (serves : (s.dev.bite a.val x none).sdio.outstanding.find? (fun p =>
      (servedOps (x.source a.val)).contains p.op && (s.dev.bite a.val x none).sdio.mayStart p) = some p) :
    Safety.gives (.arbWatchdog a) s (((Safety.mach s).mod (fun d => d.bite a.val x none)).fail p ST.TIMEOUT) := by
  have hd : exec (.arbWatchdog a) s = execArbWatchdog a s := rfl
  rw [Dev.bite] at serves
  rw [Safety.gives, hd, execArbWatchdog, run_eq]
  simp only [owner, noLoop, Mach.mod_dev, serves]
  rfl

theorem exec_arbWatchdog_unserved (unserved : (s.dev.bite a.val x none).sdio.outstanding.find? (fun p =>
      (servedOps (x.source a.val)).contains p.op && (s.dev.bite a.val x none).sdio.mayStart p) = none) :
    Safety.givesDev (.arbWatchdog a) s (s.dev.bite a.val x none) := by
  have hd : exec (.arbWatchdog a) s = execArbWatchdog a s := rfl
  rw [Dev.bite] at unserved
  rw [Safety.givesDev, hd, execArbWatchdog, run_eq]
  simp only [owner, noLoop, Mach.mod_dev, unserved]
  rfl

end Watchdog

/-! ### The scheduler's registers (R275, R284, R312, R593) -/

/-- A register written changes that register alone. -/
theorem onlyRegs_setReg (s : State) (a v : Nat) : Safety.onlyRegs s { s with dev := s.dev.setReg a v } [a] :=
  ⟨rfl, fun _ other => s.dev.reg_setReg_ne v (List.mem_singleton.not.mp other)⟩

theorem onlyRegs_wf (s : State) (a : Nat) (f : Fd) (v : Nat) : Safety.onlyRegs s { s with dev := s.dev.wf a f v } [a] :=
  onlyRegs_setReg s a _

theorem b2n_mod_two (b : Bool) : b2n b % 2 = if b then 1 else 0 := by
  cases b <;> rfl

theorem exec_schEn (en : Bool) (s : State) : Safety.givesDev (.schEn en) s
    (if s.dev.rfB Reg.PWR_STAT Fld.PWR_STAT.BOOT_ONLY then s.dev.wf Reg.SCH_STAT Fld.SCH_STAT.CFG_LOCKED_WRITE 1
      else s.dev.wf Reg.SCH_CTRL Fld.SCH_CTRL.EN (b2n en)) := rfl

/-- A shadowed field in effect hangs on its own field of its register. -/
theorem Dev.effRf_wf_field (d : Dev) (a : Nat) {f g : Fd} (v : Nat) (h : f.hi < g.lo ∨ g.hi < f.lo := by decide)
    (hh : f.hi < 32 := by decide) (hl : f.lo ≤ f.hi := by decide) : (d.wf a f v).effRf a g = d.effRf a g := by
  unfold Dev.effRf Dev.effReg
  rw [Dev.wf_eff]
  split
  · rfl
  · exact Dev.rf_wf_field d a v h hh hl

theorem Dev.effRf_wf_ne (d : Dev) {a b : Nat} (f g : Fd) (v : Nat) (h : b ≠ a) : (d.wf a f v).effRf b g = d.effRf b g := by
  unfold Dev.effRf Dev.effReg
  rw [Dev.wf_eff]
  split
  · rfl
  · exact Dev.rf_wf_ne d f g v h

/-- A write of EN changes, of what decides the loop's instants, EN alone. -/
theorem Dev.timing_wf_en (d : Dev) (n : Nat) (en : Bool) :
    (d.wf (Reg.SCH_LOOPn_CFG n) Fld.SCH_LOOPn_CFG.EN (b2n en)).timing n
      = (en, d.loopClass n, d.loopPeriod n, d.loopPhase n) := by
  have enabled : (d.wf (Reg.SCH_LOOPn_CFG n) Fld.SCH_LOOPn_CFG.EN (b2n en)).loopEn n = en := by
    rw [Dev.loopEn, Dev.rfB, Dev.rf_wf_same d _ _]
    cases en <;> rfl
  have period : Reg.SCH_LOOPn_PERIOD n ≠ Reg.SCH_LOOPn_CFG n := by unfold Reg.SCH_LOOPn_PERIOD Reg.SCH_LOOPn_CFG; omega
  have phase : Reg.SCH_LOOPn_PHASE n ≠ Reg.SCH_LOOPn_CFG n := by unfold Reg.SCH_LOOPn_PHASE Reg.SCH_LOOPn_CFG; omega
  rw [Dev.timing, enabled, Dev.loopClass, Dev.effRf_wf_field d _ _]
  simp only [Dev.loopPhase, Dev.loopPeriod, Dev.effRf_wf_ne _ _ _ _ period, Dev.effRf_wf_ne _ _ _ _ phase, Dev.loopClass]

/-- The device after a write of a loop's EN: a change counts the loop's instants from now. -/
def Dev.loopEnabled (d : Dev) (n : Nat) (en : Bool) : Dev :=
  if d.loopEn n = en then d.wf (Reg.SCH_LOOPn_CFG n) Fld.SCH_LOOPn_CFG.EN (b2n en)
  else (d.wf (Reg.SCH_LOOPn_CFG n) Fld.SCH_LOOPn_CFG.EN (b2n en)).modLoop n (fun l => { l with mark := d.us })

theorem exec_loopEnWrite (n : Fin 16) (en : Bool) (s : State) :
    Safety.givesDev (.loopEnWrite n en) s (s.dev.loopEnabled n.val en) := by
  have hd : exec (.loopEnWrite n en) s = execLoopEnWrite n en s := rfl
  rw [Safety.givesDev, hd, execLoopEnWrite, runDev_eq, Dev.retime, Dev.timing_wf_en, Dev.timing, Dev.loopEnabled]
  simp only [Prod.mk.injEq, and_true, eq_comm (a := en)]
  rfl

section LoopEnabled
variable (d : Dev) (n : Nat) (en : Bool)

theorem Dev.loopEnabled_frame :
    d.loopEnabled n en = { d with regs := (d.loopEnabled n en).regs, loops := (d.loopEnabled n en).loops } := by
  unfold Dev.loopEnabled
  split <;> rfl

theorem Dev.reg_loopEnabled (a : Nat) :
    (d.loopEnabled n en).reg a = (d.wf (Reg.SCH_LOOPn_CFG n) Fld.SCH_LOOPn_CFG.EN (b2n en)).reg a := by
  unfold Dev.loopEnabled
  split <;> rfl

theorem Dev.loop_loopEnabled_same :
    (d.loopEnabled n en).loop n = if d.loopEn n = en then d.loop n else { d.loop n with mark := d.us } := by
  unfold Dev.loopEnabled
  split
  · rfl
  · exact Dev.loop_modLoop_same _ _ _

theorem Dev.loop_loopEnabled_ne {k : Nat} (other : k ≠ n) : (d.loopEnabled n en).loop k = d.loop k := by
  unfold Dev.loopEnabled
  split
  · rfl
  · exact Dev.loop_modLoop_ne _ _ other

end LoopEnabled

/-! ### Reports of bindings (R342, R599) -/

/-- The device that keeps a package's report of a loop. -/
def Dev.keepReport (d : Dev) (k n : Nat) (r : PeerReport) : Dev :=
  d.modLoop n (fun l => { l with reports := AMap.set l.reports k r })

theorem exec_loopBoundReport {k : Fin 4} {n : Fin 16} {bound : Bool} {pmap : BitVec 8} {sends : List CrossSend}
    {queues : List CrossQueue} {lists : List (Fin 96)} {s : State} (peer : k.val ≠ s.dev.pkg) :
    Safety.givesDev (.loopBoundReport k n bound pmap sends queues lists) s
      ((⟨s.mem, [], s.dev.keepReport k.val n.val ⟨bound, pmap.toNat, sends, queues, lists.map (·.val)⟩⟩ : Mach).checkCross
        n.val).dev := by
  have hd : exec (.loopBoundReport k n bound pmap sends queues lists) s
    = execLoopBoundReport k n bound pmap sends queues lists s := rfl
  rw [Safety.givesDev, hd, execLoopBoundReport, runDev_eq]
  simp only [peer, if_false]
  rfl

/-- Without a binding there is nothing to compare. -/
theorem Mach.checkCross_unbound {m : Mach} {n : Nat} (unbound : (m.dev.loop n).binding = none) : m.checkCross n = m := by
  simp only [Mach.checkCross, unbound]

/-- Settles O50: requests, grants and the watchdog by the arbiter that they meet, the written registers by their fields, reports
by the loop that keeps them. -/
theorem arbitersAndLoops : Obligations.ArbitersAndLoops := by
  unfold Obligations.ArbitersAndLoops
  refine ⟨fun a r o reset x s used has hx notRemoved notWaiting => exec_arbRequest o used has hx notRemoved notWaiting, ?drop,
    fun a s used noOwner notFrozen tag => exec_arbGrant_pick used noOwner notFrozen tag, ?alone, ?watchdog, ?freeze, ?schEn,
    ?bootOnly, ?loopEn, fun k n bound pmap sends queues lists s peer => exec_loopBoundReport peer, ?unbound⟩
  case drop =>
    intro a e s used he
    subst he
    exact exec_arbGrant_drop used
  case alone =>
    intro a q s used noOwner notFrozen tag alone
    exact ⟨_, exec_arbGrant_pick used noOwner notFrozen tag, ⟨rfl, rfl⟩, Dev.arbPick_single alone⟩
  case watchdog =>
    intro a x loop m s owner hloop hm
    subst hm
    refine ⟨fun n serves => ?step, fun p noLoop served => ?served, fun noLoop unserved => ?unserved⟩
    case step =>
      subst serves
      exact exec_arbWatchdog_step owner hloop.symm
    case served =>
      subst noLoop
      exact exec_arbWatchdog_served owner hloop.symm served
    case unserved =>
      subst noLoop
      refine ⟨_, exec_arbWatchdog_unserved owner hloop.symm unserved, rfl, ⟨rfl, rfl⟩, ?_, ?_,
        Dev.bites_bite_none _ _ _, Dev.raised_bite_none _ _ _⟩
      · rw [Dev.arb_bite_none]
      · rw [Dev.arb_bite_none]
        exact List.mem_append_right _ (List.mem_singleton_self _)
  case freeze =>
    intro k v s
    refine ⟨_, rfl, ?_, onlyRegs_setReg s _ _⟩
    exact (s.dev.reg_setReg_same _ _).trans (Nat.mod_eq_of_lt v.isLt)
  case schEn =>
    intro en s normal
    have written := exec_schEn en s
    rw [Dev.rfB, normal, bne_self_eq_false, if_neg Bool.false_ne_true] at written
    exact ⟨_, written, (s.dev.rf_wf_same _ _).trans (b2n_mod_two en), onlyRegs_wf s _ _ _⟩
  case bootOnly =>
    intro en s bootOnly
    have written := exec_schEn en s
    rw [Dev.rfB, bootOnly, if_pos (c := ((1 : Nat) != 0) = true) rfl] at written
    exact ⟨_, written, s.dev.rf_wf_same _ _, onlyRegs_wf s _ _ _⟩
  case loopEn =>
    intro n en s
    refine ⟨_, exec_loopEnWrite n en s, ?en, congrArg (fun d => { s with dev := d }) (s.dev.loopEnabled_frame n.val en),
      fun a other => ?regs, fun k other => s.dev.loop_loopEnabled_ne n.val en other, s.dev.loop_loopEnabled_same n.val en⟩
    case en =>
      rw [Dev.rf, Dev.reg_loopEnabled]
      exact (s.dev.rf_wf_same _ _).trans (b2n_mod_two en)
    case regs => exact (s.dev.reg_loopEnabled n.val en a).trans (s.dev.reg_wf_ne _ _ other)
  case unbound =>
    intro k n bound pmap sends queues lists s peer noBinding
    have reported := exec_loopBoundReport (n := n) (bound := bound) (pmap := pmap) (sends := sends) (queues := queues)
      (lists := lists) peer
    rw [Mach.checkCross_unbound (by rw [Dev.keepReport, Dev.loop_modLoop_same]; exact noBinding)] at reported
    refine ⟨_, reported, ⟨rfl, rfl⟩, ?kept, fun j other => Dev.loop_modLoop_ne _ _ other⟩
    case kept => rw [Dev.keepReport, Dev.loop_modLoop_same, AMap.find_set_same]

end Machine
end Sys2Proof
end

section
/-!
PROOFS. HBM: reads, writes, refresh, the patrol scrub and the power-on fill (O53).
-/
namespace Sys2Proof
namespace Machine

/-! ### Reads and writes (R351, R354, R355) -/

/-- The read-modify-writes of a store find nothing where no unit of memory has an error. -/
theorem Mach.rmwCheck_noErrors {m : Mach} (noUe : m.dev.ue = []) (noCe : m.dev.ce = []) (a n req loop : Nat) :
    m.rmwCheck a n req loop = (m, none) := by
  unfold Mach.rmwCheck
  rw [noUe, noCe]
  rfl

section Access
variable {a : Fin 103079215104} {n : Nat} {r : Fin 256} {w : Option (Fin 16)} {s : State}

section Read
variable {k : Nat} (hk : k = min n (hbmSize - a.val))
include hk

/-- An access that does not go ahead waits. -/
theorem exec_hbmRead_waits (waits : s.dev.hbmGoes a.val k r.val = false) : Safety.givesDev (.hbmRead a n r w []) s s.dev := by
  have hd : exec (.hbmRead a n r w []) s = execHbmRead a n r w [] s := rfl
  rw [Safety.givesDev, hd, execHbmRead, run_eq]
  simp only [← hk, waits, Bool.not_false, if_true]
  rfl

variable (goes : s.dev.hbmGoes a.val k r.val = true)
include goes

theorem exec_hbmRead_clean (clean : Safety.noErrors s) :
    Safety.givesDev (.hbmRead a n r w []) s (s.dev.dmaRows a.val k r.val false) := by
  have hd : exec (.hbmRead a n r w []) s = execHbmRead a n r w [] s := rfl
  obtain ⟨noUe, noCe, -, -⟩ := clean
  have read (req loop : Nat) : (⟨s.mem, [], s.dev⟩ : Mach).eccRead a.val k req loop = (⟨s.mem, [], s.dev⟩, none) :=
    Mach.eccRead_noErrors noUe noCe a.val k req loop
  rw [Safety.givesDev, hd, execHbmRead, run_eq]
  simp only [← hk, goes, Bool.not_true, Bool.false_eq_true, if_false, Mach.upsets_nil, read]
  rfl

theorem exec_hbmRead_failed {m : Mach} {u : Nat}
    (failed : (Safety.mach s).eccRead a.val k r.val (s.dev.hbmLoop r.val w) = (m, some u)) :
    Safety.gives (.hbmRead a n r w []) s (m.hbmFailed r.val u w) := by
  have hd : exec (.hbmRead a n r w []) s = execHbmRead a n r w [] s := rfl
  rw [Safety.mach] at failed
  rw [Safety.gives, hd, execHbmRead, run_eq]
  simp only [← hk, goes, Bool.not_true, Bool.false_eq_true, if_false, Mach.upsets_nil, failed]

end Read

section Write
variable {bs : List Byte} (within : a.val + bs.length ≤ hbmSize)
include within

theorem exec_hbmWrite_waits (waits : s.dev.hbmGoes a.val bs.length r.val = false) :
    Safety.givesDev (.hbmWrite a bs r w []) s s.dev := by
  have hd : exec (.hbmWrite a bs r w []) s = execHbmWrite a bs r w [] s := rfl
  have all : bs.take (hbmSize - a.val) = bs := List.take_of_length_le (by omega)
  rw [Safety.givesDev, hd, execHbmWrite, run_eq]
  simp only [all, waits, Bool.not_false, if_true]
  rfl

variable (goes : s.dev.hbmGoes a.val bs.length r.val = true)
include goes

theorem exec_hbmWrite_clean (clean : Safety.noErrors s) : Safety.gives (.hbmWrite a bs r w []) s
    (((Safety.mach s).store a.val bs).mod (fun d => d.dmaRows a.val bs.length r.val true)) := by
  have hd : exec (.hbmWrite a bs r w []) s = execHbmWrite a bs r w [] s := rfl
  have all : bs.take (hbmSize - a.val) = bs := List.take_of_length_le (by omega)
  obtain ⟨noUe, noCe, -, -⟩ := clean
  have check (req loop : Nat) : (⟨s.mem, [], s.dev⟩ : Mach).rmwCheck a.val bs.length req loop = (⟨s.mem, [], s.dev⟩, none) :=
    Mach.rmwCheck_noErrors noUe noCe a.val bs.length req loop
  rw [Safety.gives, hd, execHbmWrite, run_eq]
  simp only [all, goes, Bool.not_true, Bool.false_eq_true, if_false, Mach.upsets_nil, check]
  rfl

theorem exec_hbmWrite_failed {m : Mach} {u : Nat}
    (failed : (Safety.mach s).rmwCheck a.val bs.length r.val (s.dev.hbmLoop r.val w) = (m, some u)) :
    Safety.gives (.hbmWrite a bs r w []) s (m.hbmFailed r.val u w) := by
  have hd : exec (.hbmWrite a bs r w []) s = execHbmWrite a bs r w [] s := rfl
  have all : bs.take (hbmSize - a.val) = bs := List.take_of_length_le (by omega)
  rw [Safety.mach] at failed
  rw [Safety.gives, hd, execHbmWrite, run_eq]
  simp only [all, goes, Bool.not_true, Bool.false_eq_true, if_false, Mach.upsets_nil, failed]

end Write
end Access

/-- A device without errors, its lists of errors emptied. -/
theorem Dev.emptied_noErrors {d : Dev} (noUe : d.ue = []) (noCe : d.ce = []) (noOff : d.off = []) (noWb : d.wb = []) :
    { d with ue := [], ce := [], off := [], wb := [] } = d := by
  cases d
  dsimp only at noUe noCe noOff noWb
  subst noUe noCe noOff noWb
  rfl

/-- The device that a store in memory without errors leaves is the one that it found. -/
theorem Mach.store_dev_noErrors {s : State} (clean : Safety.noErrors s) (a : Nat) (bs : List Byte) :
    ((Safety.mach s).store a bs).dev = s.dev := by
  obtain ⟨noUe, noCe, noOff, noWb⟩ := clean
  simp only [Mach.store, Safety.mach, noUe, noCe, noOff, noWb, List.filter_nil]
  exact Dev.emptied_noErrors noUe noCe noOff noWb

/-! ### Refresh (R356) -/

theorem hotBits_four (a b c d : Int) : hotBits [a, b, c, d] = (if a > 85 then 1 else 0) + (if b > 85 then 2 else 0)
    + (if c > 85 then 4 else 0) + (if d > 85 then 8 else 0) := by
  have summed : hotBits [a, b, c, d] = b2n (decide (a > 85)) + b2n (decide (b > 85)) * 2 + b2n (decide (c > 85)) * 4
      + b2n (decide (d > 85)) * 8 := by
    simp [hotBits, List.range_succ]
  rw [summed]
  simp only [b2n, decide_eq_true_eq, ite_mul, one_mul, zero_mul]

/-! ### The patrol scrub (R357) -/

section Scrub
variable {a : Fin 103079215104} {s : State} (ready : s.dev.hbmReady = true)
  (on : s.dev.rf Reg.HBM_CTRL Fld.HBM_CTRL.SCRUB_EN = 1)

theorem eccUnit_hbm (a : Fin 103079215104) : eccUnit a.val = a.val / 32 * 32 := if_pos a.isLt

/-- The device with a correctable burst that the scrub has found. -/
def Dev.scrubbed (d : Dev) (u : Nat) : Dev :=
  ({ d with wb := if u ∈ d.wb then d.wb else d.wb ++ [u] } : Dev).cnt (Reg.HBM_CNT_k 4) 1

include ready on in
theorem exec_patrolScrub : Safety.givesDev (.patrolScrub a []) s
    (if a.val / 32 * 32 ∈ s.dev.ue then s.dev.uncorrectable (a.val / 32 * 32) 0xFF 0xFF
    else if a.val / 32 * 32 ∈ s.dev.ce then s.dev.scrubbed (a.val / 32 * 32) else s.dev) := by
  have hd : exec (.patrolScrub a []) s = execPatrolScrub a [] s := rfl
  rw [Safety.givesDev, hd, execPatrolScrub, runDev_eq]
  simp only [ready, Dev.rfB, on, List.foldl_nil, eccUnit_hbm]
  rfl

end Scrub

/-! ### The power-on fill (R355) -/

/-- Of a memory that is partly cleared, what is kept reads as before, and the rest reads as zero. -/
theorem Memory.read_keepOnly {m : Memory} {lo : Option Nat} (keep : Nat → Bool) (x : Nat) (h : Memory.wfFrom lo m = true) :
    Memory.read (Memory.keepOnly m keep) x = if keep x then Memory.read m x else 0 := by
  induction m generalizing lo with
  | nil => exact (ite_self _).symm
  | cons c r ih =>
    obtain ⟨j, v⟩ := c
    simp only [Memory.wfFrom, Bool.and_eq_true] at h
    obtain ⟨-, above⟩ := h
    have rest := ih above
    unfold Memory.keepOnly at rest ⊢
    by_cases kept : keep j = true
    · rw [List.filter_cons_of_pos (by exact kept), Memory.read, Memory.read, rest]
      by_cases here : j = x
      · rw [if_pos here, if_pos here, if_pos (here ▸ kept)]
      · rw [if_neg here, if_neg here]
        split <;> simp
    · rw [List.filter_cons_of_neg (by exact kept), rest, Memory.read]
      by_cases wanted : keep x = true
      · rw [if_pos wanted, if_pos wanted, if_neg (fun here : j = x => kept (here.symm ▸ wanted))]
        split
        next below => exact Memory.read_below above (Nat.le_of_lt below)
        next => rfl
      · rw [if_neg wanted, if_neg wanted]

/-- The device once the fill is complete. -/
def Dev.filled (d : Dev) (trainFail : Nat) : Dev :=
  (({ d with
    ue := d.ue.filter (· ≥ hbmSize)
    ce := d.ce.filter (· ≥ hbmSize)
    wb := d.wb.filter (· ≥ hbmSize)
    off := d.off.filter (· ≥ hbmSize)
    flash := { d.flash with flipped := [] }
    boot := { d.boot with phase := .injecting } } : Dev).wf Reg.HBM_STAT Fld.HBM_STAT.READY 1).wf Reg.HBM_STAT
      Fld.HBM_STAT.TRAIN_FAIL trainFail

theorem exec_hbmFillDone {s : State} (f : BitVec 4) (filling : s.dev.boot.phase = .filling) :
    exec (.hbmFillDone f) s = .next { s with
      mem := Memory.keepOnly s.mem (fun a => decide (a ≥ hbmSize))
      dev := s.dev.filled f.toNat } := by
  have hd : exec (.hbmFillDone f) s = execHbmFillDone f s := rfl
  rw [hd, execHbmFillDone, runKeep_eq, run_eq]
  simp only [filling, ne_eq, not_true_eq_false, if_false, bne_self_eq_false, Bool.false_or]
  rfl

/-- Settles O53: accesses by whether they go ahead and what they meet, the scrub by the burst's error, the fill by the memory that
it keeps. -/
theorem hbmReadsWritesAndFill : Obligations.HbmReadsWritesAndFill := by
  unfold Obligations.HbmReadsWritesAndFill
  refine ⟨?read, ?write, ?refresh, ?scrub, ?fill⟩
  case read =>
    intro a n k r w s hk
    exact ⟨fun goes => ⟨exec_hbmRead_clean hk goes, fun m u failed => exec_hbmRead_failed hk goes failed⟩,
      exec_hbmRead_waits hk⟩
  case write =>
    intro a bs r w s within
    refine ⟨fun goes => ⟨fun ok clean plain => ?stored, fun m u failed => exec_hbmWrite_failed within goes failed⟩,
      exec_hbmWrite_waits within⟩
    have reads (x : Nat) := Memory.read_store (m := Safety.mach s) ok plain a.val bs x
    refine ⟨_, exec_hbmWrite_clean within goes clean, ?dev, rfl, fun k inside => ?inside, fun x outside => ?outside⟩
    case dev => exact congrArg (fun d => Dev.dmaRows d a.val bs.length r.val true) (Mach.store_dev_noErrors clean _ _)
    case inside =>
      refine (reads _).trans ?_
      rw [if_pos (by omega), Nat.add_sub_cancel_left]
    case outside =>
      refine (reads x).trans ?_
      rw [if_neg (by omega)]
      rfl
  case refresh =>
    intro a b c d s
    refine ⟨_, rfl, (s.dev.rf_wf_same _ _).trans ?_, onlyRegs_wf s _ _ _⟩
    rw [hotBits_four]
    refine Nat.mod_eq_of_lt ?_
    split_ifs <;> decide
  case scrub =>
    intro a s ready on
    have scrubbed := exec_patrolScrub (a := a) ready on
    refine ⟨fun ue => ?ue, fun noUe ce => ?ce, fun noUe noCe => ?clean⟩
    case ue => rwa [if_pos ue] at scrubbed
    case ce =>
      rw [if_neg noUe, if_pos ce] at scrubbed
      refine ⟨_, scrubbed, ⟨rfl, rfl⟩, ?_, ?_, ?_⟩
      · rw [Dev.scrubbed, Dev.cnt_frame]
      · rw [Dev.scrubbed, Dev.cnt_frame]
        dsimp only
        split
        next waits => exact waits
        next => exact List.mem_append_right _ (List.mem_singleton_self _)
      · rw [Dev.scrubbed, Dev.reg_cnt]
        rfl
    case clean => rwa [if_neg noUe, if_neg noCe] at scrubbed
  case fill =>
    intro f s filling ok
    have reads (x : Nat) := Memory.read_keepOnly (fun a => decide (a ≥ hbmSize)) x ok
    refine ⟨_, exec_hbmFillDone f filling, rfl, ?ready, ?trainFail, rfl,
      fun x hx => ?ue, fun x low => ?low, fun x high => ?high⟩
    case ready =>
      rw [Dev.filled, Dev.rf_wf_field]
      exact Dev.rf_wf_same _ _ _
    case trainFail => exact (Dev.rf_wf_same _ _ _).trans (Nat.mod_eq_of_lt f.isLt)
    case ue => simpa using (List.mem_filter.mp hx).2
    case low =>
      refine (reads x).trans ?_
      rw [if_neg (by simpa using low)]
    case high =>
      refine (reads x).trans ?_
      rw [if_pos (by simpa using high)]

end Machine
end Sys2Proof
end

section
/-!
PROOFS. Holds, saves, restores and CARRY regions (O49).
-/
namespace Sys2Proof

/-- A fold that each round of a good state goes through without an error ends without one, as the fold of what the rounds do. -/
theorem foldl_unbroken {σ α ε : Type} {f : σ × Option ε → α → σ × Option ε} {g : σ → α → σ} {good : σ → Prop}
    (round : ∀ s x, good s → f (s, none) x = (g s x, none)) (keeps : ∀ s x, good s → good (g s x)) (xs : List α) {s : σ}
    (start : good s) : xs.foldl f (s, none) = (xs.foldl g s, none) := by
  induction xs generalizing s with
  | nil => rfl
  | cons x xs ih => rw [List.foldl_cons, List.foldl_cons, round s x start, ih (keeps s x start)]

namespace Machine

/-! ### Rows to and from HBM leave all but counters -/

theorem Dev.ColOnly.foldl {α : Type} {f : Dev → α → Dev} (h : ∀ d x, ColOnly d (f d x)) (xs : List α) (d : Dev) :
    ColOnly d (xs.foldl f d) := by
  induction xs generalizing d with
  | nil => exact .refl d
  | cons x xs ih => exact (h d x).trans (ih _)

theorem Dev.ColOnly.toHbm (d : Dev) (a rows t : Nat) : ColOnly d (d.toHbm a rows t) :=
  .foldl (fun d _ => .meshRows d _ _ _ _) _ d

theorem Dev.ColOnly.fromHbm (d : Dev) (a rows t : Nat) : ColOnly d (d.fromHbm a rows t) :=
  .foldl (fun d _ => .meshRows d _ _ _ _) _ d

/-! ### Holds on remote producers (R299) -/

section Hold
variable {k : Fin 4} {n : Fin 16} {s : State}

theorem exec_preemptHold (peer : k.val ≠ s.dev.pkg) : Safety.givesDev (.preemptHold k n) s (s.dev.hold k.val n.val) := by
  have hd : exec (.preemptHold k n) s = execPreemptHold k n s := rfl
  rw [Safety.givesDev, hd, execPreemptHold, runDev_eq]
  simp only [peer, if_false]

/-- A step keeps the package that holds it, once. -/
def StepSt.holdFor (st : StepSt) (k : Nat) : StepSt :=
  if st.heldBy.contains k then st else { st with heldBy := st.heldBy ++ [k] }

theorem Dev.hold_step {d : Dev} {k n : Nat} {st : StepSt} (hst : (d.loop n).step = some st) : d.hold k n
    = (d.modStep n (fun st => st.holdFor k)).toPeer k ([0x41, BitVec.ofNat 8 n] ++ leBytes 4 (AMap.getD st.rowsTo k 0)) 1 := by
  have isSome : ((d.modStep n (fun st => st.holdFor k)).loop n).step.isSome = true := by
    rw [Dev.step_modStep_same, hst]
    rfl
  unfold StepSt.holdFor at isSome ⊢
  unfold Dev.hold
  simp only [hst, isSome, Bool.true_or, if_true]

/-- The loop keeps the package for its next step when it has none. -/
def Dev.holdNext (d : Dev) (k n : Nat) : Dev :=
  if (d.loop n).heldBy.contains k then d else d.modLoop n (fun l => { l with heldBy := l.heldBy ++ [k] })

theorem Dev.mem_heldBy_holdNext (d : Dev) (k n : Nat) : k ∈ ((d.holdNext k n).loop n).heldBy := by
  unfold Dev.holdNext
  split
  next kept => simpa using kept
  next =>
    rw [Dev.loop_modLoop_same]
    exact List.mem_append_right _ (List.mem_singleton_self k)

theorem Dev.hold_noStep {d : Dev} {k n : Nat} (noStep : (d.loop n).step = none) : d.hold k n
    = ((d.modStep n (fun st => st.holdFor k)).holdNext k n).toPeer k ([0x41, BitVec.ofNat 8 n] ++ leBytes 4 0) 1 := by
  have isNone : ((d.modStep n (fun st => st.holdFor k)).loop n).step.isSome = false := by
    rw [Dev.step_modStep_same, noStep]
    rfl
  unfold StepSt.holdFor at isNone ⊢
  unfold Dev.hold Dev.holdNext
  simp only [noStep, isNone, Bool.false_or]

/-- A hold that is not over in time is a fault that aborts the step. -/
theorem exec_remoteTimeout {beats : Nat} {st : StepSt} {h : Nat × Option Nat} (hst : (s.dev.loop n.val).step = some st)
    (saving : st.phase = .saving) (held : h ∈ st.holds) (fromPeer : h.1 = k.val) (notOver : s.dev.holdOver st h = false) :
    Safety.gives (.remoteTimeout k n beats) s (((Safety.mach s).mod (fun d =>
      (d.raiseFor n.val 1 Src.SCHED 0x0004 k.val 0).cnt (Reg.SCH_CNT_k 2) 1)).abortWith n.val (some beats)) := by
  have hd : exec (.remoteTimeout k n beats) s = execRemoteTimeout k n beats s := rfl
  have waits : st.holds.any (fun h => h.1 == k.val && !s.dev.holdOver st h) = true :=
    List.any_eq_true.mpr ⟨h, held, by rw [fromPeer, notOver]; simp⟩
  rw [Safety.gives, hd, execRemoteTimeout, run_eq]
  simp only [hst, saving, waits, beq_self_eq_true, Bool.and_self, if_true]
  rfl

end Hold

/-! ### The save (R295, R297, R600) -/

/-- The machine once the entries in flight at the halt are settled (R296): spur calls and passes that can end have ended, rows on
their way are back with their senders, and what could not end is cut. -/
def Mach.halted (m : Mach) (n : Nat) (ran : List (Fin 96 × Nat)) (b : Binding) : Mach :=
  (b.queueList.foldl (fun m x => m.returnRows x.1 x.2)
    (b.usedTiles.foldl (fun m t => (m.kickLoads t).finishPasses n t) (m.spurProgress n ran))).mod (fun d =>
      b.usedTiles.foldl (fun d t => ((d.cutLoads t).cutFlights t).squash t) d)

/-- The records of the tiles with a list, behind the open bytes at the start of the save area, and those tiles let go. -/
def Mach.saveRecords (m : Mach) (n base : Nat) (b : Binding) : Mach :=
  b.usedTiles.foldl (fun m t => m.saveTile n t) (b.records.foldl (fun m x =>
    (m.store (base + x.2) (m.tileRecord x.1)).mod (fun d => d.toHbm (base + x.2) 256 x.1)) (m.storeOpen base 4096))

/-- With every hold over, the live rows decide: once they are saved the records follow and the step is pre-empted; an error that
they met has ended it, and the save's beats are charged. -/
theorem exec_saveDone {n : Fin 16} {beats sb us : Nat} {ran : List (Fin 96 × Nat)} {st : StepSt} {m2 : Mach}
    {rows : Mach × Bool}
    {s : State} (hst : (s.dev.loop n.val).step = some st) (saving : st.phase = .saving)
    (allOver : st.holds.all (s.dev.holdOver st) = true) (halted : (Safety.mach s).halted n.val ran st.b = m2)
    (goesOn : (m2.dev.loop n.val).step ≠ none)
    (saved : m2.saveRows n.val (m2.dev.saveBase n.val) beats st.b.places = rows) :
    Safety.gives (.saveDone n beats sb us none ran []) s (if rows.2 then
        (rows.1.saveRecords n.val (m2.dev.saveBase n.val) st.b).mod (fun d => d.preempted n.val st beats sb us)
      else rows.1.mod (fun d => d.charge (st.callers.headD n.val) sb)) := by
  have hd : exec (.saveDone n beats sb us none ran []) s = execSaveDone n beats sb us none ran [] s := rfl
  have hasStep := Option.isNone_eq_false_iff.mpr (Option.isSome_iff_ne_none.mpr goesOn)
  rw [Mach.halted, Safety.mach] at halted
  rw [Safety.gives, hd, execSaveDone, run_eq]
  obtain ⟨m3, read⟩ := rows
  cases read with
  | true =>
    simp only [Mach.upsets_nil, hst, saving, allOver, bne_self_eq_false, Bool.not_true, Bool.or_self, Bool.false_eq_true,
      if_false, if_true, halted, hasStep, saved, Option.filter_none, Mach.saveRecords]
  | false =>
    simp only [Mach.upsets_nil, hst, saving, allOver, bne_self_eq_false, Bool.not_true, Bool.or_self, Bool.false_eq_true,
      if_false, halted, hasStep, saved, Option.filter_none]

/-- The save leaves a step pre-empted, with no hold and no call (R295). -/
theorem Dev.step_preempted (d : Dev) (n : Nat) (st : StepSt) (beats sb us : Nat) :
    ((d.preempted n st beats sb us).loop n).step.map (fun x => (x.phase, x.holds, x.called))
      = (d.loop n).step.map (fun _ => (.preempted, [], false)) := by
  have told (e : Dev) : (st.preemptTags.foldl (fun d t => d.notify t ST.OK []) e).loops = e.loops :=
    foldl_keeps Dev.loops (fun t _ e => e.loops_notify t _ _) e
  unfold Dev.preempted
  dsimp only
  rw [Dev.step_modStep_same, Option.map_map, Dev.loop_congr (told _)]
  rw [Dev.preemptTime, Dev.loop_congr (Dev.setReg_loops _ _ _), Dev.loopCnt, Dev.loop_congr (Dev.loops_cnt _ _ _),
    Dev.step_charge, Dev.step_charge]
  rfl

/-! ### The restore (R302) -/

/-- The records and the tiles of a step come back. -/
def Mach.restoreRecords (m : Mach) (n : Nat) (st : StepSt) : Mach :=
  st.saved.foldl (fun m x => if (m.dev.loop n).step.isSome then m.restoreTile n st.b x else m)
    (st.b.records.foldl (fun m x => m.mod (fun d => d.fromHbm (m.dev.saveBase n + x.2) 256 x.1)) m)

/-- The step runs again: its credits in other packages come back, its engines' lists go on, and the packages that it held are
told. -/
def Dev.resumed (d : Dev) (n : Nat) (st : StepSt) : Dev :=
  let d := st.farCredits.foldl (fun d (p : Nat × Nat) => { d with credits := AMap.set d.credits p.1 p.2 }) d
  let d := [96 + n, 112 + n].foldl (fun d k => d.modList k (fun l => { l with stopped := false })) d
  let d := (d.peersOf st.b).foldl (fun (d : Dev) k => if (st.b.queueList.any (fun x =>
      bits (d.reg (Reg.TILE_LQn_SRC x.1 x.2)) 31 28 == k)) then d.toPeer k [0x52, BitVec.ofNat 8 n] 1 else d) d
  d.modStep n (fun s => { s with
    phase := .running
    saved := []
    callers := []
    called := false
    farCredits := [] })

theorem Dev.step_resumed (d : Dev) (n : Nat) (st : StepSt) :
    ((d.resumed n st).loop n).step.map (fun x => (x.phase, x.saved, x.callers, x.called))
      = (d.loop n).step.map (fun _ => (.running, [], [], false)) := by
  have credits (e : Dev) : (st.farCredits.foldl (fun d (p : Nat × Nat) =>
      { d with credits := AMap.set d.credits p.1 p.2 }) e).loops = e.loops := foldl_keeps Dev.loops (by intros; rfl) e
  have released (e : Dev) (ks : List Nat) (f : ListSt → ListSt) : (ks.foldl (fun d k => d.modList k f) e).loops = e.loops :=
    foldl_keeps Dev.loops (fun k _ e => e.loops_modList k f) e
  have told (e : Dev) (ks : List Nat) (tells : Dev → Nat → Bool) (bs : List Byte) :
      (ks.foldl (fun d k => if tells d k then d.toPeer k bs 1 else d) e).loops = e.loops := by
    refine foldl_keeps Dev.loops (fun k _ e => ?_) e
    split
    · exact (Dev.ColOnly.toPeer e k 1 bs).loops
    · rfl
  unfold Dev.resumed
  dsimp only
  rw [Dev.step_modStep_same, Option.map_map, Dev.loop_congr ((told _ _ _ _).trans ((released _ _ _).trans (credits d)))]
  rfl

theorem exec_restoreDone {n : Fin 16} {beats : Nat} {st : StepSt} {m0 m1 : Mach} {s : State}
    (hst : (s.dev.loop n.val).step = some st) (restoring : st.phase = .restoring)
    (charged : (Safety.mach s).mod (fun d => d.charge (st.callers.headD n.val) beats) = m0)
    (restored : m0.restoreRows n.val (m0.dev.saveBase n.val) st.b.places = (m1, true)) :
    Safety.gives (.restoreDone n beats []) s ((m1.restoreRecords n.val st).mod (fun d => d.resumed n.val st)) := by
  have hd : exec (.restoreDone n beats []) s = execRestoreDone n beats [] s := rfl
  rw [← charged, Safety.mach] at restored
  rw [Safety.gives, hd, execRestoreDone, run_eq]
  simp only [Mach.upsets_nil, hst, restoring, bne_self_eq_false, Bool.false_eq_true, if_false, restored]
  rfl

/-! ### CARRY regions (R303, R600) -/

/-- Where a row of a CARRY region goes: to its place in the save area, or back into its tile. -/
def carryTo (save : Bool) (base : Nat) (x : Nat × Nat) : Nat := if save then base + x.2 else x.1

/-- A row of a CARRY region moved to the save area, or back from it. -/
def Mach.carryRow (save : Bool) (base : Nat) (m : Mach) (x : Nat × Nat) : Mach :=
  if save then
    (m.store (base + x.2) (m.rdBytes x.1 64)).mod (fun d => d.toHbm (base + x.2) 1 ((x.1 - 0x010000000000) / 0x400000))
  else
    (m.store x.1 (m.rdBytes (base + x.2) 64)).mod (fun d => d.fromHbm (base + x.2) 1 ((x.1 - 0x010000000000) / 0x400000))

/-- A store changes no byte outside its run, whatever is held complemented. -/
theorem Memory.read_store_outside {base : Memory} (ok : base.wf = true) (m : Mach) (a : Nat) (bs : List Byte) {x : Nat}
    (outside : x < a ∨ a + bs.length ≤ x) :
    Memory.read (Memory.writeLog base (m.store a bs).log) x = Memory.read (Memory.writeLog base m.log) x := by
  refine foldl_keeps (fun log => Memory.read (Memory.writeLog base log) x) (fun p hp log => ?_) m.log
  have inRun := List.mem_range.mp (List.of_mem_zip hp).1
  exact (Memory.read_write _ _ _ (Memory.wf_writeLog log ok)).trans (if_neg (by omega))

@[simp] theorem Mach.rdBytes_length (m : Mach) (a n : Nat) : (m.rdBytes a n).length = n := by
  rw [Mach.rdBytes, List.length_map, List.length_range]

theorem Dev.ColOnly.errors {d e : Dev} (h : Dev.ColOnly d e) : e.ue = d.ue ∧ e.ce = d.ce := by
  rw [h.rest]
  exact ⟨rfl, rfl⟩

/-- No unit of memory has an error that a read meets. -/
def Mach.Clean (m : Mach) : Prop := m.dev.ue = [] ∧ m.dev.ce = []

theorem Mach.Clean.store {m : Mach} (clean : m.Clean) (a : Nat) (bs : List Byte) : (m.store a bs).Clean := by
  obtain ⟨noUe, noCe⟩ := clean
  rw [Mach.Clean, Mach.store, noUe, noCe]
  exact ⟨rfl, rfl⟩

theorem Mach.Clean.mod {m : Mach} (clean : m.Clean) {f : Dev → Dev} (rows : Dev.ColOnly m.dev (f m.dev)) : (m.mod f).Clean := by
  obtain ⟨ue, ce⟩ := rows.errors
  exact ⟨ue.trans clean.1, ce.trans clean.2⟩

section CarryRow
variable (save : Bool) (base : Nat) (m : Mach) (x : Nat × Nat)

theorem Mach.loops_carryRow : (Mach.carryRow save base m x).dev.loops = m.dev.loops := by
  unfold Mach.carryRow
  split
  · exact (Dev.ColOnly.toHbm _ _ _ _).loops
  · exact (Dev.ColOnly.fromHbm _ _ _ _).loops

variable {m} in
theorem Mach.Clean.carryRow (clean : m.Clean) : (Mach.carryRow save base m x).Clean := by
  unfold Mach.carryRow
  split
  · exact (clean.store _ _).mod (Dev.ColOnly.toHbm _ _ _ _)
  · exact (clean.store _ _).mod (Dev.ColOnly.fromHbm _ _ _ _)

theorem Memory.read_carryRow {mem : Memory} (ok : mem.wf = true) {y : Nat}
    (outside : y < carryTo save base x ∨ carryTo save base x + 64 ≤ y) :
    Memory.read (Memory.writeLog mem (Mach.carryRow save base m x).log) y = Memory.read (Memory.writeLog mem m.log) y := by
  cases save with
  | true => exact Memory.read_store_outside ok m _ _ (by rwa [Mach.rdBytes_length])
  | false => exact Memory.read_store_outside ok m _ _ (by rwa [Mach.rdBytes_length])

end CarryRow

section CarryDone
variable {n : Fin 16} {save : Bool} {who beats : Nat} {b : Binding} {s : State}

/-- The machine as a CARRY save or restore begins to count: it is under way no more, and its beats are charged. -/
def Mach.carryCharged (m : Mach) (n : Nat) (save : Bool) (who beats : Nat) : Mach :=
  m.mod (fun d => (d.modLoop n (fun l => { l with carryBusy := none })).charge (if save then who else n) beats)

theorem exec_carrySaveDone (clean : Safety.noErrors s) (busy : (s.dev.loop n.val).carryBusy = some (save, who))
    (bound : (s.dev.loop n.val).binding = some b) : Safety.gives (.carrySaveDone n save beats []) s
      ((b.carryPlaces.foldl (Mach.carryRow save (s.dev.saveBase n.val)) ((Safety.mach s).carryCharged n.val save who beats)).mod
        (fun d => d.modLoop n.val (fun l => { l with carrySaved := if save then some (s.dev.saveBase n.val) else none }))) := by
  have hd : exec (.carrySaveDone n save beats []) s = execCarrySaveDone n save beats [] s := rfl
  have start : ((Safety.mach s).carryCharged n.val save who beats).Clean := ⟨clean.1, clean.2.1⟩
  rw [Safety.gives, hd, execCarrySaveDone, run_eq]
  simp only [Mach.upsets_nil, busy, bound, bne_self_eq_false, Bool.false_eq_true, if_false]
  rw [Mach.carryCharged, Safety.mach] at start
  rw [foldl_unbroken (g := Mach.carryRow save (s.dev.saveBase n.val)) (good := Mach.Clean) ?round
    (fun m x => Mach.Clean.carryRow save _ x) _ start]
  case round =>
    intro m x clean
    have read (a k req loop : Nat) : m.eccRead a k req loop = (m, none) := Mach.eccRead_noErrors clean.1 clean.2 a k req loop
    cases save with
    | true => simp only [read]; rfl
    | false => simp only [read]; rfl
  rfl

theorem Dev.loop_carryRows (m : Mach) (base k : Nat) :
    (b.carryPlaces.foldl (Mach.carryRow save base) m).dev.loop k = m.dev.loop k :=
  Dev.loop_congr (foldl_keeps (fun m : Mach => m.dev.loops) (fun x _ m => m.loops_carryRow save base x) m) k

end CarryDone

/-- Settles O49: a hold by the step that it meets, a save by its holds and its live rows, a restore by its live rows, CARRY
regions row by row. -/
theorem preemptionSavesAndRestores : Obligations.PreemptionSavesAndRestores := by
  unfold Obligations.PreemptionSavesAndRestores
  refine ⟨?hold, ?holdNext, fun k n beats st h s hst saving held fromPeer notOver =>
    exec_remoteTimeout hst saving held fromPeer notOver, ?save, ?restore, ?carry⟩
  case hold =>
    intro k n st s peer hst
    have held := exec_preemptHold (n := n) peer
    rwa [Dev.hold_step hst] at held
  case holdNext =>
    intro k n s peer noStep
    have held := exec_preemptHold (n := n) peer
    rw [Dev.hold_noStep noStep] at held
    exact ⟨_, held, Dev.mem_heldBy_holdNext _ _ _⟩
  case save =>
    intro n beats sb us ran st m1 m2 m3 m4 s hst saving allOver hm1 hm2 goesOn
    subst hm1
    refine ⟨fun saved hm4 => ?_, fun failed => exec_saveDone hst saving allOver hm2.symm goesOn failed⟩
    subst hm4
    have done := exec_saveDone (us := us) (sb := sb) hst saving allOver hm2.symm goesOn saved
    refine ⟨done, fun hasStep => ⟨_, done, (Dev.step_preempted _ _ _ _ _ _).trans ?_⟩⟩
    obtain ⟨x, hx⟩ := Option.ne_none_iff_exists'.mp hasStep
    exact congrArg (Option.map _) hx
  case restore =>
    intro n beats st m0 m1 m2 s hst restoring hm0 restored hm2 hasStep
    subst hm2
    refine ⟨_, exec_restoreDone hst restoring hm0.symm restored, rfl, (Dev.step_resumed _ _ _).trans ?_⟩
    obtain ⟨x, hx⟩ := Option.ne_none_iff_exists'.mp hasStep
    exact congrArg (Option.map _) hx
  case carry =>
    intro n save who beats base b m0 m1 s ok clean busy bound hbase hm0 hm1
    subst hbase hm0 hm1
    have done := exec_carrySaveDone (beats := beats) clean busy bound
    refine ⟨done, _, done, ?noneBusy, ?kept, fun x outside => ?untouched⟩
    case noneBusy =>
      rw [Mach.mod_dev, Dev.loop_modLoop_same, Dev.loop_carryRows, Mach.carryCharged, Mach.mod_dev]
      refine (Dev.charge_keeps (g := LoopSt.carryBusy) (fun _ _ => rfl) _ _ _ _).trans ?_
      rw [Dev.loop_modLoop_same]
    case kept =>
      rw [Mach.mod_dev, Dev.loop_modLoop_same]
    case untouched =>
      exact foldl_keeps (fun m : Mach => Memory.read (Memory.writeLog s.mem m.log) x)
        (fun p hp m => Memory.read_carryRow save _ m p ok (outside p hp)) _

end Machine
end Sys2Proof
end

section
/-!
PROOFS. The states of a Col link (O51).
-/
namespace Sys2Proof
namespace Machine

/-! ### One port -/

@[simp] theorem Dev.port_modPort_same (d : Dev) (p : Nat) (f : PortSt → PortSt) : (d.modPort p f).port p = f (d.port p) :=
  AMap.getD_set_same _ _ _ _

/-- A port is read from the state of the Col ports alone. -/
theorem Dev.port_congr {d e : Dev} (h : d.col = e.col) (p : Nat) : d.port p = e.port p := by
  rw [Dev.port, h, Dev.port]

@[simp] theorem Dev.port_wf (d : Dev) (a : Nat) (f : Fd) (v p : Nat) : (d.wf a f v).port p = d.port p := rfl

@[simp] theorem Dev.port_setPortState (d : Dev) (p v q : Nat) : (d.setPortState p v).port q = d.port q := rfl

@[simp] theorem Dev.port_colCnt (d : Dev) (p k n q : Nat) : (d.colCnt p k n).port q = d.port q :=
  Dev.port_congr (by rw [Dev.colCnt, Dev.cnt_frame]) q

theorem Dev.portState_setPortState (d : Dev) (p : Nat) {v : Nat} (code : v < 8) : (d.setPortState p v).portState p = v :=
  (d.rf_wf_same _ _).trans (Nat.mod_eq_of_lt code)

/-- A state written changes no other field of COL_Pp_STAT. -/
theorem Dev.rf_setPortState_field (d : Dev) (p v : Nat) {g : Fd} (low : g.hi < Fld.COL_Pp_STAT.STATE.lo) :
    (d.setPortState p v).rf (Reg.COL_Pp_STAT p) g = d.rf (Reg.COL_Pp_STAT p) g :=
  d.rf_wf_field _ _ (.inr low)

theorem COL_Pp_CTRL_ne_STAT (p : Nat) : Reg.COL_Pp_CTRL p ≠ Reg.COL_Pp_STAT p := by
  unfold Reg.COL_Pp_CTRL Reg.COL_Pp_STAT
  omega

theorem COL_Pp_STAT_ne_CRED (p : Nat) : Reg.COL_Pp_STAT p ≠ Reg.COL_Pp_CRED p := by
  unfold Reg.COL_Pp_STAT Reg.COL_Pp_CRED
  omega

/-- EN of a port stands beside its state. -/
theorem Dev.portState_wf_en (d : Dev) (p v : Nat) :
    (d.wf (Reg.COL_Pp_CTRL p) Fld.COL_Pp_CTRL.EN v).portState p = d.portState p :=
  d.rf_wf_ne _ _ _ (COL_Pp_CTRL_ne_STAT p).symm

/-- An IDLE flit that leaves changes the state of the Col ports alone. -/
theorem Dev.sendIdle_frame (d : Dev) (p : Nat) : d.sendIdle p = { d with col := (d.sendIdle p).col } := by
  unfold Dev.sendIdle
  split <;> rfl

/-! ### Bring-up (R316, R336) -/

/-- A port that has trained: the link starts afresh, in INIT, and the first IDLE flit leaves. -/
def Dev.portInit (d : Dev) (p : Nat) : Dev :=
  (((d.modPort p PortSt.fresh).setReg (Reg.COL_Pp_CRED p) 0).setPortState p PS.INIT).sendIdle p

theorem Dev.raised_portInit (d : Dev) (p : Nat) : (d.portInit p).raised = d.raised := by
  rw [Dev.portInit, Dev.sendIdle_frame]
  rfl

theorem Dev.portState_portInit (d : Dev) (p : Nat) : (d.portInit p).portState p = PS.INIT := by
  rw [Dev.portInit, Dev.sendIdle_frame]
  exact Dev.portState_setPortState _ p (by decide)

theorem Dev.rf_portInit (d : Dev) (p : Nat) {g : Fd} (low : g.hi < Fld.COL_Pp_STAT.STATE.lo) :
    (d.portInit p).rf (Reg.COL_Pp_STAT p) g = d.rf (Reg.COL_Pp_STAT p) g := by
  rw [Dev.portInit, Dev.sendIdle_frame]
  refine (Dev.rf_setPortState_field _ p _ low).trans ?_
  exact congrArg (bits · g.hi g.lo) ((d.modPort p PortSt.fresh).reg_setReg_ne 0 (COL_Pp_STAT_ne_CRED p))

/-- The lanes that a training has found to fail leave one half of the eight without a failure. -/
def halfFails (f : Nat) : Bool := f % 16 == 0 || f / 16 == 0

/-- What a training leaves of port `p` with the failed lanes `f`. -/
def Dev.trained (d : Dev) (p f : Nat) : Dev :=
  let e := d.wf (Reg.COL_Pp_STAT p) Fld.COL_Pp_STAT.LANE_FAIL f
  if f = 0 then (e.wf (Reg.COL_Pp_STAT p) Fld.COL_Pp_STAT.WIDTH4 0).portInit p
  else if d.rfB (Reg.COL_Pp_CTRL p) Fld.COL_Pp_CTRL.ALLOW4 && halfFails f then
    ((e.wf (Reg.COL_Pp_STAT p) Fld.COL_Pp_STAT.WIDTH4 1).raise 0 Src.COL 0x0001 p f).portInit p
  else e.setPortState p PS.DOWN

theorem exec_linkTrain {p : Fin 6} {r : TrainResult} {s : State} (power : s.dev.colPower = true)
    (trains : s.dev.portState p.val = PS.TRAINING
      ∨ (s.dev.portState p.val = PS.DOWN ∧ s.dev.colAuto = true ∧ s.dev.portEn p.val = true)) :
    Safety.givesDev (.linkTrain p r) s (s.dev.trained p.val r.laneFail.toNat) := by
  have hd : exec (.linkTrain p r) s = execLinkTrain p r s := rfl
  have mayTrain : (s.dev.portState p.val == PS.TRAINING
      || (s.dev.portState p.val == PS.DOWN && s.dev.colAuto && s.dev.portEn p.val)) = true := by
    rw [Bool.or_eq_true, Bool.and_eq_true, Bool.and_eq_true, beq_iff_eq, beq_iff_eq, and_assoc]
    exact trains
  have allow4 : (s.dev.wf (Reg.COL_Pp_STAT p) Fld.COL_Pp_STAT.LANE_FAIL r.laneFail.toNat).rfB (Reg.COL_Pp_CTRL p)
      Fld.COL_Pp_CTRL.ALLOW4 = s.dev.rfB (Reg.COL_Pp_CTRL p) Fld.COL_Pp_CTRL.ALLOW4 :=
    congrArg (· != 0) (s.dev.rf_wf_ne _ _ _ (COL_Pp_CTRL_ne_STAT p))
  rw [Safety.givesDev, hd, execLinkTrain, runDev_eq]
  simp only [power, mayTrain, allow4, Bool.not_true, Bool.or_self, Bool.false_eq_true, if_false]
  rfl

section Trained
variable (d : Dev) (p : Nat) {f : Nat}

/-- Every attempt shows the lanes that failed. -/
theorem Dev.laneFail_trained (lanes : f < 256) :
    (d.trained p f).rf (Reg.COL_Pp_STAT p) Fld.COL_Pp_STAT.LANE_FAIL = f := by
  have shown : (d.wf (Reg.COL_Pp_STAT p) Fld.COL_Pp_STAT.LANE_FAIL f).rf (Reg.COL_Pp_STAT p) Fld.COL_Pp_STAT.LANE_FAIL = f :=
    (d.rf_wf_same _ _).trans (Nat.mod_eq_of_lt lanes)
  have beside (w : Nat) := (d.wf (Reg.COL_Pp_STAT p) Fld.COL_Pp_STAT.LANE_FAIL f).rf_wf_field (Reg.COL_Pp_STAT p)
    (f := Fld.COL_Pp_STAT.WIDTH4) (g := Fld.COL_Pp_STAT.LANE_FAIL) w
  unfold Dev.trained
  dsimp only
  split
  · exact (Dev.rf_portInit _ p (by decide)).trans ((beside 0).trans shown)
  · split
    · exact (Dev.rf_portInit _ p (by decide)).trans ((beside 1).trans shown)
    · exact (Dev.rf_setPortState_field _ p _ (by decide)).trans shown

theorem Dev.trained_all : (d.trained p 0).portState p = PS.INIT
    ∧ (d.trained p 0).rf (Reg.COL_Pp_STAT p) Fld.COL_Pp_STAT.WIDTH4 = 0 ∧ (d.trained p 0).raised = d.raised :=
  ⟨Dev.portState_portInit _ p, (Dev.rf_portInit _ p (by decide)).trans (Dev.rf_wf_same _ _ _), Dev.raised_portInit _ p⟩

theorem Dev.trained_half (anyFails : f ≠ 0) (allow4 : d.rfB (Reg.COL_Pp_CTRL p) Fld.COL_Pp_CTRL.ALLOW4 = true)
    (half : halfFails f = true) (lanes : f < 256) : (d.trained p f).portState p = PS.INIT
      ∧ (d.trained p f).rf (Reg.COL_Pp_STAT p) Fld.COL_Pp_STAT.WIDTH4 = 1
      ∧ (d.trained p f).raised = d.raised ++ [Safety.rec 0 Src.COL 0x0001 p f] := by
  rw [Dev.trained, if_neg anyFails, allow4, half, Bool.and_self, if_pos rfl]
  refine ⟨Dev.portState_portInit _ p, (Dev.rf_portInit _ p (by decide)).trans (Dev.rf_wf_same _ _ _), ?_⟩
  rw [Dev.raised_portInit, Dev.raise_raised, Nat.mod_eq_of_lt (lanes.trans (by decide))]
  rfl

theorem Dev.trained_none (anyFails : f ≠ 0)
    (fails : (d.rfB (Reg.COL_Pp_CTRL p) Fld.COL_Pp_CTRL.ALLOW4 && halfFails f) = false) :
    (d.trained p f).portState p = PS.DOWN ∧ (d.trained p f).raised = d.raised := by
  rw [Dev.trained, if_neg anyFails, fails, if_neg Bool.false_ne_true]
  exact ⟨Dev.portState_setPortState _ p (by decide), rfl⟩

end Trained

theorem exec_linkTrainTimeout {p : Fin 6} {s : State} (trains : s.dev.portState p.val = PS.TRAINING) :
    Safety.givesDev (.linkTrainTimeout p) s
      (if s.dev.rf Reg.COL_CTRL Fld.COL_CTRL.AUTO = 0 then s.dev.setPortState p.val PS.DOWN else s.dev) := by
  have hd : exec (.linkTrainTimeout p) s = execLinkTrainTimeout p s := rfl
  rw [Safety.givesDev, hd, execLinkTrainTimeout, runDev_eq]
  simp only [trains, Dev.colAuto, Dev.rfB, ne_eq, not_true_eq_false, if_false, bne_iff_ne, ite_not]

/-! ### Replay and recovery (R323, R324) -/

/-- A replay of a port that has unacknowledged flits: counts, and the eighth takes the port to RECOVERY. -/
theorem Dev.replay_eq (d : Dev) (p : Nat) (waits : (d.port p).unacked ≠ []) {e : Dev}
    (he : e = ((d.colCnt p 5 1).colCnt p 0 (d.port p).unacked.length).modPort p
      (fun x => { x with resends := x.resends + 1 })) :
    d.replay p = if (d.port p).resends < 7 then e else e.portRecovery p := by
  have resends : (e.port p).resends = (d.port p).resends + 1 := by
    rw [he, Dev.port_modPort_same, Dev.port_colCnt, Dev.port_colCnt]
  have any : (d.port p).unacked.length ≠ 0 := mt List.length_eq_zero_iff.mp waits
  simp only [Dev.replay, any, if_false, ← he, resends]
  split
  next eighth => rw [if_neg (by omega)]
  next => rw [if_pos (by omega)]

section Unacked
variable {p : Fin 6} {s : State} (up : s.dev.portState p.val = PS.UP) (waits : (s.dev.port p.val).unacked ≠ [])
include up waits

theorem mayReplay : (decide (s.dev.portState p.val ≠ PS.UP) || (s.dev.port p.val).unacked.isEmpty) = false :=
  Bool.or_eq_false_iff.mpr ⟨decide_eq_false (not_not.mpr up), List.isEmpty_eq_false_iff.mpr waits⟩

theorem exec_replayTimeout : Safety.givesDev (.replayTimeout p) s (s.dev.replay p.val) := by
  have hd : exec (.replayTimeout p) s = execReplayTimeout p s := rfl
  rw [Safety.givesDev, hd, execReplayTimeout, runDev_eq]
  simp only [mayReplay up waits, Bool.false_eq_true, if_false]

theorem exec_recovery : Safety.givesDev (.recovery p) s (s.dev.portRecovery p.val) := by
  have hd : exec (.recovery p) s = execRecovery p s := rfl
  rw [Safety.givesDev, hd, execRecovery, runDev_eq]
  simp only [mayReplay up waits, Bool.false_eq_true, if_false]

end Unacked

/-- A port that is UP again after RECOVERY. -/
def Dev.portBack (d : Dev) (p : Nat) : Dev :=
  (d.setPortState p PS.UP).modPort p (fun x => { x with resends := 0, cwPhase := 0, cwBad := false })

theorem exec_codewordLock {p : Fin 6} {s : State} (recovers : s.dev.portState p.val = PS.RECOVERY) :
    Safety.givesDev (.codewordLock p) s
      ((if (s.dev.port p.val).unacked = [] then s.dev.portBack p.val else (s.dev.portBack p.val).replay p.val).colKick p.val
        1024) := by
  have hd : exec (.codewordLock p) s = execCodewordLock p s := rfl
  rw [Safety.givesDev, hd, execCodewordLock, runDev_eq]
  simp only [recovers, ne_eq, not_true_eq_false, if_false, Dev.port_modPort_same, Dev.port_setPortState, List.isEmpty_iff]
  rfl

/-! ### DOWN, RETRAIN and EN (R325, R346) -/

theorem exec_down {p : Fin 6} {s : State} (up : s.dev.linkUp p.val = true) :
    Safety.gives (.down p) s ((Safety.mach s).portDown p.val PS.DOWN) := by
  have hd : exec (.down p) s = execDown p s := rfl
  rw [Safety.gives, hd, execDown, run_eq]
  simp only [up, if_true]
  rfl

/-- From any state but with a link that is up, training begins without a loss. -/
theorem exec_retrain {p : Fin 6} {s : State} (power : s.dev.colPower = true) : Safety.gives (.retrain p) s
    (if s.dev.linkUp p.val then (Safety.mach s).portDown p.val PS.TRAINING
      else (Safety.mach s).mod (fun d => d.setPortState p.val PS.TRAINING)) := by
  have hd : exec (.retrain p) s = execRetrain p s := rfl
  rw [Safety.gives, hd, execRetrain, run_eq, Mach.retrain, power, Bool.not_true, if_neg Bool.false_ne_true]
  rfl

/-- EN written 1 begins the training of a port that is DISABLED, while the ports may run. -/
theorem exec_portEn_on {p : Fin 6} {e : Dev} {s : State}
    (he : e = s.dev.wf (Reg.COL_Pp_CTRL p.val) Fld.COL_Pp_CTRL.EN 1) : Safety.givesDev (.portEn p true) s
      (if e.portState p.val = PS.DISABLED && e.colPower then e.setPortState p.val PS.TRAINING else e) := by
  have hd : exec (.portEn p true) s = execPortEn p true s := rfl
  subst he
  rw [Safety.givesDev, hd, execPortEn, run_eq, Mach.portEnWrite, if_pos rfl]
  split
  next trains => exact (congrArg (fun d => Host.Outcome.next { s with dev := d }) (if_pos trains)).symm
  next stays => exact (congrArg (fun d => Host.Outcome.next { s with dev := d }) (if_neg stays)).symm

/-- EN written 0 takes a link that is up down, and any other port to DISABLED. -/
theorem exec_portEn_off {p : Fin 6} {e : Dev} {s : State}
    (he : e = s.dev.wf (Reg.COL_Pp_CTRL p.val) Fld.COL_Pp_CTRL.EN 0) : Safety.gives (.portEn p false) s
      (if e.linkUp p.val then (⟨s.mem, [], e⟩ : Mach).portDown p.val PS.DISABLED
        else ⟨s.mem, [], e.setPortState p.val PS.DISABLED⟩) := by
  subst he
  rfl

/-- EN and the state of one port written change these two registers alone. -/
theorem onlyRegs_en_state (s : State) (p v w : Nat) : Safety.onlyRegs s
    { s with dev := (s.dev.wf (Reg.COL_Pp_CTRL p) Fld.COL_Pp_CTRL.EN v).setPortState p w }
    [Reg.COL_Pp_CTRL p, Reg.COL_Pp_STAT p] := by
  refine ⟨rfl, fun a other => ?_⟩
  rw [List.mem_cons, List.mem_singleton, not_or] at other
  obtain ⟨notCtrl, notStat⟩ := other
  exact (Dev.reg_wf_ne _ _ _ notStat).trans (s.dev.reg_wf_ne _ _ notCtrl)

section Disabled
variable {p : Fin 6} {s : State} (disabled : s.dev.portState p.val = PS.DISABLED)
include disabled

/-- EN written on a port that is DISABLED: 1 begins its training, 0 leaves it so. -/
theorem exec_portEn_disabled (power : s.dev.colPower = true) (en : Bool) : Safety.givesDev (.portEn p en) s
    ((s.dev.wf (Reg.COL_Pp_CTRL p.val) Fld.COL_Pp_CTRL.EN (b2n en)).setPortState p.val
      (if en then PS.TRAINING else PS.DISABLED)) := by
  have off (v : Nat) := (s.dev.portState_wf_en p.val v).trans disabled
  cases en
  case true =>
    have may : (s.dev.wf (Reg.COL_Pp_CTRL p.val) Fld.COL_Pp_CTRL.EN 1).colPower = true := by
      rw [Dev.colPower, Dev.rfB, Dev.rf_wf_ne _ _ _ _ (by unfold Reg.PWR_STAT Reg.COL_Pp_CTRL; omega)]
      exact power
    have trained := exec_portEn_on (p := p) (s := s) rfl
    rwa [off, may, if_pos (by decide)] at trained
  case false =>
    have down : (s.dev.wf (Reg.COL_Pp_CTRL p.val) Fld.COL_Pp_CTRL.EN 0).linkUp p.val = false := by
      rw [Dev.linkUp, off]
      rfl
    have stopped := exec_portEn_off (p := p) (s := s) rfl
    rw [down, if_neg Bool.false_ne_true] at stopped
    exact givesDev_of_gives stopped rfl

end Disabled

/-! ### Time-outs (R339, R340, R561) -/

theorem exec_remoteAccessTimeout_access {tag : BitVec 16} {x : RemoteReq} {s : State}
    (access : AMap.find s.dev.col.outstanding tag.toNat = some x) :
    Safety.givesDev (.remoteAccessTimeout tag) s ((s.dev.endSummit x.acc ST.TIMEOUT).issueAccesses 4096) := by
  have hd : exec (.remoteAccessTimeout tag) s = execRemoteAccessTimeout tag s := rfl
  rw [Safety.givesDev, hd, execRemoteAccessTimeout, runDev_eq]
  simp only [access]

/-- A command that the lead has sent to a peer ends by a reply of its own. -/
theorem exec_remoteAccessTimeout_command {tag : BitVec 16} {k : Nat} {p : Packet} {s : State}
    (noAccess : AMap.find s.dev.col.outstanding tag.toNat = none) (sent : AMap.find s.dev.sdio.remote tag.toNat = some k)
    (waits : s.dev.sdio.outstanding.find? (fun p => p.tag == tag.toNat && p.pkg != s.dev.pkg) = some p) :
    Safety.givesDev (.remoteAccessTimeout tag) s
      ({ s.dev with sdio := { s.dev.sdio with remote := AMap.erase s.dev.sdio.remote tag.toNat } }.reply p ST.TIMEOUT []) := by
  have hd : exec (.remoteAccessTimeout tag) s = execRemoteAccessTimeout tag s := rfl
  have asked : ({ s.dev with sdio := { s.dev.sdio with remote := AMap.erase s.dev.sdio.remote tag.toNat } } : Dev).pkg
    = s.dev.pkg := rfl
  rw [Safety.givesDev, hd, execRemoteAccessTimeout, runDev_eq]
  simp only [noAccess, sent, Option.isSome_some, if_true, Dev.endRemote, asked, waits]

theorem exec_colBootTimeout {s : State} (booting : s.dev.boot.phase = .colBoot) (noImage : s.dev.boot.stage1 = none) :
    Safety.gives .colBootTimeout s (Safety.mach s).colBootFails := by
  have hd : exec .colBootTimeout s = execColBootTimeout s := rfl
  rw [Safety.gives, hd, execColBootTimeout, run_eq]
  simp only [booting, noImage, Option.isNone_none, beq_self_eq_true, Bool.and_self, if_true]
  rfl

/-! ### The exchange with the lead (R341) -/

/-- The timebase after a complete exchange with the lead. -/
def Dev.exchanged (d : Dev) (x : Nat × Nat × Nat × Nat) : Dev :=
  ({ d with col := { d.col with exchange := none } }.setReg Reg.COL_TSYNC
    (wrap 32 (max (-(2 ^ 31)) (min (2 ^ 31 - 1) (exchangeOffset x))))).measure ⟨-exchangeOffset x, 1000000, false⟩

/-- The stamped message with which an exchange with the lead begins. -/
def Dev.askStamp (d : Dev) : Dev := d.toPeer 0 ([0x54] ++ leBytes 8 d.stamp) 1

theorem exec_colTsync {s : State} (lead : s.dev.tbSource = 2) (reaches : s.dev.reachable 0 = true) :
    Safety.givesDev .colTsync s ((s.dev.col.exchange.elim s.dev s.dev.exchanged).askStamp) := by
  have hd : exec .colTsync s = execColTsync s := rfl
  rw [Safety.givesDev, hd, execColTsync, runDev_eq]
  simp only [lead, reaches, ne_eq, not_true_eq_false, decide_false, Bool.not_true, Bool.or_self, Bool.false_eq_true, if_false]
  cases s.dev.col.exchange <;> rfl

/-- Settles O51: training by the lanes that failed (`Dev.trained`), replay and recovery by the flits that wait, a port's written
bits by its state, the exchange by what it has gathered. -/
theorem colLinkStates : Obligations.ColLinkStates := by
  unfold Obligations.ColLinkStates
  refine ⟨?train, ?trainTimeout, ?replay, fun p s up waits => exec_recovery up waits, ?lock, fun p s up => exec_down up,
    ?retrain, ?portEn, ?disabled, fun tag x s access => exec_remoteAccessTimeout_access access,
    fun tag k p s noAccess sent waits => exec_remoteAccessTimeout_command noAccess sent waits,
    fun s booting noImage => exec_colBootTimeout booting noImage, ?tsync⟩
  case train =>
    intro p r s power trains
    have lanes : r.laneFail.toNat < 256 := r.laneFail.isLt
    refine ⟨_, exec_linkTrain power trains, ⟨rfl, rfl⟩, s.dev.laneFail_trained p lanes, fun all => ?all,
      fun anyFails allow4 half => ?half, fun anyFails fails => ?none⟩
    case all =>
      rw [all]
      exact s.dev.trained_all p
    case half =>
      refine s.dev.trained_half p anyFails (bne_iff_ne.mpr (by rw [allow4]; decide)) ?_ lanes
      rw [halfFails, Bool.or_eq_true, beq_iff_eq, beq_iff_eq, Nat.div_eq_zero_iff_lt (by decide)]
      exact half
    case none =>
      refine s.dev.trained_none p anyFails ?_
      rw [Bool.and_eq_false_iff, Dev.rfB, bne_eq_false_iff_eq, halfFails, Bool.or_eq_false_iff, beq_eq_false_iff_ne,
        beq_eq_false_iff_ne]
      exact fails.imp_right fun ⟨low, high⟩ => ⟨low, by omega⟩
  case trainTimeout =>
    intro p s trains
    refine ⟨_, exec_linkTrainTimeout trains, ?_⟩
    by_cases auto : s.dev.rf Reg.COL_CTRL Fld.COL_CTRL.AUTO = 0
    · rw [if_pos auto, if_pos auto]
      exact ⟨Dev.portState_setPortState _ _ (by decide), onlyRegs_wf s _ _ _⟩
    · rw [if_neg auto, if_neg auto]
      exact ⟨trains, rfl, fun _ _ => rfl⟩
  case replay =>
    intro p e s up waits he
    have resent := exec_replayTimeout up waits
    rwa [Dev.replay_eq s.dev p.val waits he] at resent
  case lock =>
    intro p e s recovers he
    subst he
    exact exec_codewordLock recovers
  case retrain =>
    intro p s power
    have trains := exec_retrain (p := p) power
    refine ⟨fun up => ?up, fun down => ?down⟩
    case up => rwa [if_pos up] at trains
    case down =>
      rw [down, if_neg Bool.false_ne_true] at trains
      exact givesDev_of_gives trains rfl
  case portEn =>
    intro p en e s he
    refine ⟨fun on => ?on, fun off up => ?up, fun off down => ?down⟩
    case on =>
      subst on
      exact exec_portEn_on he
    case up =>
      subst off
      have stopped := exec_portEn_off he
      rwa [if_pos up] at stopped
    case down =>
      subst off
      have stopped := exec_portEn_off he
      rw [down, if_neg Bool.false_ne_true] at stopped
      exact givesDev_of_gives stopped rfl
  case disabled =>
    intro p en s disabled power
    refine ⟨_, exec_portEn_disabled disabled power en, ?en, ?state, onlyRegs_en_state s _ _ _⟩
    case en =>
      refine (Dev.rf_wf_ne _ _ _ _ (COL_Pp_CTRL_ne_STAT p.val)).trans ?_
      exact (s.dev.rf_wf_same _ _).trans (b2n_mod_two en)
    case state => exact Dev.portState_setPortState _ _ (by cases en <;> decide)
  case tsync =>
    intro s lead reaches
    have asked := exec_colTsync lead reaches
    refine ⟨fun noExchange => ?begins, fun x e complete he => ?complete⟩
    case begins => rwa [noExchange] at asked
    case complete =>
      subst he
      rwa [complete] at asked

end Machine
end Sys2Proof
end

section
/-!
PROOFS. Flits and messages of a Col link (O52).
-/
namespace Sys2Proof
namespace Machine

/-! ### What a port has received (R321, R322) -/

/-- The sequence number that a port acknowledges, whether it has asked for a replay, and the bytes of its channels. -/
def PortSt.got (x : PortSt) : Nat × Bool × List (List Byte) := (x.ackOut, x.nak, x.rx)

theorem PortSt.got_eq_iff {x : PortSt} {ack : Nat} {nak : Bool} {rx : List (List Byte)} :
    x.got = (ack, nak, rx) ↔ x.ackOut = ack ∧ x.nak = nak ∧ x.rx = rx := by
  rw [PortSt.got, Prod.mk.injEq, Prod.mk.injEq]

theorem Dev.got_modPort (d : Dev) (p : Nat) {f : PortSt → PortSt} (keeps : ∀ x, (f x).got = x.got := by exact fun _ => rfl) :
    ((d.modPort p f).port p).got = (d.port p).got := by
  rw [Dev.port_modPort_same, keeps]

theorem PortSt.got_acked (x : PortSt) (ack : Nat) : (x.acked ack).got = x.got := by
  unfold PortSt.acked
  dsimp only
  split <;> rfl

theorem Dev.got_takeCredits (d : Dev) (p : Nat) (f : Flit) : ((d.takeCredits p f).port p).got = (d.port p).got :=
  d.got_modPort p (f := fun x => { x with seen := modAt x.seen f.crvc (fun _ => f.crcnt) })

theorem Dev.got_fecFlit (d : Dev) (p : Nat) (fec : FecResult) : ((d.fecFlit p fec).1.port p).got = (d.port p).got := by
  unfold Dev.fecFlit
  dsimp only
  refine (Dev.got_modPort _ p).trans ?_
  rw [Dev.port_colCnt, Dev.port_colCnt]

/-! ### What a port sends leaves what it has received (R327, R328) -/

theorem Dev.got_nextFlit (d : Dev) (p type vc : Nat) (bs : List Byte) :
    ((d.nextFlit p type vc bs).1.port p).got = (d.port p).got :=
  d.got_modPort p (f := fun x => { x with crvc := (x.crvc + 1) % 4 })

theorem Dev.got_sendIdle (d : Dev) (p : Nat) : ((d.sendIdle p).port p).got = (d.port p).got := by
  unfold Dev.sendIdle
  split
  · rfl
  · exact (Dev.got_modPort _ p).trans (d.got_nextFlit p 0 0 (leBytes 1 d.pkg ++ leBytes 1 p ++ leBytes 1 d.grp ++ [1]))

theorem Dev.got_fillFlit (d : Dev) (p vc fuel room : Nat) : ((d.fillFlit p vc fuel room).1.port p).got = (d.port p).got := by
  induction fuel generalizing d room with
  | zero => rfl
  | succ fuel ih =>
    unfold Dev.fillFlit
    split
    · rfl
    · exact (ih _ _).trans (Dev.got_modPort _ p)

theorem Dev.got_sendData1 (d : Dev) (p vc : Nat) : ((d.sendData1 p vc).port p).got = (d.port p).got := by
  have filled := d.got_fillFlit p vc 17 244
  unfold Dev.sendData1
  generalize d.fillFlit p vc 17 244 = x at filled ⊢
  obtain ⟨d', bs⟩ := x
  refine Eq.trans ?_ filled
  refine (congrArg PortSt.got ((Dev.port_colCnt _ p 0 1 p).trans (Dev.port_wf _ _ _ _ p))).trans ?_
  exact (Dev.got_modPort _ p).trans (d'.got_nextFlit p 1 vc bs)

theorem Dev.got_colKick (d : Dev) (p fuel : Nat) : ((d.colKick p fuel).port p).got = (d.port p).got := by
  induction fuel generalizing d with
  | zero => rfl
  | succ fuel ih =>
    unfold Dev.colKick
    split
    · exact d.got_sendIdle p
    · split
      · exact d.got_sendIdle p
      · exact (ih _).trans (d.got_sendData1 p _)

/-! ### DATA flits (R322) -/

/-- A flit's acknowledgement and credits come before its payload. -/
theorem Dev.got_ackAndCredits (d : Dev) (p : Nat) (f : Flit) :
    ((((d.modPort p (fun x => x.acked f.ack)).takeCredits p f)).port p).got = (d.port p).got :=
  (Dev.got_takeCredits _ p f).trans (d.got_modPort p fun x => x.got_acked f.ack)

theorem Dev.got_dataFlit {d : Dev} {p : Nat} {f : Flit} {ack : Nat} {nak : Bool} {rx : List (List Byte)}
    (before : (d.port p).got = (ack, nak, rx)) : ((d.dataFlit p f).port p).got =
      if f.seq = (ack + 1) % 4096 then (f.seq, false, modAt rx f.vc (· ++ f.payload)) else (ack, nak, rx) := by
  have credited := (d.got_ackAndCredits p f).trans before
  obtain ⟨hack, -, hrx⟩ := PortSt.got_eq_iff.mp credited
  rw [Dev.dataFlit, hack]
  by_cases inSequence : f.seq = (ack + 1) % 4096
  · rw [if_neg (not_not.mpr inSequence), if_pos inSequence, Dev.port_modPort_same, Dev.port_colCnt, PortSt.got, hrx]
  · rw [if_pos inSequence, if_neg inSequence, credited]

/-! ### A flit arrives (R315, R318 to R323) -/

/-- What a DATA flit or a NAK that passes its checks does at port `p`, which is UP or in INIT. -/
def Dev.takeFlit (d : Dev) (p : Nat) (up : Bool) (f : Flit) : Dev :=
  if up = false then d
  else if f.type = 1 then d.dataFlit p f
  else ((d.modPort p (fun x => x.acked f.ack)).takeCredits p f).replay p

section FlitRx
variable {p : Fin 6} {flit : List Byte} {fec : FecResult} {d : Dev} {bad : Bool} {s : State}
  (links : s.dev.portState p.val = PS.UP ∨ s.dev.portState p.val = PS.INIT) (received : s.dev.fecFlit p.val fec = (d, bad))

include links in
theorem takesFlits : (decide (s.dev.portState p.val ≠ PS.INIT) && decide (s.dev.portState p.val ≠ PS.UP)) = false := by
  obtain up | init := links
  · rw [up]
    rfl
  · rw [init]
    rfl

include links received

theorem exec_flitRx_bad (fails : bad = true ∨ parseFlit flit = none) :
    Safety.givesDev (.flitRx p flit fec) s ((d.colCnt p.val 2 1).sendNak p.val) := by
  have hd : exec (.flitRx p flit fec) s = execFlitRx p flit fec s := rfl
  have noFlit : (if bad = true then none else parseFlit flit) = none := by
    obtain bad | cut := fails
    · rw [if_pos bad]
    · rw [cut, ite_self]
  rw [Safety.givesDev, hd, execFlitRx, run_eq]
  simp only [takesFlits links, received, noFlit, Bool.false_eq_true, if_false]
  rfl

section Good
variable {f : Flit} (good : bad = false) (parsed : parseFlit flit = some f)
include good parsed

theorem exec_flitRx_idle (idle : f.type = 0) : Safety.gives (.flitRx p flit fec) s
    (((⟨s.mem, [], d⟩ : Mach).idleFlit p.val f).mod (fun d => d.colKick p.val 1024)) := by
  have hd : exec (.flitRx p flit fec) s = execFlitRx p flit fec s := rfl
  rw [Safety.gives, hd, execFlitRx, run_eq]
  simp only [takesFlits links, received, good, parsed, idle, Bool.false_eq_true, if_false, if_true]

theorem exec_flitRx_other (other : f.type ≠ 0) : Safety.givesDev (.flitRx p flit fec) s
    ((d.takeFlit p.val (s.dev.portState p.val == PS.UP) f).colKick p.val 1024) := by
  have hd : exec (.flitRx p flit fec) s = execFlitRx p flit fec s := rfl
  rw [Safety.givesDev, hd, execFlitRx, run_eq]
  simp only [takesFlits links, received, good, parsed, other, Bool.false_eq_true, if_false, Dev.takeFlit, beq_eq_false_iff_ne]
  split
  next => simp only [Mach.mod_dev, Mach.mod_log, Memory.writeLog]
  next => split <;> simp only [Mach.mod_dev, Mach.mod_log, Memory.writeLog]

end Good
end FlitRx

/-! ### Requests of a peer (R339) -/

section Requests
variable {p : Fin 6} {m : Msg} {s : State} (head : s.dev.colMsg p.val VC.REQUEST = (s.dev, some m))
include head

theorem exec_colRead_refused (read : m.op = 0x01) (refused : accessOk (m.addr % 2 ^ 48) m.len = false) :
    Safety.givesDev (.colRead p []) s
      ((s.dev.colTake p.val VC.REQUEST m.size).respond p.val 0x10 m ST.BAD_PARAM []) := by
  have hd : exec (.colRead p []) s = execColRead p [] s := rfl
  rw [Safety.givesDev, hd, execColRead, run_eq]
  simp only [Mach.upsets_nil, head, read, refused, ne_eq, not_true_eq_false, Bool.not_false, if_false, if_true]
  rfl

theorem exec_colRead (read : m.op = 0x01) (ok : accessOk (m.addr % 2 ^ 48) m.len = true) {m1 : Mach} {st : Nat}
    {bs : List Byte} (reached : ((Safety.mach s).mod (fun d => d.colTake p.val VC.REQUEST m.size)).peerRead p
      (m.addr % 2 ^ 48) m.len = (m1, st, bs)) :
    Safety.gives (.colRead p []) s (m1.mod (fun d => d.respond p.val 0x10 m st bs)) := by
  have hd : exec (.colRead p []) s = execColRead p [] s := rfl
  rw [Safety.mach, Mach.mod] at reached
  rw [Safety.gives, hd, execColRead, run_eq]
  simp only [Mach.upsets_nil, head, read, ok, reached, ne_eq, not_true_eq_false, Bool.not_true, Bool.false_eq_true, if_false]

theorem exec_colWrite_refused (write : m.op = 0x02) (refused : accessOk (m.addr % 2 ^ 48) m.len = false) :
    Safety.givesDev (.colWrite p []) s
      ((s.dev.colTake p.val VC.REQUEST m.size).respond p.val 0x11 m ST.BAD_PARAM []) := by
  have hd : exec (.colWrite p []) s = execColWrite p [] s := rfl
  rw [Safety.givesDev, hd, execColWrite, run_eq]
  simp only [Mach.upsets_nil, head, write, refused, ne_eq, not_true_eq_false, Bool.not_false, if_false, if_true]
  rfl

theorem exec_colWrite (write : m.op = 0x02) (ok : accessOk (m.addr % 2 ^ 48) m.len = true) {m1 : Mach} {st : Nat}
    (reached : ((Safety.mach s).mod (fun d => d.colTake p.val VC.REQUEST m.size)).peerWrite p (m.addr % 2 ^ 48) m.payload
      = (m1, st)) :
    Safety.gives (.colWrite p []) s (m1.mod (fun d => d.respond p.val 0x11 m st [])) := by
  have hd : exec (.colWrite p []) s = execColWrite p [] s := rfl
  rw [Safety.mach, Mach.mod] at reached
  rw [Safety.gives, hd, execColWrite, run_eq]
  simp only [Mach.upsets_nil, head, write, ok, reached, ne_eq, not_true_eq_false, Bool.not_true, Bool.false_eq_true, if_false]

end Requests

/-! ### Responses (R339) -/

/-- A response of the kind that the command takes joins its access. -/
theorem Dev.response_eq {d : Dev} {p op : Nat} {m : Msg} (head : d.colMsg p VC.RESPONSE = (d, some m)) (isOp : m.op = op) :
    d.response p op = ((d.colTake p VC.RESPONSE m.size).endAccess m).colKick p 1024 := by
  simp only [Dev.response, head, isOp, ne_eq, not_true_eq_false, if_false]

/-! ### Rows and credits of a stream (R331, R332) -/

/-- Rows put on their way to a queue stand behind those that were there. -/
theorem Dev.transit_putRows {α : Type} (d : Dev) (t q : Nat) (row : α → Transit) (xs : List α) :
    (AMap.getD (xs.foldl (fun d x => d.putRow t q (row x)) d).transit (16 * t + q) []).map (fun r => r.data)
      = (AMap.getD d.transit (16 * t + q) []).map (fun r => r.data) ++ xs.map (fun x => (row x).data) := by
  induction xs generalizing d with
  | nil => rw [List.foldl_nil, List.map_nil, List.append_nil]
  | cons x xs ih =>
    rw [List.foldl_cons, ih, Dev.putRow, AMap.getD_set_same, List.map_append, List.append_assoc]
    rfl

/-- The rows of a STREAM message from port `p`, put on their way to queue `q` of tile `t`. -/
def Dev.streamRows (d : Dev) (p t q : Nat) (bs : List Byte) : Dev :=
  (List.range (bs.length / 64)).foldl (fun d i => d.putRow t q ⟨none, 0, slice bs (64 * i) 64, colRidge p, 0x200 + p, 0⟩) d

/-- Rows that a peer has sent for a step count at it. -/
def Dev.countFrom (d : Dev) (n k rows : Nat) : Dev :=
  d.modStep n (fun st => { st with rowsFrom := AMap.set st.rowsFrom k (AMap.getD st.rowsFrom k 0 + rows) })

/-- Rows for a queue of a step that runs, from the package that the queue takes them from, go on their way to it. -/
theorem exec_colStream {p : Fin 6} {m : Msg} {st : StepSt} {s : State} (head : s.dev.colMsg p.val VC.STREAM = (s.dev, some m))
    (step : (s.dev.loop (bits m.addr 14 11)).step = some st) (works : st.phase = .running ∨ st.phase = .saving)
    (holds : st.b.holdsTile (bits m.addr 6 0) = true)
    (enabled : 2 ^ 31 ≤ s.dev.reg (Reg.TILE_LQn_CFG (bits m.addr 6 0) (bits m.addr 10 7)))
    (source : bits (s.dev.reg (Reg.TILE_LQn_SRC (bits m.addr 6 0) (bits m.addr 10 7))) 31 28 = s.dev.peerOf p.val)
    (notFenced : s.dev.fenced (bits m.addr 6 0) = false) :
    Safety.givesDev (.colStream p) s
      (((s.dev.colTake p.val VC.STREAM m.size).streamRows p.val (bits m.addr 6 0) (bits m.addr 10 7) m.payload).countFrom
        (bits m.addr 14 11) (s.dev.peerOf p.val) (m.payload.length / 64)) := by
  have hd : exec (.colStream p) s = execColStream p s := rfl
  have phase : (st.phase != .running && st.phase != .saving) = false := by
    rcases works with h | h <;> rw [h] <;> rfl
  have reg (a : Nat) : (s.dev.colTake p.val VC.STREAM m.size).reg a = s.dev.reg a := rfl
  have fenced : (s.dev.colTake p.val VC.STREAM m.size).fenced (bits m.addr 6 0) = false := notFenced
  have on : s.dev.reg (Reg.TILE_LQn_CFG (bits m.addr 6 0) (bits m.addr 10 7)) / 2 ^ 31 ≠ 0 := by omega
  rw [Safety.givesDev, hd, execColStream, runDev_eq]
  simp only [head, step, phase, holds, reg, on, source, fenced, Bool.not_true, ne_eq, not_true_eq_false, decide_false,
    Bool.or_self, Bool.false_eq_true, if_false, List.length_range]
  rfl

/-- Credits of a queue in the peer's package, for a step that is not pre-empted, come back to its producers. -/
theorem exec_qcredit {p : Fin 6} {m : Msg} {st : StepSt} {s : State}
    (head : s.dev.colMsg p.val VC.RESPONSE = (s.dev, some m)) (isCredit : m.op = 0x21)
    (step : (s.dev.loop (bits m.addr 14 11)).step = some st) (here : st.phase ≠ .preempted) (whole : st.phase ≠ .restoring)
    {key : Nat} (hkey : key = prodKey (s.dev.peerOf p.val) (bits m.addr 6 0) (bits m.addr 10 7)) :
    Safety.givesDev (.qcredit p) s { s.dev.colTake p.val VC.RESPONSE m.size with
      credits := AMap.set s.dev.credits key (AMap.getD s.dev.credits key 0 + bits m.addr 30 15) } := by
  have hd : exec (.qcredit p) s = execQcredit p s := rfl
  have phase : (st.phase == .preempted || st.phase == .restoring) = false := by
    rw [Bool.or_eq_false_iff, beq_eq_false_iff_ne, beq_eq_false_iff_ne]
    exact ⟨here, whole⟩
  have kept : ((s.dev.colTake p.val VC.RESPONSE m.size).loop (bits m.addr 14 11)).step = some st := step
  subst hkey
  rw [Safety.givesDev, hd, execQcredit, runDev_eq]
  simp only [head, isCredit, kept, phase, ne_eq, not_true_eq_false, Bool.false_eq_true, if_false]
  rfl

/-! ### The management channel (R331, R340) -/

section Mgmt
variable {p : Fin 6} {m : Msg} {d : Dev} {s : State} (head : s.dev.colMsg p.val VC.MGMT = (s.dev, some m))
  (hd : d = s.dev.colTake p.val VC.MGMT m.size)
include head hd

/-- The bytes of a message join those of its package, and the whole items among them are handled. -/
theorem exec_mgmt_items (notBooting : s.dev.boot.phase ≠ .colBoot ∨ s.dev.peerOf p.val ≠ 0) :
    Safety.gives (.mgmt p) s (((⟨s.mem, [], { d with col := { d.col with mgmt := (AMap.set d.col.mgmt (s.dev.peerOf p.val)
      (AMap.getD d.col.mgmt (s.dev.peerOf p.val) [] ++ m.payload)) } }⟩ : Mach).mgmtItems (s.dev.peerOf p.val)
        4096).feedPeers.mod (fun d => d.colKick p.val 1024)) := by
  have he : exec (.mgmt p) s = execMgmt p s := rfl
  have phase : (d.boot.phase == .colBoot && decide (s.dev.peerOf p.val = 0)) = false := by
    rw [hd, Bool.and_eq_false_iff, beq_eq_false_iff_ne, decide_eq_false_iff_not]
    exact notBooting
  rw [Safety.gives, he, execMgmt, run_eq]
  simp only [head, ← hd, phase, Bool.false_eq_true, if_false]

/-- While the package boots over Col, the bytes of package 0 are those of its images. -/
theorem exec_mgmt_images (booting : s.dev.boot.phase = .colBoot) (lead : s.dev.peerOf p.val = 0) :
    Safety.gives (.mgmt p) s
      ((⟨s.mem, [], d.modBoot (fun b => { b with recovery := b.recovery ++ m.payload })⟩ : Mach).colBoot).colBoot := by
  have he : exec (.mgmt p) s = execMgmt p s := rfl
  have phase : (d.boot.phase == .colBoot && decide (s.dev.peerOf p.val = 0)) = true := by
    rw [hd, Bool.and_eq_true, beq_iff_eq, decide_eq_true_iff]
    exact ⟨booting, lead⟩
  rw [Safety.gives, he, execMgmt, run_eq]
  simp only [head, ← hd, phase, if_true]

end Mgmt

/-- Settles O52: a flit by what it passes and its type, a DATA flit by what its port has received (`Dev.got_dataFlit`), a message
by the operation at the head of its channel. -/
theorem colMessagesTaken : Obligations.ColMessagesTaken := by
  unfold Obligations.ColMessagesTaken
  refine ⟨?flit, ?sequence,
    fun p m s head read => ⟨exec_colRead_refused head read, fun m1 st bs ok => exec_colRead head read ok⟩,
    fun p m s head write => ⟨exec_colWrite_refused head write, fun m1 st ok => exec_colWrite head write ok⟩,
    ?response, ?stream, ?credit,
    fun p m d s head hd => ⟨exec_mgmt_items head hd, exec_mgmt_images head hd⟩⟩
  case flit =>
    intro p flit fec d bad s links received
    refine ⟨exec_flitRx_bad links received, fun f good parsed => ⟨exec_flitRx_idle links received good parsed,
      fun data up => ?data, fun nak up => ?nak, fun other init => ?init⟩⟩
    case data =>
      have taken := exec_flitRx_other links received good parsed (by rw [data]; decide)
      rwa [Dev.takeFlit, up, if_neg (by decide), if_pos data] at taken
    case nak =>
      have taken := exec_flitRx_other links received good parsed (by rw [nak]; decide)
      rwa [Dev.takeFlit, up, if_neg (by decide), if_neg (by rw [nak]; decide)] at taken
    case init =>
      have taken := exec_flitRx_other links received good parsed other
      rwa [Dev.takeFlit, init, if_pos (by decide)] at taken
  case sequence =>
    intro p flit fec f s up good parsed data
    have taken := exec_flitRx_other (.inl up) (Prod.eta (s.dev.fecFlit p.val fec)).symm good parsed (by rw [data]; decide)
    rw [Dev.takeFlit, up, if_neg (by decide), if_pos data] at taken
    have got := ((s.dev.fecFlit p.val fec).1.dataFlit p.val f).got_colKick p.val 1024
    rw [Dev.got_dataFlit (s.dev.got_fecFlit p.val fec)] at got
    refine ⟨_, taken, ⟨rfl, rfl⟩, fun next => ?next, fun other => ?other⟩
    case next =>
      rw [if_pos next] at got
      exact PortSt.got_eq_iff.mp got
    case other =>
      rw [if_neg other] at got
      obtain ⟨hack, -, hrx⟩ := PortSt.got_eq_iff.mp got
      exact ⟨hack, hrx⟩
  case response =>
    intro c op p m s kinds head isOp
    have joined := Dev.response_eq head isOp
    rw [List.mem_pair, Prod.mk.injEq, Prod.mk.injEq] at kinds
    obtain ⟨rfl, rfl⟩ | ⟨rfl, rfl⟩ := kinds
    all_goals exact congrArg (fun d => Host.Outcome.next { s with dev := d }) joined
  case stream =>
    intro p m st t q n s head ht hq hn step works holds enabled source notFenced
    subst ht hq hn
    exact ⟨_, exec_colStream head step works holds enabled source notFenced, ⟨rfl, rfl⟩,
      Dev.transit_putRows _ _ _ (fun i => ⟨none, 0, slice m.payload (64 * i) 64, colRidge p.val, 0x200 + p.val, 0⟩) _⟩
  case credit =>
    intro p m st n s head isCredit hn step here whole
    subst hn
    exact ⟨_, exec_qcredit head isCredit step here whole rfl, ⟨rfl, rfl⟩, AMap.getD_set_same _ _ _ _⟩

end Machine
end Sys2Proof
end

section
/-!
PROOFS. Memory read packets (O23).
-/
namespace Sys2Proof
namespace Machine

/-! ### Reads store nothing (R568, R570) -/

@[simp] theorem Mach.log_eccRead (m : Mach) (a n req loop : Nat) : (m.eccRead a n req loop).1.log = m.log := by
  unfold Mach.eccRead
  dsimp only
  split <;> rfl

@[simp] theorem Mach.log_memBytes (m : Mach) (a n : Nat) : (m.memBytes a n).1.log = m.log := by
  unfold Mach.memBytes
  split
  · rfl
  · split <;> rfl

@[simp] theorem Mach.log_commandRead (m : Mach) (a n : Nat) : (m.commandRead a n).1.log = m.log := by
  unfold Mach.commandRead
  split
  · rfl
  · have checked := m.log_eccRead a n dmaReq 16
    split
    next failed => rw [failed] at checked; exact checked
    next m' good =>
      rw [good] at checked
      exact (m'.log_memBytes a n).trans checked

/-- The reply to a read of a command stores nothing, whatever it is made of. -/
theorem Mach.log_commandRead_reply (m : Mach) (p : Packet) (a n : Nat) (payload : List Byte → List Byte) :
    (match m.commandRead a n with
      | (m, .inl st) => m.fail p st
      | (m, .inr bs) => m.ok p (payload bs)).log = m.log := by
  have read := m.log_commandRead a n
  split
  next failed => rw [failed] at read; exact read
  next bytes => rw [bytes] at read; exact read

/-- A packet whose meaning stores nothing stores nothing whether or not it may run. -/
theorem Mach.log_cmd {m : Mach} {f : Mach → Packet → Mach} (noStores : ∀ p, (f m p).log = m.log) (op tag : Nat) :
    (m.cmd op tag f).log = m.log := by
  unfold Mach.cmd
  split
  · rfl
  · split
    · rfl
    · split
      · rfl
      · exact noStores _

/-- A packet whose meaning stores nothing leaves the memory as the errors of the environment have made it. -/
theorem mem_of_cmd_upsets {c : Instr} {s t : State} {op tag : Nat} {us : List Upset} {f : Mach → Packet → Mach}
    (hc : exec c s = run (fun m => (m.upsets us).cmd op tag f) s)
    (noStores : ∀ p, (f ((Safety.mach s).upsets us) p).log = ((Safety.mach s).upsets us).log) (next : exec c s = .next t) :
    t.mem = Safety.upsetMem s us := by
  rw [hc, run_eq] at next
  cases next
  exact congrArg (Memory.writeLog s.mem) (Mach.log_cmd noStores op tag)

/-! ### MEM_READ and MEM_CHECK (R377, R568) -/

section Reads
variable {tag : BitVec 16} {us : List Upset} {s : State}

section Served
variable {p : Packet} {m : Mach} {bs : List Byte} (someBytes : 0 < pay32 p.payload 8)
  (read : ((Safety.mach s).upsets us).commandRead (pay64 p.payload 0) (pay32 p.payload 8) = (m, .inr bs))
include someBytes read

theorem exec_memRead (ready : Safety.ready s 0x0301 tag.toNat p) (fits : pay32 p.payload 8 ≤ 32768) :
    Safety.gives (.memRead tag us) s (m.ok p bs) := by
  have served := gives_of_cmd_upsets (c := .memRead tag us) rfl ready
  simp only [Nat.pos_iff_ne_zero.mp someBytes, Nat.not_lt.mpr fits, decide_false, Bool.or_self,
    Bool.false_eq_true, if_false, read] at served
  exact served

theorem exec_memCheck (ready : Safety.ready s 0x0304 tag.toNat p) (selector : pay8 p.payload 12 ≤ 3) :
    Safety.gives (.memCheck tag us) s (m.ok p (leBytes 8 ((crcParams (pay8 p.payload 12)).check bs))) := by
  have served := gives_of_cmd_upsets (c := .memCheck tag us) rfl ready
  simp only [Nat.pos_iff_ne_zero.mp someBytes, Nat.not_lt.mpr selector, decide_false, Bool.or_self,
    Bool.false_eq_true, if_false, read] at served
  exact served

end Served

theorem mem_memRead {t : State} (next : exec (.memRead tag us) s = .next t) : t.mem = Safety.upsetMem s us := by
  refine mem_of_cmd_upsets rfl (fun p => ?_) next
  dsimp only
  split
  · rfl
  · exact Mach.log_commandRead_reply _ p _ _ id

theorem mem_memCheck {t : State} (next : exec (.memCheck tag us) s = .next t) : t.mem = Safety.upsetMem s us := by
  refine mem_of_cmd_upsets rfl (fun p => ?_) next
  dsimp only
  split
  · rfl
  · exact Mach.log_commandRead_reply _ p _ _ fun bs => leBytes 8 ((crcParams (pay8 p.payload 12)).check bs)

end Reads

/-- Settles O23: a served read replies what its checked read found, and no branch of either packet adds to the log. -/
theorem memoryReadPackets : Obligations.MemoryReadPackets := by
  unfold Obligations.MemoryReadPackets
  refine ⟨fun tag us p m bs s ready someBytes fits read => exec_memRead someBytes read ready fits,
    fun tag us p m bs s ready someBytes selector read => exec_memCheck someBytes read ready selector,
    fun tag us s t next => ?_⟩
  exact next.elim mem_memRead mem_memCheck

end Machine
end Sys2Proof
end

section
/-!
PROOFS. Flash packets (O30).
-/
namespace Sys2Proof
namespace Machine

/-! ### The state of the subsystem (R374) -/

theorem Dev.flState_setFlState (d : Dev) {v : Nat} (code : v < 8) : (d.setFlState v).flState = v :=
  (d.rf_wf_same _ _).trans (Nat.mod_eq_of_lt code)

theorem Dev.flServing_of_ready {d : Dev} (ready : d.flState = FL.READY) : d.flServing = true := by
  rw [Dev.flServing, ready]
  rfl

/-- A subsystem that serves can write while a spare block is left (R363). -/
theorem Dev.flState_flServe (d : Dev) : d.flServe.flState = if d.flash.spare = 0 then FL.READONLY else FL.READY := by
  refine d.flState_setFlState ?_
  split <;> decide

theorem Mach.flash_upsets (m : Mach) (us : List Upset) : (m.upsets us).dev.flash = m.dev.flash :=
  Mach.upsets_keep (fun d u => by rw [d.upset_frame u]) m us

theorem Mach.flState_upsets (m : Mach) (us : List Upset) : (m.upsets us).dev.flState = m.dev.flState :=
  Mach.upsets_keep (g := Dev.flState) (fun d u => congrArg (bits · _ _) (d.reg_upset u (by decide))) m us

/-! ### What checks and stores leave of the subsystem (R153, R154, R366) -/

@[simp] theorem Dev.flash_modFlash (d : Dev) (f : FlashSt → FlashSt) : (d.modFlash f).flash = f d.flash := rfl
@[simp] theorem Dev.reg_modFlash (d : Dev) (f : FlashSt → FlashSt) (a : Nat) : (d.modFlash f).reg a = d.reg a := rfl
@[simp] theorem Dev.flash_raise (d : Dev) (c s k u x : Nat) : (d.raise c s k u x).flash = d.flash := rfl
@[simp] theorem Dev.flash_cnt (d : Dev) (a n : Nat) : (d.cnt a n).flash = d.flash := by rw [d.cnt_frame]
@[simp] theorem Mach.flash_store (m : Mach) (a : Nat) (bs : List Byte) : (m.store a bs).dev.flash = m.dev.flash := rfl

/-- A correctable unit found changes counters, faults and the units that wait for their write-back.  Its place in a tile is
generalized first: the kernel would else compute it from the address. -/
theorem Dev.corrected_frame (d : Dev) (u : Nat) : d.corrected u = { d with
    regs := (d.corrected u).regs, wb := (d.corrected u).wb, raised := (d.corrected u).raised, eng := (d.corrected u).eng } := by
  unfold Dev.corrected
  generalize tileMemRow u = place
  obtain ⟨t, mem, row⟩ := place
  dsimp only
  split
  · rw [Dev.cnt_frame]
  · split
    iterate 2
      next => rfl
    iterate 3
      next => rw [Dev.cnt_frame]; rfl
    next => rfl

/-- An uncorrectable unit found changes counters and faults. -/
theorem Dev.uncorrectable_frame (d : Dev) (u req loop : Nat) : d.uncorrectable u req loop = { d with
    regs := (d.uncorrectable u req loop).regs
    raised := (d.uncorrectable u req loop).raised
    eng := (d.uncorrectable u req loop).eng } := by
  unfold Dev.uncorrectable
  generalize tileMemRow u = place
  obtain ⟨t, mem, row⟩ := place
  have counted (e : Dev) (o : Prop) [Decidable o] : (if o then e.cnt (Reg.HBM_CNT_k 2) 1 else e)
      = { e with regs := (if o then e.cnt (Reg.HBM_CNT_k 2) 1 else e).regs } := by
    split
    · exact e.cnt_frame _ _
    · rfl
  dsimp only
  split
  · rw [counted, Dev.cnt_frame]
    split <;> rfl
  · split
    iterate 2
      next => rfl
    iterate 3
      next => rw [Dev.cnt_frame]; rfl
    next => rfl

theorem Mach.flash_rmwCheck (m : Mach) (a n req loop : Nat) : (m.rmwCheck a n req loop).1.dev.flash = m.dev.flash := by
  have corrects (d : Dev) (us : List Nat) : (us.foldl Dev.corrected d).flash = d.flash :=
    foldl_keeps Dev.flash (fun u _ e => by rw [e.corrected_frame u]) d
  unfold Mach.rmwCheck
  dsimp only
  split
  · exact corrects _ _
  · rw [Mach.mod_dev, Dev.uncorrectable_frame]
    exact corrects _ _

theorem Mach.flash_of_rmwCheck {m m' : Mach} {a n req loop : Nat} {bad : Option Nat}
    (checked : m.rmwCheck a n req loop = (m', bad)) : m'.dev.flash = m.dev.flash :=
  (congrArg (fun x => x.1.dev.flash) checked).symm.trans (m.flash_rmwCheck a n req loop)

@[simp] theorem Mach.flash_mapRebuild (m : Mach) (a : Nat) : (m.mapRebuild a).dev.flash = m.dev.flash := by
  rw [Mach.mapRebuild, Mach.mod_dev, Dev.flash_raise, Mach.flash_store]

/-- A change of the map changes no region. -/
theorem Mach.regions_setMap (m : Mach) (u : Nat) (e : Option Nat) : (m.setMap u e).dev.flash.regions = m.dev.flash.regions := by
  have kept (done : Bool) {m' : Mach} (same : m'.dev.flash.regions = m.dev.flash.regions) :
      (if done then m else m').dev.flash.regions = m.dev.flash.regions := by
    split
    · rfl
    · exact same
  unfold Mach.setMap
  dsimp only
  split
  next checked =>
    rw [Mach.storeNat, Mach.flash_store, Mach.flash_of_rmwCheck checked, Mach.mod_dev, Dev.flash_modFlash, kept]
    rw [Mach.mod_dev, Dev.flash_modFlash, Mach.flash_store]
  next checked =>
    rw [Mach.flash_mapRebuild, Mach.flash_of_rmwCheck checked, Mach.mod_dev, Dev.flash_modFlash, kept]
    rw [Mach.mod_dev, Dev.flash_modFlash, Mach.flash_store]

theorem Mach.regions_trimUnit (m : Mach) (u : Nat) : (m.trimUnit u).dev.flash.regions = m.dev.flash.regions := by
  unfold Mach.trimUnit
  split
  · rfl
  · rw [Mach.zero, Mach.flash_store, Mach.mod_dev, Dev.flash_modFlash]
    exact m.regions_setMap u none

theorem Mach.regions_trimUnits (m : Mach) (us : List Nat) :
    (us.foldl (fun m u => m.trimUnit u) m).dev.flash.regions = m.dev.flash.regions :=
  foldl_keeps (fun m : Mach => m.dev.flash.regions) (fun u _ m => m.regions_trimUnit u) m

@[simp] theorem Dev.flash_dropCached (d : Dev) (n : Nat) : (d.dropCached n).flash = d.flash := rfl

/-! ### The map placed in HBM (R366) -/

theorem Mach.flash_placeMap (m : Mach) : ∃ fs, m.placeMap.dev.flash = { m.dev.flash with flipped := fs } := by
  unfold Mach.placeMap
  exact ⟨_, foldl_keeps (fun m : Mach => m.dev.flash) (fun x _ m => m.flash_store _ _) _⟩

theorem Mach.boot_placeMap (m : Mach) : m.placeMap.dev.boot = m.dev.boot := by
  unfold Mach.placeMap
  exact foldl_keeps (fun m : Mach => m.dev.boot) (by intros; rfl) _

/-! ### A region command that may run (R363, R375, R376) -/

/-- A region command on the region that it names: it runs, or there is none. -/
theorem gives_of_flashCmd {c : Instr} {s : State} {op tag : Nat} {p : Packet} {us : List Upset} {changes : Bool}
    {f : Mach → Packet → Nat → RegionRec → Mach}
    (hc : exec c s = run (fun m => (m.upsets us).flashCmd op tag changes f) s) (ready : Safety.ready s op tag p)
    (serves : s.dev.flServing = true) (writes : changes = true → s.dev.flState = FL.READY) (inRange : pay8 p.payload 0 ≤ 63) :
    Safety.gives c s (match s.dev.flRegion (pay8 p.payload 0) with
      | none => ((Safety.mach s).upsets us).fail p ST.NOT_FOUND
      | some r => f ((Safety.mach s).upsets us) p (pay8 p.payload 0) r) := by
  have served := gives_of_cmd_upsets hc ready
  have state := Mach.flState_upsets (Safety.mach s) us
  have serving : ((Safety.mach s).upsets us).dev.flServing = true := by rwa [Dev.flServing, state]
  have room : (changes && ((Safety.mach s).upsets us).dev.flState == FL.READONLY) = false := by
    cases changes with
    | false => rfl
    | true => rw [state]; exact (congrArg (· == FL.READONLY) (writes rfl)).trans rfl
  have region : ((Safety.mach s).upsets us).dev.flRegion (pay8 p.payload 0) = s.dev.flRegion (pay8 p.payload 0) := by
    rw [Dev.flRegion, Mach.flash_upsets]
    rfl
  simp only [serving, room, Nat.not_lt.mpr inRange, region, Bool.not_true, Bool.or_self, Bool.false_eq_true, if_false] at served
  exact served

theorem givesDev_of_flashCmd_absent {c : Instr} {s : State} {op tag : Nat} {p : Packet} {changes : Bool}
    {f : Mach → Packet → Nat → RegionRec → Mach} (hc : exec c s = run (fun m => (m.upsets []).flashCmd op tag changes f) s)
    (ready : Safety.ready s op tag p) (state : s.dev.flState = FL.READY) (inRange : pay8 p.payload 0 ≤ 63)
    (absent : s.dev.flRegion (pay8 p.payload 0) = none) : Safety.givesDev c s (s.dev.reply p ST.NOT_FOUND []) := by
  have served := gives_of_flashCmd hc ready (Dev.flServing_of_ready state) (fun _ => state) inRange
  rw [absent] at served
  exact givesDev_of_gives served rfl

theorem exec_absent {c : Instr} {op : Nat} {tag : BitVec 16} {os : List NandOutcome} {p : Packet} {s : State}
    (kinds : (c, op) ∈ [(Instr.regionDelete tag, 0x0502), (.regionRead tag os [] [], 0x0503), (.regionWrite tag [], 0x0504),
      (.regionTrim tag, 0x0505), (.regionSeal tag, 0x0506)]) (ready : Safety.ready s op tag.toNat p)
    (state : s.dev.flState = FL.READY) (inRange : pay8 p.payload 0 ≤ 63)
    (absent : s.dev.flRegion (pay8 p.payload 0) = none) : Safety.givesDev c s (s.dev.reply p ST.NOT_FOUND []) := by
  simp only [List.mem_cons, List.not_mem_nil, or_false, Prod.mk.injEq] at kinds
  obtain ⟨rfl, rfl⟩ | ⟨rfl, rfl⟩ | ⟨rfl, rfl⟩ | ⟨rfl, rfl⟩ | ⟨rfl, rfl⟩ := kinds
  all_goals exact givesDev_of_flashCmd_absent rfl ready state inRange absent

section Region
variable {tag : BitVec 16} {p : Packet} {r : RegionRec} {s : State} (inRange : pay8 p.payload 0 ≤ 63)
  (found : s.dev.flRegion (pay8 p.payload 0) = some r)
include inRange found

/-! ### REGION_DELETE (R376) -/

section Delete
variable (ready : Safety.ready s 0x0502 tag.toNat p) (state : s.dev.flState = FL.READY)
include ready state

/-- The firmware slots stay (R375). -/
theorem exec_regionDelete_slot (firmware : r.kind = 0) :
    Safety.givesDev (.regionDelete tag) s (s.dev.reply p ST.STATE []) := by
  have served := gives_of_flashCmd (c := .regionDelete tag) (us := []) rfl ready (Dev.flServing_of_ready state)
    (fun _ => state) inRange
  simp only [found, firmware, if_true] at served
  exact givesDev_of_gives served rfl

theorem exec_regionDelete (other : r.kind ≠ 0) : ∃ m : Mach, Safety.gives (.regionDelete tag) s (m.ok p [])
    ∧ m.dev.flash.regions = AMap.erase s.dev.flash.regions (pay8 p.payload 0) := by
  have served := gives_of_flashCmd (c := .regionDelete tag) (us := []) rfl ready (Dev.flServing_of_ready state)
    (fun _ => state) inRange
  simp only [found, Mach.upsets_nil, other, if_false] at served
  refine ⟨_, served, ?_⟩
  rw [Mach.mod_dev, Dev.flash_modFlash, Dev.flash_dropCached]
  dsimp only
  rw [Mach.regions_trimUnits, Safety.mach]

end Delete

/-! ### REGION_READ and REGION_WRITE (R367, R375, R376) -/

theorem exec_regionRead {os : List NandOutcome} {hit : List (Fin 96 × Fin 32768)} {m0 m m2 : Mach} {bs : List Byte}
    (ready : Safety.ready s 0x0503 tag.toNat p) (serves : s.dev.flServing = true)
    (range : r.rangeOk (pay64 p.payload 4) (pay32 p.payload 12) = true)
    (allowed : (Safety.mach s).writeRefusal (pay64 p.payload 16) (pay32 p.payload 12) false = none)
    (nand : (Safety.mach s).nandReads ((Safety.mach s).readUnits r (pay64 p.payload 4) (pay32 p.payload 12)) os = (m0, true))
    (bytes : m0.regionBytes r (pay64 p.payload 4) (pay32 p.payload 12) = (m, bs))
    (checked : m.rmwCheck (pay64 p.payload 16) bs.length dmaReq 16 = (m2, none)) :
    Safety.gives (.regionRead tag os hit []) s ((m2.dmaStore (pay64 p.payload 16) bs (rowNats hit)).ok p []) := by
  have served := gives_of_flashCmd (c := .regionRead tag os hit []) (us := []) rfl ready serves nofun inRange
  simp only [found, Mach.upsets_nil, range, allowed, nand, bytes, checked, Bool.not_true, Bool.false_eq_true, if_false] at served
  exact served

theorem exec_regionWrite {us : List Upset} {m : Mach} {bs : List Byte} (ready : Safety.ready s 0x0504 tag.toNat p)
    (state : s.dev.flState = FL.READY) (notLog : r.kind ≠ 3) (notSealed : r.isSealed = false) (notSlot : r.kind ≠ 0)
    (range : r.rangeOk (pay64 p.payload 4) (pay32 p.payload 12) = true)
    (read : ((Safety.mach s).upsets us).commandRead (pay64 p.payload 16) (pay32 p.payload 12) = (m, .inr bs)) :
    Safety.gives (.regionWrite tag us) s
      (((m.regionStore r (pay64 p.payload 4) bs).mod (fun d => d.dropCached (pay8 p.payload 0))).ok p []) := by
  have served := gives_of_flashCmd (c := .regionWrite tag us) rfl ready (Dev.flServing_of_ready state) (fun _ => state) inRange
  simp only [found, notLog, notSealed, notSlot, range, read, decide_false, Bool.false_and, Bool.or_self, Bool.not_true,
    Bool.false_eq_true, if_false] at served
  exact served

/-! ### REGION_TRIM and REGION_SEAL (R375, R376) -/

section Trim
variable (ready : Safety.ready s 0x0505 tag.toNat p) (state : s.dev.flState = FL.READY)
  (range : r.rangeOk (pay64 p.payload 4) (pay32 p.payload 12) = true)
include ready state range

theorem exec_regionTrim_sealed (closed : r.isSealed = true) :
    Safety.givesDev (.regionTrim tag) s (s.dev.reply p ST.LOCKED_WRITE []) := by
  have served := gives_of_flashCmd (c := .regionTrim tag) (us := []) rfl ready (Dev.flServing_of_ready state)
    (fun _ => state) inRange
  simp only [found, range, closed, Bool.not_true, Bool.false_eq_true, if_false, if_true] at served
  exact givesDev_of_gives served rfl

theorem exec_regionTrim (notSealed : r.isSealed = false) : Safety.gives (.regionTrim tag) s
    ((((Safety.mach s).regionTrim r (pay64 p.payload 4) (pay32 p.payload 12)).mod
      (fun d => d.dropCached (pay8 p.payload 0))).ok p []) := by
  have served := gives_of_flashCmd (c := .regionTrim tag) (us := []) rfl ready (Dev.flServing_of_ready state)
    (fun _ => state) inRange
  simp only [found, range, notSealed, Bool.not_true, Bool.false_eq_true, if_false] at served
  exact served

end Trim

theorem exec_regionSeal (ready : Safety.ready s 0x0506 tag.toNat p) (serves : s.dev.flServing = true) (ro : r.kind = 1) :
    Safety.givesDev (.regionSeal tag) s ((s.dev.modFlash (fun f => { f with
      regions := AMap.set f.regions (pay8 p.payload 0) { r with isSealed := true } })).reply p ST.OK []) := by
  have served := gives_of_flashCmd (c := .regionSeal tag) (us := []) rfl ready serves nofun inRange
  simp only [found] at served
  rw [if_neg (not_not_intro ro)] at served
  exact givesDev_of_gives served rfl

end Region

/-! ### REGION_CREATE, REGION_LIST and FLASH_FORMAT (R363, R366, R376) -/

theorem exec_regionCreate {tag : BitVec 16} {p : Packet} {n first : Nat} {s : State} (ready : Safety.ready s 0x0501 tag.toNat p)
    (state : s.dev.flState = FL.READY) (kindLow : 1 ≤ pay8 p.payload 0) (kindHigh : pay8 p.payload 0 ≤ 3)
    (unitsLow : 1 ≤ pay32 p.payload 4) (unitsHigh : pay32 p.payload 4 ≤ 536870912)
    (number : (List.range 64).find? (fun n => (s.dev.flRegion n).isNone) = some n)
    (place : s.dev.flash.freeRun (pay32 p.payload 4) = some first) :
    Safety.givesDev (.regionCreate tag) s ((s.dev.modFlash (fun f => { f with
      regions := AMap.set f.regions n { kind := pay8 p.payload 0, first := first, units := pay32 p.payload 4 } })).reply p
        ST.OK (leBytes 4 n)) := by
  have served := gives_of_cmd (c := .regionCreate tag) rfl ready
  have kind : pay8 p.payload 0 ≠ 0 := by omega
  have units : pay32 p.payload 4 ≠ 0 := by omega
  simp only [Safety.mach, state, kind, units, Nat.not_lt.mpr kindHigh, Nat.not_lt.mpr unitsHigh, number, place, ne_eq,
    not_true_eq_false, decide_false, Bool.or_self, Bool.false_eq_true, if_false] at served
  exact givesDev_of_gives served rfl

theorem exec_regionList {tag : BitVec 16} {p : Packet} {s : State} (ready : Safety.ready s 0x0507 tag.toNat p)
    (serves : s.dev.flServing = true) : Safety.givesDev (.regionList tag) s
      (s.dev.reply p ST.OK ((List.range 64).flatMap (fun n => regionRecord (s.dev.flRegion n)))) := by
  have served := gives_of_cmd (c := .regionList tag) rfl ready
  simp only [Safety.mach, serves, Bool.not_true, Bool.false_eq_true, if_false] at served
  exact givesDev_of_gives served rfl

/-- The array formatted and put in service. -/
def Mach.formatted (m : Mach) (pages spare : Nat) : Mach :=
  (m.mod (fun d => d.modFlash (fun f => FlashSt.format f pages spare))).placeMap.mod Dev.flServe

theorem exec_flashFormat {tag : BitVec 16} {p : Packet} {s : State} (pages spare : Nat)
    (ready : Safety.ready s 0x0508 tag.toNat p) (key : pay32 p.payload 0 = 0x464D5421) (may : s.dev.mayFormat = true) :
    ∃ mem t, exec (.flashFormat tag pages spare) s = .next t
      ∧ t.dev = ((⟨mem, [], s.dev⟩ : Mach).formatted pages spare).dev.reply p ST.OK [] := by
  have hd : exec (.flashFormat tag pages spare) s = execFlashFormat tag pages spare s := rfl
  have emptied : Safety.ready { s with mem := Memory.keepOnly s.mem (formatKeep tag.toNat s.dev) } 0x0508 tag.toNat p := ready
  rw [hd, execFlashFormat, runKeep_eq, run_eq, Mach.cmd_ready emptied]
  simp only [key, may, ne_eq, not_true_eq_false, Bool.not_true, Bool.false_eq_true, if_false]
  exact ⟨_, _, rfl, rfl⟩

theorem Mach.flash_formatted (m : Mach) (pages spare : Nat) :
    ∃ fs, (m.formatted pages spare).dev.flash = { FlashSt.format m.dev.flash pages spare with flipped := fs } :=
  Mach.flash_placeMap _

theorem Mach.flState_formatted (m : Mach) (pages spare : Nat) :
    (m.formatted pages spare).dev.flState = if spare = 0 then FL.READONLY else FL.READY := by
  obtain ⟨fs, placed⟩ := (m.mod (fun d => d.modFlash (fun f => FlashSt.format f pages spare))).flash_placeMap
  rw [Mach.formatted, Mach.mod_dev, Dev.flState_flServe, placed]
  rfl

/-- Settles O30: a region command by the region that it names (`gives_of_flashCmd`), the others by their own checks. -/
theorem flashPackets : Obligations.FlashPackets := by
  unfold Obligations.FlashPackets
  refine ⟨?create, ?delete, ?absent, ?read, ?write, ?trim, ?close, ?list, ?format⟩
  case create =>
    intro tag p n first s ready state kindLow kindHigh unitsLow unitsHigh number place
    exact ⟨_, exec_regionCreate ready state kindLow kindHigh unitsLow unitsHigh number place, rfl⟩
  case delete =>
    exact fun tag p r s ready state inRange found =>
      ⟨exec_regionDelete_slot inRange found ready state, exec_regionDelete inRange found ready state⟩
  case absent => exact fun c op tag os p s kinds ready state inRange absent => exec_absent kinds ready state inRange absent
  case read =>
    exact fun tag os hit p r m0 m m2 bs s ready serves inRange found range allowed nand bytes checked =>
      exec_regionRead inRange found ready serves range allowed nand bytes checked
  case write =>
    exact fun tag us p r m bs s ready state inRange found notLog notSealed notSlot range read =>
      exec_regionWrite inRange found ready state notLog notSealed notSlot range read
  case trim =>
    exact fun tag p r s ready state inRange found range =>
      ⟨exec_regionTrim_sealed inRange found ready state range, exec_regionTrim inRange found ready state range⟩
  case close =>
    exact fun tag p r s ready serves inRange found ro =>
      ⟨_, exec_regionSeal inRange found ready serves ro, AMap.find_set_same _ _ _⟩
  case list => exact fun tag p s ready serves => exec_regionList ready serves
  case format =>
    intro tag p pages spare s ready key may
    obtain ⟨mem, t, next, replied⟩ := exec_flashFormat pages spare ready key may
    obtain ⟨fs, formatted⟩ := (⟨mem, [], s.dev⟩ : Mach).flash_formatted pages spare
    exact ⟨t, _, next, replied, (congrArg FlashSt.regions formatted :), Mach.flState_formatted _ _ _⟩

end Machine
end Sys2Proof
end

section
/-!
PROOFS. The flash subsystem's own events (O54): enabling, mounts, NAND operations, housekeeping, the close and the resume.
-/
namespace Sys2Proof
namespace Machine

/-! ### FL_CTRL.EN (R374) -/

theorem Dev.flState_wf_ctrl (d : Dev) (f : Fd) (v : Nat) : (d.wf Reg.FL_CTRL f v).flState = d.flState :=
  d.rf_wf_ne _ _ _ (by decide)

theorem Dev.flEnabled_of_rf {d : Dev} {b : Bool} (en : d.rf Reg.FL_CTRL Fld.FL_CTRL.EN = b2n b) : d.flEnabled = b := by
  rw [Dev.flEnabled, Dev.rfB, en]
  cases b <;> rfl

section Enable
variable {s : State}

section On
variable (off : s.dev.rf Reg.FL_CTRL Fld.FL_CTRL.EN = 0)
include off

theorem exec_flEn_mount (stopped : s.dev.flState = FL.OFF) : Safety.givesDev (.flEn true) s
    ((s.dev.wf Reg.FL_CTRL Fld.FL_CTRL.EN 1).setFlState FL.MOUNTING) := by
  have hd : exec (.flEn true) s = execFlEn true s := rfl
  have was : s.dev.flEnabled = false := Dev.flEnabled_of_rf off
  rw [Safety.givesDev, hd, execFlEn, runDev_eq, Dev.flEnWrite]
  simp only [was, Dev.flState_wf_ctrl, stopped, Bool.not_false, Bool.and_self, if_true]
  rfl

theorem exec_flEn_on (notOff : s.dev.flState ≠ FL.OFF) : Safety.givesDev (.flEn true) s
    (s.dev.wf Reg.FL_CTRL Fld.FL_CTRL.EN 1) := by
  have hd : exec (.flEn true) s = execFlEn true s := rfl
  have was : s.dev.flEnabled = false := Dev.flEnabled_of_rf off
  rw [Safety.givesDev, hd, execFlEn, runDev_eq, Dev.flEnWrite]
  simp only [was, Dev.flState_wf_ctrl, notOff, Bool.not_false, Bool.and_self, if_true, if_false]
  rfl

end On

/-- EN written 0 closes a subsystem that serves, leaves one that closes to its close, and stops any other. -/
theorem exec_flEn_off (on : s.dev.rf Reg.FL_CTRL Fld.FL_CTRL.EN = 1) : Safety.givesDev (.flEn false) s
    (if s.dev.flServing then (s.dev.wf Reg.FL_CTRL Fld.FL_CTRL.EN 0).flClose
    else if s.dev.flState = FL.CLOSING then s.dev.wf Reg.FL_CTRL Fld.FL_CTRL.EN 0
    else (s.dev.wf Reg.FL_CTRL Fld.FL_CTRL.EN 0).setFlState FL.OFF) := by
  have hd : exec (.flEn false) s = execFlEn false s := rfl
  have was : s.dev.flEnabled = true := Dev.flEnabled_of_rf on
  rw [Safety.givesDev, hd, execFlEn, runDev_eq, Dev.flEnWrite]
  simp only [was, Dev.flServing, Dev.flState_wf_ctrl, Bool.false_and, Bool.not_false, Bool.true_and, Bool.false_eq_true,
    if_false, if_true]
  rfl

end Enable

/-! ### What a mount finds (R359, R360, R366) -/

/-- The channels with a target in use (R360). -/
def targetMask (good : List TargetGeom) : Nat :=
  (List.range 8).foldl (fun n c => n + b2n (good.any (fun x => x.chan.val == c)) * 2 ^ c) 0

/-- The device once the targets have answered: those in use, and those left unused. -/
def Dev.foundTargets (d : Dev) (ts : List TargetGeom × List TargetGeom) : Dev :=
  ((d.badTargets ts.2).modFlash (fun f => { f with geom := ts.1 })).wf Reg.FL_STAT Fld.FL_STAT.TARGETS (targetMask ts.1)

theorem Dev.flash_foundTargets (d : Dev) (ts : List TargetGeom × List TargetGeom) :
    (d.foundTargets ts).flash = { d.flash with geom := ts.1 } := by
  have kept : (d.badTargets ts.2).flash = d.flash := foldl_keeps Dev.flash (by intros; rfl) d
  rw [Dev.foundTargets, Dev.wf_flash, Dev.flash_modFlash, kept]

theorem Dev.boot_foundTargets (d : Dev) (ts : List TargetGeom × List TargetGeom) : (d.foundTargets ts).boot = d.boot := by
  have kept : (d.badTargets ts.2).boot = d.boot := foldl_keeps Dev.boot (by intros; rfl) d
  exact kept

/-- The device as a mount leaves it: nothing buffered, and the journal empty (R374). -/
def Dev.mounted (d : Dev) (closed : Bool) : Dev :=
  let d := (d.modFlash (fun f => { f with wb := [], unjournaled := [], records := 0 })).wf Reg.FL_STAT Fld.FL_STAT.CLEAN
    (b2n closed)
  (if closed then d else (d.cnt (Reg.FL_CNT_k 6) 1).raise 1 Src.FLASH 0x0007 0xFFFF 0).flServe

theorem Dev.flash_mounted (d : Dev) (closed : Bool) :
    (d.mounted closed).flash = { d.flash with wb := [], unjournaled := [], records := 0 } := by
  cases closed with
  | true => rfl
  | false =>
    rw [Dev.mounted, if_neg Bool.false_ne_true, Dev.flServe, Dev.setFlState, Dev.wf_flash, Dev.flash_raise, Dev.flash_cnt,
      Dev.wf_flash, Dev.flash_modFlash]

theorem Dev.boot_mounted (d : Dev) (closed : Bool) : (d.mounted closed).boot = d.boot := by
  cases closed with
  | true => rfl
  | false =>
    rw [Dev.mounted, if_neg Bool.false_ne_true, Dev.flServe, Dev.cnt_frame]
    rfl

theorem Dev.flState_mounted (d : Dev) (closed : Bool) :
    (d.mounted closed).flState = if d.flash.spare = 0 then FL.READONLY else FL.READY := by
  rw [Dev.mounted, Dev.flState_flServe]
  cases closed with
  | true => rfl
  | false => rw [if_neg Bool.false_ne_true, Dev.flash_raise, Dev.flash_cnt]; rfl

theorem Dev.clean_mounted (d : Dev) (closed : Bool) :
    (d.mounted closed).rf Reg.FL_STAT Fld.FL_STAT.CLEAN = if closed then 1 else 0 := by
  rw [Dev.mounted, Dev.flServe, Dev.setFlState, Dev.rf_wf_field]
  cases closed with
  | true => exact Dev.rf_wf_same _ _ _
  | false =>
    rw [if_neg Bool.false_ne_true, Dev.rf, Dev.reg_raise, Dev.reg_cnt_ne _ _ (by decide)]
    exact Dev.rf_wf_same _ _ _

/-- What is known of the array, or what the mount finds of it. -/
def Dev.knownArray (d : Dev) (f : MountFound) : Dev :=
  if d.flash.formatted then d else d.modFlash (fun g => FlashSt.format g f.goodPages f.spareBlocks)

theorem Dev.boot_knownArray (d : Dev) (f : MountFound) : (d.knownArray f).boot = d.boot := by
  unfold Dev.knownArray
  split <;> rfl

section Mount
variable {m : Mach} {f : MountFound} (mounting : m.dev.flState = FL.MOUNTING)
include mounting

/-- A mount, by what it finds: no target in use, no format, or an array, whose map is placed in HBM.  Both sides are the same but
for the names of the parts. -/
theorem Mach.mountDone_eq : m.mountDone f =
    if (useTargets f.targets).1.isEmpty then m.mod (fun d => (d.foundTargets (useTargets f.targets)).setFlState FL.FAILED)
    else if !f.formatted then m.mod (fun d => (d.foundTargets (useTargets f.targets)).setFlState FL.BLANK)
    else (m.mod (fun d => (d.foundTargets (useTargets f.targets)).knownArray f)).placeMap.mod
      (fun d => d.mounted f.closeMarker) := by
  rw [Mach.mountDone, if_neg (not_not_intro mounting)]
  generalize useTargets f.targets = ts
  obtain ⟨good, unused⟩ := ts
  delta Mach.mod Dev.foundTargets targetMask Dev.knownArray Dev.mounted
  rfl

theorem Mach.mountDone_unusable (refused : (useTargets f.targets).1 = [] ∨ f.formatted = false) : m.mountDone f =
    m.mod (fun d => (d.foundTargets (useTargets f.targets)).setFlState
      (if (useTargets f.targets).1 = [] then FL.FAILED else FL.BLANK)) := by
  rw [Mach.mountDone_eq mounting]
  by_cases unused : (useTargets f.targets).1 = []
  · rw [if_pos (List.isEmpty_iff.mpr unused), if_pos unused]
  · rw [if_neg (mt List.isEmpty_iff.mp unused), refused.resolve_left unused, if_neg unused]
    rfl

theorem Mach.mountDone_serves (usable : (useTargets f.targets).1 ≠ []) (formatted : f.formatted = true) : m.mountDone f =
    (m.mod (fun d => (d.foundTargets (useTargets f.targets)).knownArray f)).placeMap.mod (fun d => d.mounted f.closeMarker) := by
  rw [Mach.mountDone_eq mounting, if_neg (mt List.isEmpty_iff.mp usable), formatted]
  rfl

theorem Mach.boot_mountDone : (m.mountDone f).dev.boot = m.dev.boot := by
  rw [Mach.mountDone_eq mounting]
  split
  · exact Dev.boot_foundTargets _ _
  · split
    · exact Dev.boot_foundTargets _ _
    · rw [Mach.mod_dev, Dev.boot_mounted, Mach.boot_placeMap, Mach.mod_dev, Dev.boot_knownArray, Dev.boot_foundTargets]

/-- An array known already comes into service as it is known, with the targets that answered. -/
theorem Mach.flash_mountDone (usable : (useTargets f.targets).1 ≠ []) (formatted : f.formatted = true)
    (known : m.dev.flash.formatted = true) : ∃ fs, (m.mountDone f).dev.flash = { m.dev.flash with
      geom := (useTargets f.targets).1, wb := [], unjournaled := [], records := 0, flipped := fs } := by
  obtain ⟨fs, placed⟩ := (m.mod (fun d => (d.foundTargets (useTargets f.targets)).knownArray f)).flash_placeMap
  have array := m.dev.flash_foundTargets (useTargets f.targets)
  have asKnown : (m.dev.foundTargets (useTargets f.targets)).knownArray f = m.dev.foundTargets (useTargets f.targets) :=
    if_pos (by rw [array]; exact known)
  rw [Mach.mod_dev, asKnown, array] at placed
  rw [Mach.mountDone_serves mounting usable formatted, Mach.mod_dev, Dev.flash_mounted, placed]
  exact ⟨fs, rfl⟩

theorem Mach.flState_mountDone (usable : (useTargets f.targets).1 ≠ []) (formatted : f.formatted = true)
    (known : m.dev.flash.formatted = true) :
    (m.mountDone f).dev.flState = if m.dev.flash.spare = 0 then FL.READONLY else FL.READY := by
  obtain ⟨fs, array⟩ := Mach.flash_mountDone mounting usable formatted known
  have spare : (m.mountDone f).dev.flash.spare = m.dev.flash.spare :=
    (congrArg FlashSt.spare array :)
  rw [Mach.mountDone_serves mounting usable formatted, Mach.mod_dev, Dev.flash_mounted] at spare
  rw [Mach.mountDone_serves mounting usable formatted, Mach.mod_dev, Dev.flState_mounted, ← spare]

end Mount

/-! ### MOUNT_DONE (R360, R374, R523) -/

section MountDone
variable {s : State} (f : MountFound) (mounting : s.dev.flState = FL.MOUNTING)

/-- The machine that a mount works on: the map's region of HBM reads as unmapped entries. -/
def mountStart (s : State) : Mach := ⟨Memory.keepOnly s.mem (mountKeep s.dev), [], s.dev⟩

include mounting

theorem exec_mountDone_boot (booting : s.dev.boot.phase = .mounting) : ∃ u, exec (.mountDone f) s = .next u
    ∧ u.pending = s.pending ∧ u.dev = (((mountStart s).mountDone f).bootFlash f.slotFails).feedPeers.dev := by
  have hd : exec (.mountDone f) s = execMountDone f s := rfl
  have boot : ((mountStart s).mountDone f).dev.boot = s.dev.boot := Mach.boot_mountDone mounting
  unfold mountStart at *
  rw [hd, execMountDone, runKeep_eq, run_eq]
  simp only [mounting, boot, booting, decide_true, beq_self_eq_true, Bool.and_self, if_true]
  exact ⟨_, rfl, rfl, rfl⟩

theorem exec_mountDone (notBooting : s.dev.boot.phase ≠ .mounting) : exec (.mountDone f) s = .next { s with
    mem := Memory.writeLog (mountStart s).base ((mountStart s).mountDone f).log
    dev := ((mountStart s).mountDone f).dev } := by
  have hd : exec (.mountDone f) s = execMountDone f s := rfl
  have boot : ((mountStart s).mountDone f).dev.boot = s.dev.boot := Mach.boot_mountDone mounting
  unfold mountStart at *
  rw [hd, execMountDone, runKeep_eq, run_eq]
  simp only [mounting, boot, beq_false_of_ne notBooting, Bool.and_false, Bool.false_eq_true, if_false]

end MountDone

/-! ### NAND operations (R361 to R364, R367, R368) -/

section Nand
variable {s : State} (works : s.dev.flServing = true ∨ s.dev.flState = FL.CLOSING)
include works

/-- NAND operations end while the subsystem serves or closes. -/
theorem nandWorks : (!s.dev.flServing && decide (s.dev.flState ≠ FL.CLOSING)) = false := by
  obtain serves | closing := works
  · rw [serves]; rfl
  · rw [closing]; exact Bool.and_false _

theorem exec_nandProgram {o : NandOutcome} (good : o ≠ .failed) :
    Safety.gives (.nandOperationDone (.program o)) s (Safety.mach s).programOldest := by
  have hd : exec (.nandOperationDone (.program o)) s = execNandOperationDone (.program o) s := rfl
  rw [Safety.gives, hd, execNandOperationDone, run_eq]
  simp only [nandWorks works, Bool.false_eq_true, if_false]
  cases o with
  | failed => exact absurd rfl good
  | _ => rfl

theorem exec_nandProgram_failed {w : WbUnit} {rest : List WbUnit} (buffered : s.dev.flash.wb = w :: rest) :
    Safety.gives (.nandOperationDone (.program .failed)) s ((Safety.mach s).growBad (s.dev.flash.blockOf w.unit)) := by
  have hd : exec (.nandOperationDone (.program .failed)) s = execNandOperationDone (.program .failed) s := rfl
  rw [Safety.gives, hd, execNandOperationDone, run_eq]
  simp only [nandWorks works, buffered, Bool.false_eq_true, if_false]
  rfl

theorem exec_nandRead (u b : Nat) (o : NandOutcome) :
    Safety.gives (.nandOperationDone (.read u b o)) s ((Safety.mach s).nandRead u b o).1 := by
  have hd : exec (.nandOperationDone (.read u b o)) s = execNandOperationDone (.read u b o) s := rfl
  rw [Safety.gives, hd, execNandOperationDone, run_eq]
  simp only [nandWorks works, Bool.false_eq_true, if_false]
  rfl

theorem exec_nandErase_failed (b : Nat) :
    Safety.gives (.nandOperationDone (.erase b .failed)) s ((Safety.mach s).growBad b) := by
  have hd : exec (.nandOperationDone (.erase b .failed)) s = execNandOperationDone (.erase b .failed) s := rfl
  rw [Safety.gives, hd, execNandOperationDone, run_eq]
  simp only [nandWorks works, Bool.false_eq_true, if_false, if_true]
  rfl

/-- A block that still holds valid data is not erased (R367). -/
theorem exec_nandErase (b : Nat) {o : NandOutcome} (good : o ≠ .failed) : Safety.givesDev (.nandOperationDone (.erase b o)) s
    (if (s.dev.flash.inBlock b).isEmpty then s.dev.eraseBlock b else s.dev) := by
  have hd : exec (.nandOperationDone (.erase b o)) s = execNandOperationDone (.erase b o) s := rfl
  rw [Safety.givesDev, hd, execNandOperationDone, run_eq]
  simp only [nandWorks works, good, Bool.false_eq_true, if_false]
  split <;> rfl

end Nand

/-! ### Journal, checkpoint, scrub and collection (R364, R365, R369) -/

section Serving
variable {s : State} (serves : s.dev.flServing = true)
include serves

/-- A journal page takes up to 1,020 records; the last of them empties the list of changes that no page holds. -/
theorem exec_journalFlush (waiting : s.dev.flash.records ≠ 0) : Safety.givesDev .journalFlush s
    ((s.dev.modFlash (fun f => { f with
      records := s.dev.flash.records - 1020
      pages := f.pages + 1
      unjournaled := if s.dev.flash.records - 1020 = 0 then [] else f.unjournaled })).cnt (Reg.FL_CNT_k 4) 1) := by
  have hd : exec .journalFlush s = execJournalFlush s := rfl
  rw [Safety.givesDev, hd, execJournalFlush, run_eq]
  simp only [serves, Mach.journalPage, waiting, if_true, if_false]
  rfl

theorem exec_checkpoint (full : 4096 ≤ s.dev.flash.pages) : Safety.givesDev .checkpoint s
    (s.dev.modFlash (fun f => { f with pages := 0, area := 1 - f.area })) := by
  have hd : exec .checkpoint s = execCheckpoint s := rfl
  rw [Safety.givesDev, hd, execCheckpoint, runDev_eq]
  simp only [serves, Nat.not_lt.mpr full, Bool.not_true, decide_false, Bool.or_self, Bool.false_eq_true, if_false]

section Scrub
variable {b n : Nat} {r : Bool} (held : s.dev.flash.inBlock b ≠ [])
include held

theorem exec_retentionScrub (worn : s.dev.rf Reg.FL_POLICY Fld.FL_POLICY.SCRUB_THR < n ∨ r = true) :
    Safety.gives (.retentionScrub b n r) s
      (((Safety.mach s).moveUnits (s.dev.flash.inBlock b)).mod (fun d => d.cnt (Reg.FL_CNT_k 3) 1)) := by
  have hd : exec (.retentionScrub b n r) s = execRetentionScrub b n r s := rfl
  rw [Safety.gives, hd, execRetentionScrub, run_eq]
  simp only [serves, List.isEmpty_eq_false_iff.mpr held, gt_iff_lt, Bool.or_eq_true, decide_eq_true_eq, worn, Bool.not_true,
    Bool.or_self, Bool.false_eq_true, if_false, if_true]
  rfl

theorem exec_retentionScrub_sound (few : n ≤ s.dev.rf Reg.FL_POLICY Fld.FL_POLICY.SCRUB_THR) (first : r = false) :
    Safety.givesDev (.retentionScrub b n r) s s.dev := by
  have hd : exec (.retentionScrub b n r) s = execRetentionScrub b n r s := rfl
  rw [Safety.givesDev, hd, execRetentionScrub, run_eq]
  simp only [serves, List.isEmpty_eq_false_iff.mpr held, first, gt_iff_lt, Nat.not_lt.mpr few, decide_false, Bool.not_true,
    Bool.or_self, Bool.false_eq_true, if_false]
  rfl

end Scrub

/-- Wear levelling goes before the collection of the block with the fewest valid units (R364). -/
theorem exec_garbageCollect {b : Nat}
    (chosen : s.dev.wornApart = some b ∨ s.dev.wornApart = none ∧ s.dev.flash.leastValid = some b) :
    Safety.gives .garbageCollect s ((Safety.mach s).moveUnits (s.dev.flash.inBlock b)) := by
  have hd : exec .garbageCollect s = execGarbageCollect s := rfl
  rw [Safety.gives, hd, execGarbageCollect, run_eq]
  obtain apart | ⟨even, least⟩ := chosen
  · simp only [serves, apart]
    rfl
  · simp only [serves, even, least]
    rfl

end Serving

/-! ### The close and the resume (R372, R373) -/

/-- The device when the close marker is programmed (R372). -/
def Dev.closeMarked (d : Dev) : Dev :=
  ((d.modFlash (fun f => { f with records := 0, unjournaled := [] })).cnt (Reg.FL_CNT_k 5) 1).wf Reg.FL_STAT
    Fld.FL_STAT.CLEAN 1

theorem exec_flashClosed {s : State} (closing : s.dev.flState = FL.CLOSING) : Safety.gives .flashClosed s
    ((Safety.mach s).programAll.journalPage.mod (fun d =>
      d.closeMarked.setFlState (if d.closeMarked.flEnabled then FL.CLOSED else FL.OFF))) := by
  have hd : exec .flashClosed s = execFlashClosed s := rfl
  rw [Safety.gives, hd, execFlashClosed, run_eq]
  simp only [closing, ne_eq, not_true_eq_false, if_false]
  rfl

theorem Mach.programAll_empty {m : Mach} (empty : m.dev.flash.wb = []) : m.programAll = m := by
  rw [Mach.programAll, empty]
  rfl

theorem Mach.log_journalPage (m : Mach) : m.journalPage.log = m.log := by
  unfold Mach.journalPage
  split
  · rfl
  · rw [Mach.mod_log]

theorem Mach.reg_journalPage (m : Mach) {a : Nat} (other : a ≠ Reg.FL_CNT_k 4) : m.journalPage.dev.reg a = m.dev.reg a := by
  unfold Mach.journalPage
  split
  · rfl
  · rw [Mach.mod_dev, Dev.reg_cnt_ne _ _ other, Dev.reg_modFlash]

theorem Dev.flEnabled_closeMarked (d : Dev) : d.closeMarked.flEnabled = d.flEnabled := by
  rw [Dev.flEnabled, Dev.rfB, Dev.closeMarked, Dev.rf_wf_ne _ _ _ _ (by decide), Dev.rf, Dev.reg_cnt_ne _ _ (by decide)]
  rfl

theorem Dev.flash_closeMarked (d : Dev) : d.closeMarked.flash = { d.flash with records := 0, unjournaled := [] } := by
  rw [Dev.closeMarked, Dev.wf_flash, Dev.flash_cnt, Dev.flash_modFlash]

theorem exec_flashResume {s : State} (on : s.dev.rf Reg.FL_CTRL Fld.FL_CTRL.EN = 1)
    (closed : s.dev.flState = FL.CLOSING ∨ s.dev.flState = FL.CLOSED) : Safety.givesDev .flashResume s s.dev.flServe := by
  have hd : exec .flashResume s = execFlashResume s := rfl
  have enabled : s.dev.flEnabled = true := Dev.flEnabled_of_rf (b := true) on
  rw [Safety.givesDev, hd, execFlashResume, runDev_eq]
  simp only [enabled, Bool.true_and, Bool.or_eq_true, decide_eq_true_eq, closed, if_true]

/-- Settles O54: EN by the state that it meets, a mount by what it finds (`Mach.mountDone_eq`), each other event by its guard. -/
theorem flashMountsServesAndCloses : Obligations.FlashMountsServesAndCloses := by
  unfold Obligations.FlashMountsServesAndCloses
  refine ⟨?enable, ?disable, ?unusable, ?usable, ?boot, ?program, ?nand, ?journal, ?checkpoint, ?scrub, ?collect, ?closeEmpty,
    ?close, ?resume⟩
  case enable =>
    intro s off
    refine ⟨fun stopped => ⟨_, exec_flEn_mount off stopped, ?state, ?en, rfl, fun a other => ?others⟩, exec_flEn_on off⟩
    case state => exact Dev.flState_setFlState _ (by decide)
    case en => exact (Dev.rf_wf_ne _ _ _ _ (by decide)).trans (Dev.rf_wf_same _ _ _)
    case others =>
      simp only [List.mem_cons, List.not_mem_nil, or_false, not_or] at other
      obtain ⟨notCtrl, notStat⟩ := other
      exact (Dev.reg_wf_ne _ _ _ notStat).trans (Dev.reg_wf_ne _ _ _ notCtrl)
  case disable =>
    intro s on
    have written := exec_flEn_off on
    refine ⟨fun serves => ?serves, fun closing => ?closing, fun notServing notClosing => ?stopped⟩
    case serves => rwa [if_pos serves] at written
    case closing =>
      have notServing : s.dev.flServing = false := by rw [Dev.flServing, closing]; rfl
      rwa [notServing, if_neg Bool.false_ne_true, if_pos closing] at written
    case stopped => rwa [notServing, if_neg Bool.false_ne_true, if_neg notClosing] at written
  case unusable =>
    intro f s mounting notBooting refused
    have unusable := Mach.mountDone_unusable (m := mountStart s) mounting refused
    have done := exec_mountDone f mounting notBooting
    rw [unusable] at done
    refine ⟨_, done, rfl, Dev.flState_setFlState _ (by split <;> decide), fun ok x outside => ?_⟩
    refine (Memory.read_keepOnly (mountKeep s.dev) x ok).trans (if_pos ?_)
    rw [mountKeep, Bool.or_assoc, Bool.or_eq_true, Bool.or_eq_true, decide_eq_true_eq, decide_eq_true_eq]
    exact .inr outside
  case usable =>
    intro f s mounting notBooting usable formatted known
    have start : (mountStart s).dev.flState = FL.MOUNTING := mounting
    have served := Mach.mountDone_serves start usable formatted
    obtain ⟨fs, array⟩ := Mach.flash_mountDone start usable formatted known
    refine ⟨_, exec_mountDone f mounting notBooting, ?spare, ?clean, ?geom⟩
    case spare => exact Mach.flState_mountDone start usable formatted known
    case clean => exact (congrArg (fun m => m.dev.rf Reg.FL_STAT Fld.FL_STAT.CLEAN) served).trans (Dev.clean_mounted _ _)
    case geom => exact (congrArg FlashSt.geom array :)
  case boot =>
    intro f m s mounting booting hm
    have boot : m.dev.boot = s.dev.boot := hm ▸ Mach.boot_mountDone (m := mountStart s) mounting
    rw [boot, if_pos booting, hm]
    exact exec_mountDone_boot f mounting booting
  case program => exact fun w rest s works buffered =>
    ⟨fun o good => exec_nandProgram works good, exec_nandProgram_failed works buffered⟩
  case nand =>
    intro u b o s works
    refine ⟨exec_nandRead works u b o, exec_nandErase_failed works b, fun good empty => ?empty, fun good held => ?held⟩
    case empty =>
      have erased := exec_nandErase works b good
      rwa [if_pos (List.isEmpty_iff.mpr empty)] at erased
    case held =>
      have erased := exec_nandErase works b good
      rwa [if_neg (mt List.isEmpty_iff.mp held)] at erased
  case journal =>
    intro s serves waiting
    refine ⟨_, exec_journalFlush serves waiting, ⟨rfl, rfl⟩, ?records, ?pages, ?counted⟩
    case records => rw [Dev.flash_cnt, Dev.flash_modFlash]
    case pages => rw [Dev.flash_cnt, Dev.flash_modFlash]
    case counted => rw [Dev.reg_cnt, Dev.reg_modFlash]
  case checkpoint => exact fun s serves full => ⟨_, exec_checkpoint serves full, ⟨rfl, rfl⟩, rfl, rfl, rfl⟩
  case scrub => exact fun b n r s serves held =>
    ⟨exec_retentionScrub serves held, exec_retentionScrub_sound serves held⟩
  case collect => exact fun b s serves =>
    ⟨fun apart => exec_garbageCollect serves (.inl apart), fun even least => exec_garbageCollect serves (.inr ⟨even, least⟩)⟩
  case closeEmpty =>
    intro s closing empty
    have closed := exec_flashClosed closing
    have none : (Safety.mach s).programAll = Safety.mach s := Mach.programAll_empty empty
    have enabled : (Safety.mach s).journalPage.dev.closeMarked.flEnabled = s.dev.flEnabled := by
      rw [Dev.flEnabled_closeMarked, Dev.flEnabled, Dev.rfB, Dev.rf, Mach.reg_journalPage _ (by decide)]
      rfl
    rw [none, Safety.gives, Mach.mod_log, Mach.log_journalPage, Mach.mod_dev, enabled] at closed
    refine ⟨_, closed, ⟨rfl, rfl⟩, ?atRest, ?marker, ?programmed⟩
    case atRest =>
      rw [Dev.flState_setFlState _ (by split <;> decide), Dev.flEnabled, Dev.rfB]
      by_cases off : s.dev.rf Reg.FL_CTRL Fld.FL_CTRL.EN = 0
      · simp [off]
      · simp [off]
    case marker => exact (Dev.rf_wf_field _ _ _).trans (Dev.rf_wf_same _ _ _)
    case programmed => rw [Dev.setFlState, Dev.wf_flash, Dev.flash_closeMarked]
  case close =>
    intro e m s closing hm he
    have closed := exec_flashClosed closing
    rw [← hm] at closed
    rw [he]
    exact closed
  case resume =>
    intro s on closed
    exact ⟨_, exec_flashResume on closed, Dev.flState_flServe _, onlyRegs_wf s _ _ _⟩

end Machine
end Sys2Proof
end

section
/-!
PROOFS. The check-value units (O55): jobs and slices, claims, and a claimed unit's context.
-/
namespace Sys2Proof
namespace Machine

/-! ### Registers of 64 bits (R10) -/

theorem Dev.reg64_setReg64_same (d : Dev) (a v : Nat) : (d.setReg64 a v).reg64 a = v % 2 ^ 64 := by
  rw [Dev.reg64, Dev.setReg64, Dev.reg_setReg_ne _ _ (by omega), Dev.reg_setReg_same, Dev.reg_setReg_same]
  omega

/-- Two registers of 64 bits that lie apart. -/
theorem Dev.reg64_setReg64_ne (d : Dev) {a b : Nat} (v : Nat) (apart : a + 8 ≤ b ∨ b + 8 ≤ a) :
    (d.setReg64 a v).reg64 b = d.reg64 b := by
  rw [Dev.reg64, Dev.reg_setReg64_ne _ _ (by omega) (by omega), Dev.reg_setReg64_ne _ _ (by omega) (by omega), Dev.reg64]

/-- A flag hangs on its register alone. -/
theorem Dev.rfB_congr {d e : Dev} {a : Nat} (same : d.reg a = e.reg a) (f : Fd) : d.rfB a f = e.rfB a f := by
  rw [Dev.rfB, Dev.rf, same, Dev.rfB, Dev.rf]

/-- A field of one bit written. -/
theorem Dev.rfB_wf_bit (d : Dev) (a : Nat) {f : Fd} (b : Bool) (bit : f.hi = f.lo := by decide) (inWord : f.lo < 32 := by decide) :
    (d.wf a f (b2n b)).rfB a f = b := by
  rw [Dev.rfB, Dev.rf_wf_same d a _ (by omega) (by omega), bit, Nat.add_sub_cancel_left]
  cases b <;> rfl

/-! ### The registers of a unit (R381) -/

theorem CV_VAL_before_CNT (u : Nat) : Reg.CV_Un_VAL_LO u + 8 ≤ Reg.CV_Un_CNT_LO u := by
  unfold Reg.CV_Un_VAL_LO Reg.CV_Un_CNT_LO
  omega

/-- SEL stands before the context registers. -/
theorem CV_SEL_before_VAL (u : Nat) : Reg.CV_Un_SEL u < Reg.CV_Un_VAL_LO u := by
  unfold Reg.CV_Un_SEL Reg.CV_Un_VAL_LO
  omega

section Show
variable (d : Dev) (u sel value count : Nat)

@[simp] theorem Dev.cv_cvShow : (d.cvShow u sel value count).cv = d.cv := rfl

theorem Dev.value_cvShow : (d.cvShow u sel value count).reg64 (Reg.CV_Un_VAL_LO u) = value % 2 ^ 64 := by
  rw [Dev.cvShow, Dev.reg64_setReg64_ne _ _ (.inr (CV_VAL_before_CNT u)), Dev.reg64_setReg64_same]

theorem Dev.count_cvShow : (d.cvShow u sel value count).reg64 (Reg.CV_Un_CNT_LO u) = count % 2 ^ 64 :=
  Dev.reg64_setReg64_same _ _ _

/-- The context shown changes, of SEL, the selector alone. -/
theorem Dev.rf_cvShow {f : Fd} (other : Fld.CV_Un_SEL.SEL.hi < f.lo) :
    (d.cvShow u sel value count).rf (Reg.CV_Un_SEL u) f = d.rf (Reg.CV_Un_SEL u) f := by
  have val := CV_SEL_before_VAL u
  have cnt := CV_VAL_before_CNT u
  rw [Dev.rf, Dev.cvShow, Dev.reg_setReg64_ne _ _ (by omega) (by omega), Dev.reg_setReg64_ne _ _ (by omega) (by omega)]
  exact d.rf_wf_field _ _ (.inl other)

@[simp] theorem Dev.cvClaim_cvShow : (d.cvShow u sel value count).cvClaim u = d.cvClaim u := by
  rw [Dev.cvClaim, Dev.rfB, d.rf_cvShow u sel value count (by decide), Dev.cvClaim, Dev.rfB]

@[simp] theorem Dev.cvClaimed_cvShow : (d.cvShow u sel value count).cvClaimed u = d.cvClaimed u := by
  rw [Dev.cvClaimed, Dev.rfB, d.rf_cvShow u sel value count (by decide), Dev.cvClaimed, Dev.rfB]

theorem Dev.reg_cvShow_ne {a : Nat} (other : a ∉ [Reg.CV_Un_SEL u, Reg.CV_Un_VAL_LO u, Reg.CV_Un_VAL_LO u + 4,
    Reg.CV_Un_CNT_LO u, Reg.CV_Un_CNT_LO u + 4]) : (d.cvShow u sel value count).reg a = d.reg a := by
  simp only [List.mem_cons, List.not_mem_nil, or_false, not_or] at other
  obtain ⟨notSel, notVal, notValHi, notCnt, notCntHi⟩ := other
  rw [Dev.cvShow, Dev.reg_setReg64_ne _ _ notCnt notCntHi, Dev.reg_setReg64_ne _ _ notVal notValHi, Dev.reg_wf_ne _ _ _ notSel]

end Show

/-! ### Claims (R380) -/

section Claim
variable (d : Dev) (u : Nat)

@[simp] theorem Dev.cvClaim_wf_claimed (v : Nat) :
    (d.wf (Reg.CV_Un_SEL u) Fld.CV_Un_SEL.CLAIMED v).cvClaim u = d.cvClaim u := by
  rw [Dev.cvClaim, Dev.rfB, Dev.rf_wf_field d _ _, Dev.cvClaim, Dev.rfB]

@[simp] theorem Dev.cvClaimed_wf_claim (v : Nat) :
    (d.wf (Reg.CV_Un_SEL u) Fld.CV_Un_SEL.CLAIM v).cvClaimed u = d.cvClaimed u := by
  rw [Dev.cvClaimed, Dev.rfB, Dev.rf_wf_field d _ _, Dev.cvClaimed, Dev.rfB]

@[simp] theorem Dev.cvClaim_wf_same (b : Bool) : (d.wf (Reg.CV_Un_SEL u) Fld.CV_Un_SEL.CLAIM (b2n b)).cvClaim u = b := by
  rw [Dev.cvClaim, d.rfB_wf_bit _ b]

@[simp] theorem Dev.cvClaimed_wf_same (b : Bool) : (d.wf (Reg.CV_Un_SEL u) Fld.CV_Un_SEL.CLAIMED (b2n b)).cvClaimed u = b := by
  rw [Dev.cvClaimed, d.rfB_wf_bit _ b]

variable {d u}

theorem Dev.cvApplyClaim_waits (claim : d.cvClaim u = true) (idle : AMap.find d.cv.serving u = none) :
    d.cvApplyClaim u = d.wf (Reg.CV_Un_SEL u) Fld.CV_Un_SEL.CLAIMED (b2n true) := by
  rw [Dev.cvApplyClaim, claim, idle]
  rfl

theorem Dev.cvApplyClaim_none (noClaim : d.cvClaim u = false) : d.cvApplyClaim u = d := by
  rw [Dev.cvApplyClaim, noClaim]
  rfl

/-! ### Jobs on units (R378, R379) -/

/-- A job stays where it waits while the unit is claimed, to be claimed or serving. -/
theorem Dev.cvNext_busy (busy : d.cvIdle u = false) : d.cvNext u = d := by
  unfold Dev.cvNext
  rw [busy]

theorem Dev.cvNext_empty (empty : d.cv.waiting = []) : d.cvNext u = d := by
  unfold Dev.cvNext
  rw [empty]
  split
  next waiting => cases waiting
  next => rfl

theorem Dev.cvNext_oldest {k : CvJob} {rest : List CvJob} (idle : d.cvIdle u = true) (waiting : d.cv.waiting = k :: rest) :
    d.cvNext u = { d with cv := { d.cv with waiting := rest } }.cvLoad u k := by
  unfold Dev.cvNext
  rw [idle, waiting]

theorem Dev.cvIdle_of_claim (claim : d.cvClaim u = true) : d.cvIdle u = false := by
  rw [Dev.cvIdle, claim]
  rfl

theorem Dev.cvIdle_of_serving (serving : AMap.find d.cv.serving u ≠ none) : d.cvIdle u = false := by
  rw [Dev.cvIdle, Option.isNone_eq_false_iff.mpr (Option.isSome_iff_ne_none.mpr serving), Bool.and_false]

theorem Dev.cvIdle_of_free (noClaim : d.cvClaim u = false) (unclaimed : d.cvClaimed u = false)
    (idle : AMap.find d.cv.serving u = none) : d.cvIdle u = true := by
  rw [Dev.cvIdle, noClaim, unclaimed, idle]
  rfl

end Claim

section Load
variable (d : Dev) (u : Nat) (j : CvJob)

/-- A job moved between the lists of jobs shows in no register. -/
@[simp] theorem Dev.cvClaim_withCv (c : CvSt) : ({ d with cv := c } : Dev).cvClaim u = d.cvClaim u :=
  Dev.rfB_congr (Dev.reg_congr rfl _) _
@[simp] theorem Dev.cvClaimed_withCv (c : CvSt) : ({ d with cv := c } : Dev).cvClaimed u = d.cvClaimed u :=
  Dev.rfB_congr (Dev.reg_congr rfl _) _

@[simp] theorem Dev.serving_cvLoad : AMap.find (d.cvLoad u j).cv.serving u = some j := by
  rw [Dev.cvLoad, Dev.cv_cvShow, AMap.find_set_same]

theorem Dev.value_cvLoad : (d.cvLoad u j).reg64 (Reg.CV_Un_VAL_LO u) = j.value % 2 ^ 64 := by
  rw [Dev.cvLoad, Dev.value_cvShow]

theorem Dev.count_cvLoad : (d.cvLoad u j).reg64 (Reg.CV_Un_CNT_LO u) = j.count % 2 ^ 64 := by
  rw [Dev.cvLoad, Dev.count_cvShow]

@[simp] theorem Dev.cvClaim_cvLoad : (d.cvLoad u j).cvClaim u = d.cvClaim u := by
  rw [Dev.cvLoad, Dev.cvClaim_cvShow, Dev.cvClaim_withCv]

@[simp] theorem Dev.cvClaimed_cvLoad : (d.cvLoad u j).cvClaimed u = d.cvClaimed u := by
  rw [Dev.cvLoad, Dev.cvClaimed_cvShow, Dev.cvClaimed_withCv]

end Load

theorem exec_cvJob_waits {r : Fin 256} {sel : Fin 4} {bs : List Byte} {s : State}
    (busy : (List.range 16).find? s.dev.cvIdle = none) : Safety.givesDev (.cvJob r sel bs) s
      { s.dev with cv := { s.dev.cv with waiting := s.dev.cv.waiting ++ [⟨r.val, sel.val, bs, (crcParams sel.val).init, 0⟩] } } := by
  have hd : exec (.cvJob r sel bs) s = execCvJob r sel bs s := rfl
  rw [Safety.givesDev, hd, execCvJob, runDev_eq]
  simp only [busy]

theorem exec_cvJob_starts {r : Fin 256} {sel : Fin 4} {bs : List Byte} {s : State} {u : Nat}
    (idle : (List.range 16).find? s.dev.cvIdle = some u) : Safety.givesDev (.cvJob r sel bs) s
      (s.dev.cvLoad u ⟨r.val, sel.val, bs, (crcParams sel.val).init, 0⟩) := by
  have hd : exec (.cvJob r sel bs) s = execCvJob r sel bs s := rfl
  rw [Safety.givesDev, hd, execCvJob, runDev_eq]
  simp only [idle]

/-! ### CV_SLICE_END (R378, R379) -/

/-- The jobs that wait once a unit has taken a slice of `j`. -/
def Dev.cvBehind (d : Dev) (j : CvJob) : List CvJob :=
  if d.cvSlice < j.data.length then d.cv.waiting ++ [j.take d.cvSlice] else d.cv.waiting

/-- The device once a unit has taken a slice of its job `j`, before it serves again. -/
def Dev.cvSliced (d : Dev) (u : Nat) (j : CvJob) : Dev :=
  ({ d with cv := { serving := AMap.erase d.cv.serving u, waiting := d.cvBehind j } } : Dev).cvShow u j.sel
    (j.take d.cvSlice).value (j.take d.cvSlice).count

section Slice
variable {u : Fin 16} {j : CvJob} {s : State}

theorem exec_cvSliceEnd_idle (idle : AMap.find s.dev.cv.serving u.val = none) :
    Safety.givesDev (.cvSliceEnd u) s ((s.dev.cvApplyClaim u.val).cvNext u.val) := by
  have hd : exec (.cvSliceEnd u) s = execCvSliceEnd u s := rfl
  rw [Safety.givesDev, hd, execCvSliceEnd, runDev_eq]
  simp only [idle]

theorem exec_cvSliceEnd (serving : AMap.find s.dev.cv.serving u.val = some j) :
    Safety.givesDev (.cvSliceEnd u) s (((s.dev.cvSliced u.val j).cvApplyClaim u.val).cvNext u.val) := by
  have hd : exec (.cvSliceEnd u) s = execCvSliceEnd u s := rfl
  have left : (j.take s.dev.cvSlice).data.isEmpty = !decide (s.dev.cvSlice < j.data.length) := by
    rw [CvJob.take, Bool.eq_iff_iff]
    simp
  rw [Safety.givesDev, hd, execCvSliceEnd, runDev_eq]
  simp only [serving, left, Bool.not_eq_true', decide_eq_false_iff_not, ite_not]
  rfl

end Slice

section Sliced
variable (d : Dev) (u : Nat) (j : CvJob)

@[simp] theorem Dev.serving_cvSliced : AMap.find (d.cvSliced u j).cv.serving u = none := AMap.find_erase_same _ _

@[simp] theorem Dev.cvClaim_cvSliced : (d.cvSliced u j).cvClaim u = d.cvClaim u := by
  rw [Dev.cvSliced, Dev.cvClaim_cvShow, Dev.cvClaim_withCv]

@[simp] theorem Dev.cvClaimed_cvSliced : (d.cvSliced u j).cvClaimed u = d.cvClaimed u := by
  rw [Dev.cvSliced, Dev.cvClaimed_cvShow, Dev.cvClaimed_withCv]

theorem Dev.value_cvSliced : (d.cvSliced u j).reg64 (Reg.CV_Un_VAL_LO u) = (j.take d.cvSlice).value % 2 ^ 64 := by
  rw [Dev.cvSliced, Dev.value_cvShow]

theorem Dev.count_cvSliced : (d.cvSliced u j).reg64 (Reg.CV_Un_CNT_LO u) = (j.take d.cvSlice).count % 2 ^ 64 := by
  rw [Dev.cvSliced, Dev.count_cvShow]

end Sliced

/-! ### CLAIM (R380) -/

section ClaimWrite
variable {u : Fin 16} {s : State}

theorem exec_claim_on : Safety.givesDev (.claim u true) s
    ((s.dev.wf (Reg.CV_Un_SEL u.val) Fld.CV_Un_SEL.CLAIM (b2n true)).cvApplyClaim u.val) := rfl

/-- The device once a claim is released. -/
def Dev.cvReleased (d : Dev) (u : Nat) : Dev :=
  (d.wf (Reg.CV_Un_SEL u) Fld.CV_Un_SEL.CLAIM (b2n false)).wf (Reg.CV_Un_SEL u) Fld.CV_Un_SEL.CLAIMED (b2n false)

theorem exec_claim_off : Safety.givesDev (.claim u false) s ((s.dev.cvReleased u.val).cvNext u.val) := rfl

end ClaimWrite

section Released
variable (d : Dev) (u : Nat)

@[simp] theorem Dev.cvClaim_cvReleased : (d.cvReleased u).cvClaim u = false :=
  (Dev.cvClaim_wf_claimed _ _ _).trans (Dev.cvClaim_wf_same _ _ false)

@[simp] theorem Dev.cvClaimed_cvReleased : (d.cvReleased u).cvClaimed u = false := Dev.cvClaimed_wf_same _ _ false

end Released

theorem onlyRegs_wf_wf (s : State) (a : Nat) (f g : Fd) (v w : Nat) :
    Safety.onlyRegs s { s with dev := (s.dev.wf a f v).wf a g w } [a] :=
  ⟨rfl, fun _ other => (Dev.reg_wf_ne _ _ _ (List.mem_singleton.not.mp other)).trans
    (Dev.reg_wf_ne _ _ _ (List.mem_singleton.not.mp other))⟩

/-! ### The context of a claimed unit (R378, R380, R382) -/

section Context
variable {u : Fin 16} {s : State} (claimed : s.dev.cvClaimed u.val = true)
include claimed

theorem exec_cvStart : Safety.givesDev (.cvStart u) s
    (s.dev.cvShow u.val (s.dev.cvSel u.val) (crcParams (s.dev.cvSel u.val)).init 0) := by
  have hd : exec (.cvStart u) s = execCvStart u s := rfl
  rw [Safety.givesDev, hd, execCvStart, runDev_eq, Dev.cvStart, claimed]
  rfl

/-- The bytes that a write of DATA takes. -/
def Dev.cvBytes (d : Dev) (u : Nat) : Nat := min 4 (d.rf (Reg.CV_Un_SEL u) Fld.CV_Un_SEL.BYTES)

theorem exec_cvData (v : Word) : Safety.givesDev (.cvData u v) s
    ((s.dev.setReg64 (Reg.CV_Un_VAL_LO u.val) ((crcParams (s.dev.cvSel u.val)).run (s.dev.reg64 (Reg.CV_Un_VAL_LO u.val))
      (leBytes (s.dev.cvBytes u.val) v.toNat))).setReg64 (Reg.CV_Un_CNT_LO u.val)
        (s.dev.reg64 (Reg.CV_Un_CNT_LO u.val) + s.dev.cvBytes u.val)) := by
  have hd : exec (.cvData u v) s = execCvData u v s := rfl
  rw [Safety.givesDev, hd, execCvData, runDev_eq, Dev.cvDataWrite, claimed]
  rfl

end Context

section High
variable (d : Dev) (lo : Nat)

theorem Dev.heldLow_lt : d.heldLow lo < 2 ^ 32 := by
  unfold Dev.heldLow
  split
  next w _ => exact w.isLt
  next => exact d.reg_lt lo

/-- The high word written applies the whole value. -/
theorem Dev.reg64_applyHigh {v : Nat} (word : v < 2 ^ 32) : (d.applyHigh lo v).reg64 lo = d.heldLow lo + 2 ^ 32 * v := by
  have low := d.heldLow_lt lo
  have regs (a : Nat) : (d.applyHigh lo v).reg a = ((d.setReg lo (d.heldLow lo)).setReg (lo + 4) v).reg a := rfl
  rw [Dev.reg64, regs, regs, Dev.reg_setReg_same, Dev.reg_setReg_ne _ _ (by omega), Dev.reg_setReg_same,
    Nat.mod_eq_of_lt low, Nat.mod_eq_of_lt word]

theorem Dev.reg_applyHigh_ne {a : Nat} (v : Nat) (notLow : a ≠ lo) (notHigh : a ≠ lo + 4) :
    (d.applyHigh lo v).reg a = d.reg a :=
  (Dev.reg_setReg_ne _ v notHigh).trans (Dev.reg_setReg_ne _ _ notLow)

end High

/-- A context word written changes no field of SEL. -/
theorem Dev.sel_applyHigh (d : Dev) (u v : Nat) {lo : Nat} (past : Reg.CV_Un_SEL u < lo) :
    (d.applyHigh lo v).reg (Reg.CV_Un_SEL u) = d.reg (Reg.CV_Un_SEL u) :=
  d.reg_applyHigh_ne lo v (by omega) (by omega)

section HighWords
variable {u : Fin 16} {s : State} (v : Word) (claimed : s.dev.cvClaimed u.val = true)
include claimed

theorem exec_cvCntHi : Safety.givesDev (.cvCntHi u v) s (s.dev.applyHigh (Reg.CV_Un_CNT_LO u.val) v.toNat) := by
  have hd : exec (.cvCntHi u v) s = execCvCntHi u v s := rfl
  rw [Safety.givesDev, hd, execCvCntHi, runDev_eq, Dev.cvHigh, if_pos claimed]

theorem exec_cvValHi : Safety.givesDev (.cvValHi u v) s
    ((s.dev.applyHigh (Reg.CV_Un_VAL_LO u.val) v.toNat).setReg64 (Reg.CV_Un_VAL_LO u.val)
      ((s.dev.heldLow (Reg.CV_Un_VAL_LO u.val) + 2 ^ 32 * v.toNat) % 2 ^ cvWidth (s.dev.cvSel u.val))) := by
  have hd : exec (.cvValHi u v) s = execCvValHi u v s := rfl
  have sel := s.dev.sel_applyHigh u.val v.toNat (CV_SEL_before_VAL u.val)
  have still : (s.dev.applyHigh (Reg.CV_Un_VAL_LO u.val) v.toNat).cvClaimed u.val = true := by
    rw [Dev.cvClaimed, Dev.rfB, Dev.rf, sel]
    exact claimed
  have same : (s.dev.applyHigh (Reg.CV_Un_VAL_LO u.val) v.toNat).cvSel u.val = s.dev.cvSel u.val := by
    rw [Dev.cvSel, Dev.rf, sel, Dev.cvSel, Dev.rf]
  rw [Safety.givesDev, hd, execCvValHi, runDev_eq, Dev.cvValHi, Dev.cvHigh, if_pos claimed]
  simp only [still, if_true, same, s.dev.reg64_applyHigh _ v.isLt]

end HighWords

/-! ### Writes of an unclaimed unit (R380) -/

/-- A context write that is ignored: its refusal is noted in SEL, and no other register changes. -/
theorem cvLocked_ignores {c : Instr} {u : Fin 16} {s : State} {d : Dev}
    (ignored : Safety.givesDev c s (d.cvLocked u.val)) (sameRegs : d.regs = s.dev.regs) :
    ∃ t, exec c s = .next t ∧ Safety.keepsMem s t ∧ t.dev.rf (Reg.CV_Un_SEL u.val) Fld.CV_Un_SEL.CFG_LOCKED_WRITE = 1
    ∧ ∀ a, a ≠ Reg.CV_Un_SEL u.val → t.dev.reg a = s.dev.reg a :=
  ⟨_, ignored, ⟨rfl, rfl⟩, Dev.rf_wf_same _ _ _, fun a other => (Dev.reg_wf_ne _ _ _ other).trans (Dev.reg_congr sameRegs a)⟩

section Unclaimed
variable {u : Fin 16} {s : State} (unclaimed : s.dev.cvClaimed u.val = false)
include unclaimed

theorem exec_cvStart_unclaimed : Safety.givesDev (.cvStart u) s (s.dev.cvLocked u.val) := by
  have hd : exec (.cvStart u) s = execCvStart u s := rfl
  rw [Safety.givesDev, hd, execCvStart, runDev_eq, Dev.cvStart, unclaimed]
  rfl

theorem exec_cvCntHi_unclaimed (v : Word) : Safety.givesDev (.cvCntHi u v) s
    ((s.dev.dropLow (Reg.CV_Un_CNT_LO u.val)).cvLocked u.val) := by
  have hd : exec (.cvCntHi u v) s = execCvCntHi u v s := rfl
  rw [Safety.givesDev, hd, execCvCntHi, runDev_eq, Dev.cvHigh, unclaimed]
  rfl

theorem exec_cvValHi_unclaimed (v : Word) : Safety.givesDev (.cvValHi u v) s
    ((s.dev.dropLow (Reg.CV_Un_VAL_LO u.val)).cvLocked u.val) := by
  have hd : exec (.cvValHi u v) s = execCvValHi u v s := rfl
  have still : ((s.dev.dropLow (Reg.CV_Un_VAL_LO u.val)).cvLocked u.val).cvClaimed u.val = false := by
    rw [Dev.cvClaimed, Dev.rfB, Dev.cvLocked, Dev.rf_wf_field _ _ _]
    exact unclaimed
  rw [Safety.givesDev, hd, execCvValHi, runDev_eq, Dev.cvValHi, Dev.cvHigh, unclaimed, if_neg Bool.false_ne_true, still,
    if_neg Bool.false_ne_true]

theorem exec_cvData_unclaimed (v : Word) : Safety.givesDev (.cvData u v) s s.dev := by
  have hd : exec (.cvData u v) s = execCvData u v s := rfl
  rw [Safety.givesDev, hd, execCvData, runDev_eq, Dev.cvDataWrite, unclaimed]
  rfl

end Unclaimed

/-- Settles O55: jobs by idle units and slices by what is left, a claim by what its unit serves, a context write by the claim. -/
theorem checkUnitJobsAndClaims : Obligations.CheckUnitJobsAndClaims := by
  unfold Obligations.CheckUnitJobsAndClaims
  refine ⟨?job, ?lastSlice, ?slice, fun u s idle => exec_cvSliceEnd_idle idle, ?claim, ?release, ?start, ?data, ?high, ?locked,
    fun u v s unclaimed => exec_cvData_unclaimed unclaimed v⟩
  case job =>
    intro r sel bs s
    exact ⟨exec_cvJob_waits, fun u idle => ⟨_, exec_cvJob_starts idle, ⟨rfl, rfl⟩, Dev.serving_cvLoad _ _ _,
      Dev.value_cvLoad _ _ _, Dev.count_cvLoad _ _ _⟩⟩
  case lastSlice =>
    intro u j s serving noClaim empty last
    have sliced := exec_cvSliceEnd serving
    have taken : s.dev.cvBehind j = [] := (if_neg (Nat.not_lt.mpr last)).trans empty
    rw [Dev.cvApplyClaim_none (by rw [Dev.cvClaim_cvSliced, noClaim]), Dev.cvNext_empty taken] at sliced
    refine ⟨_, sliced, ⟨rfl, rfl⟩, Dev.serving_cvSliced _ _ _, taken, ?value, ?count⟩
    case value => rw [Dev.value_cvSliced, CvJob.take, List.take_of_length_le last]
    case count => rw [Dev.count_cvSliced, CvJob.take, List.take_of_length_le last, Nat.mod_mod]
  case slice =>
    intro u j w s serving hw
    have sliced := exec_cvSliceEnd serving
    have behind : (s.dev.cvSliced u.val j).cv.waiting = w := hw.symm
    refine ⟨fun claim => ?taken, fun k rest noClaim unclaimed more => ?oldest⟩
    case taken =>
      rw [Dev.cvApplyClaim_waits (by rw [Dev.cvClaim_cvSliced, claim]) (Dev.serving_cvSliced _ _ _),
        Dev.cvNext_busy (Dev.cvIdle_of_claim (by rw [Dev.cvClaim_wf_claimed, Dev.cvClaim_cvSliced, claim]))] at sliced
      exact ⟨_, sliced, ⟨rfl, rfl⟩, Dev.serving_cvSliced _ _ _, behind, Dev.cvClaimed_wf_same _ _ true⟩
    case oldest =>
      rw [Dev.cvApplyClaim_none (by rw [Dev.cvClaim_cvSliced, noClaim]), Dev.cvNext_oldest (Dev.cvIdle_of_free
        (by rw [Dev.cvClaim_cvSliced, noClaim]) (by rw [Dev.cvClaimed_cvSliced, unclaimed]) (Dev.serving_cvSliced _ _ _))
        (behind.trans more)] at sliced
      exact ⟨_, sliced, ⟨rfl, rfl⟩, Dev.serving_cvLoad _ _ _, rfl, Dev.value_cvLoad _ _ _, Dev.count_cvLoad _ _ _⟩
  case claim =>
    intro u s
    have written := exec_claim_on (u := u) (s := s)
    cases serving : AMap.find s.dev.cv.serving u.val with
    | none =>
      rw [Dev.cvApplyClaim_waits (Dev.cvClaim_wf_same _ _ true) serving] at written
      exact ⟨_, written, (Dev.cvClaim_wf_claimed _ _ _).trans (Dev.cvClaim_wf_same _ _ true), onlyRegs_wf_wf s _ _ _ _ _,
        Dev.cvClaimed_wf_same _ _ true⟩
    | some j =>
      have waits : (s.dev.wf (Reg.CV_Un_SEL u.val) Fld.CV_Un_SEL.CLAIM (b2n true)).cvApplyClaim u.val
          = s.dev.wf (Reg.CV_Un_SEL u.val) Fld.CV_Un_SEL.CLAIM (b2n true) := by
        rw [Dev.cvApplyClaim, Dev.wf_cv, serving, Option.isNone_some, Bool.and_false]
        rfl
      rw [waits] at written
      exact ⟨_, written, Dev.cvClaim_wf_same _ _ true, onlyRegs_wf s _ _ _, Dev.cvClaimed_wf_claim _ _ _⟩
  case release =>
    intro u s
    have released := exec_claim_off (u := u) (s := s)
    refine ⟨fun stays => ?stays, fun k rest waiting idle => ?oldest⟩
    case stays =>
      have stays : (s.dev.cvReleased u.val).cvNext u.val = s.dev.cvReleased u.val :=
        stays.elim (fun empty => Dev.cvNext_empty empty) fun serving => Dev.cvNext_busy (Dev.cvIdle_of_serving serving)
      rw [stays] at released
      exact ⟨_, released, Dev.cvClaim_cvReleased _ _, Dev.cvClaimed_cvReleased _ _, onlyRegs_wf_wf s _ _ _ _ _⟩
    case oldest =>
      rw [Dev.cvNext_oldest (Dev.cvIdle_of_free (Dev.cvClaim_cvReleased _ _) (Dev.cvClaimed_cvReleased _ _) idle)
        waiting] at released
      refine ⟨_, released, ⟨rfl, rfl⟩, ?_, ?_, Dev.serving_cvLoad _ _ _, rfl⟩
      · rw [Dev.cvClaim_cvLoad, Dev.cvClaim_withCv, Dev.cvClaim_cvReleased]
      · rw [Dev.cvClaimed_cvLoad, Dev.cvClaimed_withCv, Dev.cvClaimed_cvReleased]
  case start =>
    intro u s claimed
    exact ⟨_, exec_cvStart claimed, Dev.value_cvShow _ _ _ _ _, Dev.count_cvShow _ _ _ _ _, rfl,
      fun a other => Dev.reg_cvShow_ne _ _ _ _ _ other⟩
  case data =>
    intro u v s claimed
    refine ⟨_, exec_cvData claimed v, ?value, Dev.reg64_setReg64_same _ _ _, rfl, fun a other => ?others⟩
    case value =>
      exact (Dev.reg64_setReg64_ne _ _ (.inr (CV_VAL_before_CNT u.val))).trans (Dev.reg64_setReg64_same _ _ _)
    case others =>
      simp only [List.mem_cons, List.not_mem_nil, or_false, not_or] at other
      obtain ⟨notVal, notValHi, notCnt, notCntHi⟩ := other
      exact (Dev.reg_setReg64_ne _ _ notCnt notCntHi).trans (Dev.reg_setReg64_ne _ _ notVal notValHi)
  case high =>
    intro u v s claimed
    refine ⟨⟨_, exec_cvValHi v claimed, ⟨rfl, rfl⟩, ?value⟩, ⟨_, exec_cvCntHi v claimed, ⟨rfl, rfl⟩,
      Dev.reg64_applyHigh _ _ v.isLt⟩⟩
    have low := s.dev.heldLow_lt (Reg.CV_Un_VAL_LO u.val)
    have word := v.isLt
    refine (Dev.reg64_setReg64_same _ _ _).trans (Nat.mod_eq_of_lt ((Nat.mod_le _ _).trans_lt ?_))
    omega
  case locked =>
    intro c u v s kinds unclaimed
    simp only [List.mem_cons, List.not_mem_nil, or_false] at kinds
    obtain rfl | rfl | rfl := kinds
    · exact cvLocked_ignores (exec_cvStart_unclaimed unclaimed) rfl
    · exact cvLocked_ignores (exec_cvValHi_unclaimed unclaimed v) rfl
    · exact cvLocked_ignores (exec_cvCntHi_unclaimed unclaimed v) rfl

end Machine
end Sys2Proof
end

section
/-!
PROOFS. The timebase (O56): measurements and their source, compare units, event inputs and the carry into the seconds.
-/
namespace Sys2Proof
namespace Machine

/-- A compare unit may fire: it is enabled, and has not fired for its target yet (R394). -/
structure Dev.CmpArmed (d : Dev) (n : Nat) : Prop where
  enabled : d.rf (Reg.TB_CMPn_CTRL n) Fld.TB_CMPn_CTRL.EN = 1
  ready : bit d.sync.cmpDone n = false

/-! ### Counts, in fields and bits -/

/-- A counter counted under a condition. -/
theorem Dev.reg_cnt_if (d : Dev) (a : Nat) (c : Prop) [Decidable c] :
    (if c then d.cnt a 1 else d).reg a = satAdd 32 (d.reg a) (if c then 1 else 0) := by
  split
  next => exact d.reg_cnt a 1
  next =>
    have word := d.reg_lt a
    unfold satAdd
    omega

/-- Setting the bit of a unit sets it, whatever the word held. -/
theorem bit_setBits_one (v i : Nat) : bit (setBits v i i 1) i = true := bit_setBits_same v i 1

theorem bit_setBits_zero (v i : Nat) : bit (setBits v i i 0) i = false := bit_setBits_same v i 0

/-- A flag of one bit that reads 1. -/
theorem Dev.rfB_of_one {d : Dev} {a : Nat} {f : Fd} (one : d.rf a f = 1) : d.rfB a f = true := by
  rw [Dev.rfB, one]
  rfl

theorem Dev.rfB_of_zero {d : Dev} {a : Nat} {f : Fd} (zero : d.rf a f = 0) : d.rfB a f = false := by
  rw [Dev.rfB, zero]
  rfl

/-! ### A step of the timebase (R390, R392, R393) -/

section Step
variable (d : Dev)

@[simp] theorem Dev.tb_cnt (a n : Nat) : (d.cnt a n).tb = d.tb := by rw [d.cnt_frame]
@[simp] theorem Dev.tb_setReg64 (a v : Nat) : (d.setReg64 a v).tb = d.tb := rfl
theorem Dev.sync_setReg64 (a v : Nat) : (d.setReg64 a v).sync = d.sync := rfl
@[simp] theorem Dev.tb_modCe (f : CeSt → CeSt) : (d.modCe f).tb = d.tb := rfl
@[simp] theorem Dev.tb_ceAim (t : Nat) : (d.ceAim t).tb = d.tb := by rw [Dev.ceAim, Dev.tb_setReg64, Dev.tb_modCe]

@[simp] theorem Dev.tb_release (n : Nat) : (d.release n).tb = d.tb := by
  unfold Dev.release
  split
  · rfl
  · split
    · exact d.tb_cnt _ _
    · rfl

/-- The engine's frames realigned: the counter stays. -/
@[simp] theorem Dev.tb_ceRealign (theta : Int) : (d.ceRealign theta).tb = d.tb := by
  unfold Dev.ceRealign
  split
  · rfl
  · split
    · simp only [Dev.tb_cnt, Dev.tb_ceAim, Dev.tb_modCe]
    · dsimp only
      split
      · simp only [Dev.tb_ceAim, Dev.tb_modCe]
      · simp only [Dev.tb_cnt, Dev.tb_ceAim, Dev.tb_modCe]

/-- A step moves the counter and, beside it, only what hangs on the counter. -/
theorem Dev.tb_tbStep (theta : Int) : (d.tbStep theta).tb = d.tb.move theta := by
  unfold Dev.tbStep
  dsimp only
  rw [Dev.tb_ceRealign]
  refine (foldl_keeps Dev.tb (fun n _ e => ?_) _).trans ?_
  · split
    · exact Dev.tb_release _ _
    · rfl
  · exact Dev.tb_cnt _ _ _

end Step

/-! ### States of the timebase (R389) -/

/-- The state written is one of the four. -/
theorem Dev.tbState_setTbState (d : Dev) {v : Nat} (code : v < 4) : (d.setTbState v).tbState = v :=
  (Dev.rf_wf_same _ _ _).trans (Nat.mod_eq_of_lt code)

theorem Dev.tbState_congr {d e : Dev} (same : d.regs = e.regs) : d.tbState = e.tbState := by
  rw [Dev.tbState, Dev.rf, Dev.reg_congr same, Dev.tbState, Dev.rf]

theorem TB_CNT_k_ne_STAT (k : Nat) : Reg.TB_CNT_k k ≠ Reg.TB_STAT := by
  unfold Reg.TB_CNT_k Reg.TB_STAT
  omega

/-- The device of a timebase that has taken its first measurement. -/
def Dev.firstMeasured (d : Dev) (theta : Int) : Dev := ((d.setOffset theta).tbStep theta).setTbState tbAcquiring

theorem Dev.tb_firstMeasured (d : Dev) (theta : Int) : (d.firstMeasured theta).tb = d.tb.move theta := by
  rw [Dev.firstMeasured, Dev.setTbState, Dev.wf_tb, Dev.tb_tbStep, Dev.setOffset, Dev.setReg_tb]

theorem Dev.tbState_firstMeasured (d : Dev) (theta : Int) : (d.firstMeasured theta).tbState = tbAcquiring :=
  Dev.tbState_setTbState _ (by decide)

/-- What the servo keeps between measurements stands in no register and not in the counter. -/
theorem Dev.tb_withSync (d : Dev) (x : SyncSt) : ({ d with sync := x } : Dev).tb = d.tb := rfl
theorem Dev.tbState_withSync (d : Dev) (x : SyncSt) : ({ d with sync := x } : Dev).tbState = d.tbState := Dev.tbState_congr rfl
theorem Dev.reg_withSync (d : Dev) (x : SyncSt) (a : Nat) : ({ d with sync := x } : Dev).reg a = d.reg a := Dev.reg_congr rfl a
theorem Dev.reg64_withSync (d : Dev) (x : SyncSt) (a : Nat) : ({ d with sync := x } : Dev).reg64 a = d.reg64 a := by
  rw [Dev.reg64, Dev.reg_withSync d x a, Dev.reg_withSync d x (a + 4), Dev.reg64]

theorem Dev.measure_free {d : Dev} (free : d.tbState = tbFree) (m : Measurement) : d.measure m
    = { d.firstMeasured m.theta with sync := { (d.firstMeasured m.theta).sync with good := 0, wide := 0 } } := by
  rw [Dev.measure]
  exact if_pos free

theorem Dev.tbState_tbHold (d : Dev) : d.tbHold.tbState = tbHoldover := by
  have regs : d.tbHold.regs = ((d.setTbState tbHoldover).cnt (Reg.TB_CNT_k 1) 1).regs := rfl
  rw [Dev.tbState_congr regs, Dev.tbState, Dev.rf, Dev.reg_cnt_ne _ _ (TB_CNT_k_ne_STAT 1).symm]
  exact d.tbState_setTbState (by decide)

theorem Dev.holdovers_tbHold (d : Dev) : d.tbHold.reg (Reg.TB_CNT_k 1) = satAdd 32 (d.reg (Reg.TB_CNT_k 1)) 1 := by
  have regs : d.tbHold.regs = ((d.setTbState tbHoldover).cnt (Reg.TB_CNT_k 1) 1).regs := rfl
  rw [Dev.reg_congr regs, Dev.reg_cnt, Dev.setTbState, Dev.reg_wf_ne _ _ _ (TB_CNT_k_ne_STAT 1)]

theorem Dev.tb_tbHold (d : Dev) : d.tbHold.tb = d.tb := Dev.tb_cnt _ _ _

section Restep
variable (d : Dev)

theorem Dev.regs_restep : d.restep.regs = ((d.setTbState tbFree).wf Reg.TB_STAT Fld.TB_STAT.STEPPED 0).regs := by
  rw [Dev.restep]

theorem Dev.tbState_restep : d.restep.tbState = tbFree := by
  rw [Dev.tbState_congr d.regs_restep, Dev.tbState, Dev.rf_wf_field _ _ _]
  exact d.tbState_setTbState (by decide)

theorem Dev.stepped_restep : d.restep.rf Reg.TB_STAT Fld.TB_STAT.STEPPED = 0 := by
  rw [Dev.rf, Dev.reg_congr d.regs_restep]
  exact Dev.rf_wf_same _ _ _

theorem Dev.reg_restep_ne {a : Nat} (other : a ≠ Reg.TB_STAT) : d.restep.reg a = d.reg a := by
  rw [Dev.reg_congr d.regs_restep, Dev.reg_wf_ne _ _ _ other, Dev.setTbState, Dev.reg_wf_ne _ _ _ other]

theorem Dev.tb_restep : d.restep.tb = d.tb := by
  rw [Dev.restep]
  rfl

end Restep

section Source
variable {s : State}

theorem exec_tbMeasurement (source : s.dev.tbSource = 1) (m : Measurement) :
    Safety.givesDev (.tbMeasurement m) s (s.dev.measure m) := by
  have hd : exec (.tbMeasurement m) s = execTbMeasurement m s := rfl
  rw [Safety.givesDev, hd, execTbMeasurement, runDev_eq, if_pos source]

theorem exec_tbMeasurement_noMac (noMac : s.dev.tbSource ≠ 1) (m : Measurement) :
    Safety.givesDev (.tbMeasurement m) s s.dev := by
  have hd : exec (.tbMeasurement m) s = execTbMeasurement m s := rfl
  rw [Safety.givesDev, hd, execTbMeasurement, runDev_eq, if_neg noMac]

theorem exec_tbSourceTimeout (follows : s.dev.tbState = tbAcquiring ∨ s.dev.tbState = tbLocked) :
    Safety.givesDev .tbSourceTimeout s s.dev.tbHold := by
  have hd : exec .tbSourceTimeout s = execTbSourceTimeout s := rfl
  rw [Safety.givesDev, hd, execTbSourceTimeout, runDev_eq, if_pos (by simpa using follows)]

theorem exec_tbSourceTimeout_noSource (follows : s.dev.tbState = tbFree ∨ s.dev.tbState = tbHoldover) :
    Safety.givesDev .tbSourceTimeout s s.dev := by
  have hd : exec .tbSourceTimeout s = execTbSourceTimeout s := rfl
  have notFollowing : ¬(s.dev.tbState = tbAcquiring ∨ s.dev.tbState = tbLocked) := by
    rcases follows with state | state <;> rw [state] <;> decide
  rw [Safety.givesDev, hd, execTbSourceTimeout, runDev_eq, if_neg (by simpa using notFollowing)]

theorem exec_restep (s : State) : Safety.givesDev .restep s s.dev.restep := rfl

end Source

/-! ### Compare units (R394 to R396) -/

/-- Counting on to a stamp changes the timebase and the rise of TB_PPS_OUT, and nothing else. -/
theorem Dev.reach_frame (d : Dev) (stamp : Nat) : ∃ tb rise, d.reach stamp
    = { d with tb := tb, sync := { d.sync with ppsRise := rise } } := by
  unfold Dev.reach
  dsimp only
  split
  · unfold Dev.countTo
    split
    · exact ⟨_, d.sync.ppsRise, rfl⟩
    · exact ⟨_, _, rfl⟩
  · exact ⟨d.tb, d.sync.ppsRise, rfl⟩

theorem Dev.cmpRises_frame (d : Dev) (n : Nat) : ∃ rises, d.cmpRises n
    = { d with sync := { d.sync with cmpRise := rises } } := by
  unfold Dev.cmpRises
  split
  · exact ⟨_, rfl⟩
  · exact ⟨d.sync.cmpRise, rfl⟩

/-- A stamp is read from the counter alone. -/
theorem Dev.stamp_congr {d e : Dev} (same : d.tb = e.tb) : d.stamp = e.stamp := by
  rw [Dev.stamp, same, Dev.stamp]

theorem TB_CMPn_CTRL_ne_FIRED (n : Nat) : Reg.TB_CMPn_CTRL n ≠ Reg.TB_CMP_FIRED := by
  unfold Reg.TB_CMPn_CTRL Reg.TB_CMP_FIRED
  omega

theorem TB_CMP_FIRED_before_target (n : Nat) : Reg.TB_CMP_FIRED < Reg.TB_CMPn_LO n := by
  unfold Reg.TB_CMPn_LO Reg.TB_CMP_FIRED
  omega

/-- The device at the target of a compare unit that fires there, its FIRED bit set. -/
def Dev.cmpFired (d : Dev) (n : Nat) : Dev :=
  let d := (d.reach (d.reg64 (Reg.TB_CMPn_LO n))).cmpRises n
  d.setReg Reg.TB_CMP_FIRED (setBits (d.reg Reg.TB_CMP_FIRED) n n 1)

section Fired
variable (d : Dev) (n : Nat)

theorem Dev.cmpFired_frame : ∃ tb rises rise, (d.reach (d.reg64 (Reg.TB_CMPn_LO n))).tb = tb ∧ d.cmpFired n
    = { d with
        regs := (d.setReg Reg.TB_CMP_FIRED (setBits (d.reg Reg.TB_CMP_FIRED) n n 1)).regs
        tb := tb
        sync := { d.sync with cmpRise := rises, ppsRise := rise } } := by
  obtain ⟨tb, rise, reached⟩ := d.reach_frame (d.reg64 (Reg.TB_CMPn_LO n))
  obtain ⟨rises, rose⟩ := (d.reach (d.reg64 (Reg.TB_CMPn_LO n))).cmpRises_frame n
  refine ⟨tb, rises, rise, by rw [reached], ?_⟩
  rw [Dev.cmpFired, rose, reached]
  rfl

theorem Dev.cmpDone_cmpFired : (d.cmpFired n).sync.cmpDone = d.sync.cmpDone := by
  obtain ⟨tb, rises, rise, -, fired⟩ := d.cmpFired_frame n
  rw [fired]

theorem Dev.stamp_cmpFired : (d.cmpFired n).stamp = (d.reach (d.reg64 (Reg.TB_CMPn_LO n))).stamp := by
  obtain ⟨tb, rises, rise, reached, fired⟩ := d.cmpFired_frame n
  exact Dev.stamp_congr (by rw [fired, reached])

theorem Dev.reg_cmpFired (a : Nat) : (d.cmpFired n).reg a
    = (d.setReg Reg.TB_CMP_FIRED (setBits (d.reg Reg.TB_CMP_FIRED) n n 1)).reg a := by
  obtain ⟨tb, rises, rise, -, fired⟩ := d.cmpFired_frame n
  exact Dev.reg_congr (by rw [fired]) a

theorem Dev.reg_cmpFired_ne {a : Nat} (other : a ≠ Reg.TB_CMP_FIRED) : (d.cmpFired n).reg a = d.reg a := by
  rw [Dev.reg_cmpFired, Dev.reg_setReg_ne _ _ other]

theorem Dev.bit_cmpFired (unit : n < 32) : bit ((d.cmpFired n).reg Reg.TB_CMP_FIRED) n = true := by
  rw [Dev.reg_cmpFired, Dev.reg_setReg_same, Nat.mod_eq_of_lt (setBits_lt 1 (d.reg_lt _) unit le_rfl), bit_setBits_one]

theorem Dev.cmpPeriod_cmpFired : (d.cmpFired n).cmpPeriod n = d.cmpPeriod n := by
  rw [Dev.cmpPeriod, Dev.rf, d.reg_cmpFired_ne n (TB_CMPn_CTRL_ne_FIRED n), Dev.cmpPeriod, Dev.rf]

end Fired

theorem Dev.cmpPeriod_oneShot {d : Dev} {n : Nat} (oneShot : d.rf (Reg.TB_CMPn_CTRL n) Fld.TB_CMPn_CTRL.PERIOD = 0) :
    d.cmpPeriod n = 0 := by
  rw [Dev.cmpPeriod, oneShot]
  rfl

theorem Dev.cmpPeriod_periodic {d : Dev} {n : Nat} (periodic : d.rf (Reg.TB_CMPn_CTRL n) Fld.TB_CMPn_CTRL.PERIOD ≠ 0) :
    d.cmpPeriod n ≠ 0 := by
  rw [Dev.cmpPeriod, if_neg periodic]
  omega

section Fire
variable {n : Fin 8} {s : State}

theorem exec_cmpFire_not
    (unready : s.dev.rf (Reg.TB_CMPn_CTRL n.val) Fld.TB_CMPn_CTRL.EN = 0 ∨ bit s.dev.sync.cmpDone n.val = true) :
    Safety.givesDev (.cmpFire n) s s.dev := by
  have hd : exec (.cmpFire n) s = execCmpFire n s := rfl
  rw [Safety.givesDev, hd, execCmpFire, runDev_eq]
  exact congrArg (fun d => Host.Outcome.next ({ s with dev := d } : State)) (if_pos (by simpa [Dev.rfB] using unready))

variable (armed : s.dev.CmpArmed n.val)
include armed

theorem exec_cmpFire_oneShot (oneShot : s.dev.rf (Reg.TB_CMPn_CTRL n.val) Fld.TB_CMPn_CTRL.PERIOD = 0) :
    Safety.givesDev (.cmpFire n) s { s.dev.cmpFired n.val with sync := { (s.dev.cmpFired n.val).sync with
      cmpDone := setBits (s.dev.cmpFired n.val).sync.cmpDone n.val n.val 1 } } := by
  have hd : exec (.cmpFire n) s = execCmpFire n s := rfl
  have period : (s.dev.cmpFired n.val).cmpPeriod n.val = 0 :=
    (s.dev.cmpPeriod_cmpFired n.val).trans (Dev.cmpPeriod_oneShot oneShot)
  rw [Safety.givesDev, hd, execCmpFire, runDev_eq]
  simp only [Dev.rfB_of_one armed.enabled, armed.ready, Bool.not_true, Bool.or_self, Bool.false_eq_true, if_false]
  exact congrArg (fun d => Host.Outcome.next ({ s with dev := d } : State)) (if_pos period)

theorem exec_cmpFire_periodic (periodic : s.dev.rf (Reg.TB_CMPn_CTRL n.val) Fld.TB_CMPn_CTRL.PERIOD ≠ 0)
    (ahead : stampDiff (s.dev.reach (s.dev.reg64 (Reg.TB_CMPn_LO n.val))).stamp
      (stampMove (s.dev.reg64 (Reg.TB_CMPn_LO n.val)) (s.dev.cmpPeriod n.val)) < 0) :
    Safety.givesDev (.cmpFire n) s ((s.dev.cmpFired n.val).setReg64 (Reg.TB_CMPn_LO n.val)
      (stampMove (s.dev.reg64 (Reg.TB_CMPn_LO n.val)) (s.dev.cmpPeriod n.val))) := by
  have hd : exec (.cmpFire n) s = execCmpFire n s := rfl
  have period := s.dev.cmpPeriod_cmpFired n.val
  have still : (s.dev.cmpFired n.val).cmpPeriod n.val ≠ 0 := period ▸ Dev.cmpPeriod_periodic periodic
  rw [← s.dev.stamp_cmpFired n.val, ← period] at ahead
  rw [Safety.givesDev, hd, execCmpFire, runDev_eq, ← period]
  simp only [Dev.rfB_of_one armed.enabled, armed.ready, Bool.not_true, Bool.or_self, Bool.false_eq_true, if_false]
  exact congrArg (fun d => Host.Outcome.next ({ s with dev := d } : State)) ((if_neg still).trans (if_pos ahead))

end Fire

/-! ### Targets, events and the carry (R394, R396, R397) -/

theorem exec_cmpTargetWrite (n : Fin 8) (v : Word) (s : State) : Safety.givesDev (.cmpTargetWrite n v) s
    ((s.dev.applyHigh (Reg.TB_CMPn_LO n.val) v.toNat).cmpRearm n.val) := rfl

/-- The device that has counted an event which replaces an unread one. -/
def Dev.evtCounted (d : Dev) (n : Nat) : Dev := if bit d.sync.evtUnread n then d.cnt (Reg.TB_CNT_k 3) 1 else d

theorem Dev.stamp_evtCounted (d : Dev) (n : Nat) : (d.evtCounted n).stamp = d.stamp := by
  refine Dev.stamp_congr ?_
  unfold Dev.evtCounted
  split
  · exact d.tb_cnt _ _
  · rfl

theorem exec_evtIn (n : Fin 4) (s : State) : Safety.givesDev (.evtIn n) s
    { (s.dev.evtCounted n.val).setReg64 (Reg.TB_EVTn_LO n.val) (s.dev.evtCounted n.val).stamp with
      sync := { (s.dev.evtCounted n.val).sync with
        evtUnread := setBits (s.dev.evtCounted n.val).sync.evtUnread n.val n.val 1 } } := rfl

theorem TB_CNT_k_before_EVT (n : Nat) : Reg.TB_CNT_k 3 < Reg.TB_EVTn_LO n := by
  unfold Reg.TB_CNT_k Reg.TB_EVTn_LO
  omega

/-- A carry into the seconds is a change of the seconds. -/
theorem succ_mod_ne (sec : Nat) : (sec + 1) % 2 ^ 48 ≠ sec := by omega

/-- Settles O56: a measurement and a lost source by the state they leave, a compare unit by its FIRED bit and its target, an
event by its stamp, and the carry by the change of the seconds. -/
theorem timebaseFollowsAndFires : Obligations.TimebaseFollowsAndFires := by
  unfold Obligations.TimebaseFollowsAndFires
  refine ⟨?first, fun m s source => exec_tbMeasurement source m, fun m s noMac => exec_tbMeasurement_noMac noMac m,
    fun s => ⟨?lost, exec_tbSourceTimeout_noSource⟩, ?restep, ?oneShot, ?periodic, fun n s => exec_cmpFire_not, ?target,
    ?event, ?carry⟩
  case first =>
    intro m s source free
    refine ⟨_, exec_tbMeasurement source m, ⟨rfl, rfl⟩, ?_⟩
    rw [Dev.measure_free free]
    exact ⟨(Dev.tb_withSync _ _).trans (s.dev.tb_firstMeasured _),
      (Dev.tbState_withSync _ _).trans (s.dev.tbState_firstMeasured _)⟩
  case lost =>
    exact fun follows => ⟨_, exec_tbSourceTimeout follows, ⟨rfl, rfl⟩,
      s.dev.tbState_tbHold, s.dev.holdovers_tbHold, s.dev.tb_tbHold⟩
  case restep =>
    intro s
    exact ⟨_, exec_restep s, ⟨rfl, rfl⟩, s.dev.tbState_restep, s.dev.stepped_restep, s.dev.tb_restep,
      fun a other => s.dev.reg_restep_ne other⟩
  case oneShot =>
    intro n s enabled ready oneShot
    refine ⟨_, exec_cmpFire_oneShot ⟨enabled, ready⟩ oneShot, ⟨rfl, rfl⟩, ?fired, bit_setBits_one _ _,
      fun a other => ?others⟩
    case fired =>
      rw [Dev.reg_withSync]
      exact s.dev.bit_cmpFired n.val (by omega)
    case others =>
      rw [Dev.reg_withSync]
      exact s.dev.reg_cmpFired_ne n.val other
  case periodic =>
    intro n s enabled ready periodic ahead
    have below := TB_CMP_FIRED_before_target n.val
    refine ⟨_, exec_cmpFire_periodic ⟨enabled, ready⟩ periodic ahead, ⟨rfl, rfl⟩, ?fired,
      Dev.reg64_setReg64_same _ _ _, ?ready⟩
    case ready => rw [Dev.sync_setReg64, Dev.cmpDone_cmpFired]
    case fired =>
      rw [Dev.reg_setReg64_ne _ _ (by omega) (by omega)]
      exact s.dev.bit_cmpFired n.val (by omega)
  case target =>
    exact fun n v s => ⟨_, exec_cmpTargetWrite n v s, ⟨rfl, rfl⟩, Dev.reg64_applyHigh _ _ v.isLt, bit_setBits_zero _ _⟩
  case event =>
    intro n s
    have below := TB_CNT_k_before_EVT n.val
    refine ⟨_, exec_evtIn n s, ⟨rfl, rfl⟩, ?stamped, bit_setBits_one _ _, ?counted⟩
    case stamped =>
      rw [Dev.reg64_withSync, Dev.reg64_setReg64_same, Dev.stamp_evtCounted]
    case counted =>
      rw [Dev.reg_withSync, Dev.reg_setReg64_ne _ _ (by omega) (by omega)]
      exact s.dev.reg_cnt_if _ _
  case carry =>
    intro s
    have counted : Safety.givesDev .carryIntoSeconds s (s.dev.countTo _) := rfl
    rw [Dev.countTo, if_neg (succ_mod_ne s.dev.tb.sec)] at counted
    exact ⟨_, counted, ⟨rfl, rfl⟩, rfl, rfl, rfl⟩

end Machine
end Sys2Proof
end

section
/-!
PROOFS. A step with no command waiting (O2), and the commands that clear the counters of the interfaces (O7).
-/
namespace Sys2Proof
namespace Machine

/-! ### A step with no command waiting (log 53) -/

theorem idle_pending (s : State) : (idle s).pending = s.pending := by
  unfold idle
  split <;> rfl

theorem idle_off {s : State} (off : s.dev.boot.phase = .off) : idle s = s := by
  unfold idle
  rw [off]

theorem step_nil {s : State} (noCommand : s.pending = []) : step s = .next (idle s) := by
  rw [step, noCommand]

/-- Settles O2: one Summit cycle passes, which the timebase counts once the block has power. -/
theorem emptyQueueIdles : Obligations.EmptyQueueIdles := by
  unfold Obligations.EmptyQueueIdles
  exact fun s noCommand => ⟨_, step_nil noCommand, ⟨idle_pending s, idle_mem s⟩, idle_off⟩

/-! ### Counters cleared (R415, R479, R515, R572, R596) -/

/-- PWR_MEAS stands before the counters. -/
theorem PWR_MEAS_notMem_counters : Reg.PWR_MEAS ∉ pwrCounters := by decide

section Power
variable (d : Dev)

theorem Dev.pwrCntClr_frame : d.pwrCntClr = { d with regs := d.pwrCntClr.regs } := by
  rw [Dev.pwrCntClr, d.clearRegs_frame]
  rfl

theorem Dev.reg_pwrCntClr {a : Nat} (other : a ≠ Reg.PWR_MEAS) :
    d.pwrCntClr.reg a = if a ∈ pwrCounters then 0 else d.reg a := by
  rw [Dev.pwrCntClr, Dev.reg_wf_ne _ _ _ other, Dev.reg_clearRegs]

theorem Dev.avg_pwrCntClr : d.pwrCntClr.rf Reg.PWR_MEAS Fld.PWR_MEAS.AVG = d.rf Reg.PWR_MEAS Fld.PWR_MEAS.AVG := by
  rw [Dev.pwrCntClr, Dev.rf_wf_field _ _ _, Dev.rf, Dev.reg_clearRegs, if_neg PWR_MEAS_notMem_counters, Dev.rf]

end Power

theorem exec_pwrCntClr (s : State) : Safety.givesDev .pwrCntClr s s.dev.pwrCntClr := rfl

/-- Settles O7: each command clears the registers of its list, and PWR_CNT_CLR zeroes the field PEAK besides. -/
theorem interfaceCountersClear : Obligations.InterfaceCountersClear := by
  unfold Obligations.InterfaceCountersClear
  refine ⟨?timebase, fun m => ?macs, fun n => ?controllers, ?engine, ?safety, ?commands, fun s => ?power⟩
  case timebase => exact clears_of_exec_clearRegs (as := tbCounters) fun _ => rfl
  case macs => exact clears_of_exec_clearRegs (as := ethCounters m.val) fun _ => rfl
  case controllers => exact clears_of_exec_clearRegs (as := canCounters n.val) fun _ => rfl
  case engine => exact clears_of_exec_clearRegs (as := ceCounters) fun _ => rfl
  case safety => exact clears_of_exec_clearRegs (as := (List.range 12).map Reg.SAF_CNT_k) fun _ => rfl
  case commands => exact clears_of_exec_clearRegs (as := sdioCounters) fun _ => rfl
  case power =>
    refine ⟨_, exec_pwrCntClr s, fun k counter => ?zero, Dev.rf_wf_same _ _ _, s.dev.avg_pwrCntClr, ?frame,
      fun a unlisted => ?other⟩
    case zero =>
      have listed : Reg.PWR_CNT_k k ∈ pwrCounters := List.mem_map_of_mem (List.mem_range.mpr counter)
      rw [Dev.reg_pwrCntClr _ (ne_of_mem_of_not_mem listed PWR_MEAS_notMem_counters), if_pos listed]
    case frame => exact congrArg (fun d => ({ s with dev := d } : State)) s.dev.pwrCntClr_frame
    case other =>
      obtain ⟨notMeas, notCounter⟩ := not_or.mp (List.mem_cons.not.mp unlisted)
      exact (Dev.reg_pwrCntClr _ notMeas).trans (if_neg notCounter)

end Machine
end Sys2Proof
end

section
/-!
PROOFS. Error states of the CAN controllers (O58).
-/
namespace Sys2Proof
namespace Machine

/-! ### One controller -/

section Controller
variable (d : Dev)

@[simp] theorem Dev.can_modCan_same (n : Nat) (f : CanSt → CanSt) : (d.modCan n f).can n = f (d.can n) := by
  rw [Dev.can, Dev.modCan, AMap.getD_set_same]

theorem Dev.can_modCan_ne {n k : Nat} (f : CanSt → CanSt) (other : k ≠ n) : (d.modCan n f).can k = d.can k := by
  rw [Dev.can, Dev.modCan, AMap.getD_set_ne _ _ _ other, Dev.can]

@[simp] theorem Dev.reg_modCan (n a : Nat) (f : CanSt → CanSt) : (d.modCan n f).reg a = d.reg a := rfl
@[simp] theorem Dev.regs_modCan (n : Nat) (f : CanSt → CanSt) : (d.modCan n f).regs = d.regs := rfl
@[simp] theorem Dev.raised_modCan (n : Nat) (f : CanSt → CanSt) : (d.modCan n f).raised = d.raised := rfl
@[simp] theorem Dev.can_wf (a : Nat) (f : Fd) (v n : Nat) : (d.wf a f v).can n = d.can n := rfl
@[simp] theorem Dev.can_raise (c s k u x n : Nat) : (d.raise c s k u x).can n = d.can n := rfl
@[simp] theorem Dev.can_canCnt (n k j : Nat) : (d.canCnt n k).can j = d.can j := by
  rw [Dev.canCnt, Dev.cnt_frame]
  rfl
@[simp] theorem Dev.raised_canCnt (n k : Nat) : (d.canCnt n k).raised = d.raised := by rw [Dev.canCnt, Dev.cnt_frame]

/-- The registers of a controller in front of its counters: its settings and its state. -/
theorem Dev.reg_canCnt_before {n k a : Nat} (before : a < Reg.CAN_CNT_k n 0) : (d.canCnt n k).reg a = d.reg a := by
  refine d.reg_cnt_ne _ ?_
  unfold Reg.CAN_CNT_k at *
  omega

end Controller

theorem CAN_STAT_before_counters (n : Nat) : Reg.CAN_STAT n < Reg.CAN_CNT_k n 0 := by
  unfold Reg.CAN_STAT Reg.CAN_CNT_k
  omega

theorem CAN_CTRL_ne_STAT (n : Nat) : Reg.CAN_CTRL n ≠ Reg.CAN_STAT n := by
  unfold Reg.CAN_CTRL Reg.CAN_STAT
  omega

/-- The state of a controller hangs on its status register alone. -/
theorem Dev.canState_congr {d e : Dev} {n : Nat} (same : d.reg (Reg.CAN_STAT n) = e.reg (Reg.CAN_STAT n)) :
    d.canState n = e.canState n := by
  rw [Dev.canState, Dev.rf, same, Dev.canState, Dev.rf]

/-! ### What the status shows (R414) -/

/-- The device that shows an error state, and the counts given with it. -/
def Dev.canShow (d : Dev) (n state tec rec : Nat) : Dev :=
  ((d.wf (Reg.CAN_STAT n) Fld.CAN_STAT.ESTATE state).wf (Reg.CAN_STAT n) Fld.CAN_STAT.TEC tec).wf (Reg.CAN_STAT n)
    Fld.CAN_STAT.REC rec

/-- The device that shows bus-off: TEC stands at its limit, and REC stays. -/
def Dev.canShowOff (d : Dev) (n : Nat) : Dev :=
  (d.wf (Reg.CAN_STAT n) Fld.CAN_STAT.ESTATE 2).wf (Reg.CAN_STAT n) Fld.CAN_STAT.TEC 255

section Status
variable (d : Dev) (n state tec rec : Nat)

theorem Dev.canState_canShow (code : state < 4) : (d.canShow n state tec rec).canState n = state := by
  rw [Dev.canState, Dev.canShow, Dev.rf_wf_field _ _ _, Dev.rf_wf_field _ _ _, Dev.rf_wf_same _ _ _]
  exact Nat.mod_eq_of_lt code

theorem Dev.tec_canShow (byte : tec < 2 ^ 8) :
    (d.canShow n state tec rec).rf (Reg.CAN_STAT n) Fld.CAN_STAT.TEC = tec := by
  rw [Dev.canShow, Dev.rf_wf_field _ _ _, Dev.rf_wf_same _ _ _]
  exact Nat.mod_eq_of_lt byte

theorem Dev.rec_canShow (byte : rec < 2 ^ 8) :
    (d.canShow n state tec rec).rf (Reg.CAN_STAT n) Fld.CAN_STAT.REC = rec := by
  rw [Dev.canShow, Dev.rf_wf_same _ _ _]
  exact Nat.mod_eq_of_lt byte

@[simp] theorem Dev.raised_canShow : (d.canShow n state tec rec).raised = d.raised := by
  rw [Dev.canShow, Dev.wf_raised, Dev.wf_raised, Dev.wf_raised]

@[simp] theorem Dev.can_canShow (k : Nat) : (d.canShow n state tec rec).can k = d.can k := by
  rw [Dev.canShow, Dev.can_wf, Dev.can_wf, Dev.can_wf]

theorem Dev.canState_canShowOff : (d.canShowOff n).canState n = 2 := by
  rw [Dev.canState, Dev.canShowOff, Dev.rf_wf_field _ _ _, Dev.rf_wf_same _ _ _]
  rfl

theorem Dev.reg_canShowOff_ne {a : Nat} (other : a ≠ Reg.CAN_STAT n) : (d.canShowOff n).reg a = d.reg a := by
  rw [Dev.canShowOff, Dev.reg_wf_ne _ _ _ other, Dev.reg_wf_ne _ _ _ other]

@[simp] theorem Dev.raised_canShowOff : (d.canShowOff n).raised = d.raised := by
  rw [Dev.canShowOff, Dev.wf_raised, Dev.wf_raised]

end Status

/-! ### Error passive -/

section Passive
variable {n : Fin 4} {s : State} (tec rec : Byte) (on : s.dev.canOn n.val = true)
include on

theorem exec_errorPassive : Safety.givesDev (.errorPassive n tec rec) s (if s.dev.canState n.val ≠ 1 then
      (s.dev.canShow n.val 1 tec.toNat rec.toNat).raise 0 Src.CAN 0x0001 n.val (tec.toNat + rec.toNat * 2 ^ 8)
    else s.dev.canShow n.val 1 tec.toNat rec.toNat) := by
  have hd : exec (.errorPassive n tec rec) s = execErrorPassive n tec rec s := rfl
  rw [Safety.givesDev, hd, execErrorPassive, runDev_eq]
  exact congrArg (fun d => Host.Outcome.next ({ s with dev := d } : State)) (if_neg (by rw [on]; decide))

/-- One fault is raised as the controller enters error passive, and none while it is. -/
theorem exec_errorPassive_raises : ∃ d, Safety.givesDev (.errorPassive n tec rec) s d
    ∧ d.reg (Reg.CAN_STAT n.val) = (s.dev.canShow n.val 1 tec.toNat rec.toNat).reg (Reg.CAN_STAT n.val)
    ∧ d.raised = s.dev.raised ++ (if s.dev.canState n.val = 1 then []
      else [Safety.rec 0 Src.CAN 0x0001 n.val (tec.toNat + rec.toNat * 2 ^ 8)]) := by
  have shown := exec_errorPassive tec rec on
  have detail : (tec.toNat + rec.toNat * 2 ^ 8) % 2 ^ 64 = tec.toNat + rec.toNat * 2 ^ 8 := Nat.mod_eq_of_lt (by omega)
  by_cases passive : s.dev.canState n.val = 1
  · rw [if_neg (not_not.mpr passive)] at shown
    exact ⟨_, shown, rfl, by rw [if_pos passive, List.append_nil, Dev.raised_canShow]⟩
  · rw [if_pos passive] at shown
    exact ⟨_, shown, Dev.reg_raise _ _ _ _ _ _ _, by
      rw [if_neg passive, Dev.raise_raised, detail, Dev.raised_canShow, Safety.rec]⟩

end Passive

/-! ### Bus-off and the recovery -/

/-- The device of a controller that has gone off the bus. -/
def Dev.canGoesOff (d : Dev) (n : Nat) : Dev :=
  (((d.canShowOff n).modCan n (fun x => { x with
    recovering := (d.canShowOff n).rfB (Reg.CAN_CTRL n) Fld.CAN_CTRL.AUTO_REC })).canCnt n 5).raise 1 Src.CAN 0x0002 n 0

/-- The device of a controller that has recovered. -/
def Dev.canBack (d : Dev) (n : Nat) : Dev := (d.modCan n (fun x => { x with recovering := false })).canShow n 0 0 0

theorem exec_busOff {n : Fin 4} {s : State} (on : s.dev.canOn n.val = true) :
    Safety.givesDev (.busOff n) s (s.dev.canGoesOff n.val) := by
  have hd : exec (.busOff n) s = execBusOff n s := rfl
  rw [Safety.givesDev, hd, execBusOff, runDev_eq]
  exact congrArg (fun d => Host.Outcome.next ({ s with dev := d } : State)) (if_neg (by rw [on]; decide))

section GoesOff
variable (d : Dev) (n : Nat)

theorem Dev.canState_canGoesOff : (d.canGoesOff n).canState n = 2 := by
  refine (Dev.canState_congr ?_).trans (d.canState_canShowOff n)
  rw [Dev.canGoesOff, Dev.reg_raise, Dev.reg_canCnt_before _ (CAN_STAT_before_counters n), Dev.reg_modCan]

theorem Dev.raised_canGoesOff : (d.canGoesOff n).raised = d.raised ++ [Safety.rec 1 Src.CAN 0x0002 n 0] := by
  rw [Dev.canGoesOff, Dev.raise_raised, Dev.raised_canCnt, Dev.raised_modCan, Dev.raised_canShowOff, Nat.zero_mod, Safety.rec]

theorem Dev.busOffs_canGoesOff :
    (d.canGoesOff n).reg (Reg.CAN_CNT_k n 5) = satAdd 32 (d.reg (Reg.CAN_CNT_k n 5)) 1 := by
  have other : Reg.CAN_CNT_k n 5 ≠ Reg.CAN_STAT n := by
    unfold Reg.CAN_CNT_k Reg.CAN_STAT
    omega
  rw [Dev.canGoesOff, Dev.reg_raise, Dev.canCnt, Dev.reg_cnt, Dev.reg_modCan, d.reg_canShowOff_ne n other]

theorem Dev.recovering_canGoesOff :
    ((d.canGoesOff n).can n).recovering = d.rfB (Reg.CAN_CTRL n) Fld.CAN_CTRL.AUTO_REC := by
  rw [Dev.canGoesOff, Dev.can_raise, Dev.can_canCnt, Dev.can_modCan_same]
  exact Dev.rfB_congr (d.reg_canShowOff_ne n (CAN_CTRL_ne_STAT n)) _

end GoesOff

section Recovery
variable {n : Fin 4} {s : State} (isOff : s.dev.canState n.val = 2)
include isOff

theorem exec_canRecovered
    (runs : (s.dev.can n.val).recovering = true ∨ s.dev.rf (Reg.CAN_CTRL n.val) Fld.CAN_CTRL.AUTO_REC = 1) :
    Safety.givesDev (.canRecovered n) s (s.dev.canBack n.val) := by
  have hd : exec (.canRecovered n) s = execCanRecovered n s := rfl
  have counts : ((s.dev.can n.val).recovering || s.dev.rfB (Reg.CAN_CTRL n.val) Fld.CAN_CTRL.AUTO_REC) = true :=
    Bool.or_eq_true_iff.mpr (runs.imp_right Dev.rfB_of_one)
  rw [Safety.givesDev, hd, execCanRecovered, runDev_eq]
  exact congrArg (fun d => Host.Outcome.next ({ s with dev := d } : State)) (if_neg (by simp [isOff, counts]))

theorem exec_canRecovered_waits (stands : (s.dev.can n.val).recovering = false)
    (noAuto : s.dev.rf (Reg.CAN_CTRL n.val) Fld.CAN_CTRL.AUTO_REC = 0) : Safety.givesDev (.canRecovered n) s s.dev := by
  have hd : exec (.canRecovered n) s = execCanRecovered n s := rfl
  rw [Safety.givesDev, hd, execCanRecovered, runDev_eq]
  exact congrArg (fun d => Host.Outcome.next ({ s with dev := d } : State))
    (if_pos (by simp [isOff, stands, Dev.rfB_of_zero noAuto]))

theorem exec_recover :
    Safety.givesDev (.recover n) s (s.dev.modCan n.val (fun x => { x with recovering := true })) := by
  have hd : exec (.recover n) s = execRecover n s := rfl
  rw [Safety.givesDev, hd, execRecover, runDev_eq, Dev.canRecover, if_pos isOff]

end Recovery

/-- Settles O58: each event by the status it shows, the fault it raises and what it leaves of the recovery. -/
theorem canErrorStates : Obligations.CanErrorStates := by
  unfold Obligations.CanErrorStates
  refine ⟨?passive, ?busOff, fun n s isOff => ⟨?recovers, exec_canRecovered_waits isOff, ?recover⟩⟩
  case passive =>
    intro n tec rec s on
    obtain ⟨d, shown, status, raised⟩ := exec_errorPassive_raises tec rec on
    refine ⟨_, shown, ⟨rfl, rfl⟩, ?state, ?tec, ?rec, raised⟩
    case state => rw [Dev.canState_congr status, Dev.canState_canShow _ _ _ _ _ (by decide)]
    case tec => rw [Dev.rf, status, ← Dev.rf, Dev.tec_canShow _ _ _ _ _ tec.isLt]
    case rec => rw [Dev.rf, status, ← Dev.rf, Dev.rec_canShow _ _ _ _ _ rec.isLt]
  case busOff =>
    exact fun n s on => ⟨_, exec_busOff on, ⟨rfl, rfl⟩, s.dev.canState_canGoesOff n.val, s.dev.raised_canGoesOff n.val,
      s.dev.busOffs_canGoesOff n.val, s.dev.recovering_canGoesOff n.val⟩
  case recovers =>
    refine fun runs => ⟨_, exec_canRecovered isOff runs, ⟨rfl, rfl⟩, Dev.canState_canShow _ _ _ _ _ (by decide), ?_⟩
    rw [Dev.canBack, Dev.can_canShow, Dev.can_modCan_same]
  case recover =>
    refine ⟨_, exec_recover isOff, ⟨rfl, rfl⟩, ?_, Dev.regs_modCan _ _ _⟩
    rw [Dev.can_modCan_same]

end Machine
end Sys2Proof
end

section
/-!
PROOFS. The Ethernet MACs and the CAN controllers' frames (O57): what a MAC receives and sends, its gate list, role and link,
and what a controller receives and sends.
-/
namespace Sys2Proof
namespace Machine

/-- The longest frame that a MAC receives (R399). -/
def Dev.longestFrame (d : Dev) (m : Nat) : Nat := if d.ethRfB m Fld.ETH_CTRL.JUMBO then 9018 else 1518

/-- A MAC whose link is up receives the frame `bs`: its length is one that R399 allows. -/
structure Dev.EthReceives (d : Dev) (m : Nat) (bs : List Byte) : Prop where
  up : d.macUp m = true
  low : 60 ≤ bs.length
  high : bs.length ≤ d.longestFrame m

/-! ### One MAC -/

section OneMac
variable (d : Dev)

@[simp] theorem Dev.mac_modMac_same (m : Nat) (f : MacSt → MacSt) : (d.modMac m f).mac m = f (d.mac m) := by
  rw [Dev.mac, Dev.modMac, Dev.setMac, AMap.getD_set_same]

@[simp] theorem Dev.reg_modMac (m a : Nat) (f : MacSt → MacSt) : (d.modMac m f).reg a = d.reg a := rfl

@[simp] theorem Dev.mac_ethCnt (m k j : Nat) : (d.ethCnt m k).mac j = d.mac j := by
  rw [Dev.ethCnt, Dev.cnt_frame]
  rfl

@[simp] theorem Dev.tb_ethCnt (m k : Nat) : (d.ethCnt m k).tb = d.tb := Dev.tb_cnt _ _ _

theorem Dev.reg_ethCnt (m k : Nat) : (d.ethCnt m k).reg (Reg.ETH_CNT_k m k) = satAdd 32 (d.reg (Reg.ETH_CNT_k m k)) 1 :=
  d.reg_cnt _ 1

/-- The registers of a MAC in front of its counters: its settings. -/
theorem Dev.reg_ethCnt_before {m k a : Nat} (before : a < Reg.ETH_CNT_k m 0) : (d.ethCnt m k).reg a = d.reg a := by
  refine d.reg_cnt_ne _ ?_
  unfold Reg.ETH_CNT_k at *
  omega

theorem ETH_settings_before_counters (m : Nat) : Reg.ETH_CTRL m < Reg.ETH_CNT_k m 0 ∧ Reg.ETH_LAT m < Reg.ETH_CNT_k m 0
    ∧ Reg.ETH_ADDR_LO m < Reg.ETH_CNT_k m 0 ∧ Reg.ETH_ADDR_HI m < Reg.ETH_CNT_k m 0 := by
  unfold Reg.ETH_CTRL Reg.ETH_LAT Reg.ETH_ADDR_LO Reg.ETH_ADDR_HI Reg.ETH_CNT_k
  omega

/-! ### Settings beside a count (R398, R399) -/

section Counted
variable (m k : Nat)

theorem Dev.ctrl_ethCnt (f : Fd) : (d.ethCnt m k).rf (Reg.ETH_CTRL m) f = d.rf (Reg.ETH_CTRL m) f := by
  rw [Dev.rf, d.reg_ethCnt_before (ETH_settings_before_counters m).1, Dev.rf]

theorem Dev.ethRfB_ethCnt (f : Fd) : (d.ethCnt m k).ethRfB m f = d.ethRfB m f :=
  Dev.rfB_congr (d.reg_ethCnt_before (ETH_settings_before_counters m).1) f

theorem Dev.passes_ethCnt (da : List Byte) : (d.ethCnt m k).passes m da = d.passes m da := by
  obtain ⟨-, -, addrLo, addrHi⟩ := ETH_settings_before_counters m
  have station : (d.ethCnt m k).station m = d.station m := by
    rw [Dev.station, Dev.rf, d.reg_ethCnt_before addrLo, d.reg_ethCnt_before addrHi, Dev.station, Dev.rf]
  rw [Dev.passes, station, Dev.ethRfB_ethCnt, Dev.passes]

theorem Dev.rxStamp_ethCnt : (d.ethCnt m k).rxStamp m = d.rxStamp m := by
  obtain ⟨-, lat, -, -⟩ := ETH_settings_before_counters m
  rw [Dev.rxStamp, Dev.stamp_congr (d.tb_ethCnt m k), Dev.tb_ethCnt, Dev.rf, d.reg_ethCnt_before lat, Dev.rxStamp, Dev.rf]

end Counted
end OneMac

/-! ### A frame received (R399, R401, R405 to R408) -/

/-- Where a received frame goes that the receive filter lets pass. -/
def Dev.ethSort (d : Dev) (m : Nat) (bs : List Byte) : Dev :=
  if beField bs (etypeAt bs) 2 = d.rf (Reg.ETH_CTRL m) Fld.ETH_CTRL.ETYPE ∧ beField (bs.drop (etypeAt bs + 2)) 0 1 = 1 then
    if stardoulOk (d.ethRfB m Fld.ETH_CTRL.JUMBO) (decide (bs.length ≤ 48 + etypeAt bs)) (bs.drop (etypeAt bs + 2)) then
      d.modMac m (fun x => { x with sorted := x.sorted ++ [(d.rxStamp m, bs.drop (etypeAt bs + 2))] })
    else d.ethCnt m 3
  else if 256 ≤ (d.mac m).ring.length then d.ethCnt m 6
  else d.modMac m (fun x => { x with ring := x.ring ++ [(d.rxStamp m, bs)] })

section Receive
variable {m : Fin 4} {bs : List Byte} {s : State}

section Up
variable (up : s.dev.macUp m.val = true)
include up

theorem exec_ethRx_badFcs : Safety.givesDev (.ethRx m bs false) s (s.dev.ethCnt m.val 2) := by
  have hd : exec (.ethRx m bs false) s = execEthRx m bs false s := rfl
  rw [Safety.givesDev, hd, execEthRx, runDev_eq]
  simp only [up, Bool.not_true, Bool.false_eq_true, if_false, Bool.not_false, if_true]

theorem exec_ethRx_size (size : bs.length < 60 ∨ s.dev.longestFrame m.val < bs.length) :
    Safety.givesDev (.ethRx m bs true) s s.dev := by
  have hd : exec (.ethRx m bs true) s = execEthRx m bs true s := rfl
  unfold Dev.longestFrame at size
  rw [Safety.givesDev, hd, execEthRx, runDev_eq]
  simp only [up, Bool.not_true, Bool.false_eq_true, if_false]
  rw [if_pos (by simpa using size)]

end Up

section Whole
variable (receives : s.dev.EthReceives m.val bs)
include receives

theorem exec_ethRx : Safety.givesDev (.ethRx m bs true) s (if s.dev.passes m.val (bs.take 6)
    then (s.dev.ethCnt m.val 1).ethSort m.val bs else s.dev.ethCnt m.val 1) := by
  have hd : exec (.ethRx m bs true) s = execEthRx m bs true s := rfl
  obtain ⟨up, low, high⟩ := receives
  unfold Dev.longestFrame at high
  have size : ¬(decide (bs.length < 60)
      || decide (bs.length > (if s.dev.ethRfB m.val Fld.ETH_CTRL.JUMBO then 9018 else 1518))) = true := by
    rw [Bool.or_eq_true, decide_eq_true_eq, decide_eq_true_eq]
    omega
  rw [Safety.givesDev, hd, execEthRx, runDev_eq]
  simp only [up, Bool.not_true, Bool.false_eq_true, if_false, if_neg size, Dev.passes_ethCnt]
  cases s.dev.passes m.val (bs.take 6) with
  | false => rfl
  | true =>
    simp only [Dev.ethSort, Dev.ethRfB_ethCnt, Bool.and_eq_true, decide_eq_true_eq]
    rfl

theorem exec_ethRx_filtered (stopped : s.dev.passes m.val (bs.take 6) = false) :
    Safety.givesDev (.ethRx m bs true) s (s.dev.ethCnt m.val 1) := by
  have received := exec_ethRx receives
  rwa [stopped] at received

theorem exec_ethRx_sorted (pass : s.dev.passes m.val (bs.take 6) = true) :
    Safety.givesDev (.ethRx m bs true) s ((s.dev.ethCnt m.val 1).ethSort m.val bs) := by
  have received := exec_ethRx receives
  rwa [if_pos pass] at received

end Whole
end Receive

section Sorting
variable {d : Dev} {m : Nat} {bs : List Byte}

section Stardoul
variable (etype : beField bs (etypeAt bs) 2 = d.rf (Reg.ETH_CTRL m) Fld.ETH_CTRL.ETYPE)
  (version : beField (bs.drop (etypeAt bs + 2)) 0 1 = 1)
include etype version

theorem Dev.ethSort_stardoul (ok : stardoulOk (d.ethRfB m Fld.ETH_CTRL.JUMBO) (decide (bs.length ≤ 48 + etypeAt bs))
    (bs.drop (etypeAt bs + 2)) = true) : d.ethSort m bs
      = d.modMac m (fun x => { x with sorted := x.sorted ++ [(d.rxStamp m, bs.drop (etypeAt bs + 2))] }) := by
  rw [Dev.ethSort, if_pos ⟨etype, version⟩, if_pos ok]

theorem Dev.ethSort_failed (bad : stardoulOk (d.ethRfB m Fld.ETH_CTRL.JUMBO) (decide (bs.length ≤ 48 + etypeAt bs))
    (bs.drop (etypeAt bs + 2)) = false) : d.ethSort m bs = d.ethCnt m 3 := by
  rw [Dev.ethSort, if_pos ⟨etype, version⟩, bad, if_neg Bool.false_ne_true]

end Stardoul

section Other
variable (other : ¬(beField bs (etypeAt bs) 2 = d.rf (Reg.ETH_CTRL m) Fld.ETH_CTRL.ETYPE
  ∧ beField (bs.drop (etypeAt bs + 2)) 0 1 = 1))
include other

theorem Dev.ethSort_full (full : 256 ≤ (d.mac m).ring.length) : d.ethSort m bs = d.ethCnt m 6 := by
  rw [Dev.ethSort, if_neg other, if_pos full]

theorem Dev.ethSort_ring (room : (d.mac m).ring.length < 256) : d.ethSort m bs
    = d.modMac m (fun x => { x with ring := x.ring ++ [(d.rxStamp m, bs)] }) := by
  rw [Dev.ethSort, if_neg other, if_neg (by omega)]

end Other
end Sorting

/-! ### Axis records (R406, R409) -/

section Axis
variable (m : Mach) (bs r : List Byte) (n source stamp : Nat)

/-- The 16 bytes of an axis's entry. -/
def axisEntry (r : List Byte) (source stamp : Nat) : List Byte :=
  leBytes 4 (beField r 4 4) ++ leBytes 1 (beField r 2 1) ++ leBytes 1 (beField r 3 1) ++ leBytes 2 source ++ leBytes 8 stamp

theorem axisEntry_length : (axisEntry r source stamp).length = 16 := by
  simp [axisEntry]

theorem Mach.axisRecord_eq : m.axisRecord r source stamp = if 1024 ≤ beField r 0 2 then m
    else m.store (axisAddr (beField r 0 2)) (axisEntry r source stamp) := by
  rw [Mach.axisRecord, axisEntry]

/-- A record stored changes marks of memory errors alone, beside the memory. -/
theorem Mach.axisRecord_keeps {β : Type} (g : Dev → β)
    (noMarks : ∀ d : Dev, ∀ ue off ce wb, g { d with ue := ue, off := off, ce := ce, wb := wb } = g d) :
    g (m.axisRecord r source stamp).dev = g m.dev := by
  rw [Mach.axisRecord_eq]
  split
  · rfl
  · exact noMarks m.dev _ _ _ _

theorem Mach.axisRecords_keeps {β : Type} (g : Dev → β)
    (noMarks : ∀ d : Dev, ∀ ue off ce wb, g { d with ue := ue, off := off, ce := ce, wb := wb } = g d) :
    g (m.axisRecords bs n source stamp).dev = g m.dev :=
  foldl_keeps (fun x : Mach => g x.dev) (fun _ _ x => x.axisRecord_keeps _ _ _ g noMarks) m

variable {base : Memory} {x : Nat}

/-- A record changes no byte outside the axis table. -/
theorem Memory.read_axisRecord (ok : base.wf = true) (outside : x < ceMem + 0x1FC000 ∨ ceMem + 0x200000 ≤ x) :
    Memory.read (Memory.writeLog base (m.axisRecord r source stamp).log) x = Memory.read (Memory.writeLog base m.log) x := by
  rw [Mach.axisRecord_eq]
  split
  · rfl
  next inTable =>
    refine Memory.read_store_outside ok m _ (axisEntry r source stamp) ?_
    rw [axisEntry_length, axisAddr]
    generalize ceMem = table at *
    omega

theorem Memory.read_axisRecords (ok : base.wf = true) (outside : x < ceMem + 0x1FC000 ∨ ceMem + 0x200000 ≤ x) :
    Memory.read (Memory.writeLog base (m.axisRecords bs n source stamp).log) x = Memory.read (Memory.writeLog base m.log) x :=
  foldl_keeps (fun y : Mach => Memory.read (Memory.writeLog base y.log) x)
    (fun _ _ y => Memory.read_axisRecord y _ _ _ ok outside) m

end Axis

/-! ### FEEDBACK and drive frames (R408, R409) -/

/-- The records of the FEEDBACK frame `p`, stored with the frame's own stamp where it carries one. -/
def Mach.feedback (x : Mach) (m rx : Nat) (p : List Byte) : Mach :=
  x.axisRecords (p.drop 16) (beField p 3 1) m (if bit (beField p 2 1) 0 then beField p 8 8 else rx)

section Sorted
variable {m : Fin 4} {rest : List (Nat × List Byte)} {s : State}

theorem exec_feedback {rx : Nat} {p : List Byte} (oldest : takeKind 2 (s.dev.mac m.val).sorted = some ((rx, p), rest)) :
    Safety.gives (.feedback m) s
      (((Safety.mach s).feedback m.val rx p).mod (fun d => d.modMac m.val (fun y => { y with sorted := rest }))) := by
  have hd : exec (.feedback m) s = execFeedback m s := rfl
  rw [Safety.gives, hd, execFeedback, run_eq]
  simp only [oldest]
  rfl

theorem exec_driveReceived {f : Nat × List Byte} (oldest : takeKind 1 (s.dev.mac m.val).sorted = some (f, rest)) :
    Safety.givesDev (.driveReceived m) s ((s.dev.modMac m.val (fun y => { y with sorted := rest })).ethCnt m.val 4) := by
  have hd : exec (.driveReceived m) s = execDriveReceived m s := rfl
  rw [Safety.givesDev, hd, execDriveReceived, runDev_eq]
  simp only [oldest]

end Sorted

/-! ### Transmission with no gate list in operation (R402 to R404) -/

theorem GclSet.window_off {g : GclSet} (off : g.en = false) (q now : Nat) : g.window q now = none := by
  unfold GclSet.window
  rw [off]
  rfl

theorem GclSet.longest_off {g : GclSet} (off : g.en = false) (q : Nat) : g.longest q = none := by
  unfold GclSet.longest
  rw [off]
  rfl

section Transmit
variable {d : Dev} {m : Nat} (off : (d.mac m).oper.en = false)
include off

/-- No frame is too long for a gate that never closes. -/
theorem Dev.dropOversize_off (q k : Nat) : d.dropOversize m q k = d := by
  cases k with
  | zero => rfl
  | succ k =>
    unfold Dev.dropOversize
    rw [GclSet.longest_off off]
    cases (d.mac m).queues.getD q [] <;> rfl

theorem Dev.maySendQ_head {q : Nat} {f : TxFrame} {rest : List TxFrame} (head : (d.mac m).queues.getD q [] = f :: rest)
    (unshaped : d.shaped m q = false) (now stamp : Nat) : d.maySendQ m q now stamp = true := by
  unfold Dev.maySendQ
  rw [head, GclSet.window_off off, unshaped]
  rfl

end Transmit

theorem Dev.maySendQ_empty {d : Dev} {m q : Nat} (empty : (d.mac m).queues.getD q [] = []) (now stamp : Nat) :
    d.maySendQ m q now stamp = false := by
  unfold Dev.maySendQ
  rw [empty]

/-- The search from the highest queue down ends at the first that meets the test. -/
theorem find_highest {p : Nat → Bool} {q n : Nat} (inRange : q < n) (here : p q = true) (above : ∀ k, q < k → p k = false) :
    (List.range n).reverse.find? p = some q := by
  rw [List.find?_eq_some_iff_getElem]
  refine ⟨here, n - 1 - q, by rw [List.length_reverse, List.length_range]; omega, ?_, fun j before => ?_⟩
  · rw [List.getElem_reverse, List.getElem_range, List.length_range]
    omega
  · rw [List.getElem_reverse, List.getElem_range, List.length_range, above _ (by omega)]
    rfl

/-- The MAC once the head `f` of its queue `q` is sent, with credit `c` in that queue (R402, R403). -/
def Dev.txSend (d : Dev) (m q : Nat) (f : TxFrame) (rest : List TxFrame) (c : Rat) : Dev :=
  let now := max d.nsNow (d.mac m).busy
  let stamp := stampAdd d.stamp (now - d.nsNow)
  let tx := ceilDiv (d.frameTime m f) 10
  let rate : Rat := (d.linkRate m : Rat) / 1000
  let send := d.idleSlope m q - rate
  let maxBits : Rat := if d.ethRfB m Fld.ETH_CTRL.JUMBO then 72176 else 12176
  (d.modMac m (fun x => { x with
    credit := ((List.range 8).map (fun k => d.creditAt m k now)).set q
      (max (maxBits * send / rate) (c + send * ((d.frameTime m f : Rat) / 10)), now + tx)
    queues := modAt x.queues q (fun _ => rest)
    busy := now + tx
    sent := some (d.txStamp m stamp, f) })).ethCnt m 0

section Sent
variable {d : Dev} {m q : Nat} {f : TxFrame} {rest : List TxFrame} {c : Rat}

theorem Dev.queues_txSend : ((d.txSend m q f rest c).mac m).queues = modAt (d.mac m).queues q (fun _ => rest) := by
  rw [Dev.txSend, Dev.mac_ethCnt, Dev.mac_modMac_same]

theorem Dev.busy_txSend :
    ((d.txSend m q f rest c).mac m).busy = max d.nsNow (d.mac m).busy + ceilDiv (d.frameTime m f) 10 := by
  rw [Dev.txSend, Dev.mac_ethCnt, Dev.mac_modMac_same]

theorem Dev.sentCount_txSend :
    (d.txSend m q f rest c).reg (Reg.ETH_CNT_k m 0) = satAdd 32 (d.reg (Reg.ETH_CNT_k m 0)) 1 := by
  rw [Dev.txSend, Dev.reg_ethCnt, Dev.reg_modMac]

end Sent

/-- No frame is dropped, the search ends at the queue's head, and the queue's credit is a pair: in this order, for a `match` of
the unfolded transmission is reduced once what it matches is a constructor. -/
theorem exec_txSelect {m : Fin 4} {q : Fin 8} {f : TxFrame} {rest : List TxFrame} {s : State}
    (up : s.dev.macUp m.val = true) (off : (s.dev.mac m.val).oper.en = false)
    (head : (s.dev.mac m.val).queues.getD q.val [] = f :: rest) (unshaped : s.dev.shaped m.val q.val = false)
    (above : ∀ k, q.val < k → (s.dev.mac m.val).queues.getD k [] = []) :
    ∃ c, Safety.givesDev (.txSelect m) s (s.dev.txSend m.val q.val f rest c) := by
  have hd : exec (.txSelect m) s = execTxSelect m s := rfl
  have whole : (List.range 8).foldl (fun (d : Dev) q => d.dropOversize m.val q ((d.mac m.val).queues.getD q []).length) s.dev
      = s.dev := List.foldl_fixed' (fun _ => Dev.dropOversize_off off _ _) _
  have first (now stamp : Nat) : (List.range 8).reverse.find? (fun q => s.dev.maySendQ m.val q now stamp) = some q.val :=
    find_highest q.isLt (Dev.maySendQ_head off head unshaped now stamp) fun k higher => Dev.maySendQ_empty (above k higher) _ _
  rcases credit : s.dev.creditAt m.val q.val (max s.dev.nsNow (s.dev.mac m.val).busy) with ⟨c, t⟩
  refine ⟨c, ?_⟩
  rw [Safety.givesDev, hd, execTxSelect, runDev_eq]
  refine congrArg (fun d => Host.Outcome.next ({ s with dev := d } : State)) ((if_neg (by rw [up]; decide)).trans ?_)
  extract_lets now stamp d
  have same : d = s.dev := whole
  clear_value d
  subst same
  split
  next none => cases (first now stamp).symm.trans none
  next k some =>
    cases (first now stamp).symm.trans some
    generalize (s.dev.mac m.val).queues.getD q.val [] = queue at head ⊢
    subst head
    rw [show s.dev.creditAt m.val q.val now = (c, t) from credit]
    rfl

/-! ### Gate lists (R402) -/

/-- The set that CHANGE takes from the registers. -/
def Dev.adminGates (d : Dev) (m : Nat) : GclSet where
  en := d.rfB (Reg.ETH_QBV_CTRL m) Fld.ETH_QBV_CTRL.EN
  base := d.reg64 (Reg.ETH_QBV_BASE_LO m)
  cycle := max 1000 (d.rf (Reg.ETH_QBV_CYCLE m) Fld.ETH_QBV_CYCLE.CYCLE)
  list := (List.range (min 256 (max 1 (d.rf (Reg.ETH_QBV_CTRL m) Fld.ETH_QBV_CTRL.LEN)))).map (fun i =>
    (d.rf (Reg.ETH_GCL_i m i) Fld.ETH_GCL_i.GATES, max 1 (d.rf (Reg.ETH_GCL_i m i) Fld.ETH_GCL_i.INTERVAL)))

section Gates
variable {m : Fin 4} {s : State}

theorem exec_change (noneWaits : (s.dev.mac m.val).pend = none) : ∃ start, Safety.givesDev (.change m) s
    (s.dev.modMac m.val (fun x => { x with pend := some (s.dev.adminGates m.val, start) })) := by
  have hd : exec (.change m) s = execChange m s := rfl
  refine ⟨?start, ?waits⟩
  case waits =>
    rw [Safety.givesDev, hd, execChange, runDev_eq, Dev.gclChange, noneWaits]
    rfl

theorem exec_change_waits (waits : (s.dev.mac m.val).pend ≠ none) : Safety.givesDev (.change m) s s.dev := by
  have hd : exec (.change m) s = execChange m s := rfl
  rw [Safety.givesDev, hd, execChange, runDev_eq, Dev.gclChange, if_pos (Option.isSome_iff_ne_none.mpr waits)]

theorem exec_gclApply {g : GclSet} {start : Nat} (waits : (s.dev.mac m.val).pend = some (g, start)) :
    Safety.givesDev (.gclApply m) s
      (((s.dev.reach start).settleCredits m.val).modMac m.val (fun x => { x with oper := g, pend := none })) := by
  have hd : exec (.gclApply m) s = execGclApply m s := rfl
  rw [Safety.givesDev, hd, execGclApply, runDev_eq]
  simp only [waits]

end Gates

/-! ### The PTP role (R388) -/

section Role
variable {m : Fin 4} {s : State}

theorem exec_ptpRoleWrite {role : BitVec 2}
    (granted : role.toNat ≠ 1 ∨ s.dev.slaveMac = none ∨ s.dev.slaveMac = some m.val) :
    Safety.givesDev (.ptpRoleWrite m role) s (s.dev.wf (Reg.ETH_CTRL m.val) Fld.ETH_CTRL.PTP_ROLE role.toNat) := by
  have hd : exec (.ptpRoleWrite m role) s = execPtpRoleWrite m role s := rfl
  rw [Safety.givesDev, hd, execPtpRoleWrite, runDev_eq, Dev.ptpRoleWrite, if_neg]
  rcases granted with other | noSlave | same
  · simp [other]
  · simp [noSlave]
  · simp [same]

theorem exec_ptpRoleWrite_refused {k : Nat} (slave : s.dev.slaveMac = some k) (other : k ≠ m.val) :
    Safety.givesDev (.ptpRoleWrite m 1) s (s.dev.wf (Reg.ETH_STAT m.val) Fld.ETH_STAT.ROLE_REFUSED 1) := by
  have hd : exec (.ptpRoleWrite m 1) s = execPtpRoleWrite m 1 s := rfl
  rw [Safety.givesDev, hd, execPtpRoleWrite, runDev_eq, Dev.ptpRoleWrite, if_pos (by simp [slave, other])]

end Role

/-! ### A CAN frame received (R411, R413) -/

/-- A controller's filters stand behind its counters. -/
theorem CAN_filters_past_counters (n i k : Nat) (counter : k < 6) :
    Reg.CAN_FLTf_ID n i ≠ Reg.CAN_CNT_k n k ∧ Reg.CAN_FLTf_MASK n i ≠ Reg.CAN_CNT_k n k := by
  unfold Reg.CAN_FLTf_ID Reg.CAN_FLTf_MASK Reg.CAN_CNT_k
  omega

theorem Dev.canRoute_canCnt (d : Dev) (n : Nat) {k : Nat} (counter : k < 6) (f : CanFrame) :
    (d.canCnt n k).canRoute n f = d.canRoute n f := by
  have ids (i : Nat) : (d.canCnt n k).reg (Reg.CAN_FLTf_ID n i) = d.reg (Reg.CAN_FLTf_ID n i) :=
    d.reg_cnt_ne _ (CAN_filters_past_counters n i k counter).1
  have masks (i : Nat) : (d.canCnt n k).reg (Reg.CAN_FLTf_MASK n i) = d.reg (Reg.CAN_FLTf_MASK n i) :=
    d.reg_cnt_ne _ (CAN_filters_past_counters n i k counter).2
  unfold Dev.canRoute Dev.rf
  simp only [ids, masks]

theorem Dev.stamp_canCnt (d : Dev) (n k : Nat) : (d.canCnt n k).stamp = d.stamp := Dev.stamp_congr (d.tb_cnt _ _)

theorem Dev.canRing_full {d : Dev} {n : Nat} (full : 128 ≤ (d.can n).ring.length) (f : CanFrame) :
    d.canRing n f = d.canCnt n 4 := by
  rw [Dev.canRing, if_pos full]

theorem Dev.canRing_room {d : Dev} {n : Nat} (room : (d.can n).ring.length < 128) (f : CanFrame) :
    d.canRing n f = d.modCan n (fun x => { x with ring := x.ring ++ [(d.stamp, f)] }) := by
  rw [Dev.canRing, if_neg (by omega)]

section Receive
variable {m : Mach} {n : Nat} {f : CanFrame}

theorem Mach.canReceive_none (notRing : m.dev.canRoute n f ≠ 1) (notAxis : m.dev.canRoute n f ≠ 2) :
    m.canReceive n f = m.mod (fun d => d.canCnt n 1) := by
  unfold Mach.canReceive
  dsimp only
  rw [Mach.mod_dev, Dev.canRoute_canCnt _ _ (by omega)]
  split
  next ring => exact absurd ring notRing
  next axis => exact absurd axis notAxis
  next => rfl

theorem Mach.canReceive_ring (ring : m.dev.canRoute n f = 1 ∨ m.dev.canRoute n f = 2 ∧ f.rtr = true) :
    m.canReceive n f = m.mod (fun d => (d.canCnt n 1).canRing n f) := by
  unfold Mach.canReceive
  dsimp only
  rw [Mach.mod_dev, Dev.canRoute_canCnt _ _ (by omega)]
  rcases ring with route | ⟨route, remote⟩
  · rw [route]
    rfl
  · rw [route, remote]
    rfl

section Records
variable (route : m.dev.canRoute n f = 2) (dataFrame : f.rtr = false)
include route dataFrame

theorem Mach.canReceive_records (whole : f.data.length % 8 = 0) : m.canReceive n f
    = (m.mod (fun d => d.canCnt n 1)).axisRecords f.data (f.data.length / 8) (2 ^ 14 + n) m.dev.stamp := by
  unfold Mach.canReceive
  dsimp only
  rw [Mach.mod_dev, Dev.canRoute_canCnt _ _ (by omega), route, dataFrame, whole, Dev.stamp_canCnt, Nat.one_mul]
  rfl

theorem Mach.canReceive_ragged (ragged : f.data.length % 8 ≠ 0) :
    m.canReceive n f = m.mod (fun d => (d.canCnt n 1).canCnt n 2) := by
  unfold Mach.canReceive
  dsimp only
  rw [Mach.mod_dev, Dev.canRoute_canCnt _ _ (by omega), route, dataFrame]
  exact if_pos ragged

end Records
end Receive

section CanRx
variable {n : Fin 4} {f : CanFrame} {s : State} (on : s.dev.canOn n.val = true)
include on

theorem exec_canRx_ignored (ignored : s.dev.rf (Reg.CAN_CTRL n.val) Fld.CAN_CTRL.MODE = 3
    ∨ (f.fd = true ∧ s.dev.rf (Reg.CAN_CTRL n.val) Fld.CAN_CTRL.FD = 0)) : Safety.givesDev (.canRx n f) s s.dev := by
  have hd : exec (.canRx n f) s = execCanRx n f s := rfl
  have stays : Safety.gives (.canRx n f) s (Safety.mach s) := by
    rw [Safety.gives, hd, execCanRx, run_eq, if_pos (by simpa [on, Dev.rfB] using ignored)]
    rfl
  exact givesDev_of_gives stays rfl

theorem exec_canRx (onBus : s.dev.rf (Reg.CAN_CTRL n.val) Fld.CAN_CTRL.MODE ≠ 3)
    (allowed : f.fd = false ∨ s.dev.rf (Reg.CAN_CTRL n.val) Fld.CAN_CTRL.FD = 1) :
    Safety.gives (.canRx n f) s ((Safety.mach s).canReceive n.val f) := by
  have hd : exec (.canRx n f) s = execCanRx n f s := rfl
  have received : ¬(!s.dev.canOn n.val || decide (s.dev.rf (Reg.CAN_CTRL n.val) Fld.CAN_CTRL.MODE = 3)
      || (f.fd && !s.dev.rfB (Reg.CAN_CTRL n.val) Fld.CAN_CTRL.FD)) = true := by
    rcases allowed with classic | fd
    · simp [on, onBus, classic]
    · simp [on, onBus, Dev.rfB_of_one fd]
  rw [Safety.gives, hd, execCanRx, run_eq, if_neg received]
  rfl

end CanRx

/-! ### A CAN frame sent (R412) -/

/-- The device that has sent a pending buffer, and counted it. -/
def Dev.canSent (d : Dev) (n b : Nat) : Dev := (d.modCan n (fun x => { x with tx := AMap.erase x.tx b })).canCnt n 0

section CanTx
variable {n : Fin 4} {b : Nat} {x : CanTxSt} {s : State} (on : s.dev.canOn n.val = true)
  (first : (s.dev.can n.val).first = some (b, x))
include on first

theorem exec_canTx (normal : s.dev.rf (Reg.CAN_CTRL n.val) Fld.CAN_CTRL.MODE = 0) :
    Safety.givesDev (.canTx n) s (s.dev.canSent n.val b) := by
  have hd : exec (.canTx n) s = execCanTx n s := rfl
  have sent : Safety.gives (.canTx n) s ((Safety.mach s).mod (fun d => d.canSent n.val b)) := by
    rw [Safety.gives, hd, execCanTx, run_eq]
    simp only [first, on, normal]
    rfl
  exact givesDev_of_gives sent rfl

theorem exec_canTx_loopback (loopback : s.dev.rf (Reg.CAN_CTRL n.val) Fld.CAN_CTRL.MODE = 3) :
    Safety.gives (.canTx n) s (((Safety.mach s).mod (fun d => d.canSent n.val b)).canReceive n.val x.frame) := by
  have hd : exec (.canTx n) s = execCanTx n s := rfl
  rw [Safety.gives, hd, execCanTx, run_eq]
  simp only [first, on, loopback]
  rfl

theorem exec_canTx_silent (silent : s.dev.rf (Reg.CAN_CTRL n.val) Fld.CAN_CTRL.MODE = 1
    ∨ s.dev.rf (Reg.CAN_CTRL n.val) Fld.CAN_CTRL.MODE = 2) : Safety.givesDev (.canTx n) s s.dev := by
  have hd : exec (.canTx n) s = execCanTx n s := rfl
  have stays : Safety.gives (.canTx n) s (Safety.mach s) := by
    rw [Safety.gives, hd, execCanTx, run_eq]
    rcases silent with mode | mode
    · simp only [first, on, mode]
      rfl
    · simp only [first, on, mode]
      rfl
  exact givesDev_of_gives stays rfl

end CanTx

/-- Settles O57: a received frame by the filter and the checks it meets, a transmission by the head of the highest queue, a gate
list by what waits, and a CAN frame by its route or its buffer. -/
theorem ethernetAndCanFrames : Obligations.EthernetAndCanFrames := by
  unfold Obligations.EthernetAndCanFrames
  refine ⟨?received, ?feedback, fun m rx p rest s oldest => exec_feedback oldest,
    fun m f rest s oldest => exec_driveReceived oldest,
    ?select, ?change, fun m s waits => exec_change_waits waits, ?apply, ?role, ?refused, fun m up s => rfl,
    fun n f s on ignored => exec_canRx_ignored on ignored, ?canReceived, ?canSent, ?canModes⟩
  case received =>
    intro m bs s up
    refine ⟨exec_ethRx_badFcs up, exec_ethRx_size up,
      fun low high => ⟨exec_ethRx_filtered ⟨up, low, high⟩, ?other, ?failed, ?stardoul⟩⟩
    case other =>
      intro pass other
      have sorted := exec_ethRx_sorted ⟨up, low, high⟩ pass
      rw [← s.dev.ctrl_ethCnt m.val 1] at other
      refine ⟨fun room => ?ring, fun full => ?full⟩
      case ring =>
        rw [Dev.ethSort_ring other (by rwa [Dev.mac_ethCnt])] at sorted
        refine ⟨_, sorted, ⟨rfl, rfl⟩, ?_, ?_, ?_⟩
        · rw [Dev.mac_modMac_same, Dev.mac_ethCnt, Dev.rxStamp_ethCnt]
        · rw [Dev.mac_modMac_same, Dev.mac_ethCnt]
        · rw [Dev.reg_modMac, Dev.reg_ethCnt]
      case full => rwa [Dev.ethSort_full other (by rwa [Dev.mac_ethCnt])] at sorted
    case failed =>
      intro pass etype version bad
      have sorted := exec_ethRx_sorted ⟨up, low, high⟩ pass
      rw [← s.dev.ctrl_ethCnt m.val 1] at etype
      rwa [Dev.ethSort_failed etype version (by rwa [Dev.ethRfB_ethCnt])] at sorted
    case stardoul =>
      intro pass etype version ok
      have sorted := exec_ethRx_sorted ⟨up, low, high⟩ pass
      rw [← s.dev.ctrl_ethCnt m.val 1] at etype
      rw [Dev.ethSort_stardoul etype version (by rwa [Dev.ethRfB_ethCnt])] at sorted
      refine ⟨_, sorted, ⟨rfl, rfl⟩, ?_, ?_⟩
      · rw [Dev.mac_modMac_same, Dev.mac_ethCnt, Dev.rxStamp_ethCnt]
      · rw [Dev.mac_modMac_same, Dev.mac_ethCnt]
  case feedback =>
    intro m rx p rest s oldest ok
    refine ⟨_, exec_feedback oldest, ?_, fun a => ?_, fun x outside => ?_⟩
    · rw [Mach.mod_dev, Dev.mac_modMac_same]
    · rw [Mach.mod_dev, Dev.reg_modMac]
      exact Mach.axisRecords_keeps _ _ _ _ _ (Dev.reg · a) fun _ _ _ _ _ => rfl
    · exact Memory.read_axisRecords _ _ _ _ _ ok outside
  case select =>
    intro m q f rest s up off head unshaped above
    obtain ⟨c, sends⟩ := exec_txSelect up off head unshaped above
    exact ⟨_, sends, ⟨rfl, rfl⟩, Dev.queues_txSend, Dev.busy_txSend, Dev.sentCount_txSend⟩
  case change =>
    intro m s noneWaits
    obtain ⟨start, waits⟩ := exec_change noneWaits
    refine ⟨_, s.dev.adminGates m.val, start, waits, ⟨rfl, rfl⟩, ?_, rfl, rfl, ?_⟩
    · rw [Dev.mac_modMac_same]
    · rw [Dev.mac_modMac_same]
  case apply =>
    intro m g start s waits
    refine ⟨_, exec_gclApply waits, ⟨rfl, rfl⟩, ?_, ?_⟩
    · rw [Dev.mac_modMac_same]
    · rw [Dev.mac_modMac_same]
  case role =>
    intro m role s granted
    exact ⟨_, exec_ptpRoleWrite granted, (Dev.rf_wf_same _ _ _).trans (Nat.mod_eq_of_lt role.isLt), onlyRegs_wf s _ _ _⟩
  case refused =>
    exact fun m k s slave other => ⟨_, exec_ptpRoleWrite_refused slave other, Dev.rf_wf_same _ _ _, onlyRegs_wf s _ _ _⟩
  case canReceived =>
    intro n f s on onBus allowed
    have received := exec_canRx on onBus allowed
    refine ⟨fun notRing notAxis => ?none, fun route full => ?full, fun route room => ?ring,
      fun route dataFrame whole => ?records,
      fun route dataFrame ragged => ?ragged⟩
    case none =>
      rw [Mach.canReceive_none (m := Safety.mach s) notRing notAxis] at received
      exact givesDev_of_gives received rfl
    case full =>
      rw [Mach.canReceive_ring (m := Safety.mach s) route] at received
      have counted := givesDev_of_gives received rfl
      rwa [Mach.mod_dev, Dev.canRing_full (by rwa [Dev.can_canCnt])] at counted
    case ring =>
      rw [Mach.canReceive_ring (m := Safety.mach s) route] at received
      have joined := givesDev_of_gives received rfl
      rw [Mach.mod_dev, Dev.canRing_room (by rwa [Dev.can_canCnt])] at joined
      refine ⟨_, joined, ⟨rfl, rfl⟩, ?_, ?_⟩
      · rw [Dev.can_modCan_same, Dev.can_canCnt, Dev.stamp_canCnt]
        rfl
      · rw [Dev.reg_modCan, Dev.canCnt, Dev.reg_cnt]
        rfl
    case records => rwa [Mach.canReceive_records (m := Safety.mach s) route dataFrame whole] at received
    case ragged =>
      rw [Mach.canReceive_ragged (m := Safety.mach s) route dataFrame ragged] at received
      exact givesDev_of_gives received rfl
  case canSent =>
    intro n b x s on normal first
    refine ⟨_, exec_canTx on first normal, ⟨rfl, rfl⟩, ?_, fun k other => ?_, ?_⟩
    · rw [Dev.canSent, Dev.can_canCnt, Dev.can_modCan_same, AMap.find_erase_same]
    · rw [Dev.canSent, Dev.can_canCnt, Dev.can_modCan_ne _ _ other]
    · rw [Dev.canSent, Dev.canCnt, Dev.reg_cnt, Dev.reg_modCan]
  case canModes =>
    exact fun n b x s on first => ⟨exec_canTx_loopback on first, exec_canTx_silent on first⟩

end Machine
end Sys2Proof
end

section
/-!
PROOFS. A step with a command at the front of the queue (O1), and every command completes and keeps the queue (O3).
-/
namespace Sys2Proof
namespace Machine

/-- Settles O1: a step takes the command at the front of the queue. -/
theorem stepRunsFrontCommand : Obligations.StepRunsFrontCommand := by
  unfold Obligations.StepRunsFrontCommand
  exact step_cons

/-! ### The two resets, which first cut the flash subsystem (R483, R580) -/

/-- The state that the flash subsystem leaves when it is cut off. -/
def State.cut (s : State) (m : Mach) : State := { s with mem := Memory.writeLog s.mem m.flashCut.log, dev := m.flashCut.dev }

theorem State.cut_pending (s : State) (m : Mach) : (s.cut m).pending = s.pending := rfl

/-- What `run` answers is the state that its machine leaves. -/
theorem next_of_run {f : Mach → Mach} {s t : State} {m : Mach} (h : run f s = .next t) (ends : f (Safety.mach s) = m) :
    t = { s with mem := Memory.writeLog s.mem m.log, dev := m.dev } := by
  subst ends
  rw [run_eq] at h
  exact (Host.Outcome.next.inj h).symm

theorem run_not_stuck {f : Mach → Mach} {s : State} (noEnd : ∀ t, run f s = .next t → False) : False := noEnd _ rfl

theorem exec_porstAssert (s : State) : exec .porstAssert s
    = runKeep (fun _ _ a => decide (a ≥ flashMem)) (fun m => m.mod Dev.poweredOff) (s.cut (Safety.mach s)) := by
  have hd : exec .porstAssert s = execPorstAssert s := rfl
  rw [hd, execPorstAssert]
  split
  next t cut => exact congrArg _ (next_of_run cut rfl)
  next noEnd => exact (run_not_stuck noEnd).elim

theorem exec_warmReset_due {s : State} {at_ : Nat} (due : s.dev.saf.resetAt = some at_) : exec .warmReset s
    = runKeep (fun _ _ a => decide (a < summitRam) || decide (a ≥ summitRam + 0x200000)) (fun m => m.mod Dev.warmed)
        (s.cut ((Safety.mach s).mod (fun d => d.reach (nsStamp at_)))) := by
  have hd : exec .warmReset s = execWarmReset s := rfl
  rw [hd, execWarmReset]
  split
  next none => cases due.symm.trans none
  next t some =>
    obtain rfl := Option.some.inj (due.symm.trans some)
    split
    next u cut => exact congrArg _ (next_of_run cut rfl)
    next noEnd => exact (run_not_stuck noEnd).elim

theorem exec_warmReset_notDue {s : State} (notDue : s.dev.saf.resetAt = none) : exec .warmReset s = .next s := by
  have hd : exec .warmReset s = execWarmReset s := rfl
  rw [hd, execWarmReset, notDue]

theorem runKeep_completes (keep : Memory → Dev → Nat → Bool) (f : Mach → Mach) (s u : State) (queue : u.pending = s.pending) :
    ∃ t, runKeep keep f u = .next t ∧ t.pending = s.pending := by
  rw [runKeep_eq, run_eq]
  exact ⟨_, rfl, queue⟩

/-- Settles O3: every meaning ends in one of the three ends, or is one of the two resets, and none of them touches the queue. -/
theorem everyCommandCompletesAndKeepsQueue : Obligations.EveryCommandCompletesAndKeepsQueue := by
  unfold Obligations.EveryCommandCompletesAndKeepsQueue
  intro c s
  obtain ⟨f, stores⟩ | ⟨f, noStores⟩ | ⟨keep, f, clears⟩ | rfl | rfl := exec_shape c s
  · exact ⟨_, stores, rfl⟩
  · exact ⟨_, noStores, rfl⟩
  · rw [clears]
    exact runKeep_completes keep f s s rfl
  · cases scheduled : s.dev.saf.resetAt with
    | none => exact ⟨_, exec_warmReset_notDue scheduled, rfl⟩
    | some at_ =>
      rw [exec_warmReset_due scheduled]
      exact runKeep_completes _ _ _ _ (s.cut_pending _)
  · rw [exec_porstAssert]
    exact runKeep_completes _ _ _ _ (s.cut_pending _)

end Machine
end Sys2Proof
end

section
/-!
PROOFS. Power caps and the governor (O11), power failure and cooling (O12), and temperature (O13).
-/
namespace Sys2Proof
namespace Machine

theorem PWR_STAT_ne_SLOW : Reg.PWR_STAT ≠ Reg.GEN_PACE_SLOW := by decide

@[simp] theorem Dev.pwr_paceSlow (d : Dev) : d.paceSlow.pwr = d.pwr := by
  obtain ⟨v, slow⟩ := d.paceSlow_eq
  rw [slow, Dev.setReg_pwr]

@[simp] theorem Dev.pwr_cnt (d : Dev) (a n : Nat) : (d.cnt a n).pwr = d.pwr := by rw [d.cnt_frame]

/-! ### The stretch (R32) and the fabric rail (R28, R33) -/

section Rail
variable (d : Dev)

theorem Dev.setStretch_eq (s : Nat) : ∃ x, d.setStretch s
    = ({ d with pwr := { d.pwr with stretching := x } } : Dev).wf Reg.PWR_STAT Fld.PWR_STAT.STRETCH s := by
  unfold Dev.setStretch
  dsimp only
  split
  · exact ⟨_, rfl⟩
  · exact ⟨_, rfl⟩

theorem Dev.pwr_setStretch (s : Nat) : ∃ x, (d.setStretch s).pwr = { d.pwr with stretching := x } := by
  obtain ⟨x, set⟩ := d.setStretch_eq s
  exact ⟨x, by rw [set]; rfl⟩

theorem Dev.rf_setStretch_field (s : Nat) {f : Fd} (other : Fld.PWR_STAT.STRETCH.hi < f.lo ∨ f.hi < Fld.PWR_STAT.STRETCH.lo) :
    (d.setStretch s).rf Reg.PWR_STAT f = d.rf Reg.PWR_STAT f := by
  obtain ⟨x, set⟩ := d.setStretch_eq s
  rw [set, Dev.rf_wf_field _ _ _ other]
  rfl

theorem Dev.stretch_setStretch (s : Nat) : (d.setStretch s).stretch = s % 2 ^ 6 := by
  obtain ⟨x, set⟩ := d.setStretch_eq s
  rw [set, Dev.stretch, Dev.rf_wf_same]
  rfl

theorem Dev.reg_setStretch_ne (s : Nat) {a : Nat} (other : a ≠ Reg.PWR_STAT) : (d.setStretch s).reg a = d.reg a := by
  obtain ⟨x, set⟩ := d.setStretch_eq s
  rw [set, Dev.reg_wf_ne _ _ _ other]
  rfl

/-- A voltage that is set already changes nothing; a new one changes VFAB, the report of the slowest monitor, and what is
known of the rail. -/
theorem Dev.commandFab_eq (mv : Nat) : d.commandFab mv = d ∨ ∃ x b v, d.commandFab mv
    = ((({ d with pwr := { d.pwr with moving := x, settled := false } } : Dev).wf Reg.PWR_STAT Fld.PWR_STAT.VFAB mv).wf
        Reg.GEN_PACE_SLOW Fld.GEN_PACE_SLOW.FALLING b).setReg Reg.GEN_PACE_SLOW v := by
  unfold Dev.commandFab
  dsimp only
  split
  · exact .inl rfl
  · obtain ⟨v, slow⟩ := Dev.paceSlow_eq _
    exact .inr ⟨_, _, v, slow⟩

theorem Dev.pwr_commandFab (mv : Nat) : ∃ x y, (d.commandFab mv).pwr = { d.pwr with moving := x, settled := y } := by
  obtain same | ⟨x, b, v, set⟩ := d.commandFab_eq mv
  · exact ⟨_, _, by rw [same]⟩
  · exact ⟨x, false, by rw [set]; rfl⟩

/-- The fields of PWR_STAT above VFAB stay. -/
theorem Dev.rf_commandFab (mv : Nat) {f : Fd} (above : Fld.PWR_STAT.VFAB.hi < f.lo) :
    (d.commandFab mv).rf Reg.PWR_STAT f = d.rf Reg.PWR_STAT f := by
  obtain same | ⟨x, b, v, set⟩ := d.commandFab_eq mv
  · rw [same]
  · rw [set, Dev.rf, Dev.reg_setReg_ne _ _ PWR_STAT_ne_SLOW, Dev.reg_wf_ne _ _ _ PWR_STAT_ne_SLOW, ← Dev.rf,
      Dev.rf_wf_field _ _ _ (.inl above)]
    rfl

theorem Dev.reg_commandFab_ne (mv : Nat) {a : Nat} (notStat : a ≠ Reg.PWR_STAT) (notSlow : a ≠ Reg.GEN_PACE_SLOW) :
    (d.commandFab mv).reg a = d.reg a := by
  obtain same | ⟨x, b, v, set⟩ := d.commandFab_eq mv
  · rw [same]
  · rw [set, Dev.reg_setReg_ne _ _ notSlow, Dev.reg_wf_ne _ _ _ notSlow, Dev.reg_wf_ne _ _ _ notStat]
    rfl

end Rail

/-! ### A change of cap (R585, R586) -/

section Cap
variable (d : Dev) (cap : Nat) (boost : Bool)

/-- A change begins: TRANS is set, then a fall sets limit and stretch, and last the rail moves. -/
theorem Dev.startCap_eq : ∃ e mv, d.startCap cap boost = Dev.commandFab e mv
    ∧ (∃ x, e.pwr = { d.pwr with change := some (cap, boost), stretching := x })
    ∧ e.rf Reg.PWR_STAT Fld.PWR_STAT.TRANS = 1 ∧ e.capEff = d.capEff ∧ ∀ a, a ≠ Reg.PWR_STAT → e.reg a = d.reg a := by
  unfold Dev.startCap
  dsimp only
  split
  · refine ⟨_, _, rfl, ?_, ?_, ?_, fun a other => ?_⟩
    · obtain ⟨x, pwr⟩ := Dev.pwr_setStretch _ _
      exact ⟨x, pwr⟩
    · rw [Dev.rf_setStretch_field _ _ (by decide), Dev.rf_wf_field _ _ _, Dev.rf_wf_same]
      rfl
    · rw [Dev.capEff, Dev.rf_setStretch_field _ _ (by decide), Dev.rf_wf_field _ _ _, Dev.rf_wf_field _ _ _]
      rfl
    · rw [Dev.reg_setStretch_ne _ _ other, Dev.reg_wf_ne _ _ _ other, Dev.reg_wf_ne _ _ _ other]
      rfl
  · refine ⟨_, _, rfl, ⟨_, rfl⟩, ?_, ?_, fun a other => ?_⟩
    · rw [Dev.rf_wf_same]
      rfl
    · rw [Dev.capEff, Dev.rf_wf_field _ _ _]
      rfl
    · rw [Dev.reg_wf_ne _ _ _ other]
      rfl

theorem Dev.pwr_startCap : ∃ x y z, (d.startCap cap boost).pwr
    = { d.pwr with change := some (cap, boost), stretching := x, moving := y, settled := z } := by
  obtain ⟨e, mv, starts, ⟨x, pwr⟩, -⟩ := d.startCap_eq cap boost
  obtain ⟨y, z, rail⟩ := e.pwr_commandFab mv
  exact ⟨x, y, z, by rw [starts, rail, pwr]⟩

theorem Dev.change_startCap : (d.startCap cap boost).pwr.change = some (cap, boost) := by
  obtain ⟨x, y, z, pwr⟩ := d.pwr_startCap cap boost
  rw [pwr]

theorem Dev.trans_startCap : (d.startCap cap boost).rf Reg.PWR_STAT Fld.PWR_STAT.TRANS = 1 := by
  obtain ⟨e, mv, starts, -, trans, -⟩ := d.startCap_eq cap boost
  rw [starts, Dev.rf_commandFab _ _ (by decide), trans]

theorem Dev.capEff_startCap : (d.startCap cap boost).capEff = d.capEff := by
  obtain ⟨e, mv, starts, -, -, eff, -⟩ := d.startCap_eq cap boost
  rw [starts, Dev.capEff, Dev.rf_commandFab _ _ (by decide), ← Dev.capEff, eff]

theorem Dev.reg_startCap_ne {a : Nat} (notStat : a ≠ Reg.PWR_STAT) (notSlow : a ≠ Reg.GEN_PACE_SLOW) :
    (d.startCap cap boost).reg a = d.reg a := by
  obtain ⟨e, mv, starts, -, -, -, regs⟩ := d.startCap_eq cap boost
  rw [starts, Dev.reg_commandFab_ne _ _ notStat notSlow, regs a notStat]

/-- A change ends: stretch and limit follow, and last TRANS, CAP_EFF and the count of changes. -/
theorem Dev.endCap_eq : ∃ e, d.endCap cap boost = (((e : Dev).wf Reg.PWR_STAT Fld.PWR_STAT.TRANS 0).wf Reg.PWR_STAT
      Fld.PWR_STAT.CAP_EFF cap).cnt (Reg.PWR_CNT_k 0) (b2n (cap != d.capEff))
    ∧ e.pwr.change = none ∧ ∀ a, a ≠ Reg.PWR_STAT → e.reg a = d.reg a := by
  unfold Dev.endCap
  refine ⟨_, rfl, ?_, fun a other => ?_⟩
  · rw [Dev.wf, Dev.setReg_pwr]
    obtain ⟨x, pwr⟩ := Dev.pwr_setStretch _ _
    rw [pwr]
  · rw [Dev.reg_wf_ne _ _ _ other, Dev.reg_setStretch_ne _ _ other]
    rfl

theorem PWR_CNT_0_ne : Reg.PWR_CNT_k 0 ≠ Reg.PWR_STAT ∧ Reg.PWR_CNT_k 0 ≠ Reg.PWR_CTRL ∧ Reg.PWR_CTRL ≠ Reg.PWR_STAT := by
  decide

theorem Dev.change_endCap : (d.endCap cap boost).pwr.change = none := by
  obtain ⟨e, ends, none, -⟩ := d.endCap_eq cap boost
  rw [ends, Dev.pwr_cnt]
  exact none

theorem Dev.trans_endCap : (d.endCap cap boost).rf Reg.PWR_STAT Fld.PWR_STAT.TRANS = 0 := by
  obtain ⟨e, ends, -⟩ := d.endCap_eq cap boost
  rw [ends, Dev.rf, Dev.reg_cnt_ne _ _ PWR_CNT_0_ne.1.symm, ← Dev.rf, Dev.rf_wf_field _ _ _, Dev.rf_wf_same]
  rfl

theorem Dev.capEff_endCap (h : cap < 4) : (d.endCap cap boost).capEff = cap := by
  obtain ⟨e, ends, -⟩ := d.endCap_eq cap boost
  rw [ends, Dev.capEff, Dev.rf, Dev.reg_cnt_ne _ _ PWR_CNT_0_ne.1.symm, ← Dev.rf, Dev.rf_wf_same]
  exact Nat.mod_eq_of_lt h

theorem Dev.reg_PWR_CTRL_endCap : (d.endCap cap boost).reg Reg.PWR_CTRL = d.reg Reg.PWR_CTRL := by
  obtain ⟨e, ends, -, regs⟩ := d.endCap_eq cap boost
  obtain ⟨-, ctrl, stat⟩ := PWR_CNT_0_ne
  rw [ends, Dev.reg_cnt_ne _ _ ctrl.symm, Dev.reg_wf_ne _ _ _ stat, Dev.reg_wf_ne _ _ _ stat, regs _ stat]

theorem Dev.count_endCap : (d.endCap cap boost).reg (Reg.PWR_CNT_k 0)
    = satAdd 32 (d.reg (Reg.PWR_CNT_k 0)) (b2n (cap != d.capEff)) := by
  obtain ⟨e, ends, -, regs⟩ := d.endCap_eq cap boost
  obtain ⟨stat, -⟩ := PWR_CNT_0_ne
  rw [ends, Dev.reg_cnt, Dev.reg_wf_ne _ _ _ stat, Dev.reg_wf_ne _ _ _ stat, regs _ stat]

end Cap
/-! ### Writes of PWR_CTRL (R584 to R586) -/

/-- The device with the cap and BOOST asked for in PWR_CTRL. -/
def Dev.askCap (d : Dev) (cap : Nat) (boost : Bool) : Dev :=
  (d.wf Reg.PWR_CTRL Fld.PWR_CTRL.CAP cap).wf Reg.PWR_CTRL Fld.PWR_CTRL.BOOST (b2n boost)

section Ask
variable (d : Dev) (cap : Nat) (boost : Bool)

theorem Dev.cap_askCap (h : cap < 4) : (d.askCap cap boost).rf Reg.PWR_CTRL Fld.PWR_CTRL.CAP = cap := by
  rw [Dev.askCap, Dev.rf_wf_field _ _ _, Dev.rf_wf_same]
  exact Nat.mod_eq_of_lt h

theorem Dev.boost_askCap : (d.askCap cap boost).rf Reg.PWR_CTRL Fld.PWR_CTRL.BOOST = b2n boost := by
  rw [Dev.askCap, Dev.rf_wf_same]
  cases boost <;> rfl

theorem Dev.reg_askCap_ne {a : Nat} (other : a ≠ Reg.PWR_CTRL) : (d.askCap cap boost).reg a = d.reg a := by
  rw [Dev.askCap, Dev.reg_wf_ne _ _ _ other, Dev.reg_wf_ne _ _ _ other]

theorem Dev.capEff_askCap : (d.askCap cap boost).capEff = d.capEff := by
  rw [Dev.capEff, Dev.rf, Dev.reg_askCap_ne _ _ _ PWR_CNT_0_ne.2.2.symm, ← Dev.rf, Dev.capEff]

/-- What a held write asks for stands in PWR_CTRL, and nothing else changes. -/
theorem Safety.onlyRegs_askCap (s : State) :
    Safety.onlyRegs s { s with dev := s.dev.askCap cap boost } [Reg.PWR_CTRL] :=
  ⟨rfl, fun _ other => s.dev.reg_askCap_ne cap boost (fun same => other (List.mem_singleton.mpr same))⟩

variable {d cap boost}

/-- In boot-only mode the write is refused. -/
theorem Dev.capWrite_bootOnly (h : d.bootOnly = true) :
    d.capWrite cap boost = d.wf Reg.PWR_STAT Fld.PWR_STAT.CFG_LOCKED_WRITE 1 := by
  rw [Dev.capWrite, if_pos h]

/-- A write is held while the rail is off, while a change is in progress, and where it asks for what is in effect. -/
theorem Dev.capWrite_held (h : d.bootOnly = false) (held : d.pwr.fabOn = false ∨ d.pwr.change ≠ none
    ∨ (cap = d.capEff ∧ (d.capEff ≠ 3 ∨ d.rfB Reg.PWR_CTRL Fld.PWR_CTRL.BOOST = boost))) :
    d.capWrite cap boost = d.askCap cap boost := by
  rw [Dev.capWrite, if_neg (Bool.not_eq_true _ ▸ h)]
  dsimp only
  rw [← Dev.askCap, Dev.capEff_askCap]
  split
  next => rfl
  next free =>
    split
    next asks =>
      have on : d.pwr.fabOn = true ∧ d.pwr.change = none := by
        simpa [Dev.askCap, Dev.wf, Bool.or_eq_true, Option.isSome_iff_ne_none, not_or, and_comm] using free
      obtain off | busy | ⟨cap_eq, boost_eq⟩ := held
      · exact absurd on.1 (by rw [off]; decide)
      · exact absurd on.2 busy
      · subst cap_eq
        rcases boost_eq with notTop | rfl <;> simp_all
    next => rfl

/-- With the fabric powered and no change in progress, a write that asks for one begins it. -/
theorem Dev.capWrite_starts (h : d.bootOnly = false) (on : d.pwr.fabOn = true) (free : d.pwr.change = none)
    (asks : cap ≠ d.capEff ∨ (cap = 3 ∧ d.rfB Reg.PWR_CTRL Fld.PWR_CTRL.BOOST ≠ boost)) :
    d.capWrite cap boost = (d.askCap cap boost).startCap cap boost := by
  rw [Dev.capWrite, if_neg (Bool.not_eq_true _ ▸ h)]
  dsimp only
  rw [← Dev.askCap, Dev.capEff_askCap]
  have asked : (d.askCap cap boost).pwr = d.pwr := rfl
  rw [asked, free, on, if_neg (by decide), if_pos]
  rcases asks with other | ⟨rfl, otherBoost⟩
  · simp [other]
  · simp [Ne.symm otherBoost]

end Ask

/-! ### The rail has settled (R33, R585, R586) -/

/-- The device once the fabric rail moves no more. -/
def Dev.railStill (d : Dev) : Dev := { d with pwr := { d.pwr with
  moving := none
  settled := d.pwr.settled || d.rfB Reg.GEN_PACE_SLOW Fld.GEN_PACE_SLOW.FALLING } }

theorem exec_railSettled (s : State) : Safety.givesDev .railSettled s (match s.dev.pwr.change with
    | none => s.dev.railStill
    | some (cap, boost) =>
      if (s.dev.railStill.endCap cap boost).rf Reg.PWR_CTRL Fld.PWR_CTRL.CAP ≠ cap
          || (cap = 3 && (s.dev.railStill.endCap cap boost).rfB Reg.PWR_CTRL Fld.PWR_CTRL.BOOST != boost) then
        (s.dev.railStill.endCap cap boost).startCap ((s.dev.railStill.endCap cap boost).rf Reg.PWR_CTRL Fld.PWR_CTRL.CAP)
          ((s.dev.railStill.endCap cap boost).rfB Reg.PWR_CTRL Fld.PWR_CTRL.BOOST)
      else s.dev.railStill.endCap cap boost) := rfl

theorem exec_railSettled_idle {s : State} (free : s.dev.pwr.change = none) : Safety.givesDev .railSettled s s.dev.railStill := by
  have settled := exec_railSettled s
  rwa [free] at settled

section Settled
variable {s : State} {cap : Nat} {boost : Bool} (change : s.dev.pwr.change = some (cap, boost))
include change

/-- The change completes, and one toward the latest value written begins, where that is another. -/
theorem exec_railSettled_change : Safety.givesDev .railSettled s
    (if s.dev.rf Reg.PWR_CTRL Fld.PWR_CTRL.CAP ≠ cap || (cap = 3 && s.dev.rfB Reg.PWR_CTRL Fld.PWR_CTRL.BOOST != boost) then
      (s.dev.railStill.endCap cap boost).startCap (s.dev.rf Reg.PWR_CTRL Fld.PWR_CTRL.CAP)
        (s.dev.rfB Reg.PWR_CTRL Fld.PWR_CTRL.BOOST)
    else s.dev.railStill.endCap cap boost) := by
  have ctrl : ∀ f, (s.dev.railStill.endCap cap boost).rf Reg.PWR_CTRL f = s.dev.rf Reg.PWR_CTRL f := fun f => by
    rw [Dev.rf, Dev.reg_PWR_CTRL_endCap]
    rfl
  have settled := exec_railSettled s
  simp only [change, Dev.rfB, ctrl] at settled
  exact settled

theorem exec_railSettled_done (asked : s.dev.rf Reg.PWR_CTRL Fld.PWR_CTRL.CAP = cap)
    (boosted : cap ≠ 3 ∨ s.dev.rfB Reg.PWR_CTRL Fld.PWR_CTRL.BOOST = boost) :
    Safety.givesDev .railSettled s (s.dev.railStill.endCap cap boost) := by
  have settled := exec_railSettled_change change
  rwa [if_neg] at settled
  simpa [asked, imp_iff_not_or] using boosted

theorem exec_railSettled_again (other : s.dev.rf Reg.PWR_CTRL Fld.PWR_CTRL.CAP ≠ cap
      ∨ (cap = 3 ∧ s.dev.rfB Reg.PWR_CTRL Fld.PWR_CTRL.BOOST ≠ boost)) :
    Safety.givesDev .railSettled s ((s.dev.railStill.endCap cap boost).startCap (s.dev.rf Reg.PWR_CTRL Fld.PWR_CTRL.CAP)
      (s.dev.rfB Reg.PWR_CTRL Fld.PWR_CTRL.BOOST)) := by
  have settled := exec_railSettled_change change
  rwa [if_pos] at settled
  simpa using other

end Settled

/-! ### The governor (R587) -/

/-- The reaction to a measurement writes PWR_STAT and a counter, and not what was measured. -/
theorem Dev.reg_govern {d : Dev} {avg a : Nat} (notStat : a ≠ Reg.PWR_STAT) (notCount : a ≠ Reg.PWR_CNT_k 1) :
    (d.govern avg).reg a = d.reg a := by
  have overcap : ∀ (e : Dev) (p : PwrSt), ({ (e.wf Reg.PWR_STAT Fld.PWR_STAT.OVERCAP 1).raise 1 Src.MONITOR 0x0007 0xFFFF avg with
      pwr := p } : Dev).reg a = e.reg a := fun e p => e.reg_wf_ne _ _ notStat
  have pwr : ∀ p, ({ d with pwr := p } : Dev).reg a = d.reg a := fun _ => rfl
  unfold Dev.govern
  dsimp only
  generalize (if avg * 10 < capPower d.capEff * 9 then d.pwr.below + 1 else 0) = below
  split
  next =>
    split
    · exact pwr _
    · exact (overcap _ _).trans (pwr _)
  next =>
    split
    · exact pwr _
    · split
      · split
        · exact pwr _
        · rw [Dev.reg_cnt_ne _ _ notCount, Dev.reg_setStretch_ne _ _ notStat, pwr]
      · split
        · rw [Dev.reg_setStretch_ne _ _ notStat, pwr]
        · exact pwr _

theorem PWR_MEAS_notGovern : Reg.PWR_MEAS ≠ Reg.PWR_STAT ∧ Reg.PWR_MEAS ≠ Reg.PWR_CNT_k 1 := by decide

/-- Outside PORST a measurement is shown, and the governor reacts to it. -/
theorem exec_governor {avg : BitVec 16} {s : State} (on : s.dev.pwr.porst = false) : Safety.givesDev (.governor avg) s
    (((s.dev.wf Reg.PWR_MEAS Fld.PWR_MEAS.AVG avg.toNat).wf Reg.PWR_MEAS Fld.PWR_MEAS.PEAK
      (max avg.toNat (s.dev.rf Reg.PWR_MEAS Fld.PWR_MEAS.PEAK))).govern avg.toNat) := by
  have hd : exec (.governor avg) s = execGovernor avg s := rfl
  rw [Safety.givesDev, hd, execGovernor, runDev_eq]
  dsimp only
  rw [on, if_neg (by decide)]

theorem exec_capWrite (cap : BitVec 2) (s : State) : Safety.givesDev (.capWrite cap) s
    (s.dev.capWrite cap.toNat (s.dev.rfB Reg.PWR_CTRL Fld.PWR_CTRL.BOOST)) := rfl

theorem exec_boostWrite (boost : Bool) (s : State) : Safety.givesDev (.boostWrite boost) s
    (s.dev.capWrite (s.dev.rf Reg.PWR_CTRL Fld.PWR_CTRL.CAP) boost) := rfl

/-- Settles O11: a write of PWR_CTRL is refused, held or begins a change (`Dev.capWrite_held`, `Dev.capWrite_starts`); a settled
rail ends the change, and begins one that has been asked for meanwhile; a measurement stands beside the governor's reaction. -/
theorem powerCapsAndGovernor : Obligations.PowerCapsAndGovernor := by
  unfold Obligations.PowerCapsAndGovernor
  refine ⟨?capRefused, ?boostRefused, ?capHeld, ?boostHeld, ?capStarts, ?boostStarts, ?settled, ?again, ?idle, ?measured⟩
  case capRefused =>
    intro cap s boot
    rw [← Dev.capWrite_bootOnly boot]
    exact exec_capWrite cap s
  case boostRefused =>
    intro boost s boot
    rw [← Dev.capWrite_bootOnly boot]
    exact exec_boostWrite boost s
  case capHeld =>
    intro cap s boot held
    have write := exec_capWrite cap s
    rw [Dev.capWrite_held boot (held.imp_right (Or.imp_right fun same => ⟨same, .inr rfl⟩))] at write
    exact ⟨_, write, Dev.cap_askCap _ _ _ cap.isLt, Safety.onlyRegs_askCap _ _ s⟩
  case boostHeld =>
    intro boost s boot held
    have write := exec_boostWrite boost s
    rw [Dev.capWrite_held boot held] at write
    exact ⟨_, write, Dev.boost_askCap _ _ _, Safety.onlyRegs_askCap _ _ s⟩
  case capStarts =>
    intro cap s boot on free other
    have write := exec_capWrite cap s
    rw [Dev.capWrite_starts boot on free (.inl other)] at write
    refine ⟨_, write, ⟨rfl, rfl⟩, ?_, Dev.trans_startCap _ _ _, Dev.change_startCap _ _ _⟩
    rw [Dev.rf, Dev.reg_startCap_ne _ _ _ (by decide) (by decide), ← Dev.rf, Dev.cap_askCap _ _ _ cap.isLt]
  case boostStarts =>
    intro boost s boot on free top _ other
    have write := exec_boostWrite boost s
    rw [Dev.capWrite_starts boot on free (.inr ⟨top, other⟩), top] at write
    refine ⟨_, write, ⟨rfl, rfl⟩, ?_, Dev.trans_startCap _ _ _, Dev.change_startCap _ _ _⟩
    rw [Dev.rf, Dev.reg_startCap_ne _ _ _ (by decide) (by decide), ← Dev.rf, Dev.boost_askCap]
  case settled =>
    intro cap boost s inRange change asked boosted
    exact ⟨_, exec_railSettled_done change asked boosted, ⟨rfl, rfl⟩, Dev.change_endCap _ _ _, Dev.trans_endCap _ _ _,
      Dev.capEff_endCap _ _ _ inRange, Dev.count_endCap _ _ _⟩
  case again =>
    intro cap boost s inRange change other
    refine ⟨_, exec_railSettled_again change other, ⟨rfl, rfl⟩, Dev.change_startCap _ _ _, Dev.trans_startCap _ _ _, ?_⟩
    rw [Dev.capEff_startCap, Dev.capEff_endCap _ _ _ inRange]
  case idle => exact fun s free => ⟨_, exec_railSettled_idle free, ⟨rfl, rfl⟩, rfl, rfl⟩
  case measured =>
    intro avg s on
    obtain ⟨stat, count⟩ := PWR_MEAS_notGovern
    refine ⟨_, exec_governor on, ⟨rfl, rfl⟩, ?_, ?_⟩
    · rw [Dev.rf, Dev.reg_govern stat count, ← Dev.rf, Dev.rf_wf_field _ _ _, Dev.rf_wf_same]
      exact Nat.mod_eq_of_lt avg.isLt
    · rw [Dev.rf, Dev.reg_govern stat count, ← Dev.rf, Dev.rf_wf_same]
      exact Nat.mod_eq_of_lt (max_lt avg.isLt (bits_lt _ _ _))

end Machine
end Sys2Proof
end

section
/-!
PROOFS. Power failure and cooling (O12), and temperature (O13).
-/
namespace Sys2Proof
namespace Machine

/-! ### The fabric goes down and comes back (R588, R589, R593) -/

theorem Dev.pwr_fabDown (d : Dev) : d.fabDown.pwr
    = { d.pwr with fabOn := false, change := none, moving := none, settled := false, stretching := none } := by
  unfold Dev.fabDown
  dsimp only
  rw [Dev.pwr_paceSlow, Dev.wf_pwr, foldl_keeps Dev.pwr fun m _ e => Dev.wf_pwr e _ _ _]

theorem Dev.pwr_applyCap (d : Dev) : ∃ x y z, d.applyCap.pwr = { d.pwr with stretching := x, moving := y, settled := z } := by
  unfold Dev.applyCap
  dsimp only
  obtain ⟨y, z, rail⟩ := Dev.pwr_commandFab _ _
  rw [rail, Dev.wf, Dev.setReg_pwr]
  obtain ⟨x, stretch⟩ := Dev.pwr_setStretch _ _
  exact ⟨x, y, z, by rw [stretch]⟩

/-- A cap that starts a change leaves VDD_FAB as it is. -/
theorem Dev.pwr_startCap_if (d : Dev) (c : Prop) [Decidable c] (cap : Nat) (boost : Bool) :
    (if c then d.startCap cap boost else d).pwr.pwrFail = d.pwr.pwrFail
      ∧ (if c then d.startCap cap boost else d).pwr.fabOn = d.pwr.fabOn := by
  split
  · obtain ⟨x, y, z, pwr⟩ := d.pwr_startCap cap boost
    rw [pwr]
    exact ⟨rfl, rfl⟩
  · exact ⟨rfl, rfl⟩

theorem Dev.pwr_flServe_if (d : Dev) (c : Prop) [Decidable c] : (if c then d.flServe else d).pwr = d.pwr := by
  split
  · exact Dev.wf_pwr _ _ _ _
  · rfl

section BootOnly
variable (d : Dev)

theorem Dev.bootOnly_enterBootOnly : d.enterBootOnly.bootOnly = true := by
  rw [Dev.bootOnly, Dev.rfB, Dev.enterBootOnly, Dev.rf_commandFab _ _ (by decide), Dev.rf_wf_field _ _ _,
    Dev.rf_setStretch_field _ _ (by decide), Dev.rf_wf_same]
  rfl

theorem Dev.stretch_enterBootOnly : d.enterBootOnly.stretch = 32 := by
  rw [Dev.stretch, Dev.enterBootOnly, Dev.rf_commandFab _ _ (by decide), Dev.rf_wf_field _ _ _, ← Dev.stretch,
    Dev.stretch_setStretch, Nat.mod_eq_of_lt (by decide)]

theorem Dev.limit_enterBootOnly : d.enterBootOnly.rf Reg.PWR_STAT Fld.PWR_STAT.HBM_LIM = 3 := by
  rw [Dev.enterBootOnly, Dev.rf_commandFab _ _ (by decide), Dev.rf_wf_same]
  rfl

end BootOnly

section Events
variable {s : State}

/-- Whatever the steps, the ports and the streams do at a power failure, VDD_FAB ends off. -/
theorem exec_powerFail (on : s.dev.pwr.porst = false) (supplied : s.dev.pwr.pwrFail = false) :
    ∃ (m : Mach) (e : Dev), Safety.gives .powerFail s m
      ∧ m.dev = { e.fabDown with pwr := { e.fabDown.pwr with pwrFail := true } } := by
  have hd : exec .powerFail s = execPowerFail s := rfl
  rw [execPowerFail, run_eq] at hd
  dsimp only at hd
  rw [on, supplied, if_neg (by decide)] at hd
  exact ⟨_, _, hd, rfl⟩

theorem exec_powerFail_ignored (h : s.dev.pwr.porst = true ∨ s.dev.pwr.pwrFail = true) : Safety.givesDev .powerFail s s.dev := by
  have hd : exec .powerFail s = execPowerFail s := rfl
  rw [execPowerFail, run_eq] at hd
  dsimp only at hd
  rwa [if_pos (Bool.or_eq_true _ _ ▸ h)] at hd

/-- Neither the flash subsystem nor a cap that waits changes whether VDD_FAB is on. -/
theorem exec_powerRestore (failed : s.dev.pwr.pwrFail = true) :
    ∃ e, Safety.givesDev .powerRestore s e ∧ e.pwr.pwrFail = false ∧ e.pwr.fabOn = !s.dev.pwr.tripped := by
  have hd : exec .powerRestore s = execPowerRestore s := rfl
  rw [execPowerRestore, runDev_eq] at hd
  dsimp only at hd
  rw [failed, if_neg (by decide)] at hd
  refine ⟨_, hd, ?_⟩
  generalize restored : ({ s.dev with pwr := { s.dev.pwr with pwrFail := false, fabOn := !s.dev.pwr.tripped } } : Dev) = d
  have applied : d.applyCap.pwr.pwrFail = false ∧ d.applyCap.pwr.fabOn = !s.dev.pwr.tripped := by
    obtain ⟨x, y, z, pwr⟩ := d.pwr_applyCap
    rw [pwr, ← restored]
    exact ⟨rfl, rfl⟩
  rw [(Dev.pwr_startCap_if _ _ _ _).1, (Dev.pwr_startCap_if _ _ _ _).2, Dev.pwr_flServe_if]
  exact applied

theorem exec_powerRestore_ignored (h : s.dev.pwr.pwrFail = false) : Safety.givesDev .powerRestore s s.dev := by
  have hd : exec .powerRestore s = execPowerRestore s := rfl
  rw [execPowerRestore, runDev_eq] at hd
  dsimp only at hd
  rwa [h, if_pos (by decide)] at hd

/-- Whatever the steps and the ports do at a loss of cooling, the package ends in boot-only mode. -/
theorem exec_cooling (on : s.dev.pwr.porst = false) (cool : s.dev.bootOnly = false) :
    ∃ (m : Mach) (e : Dev), Safety.gives .cooling s m ∧ m.dev = e.enterBootOnly := by
  have hd : exec .cooling s = execCooling s := rfl
  rw [execCooling, run_eq] at hd
  dsimp only at hd
  rw [on, cool, if_neg (by decide)] at hd
  exact ⟨_, _, hd, rfl⟩

theorem exec_cooling_ignored (h : s.dev.pwr.porst = true ∨ s.dev.bootOnly = true) : Safety.givesDev .cooling s s.dev := by
  have hd : exec .cooling s = execCooling s := rfl
  rw [execCooling, run_eq] at hd
  dsimp only at hd
  rwa [if_pos (Bool.or_eq_true _ _ ▸ h)] at hd

end Events

/-- Settles O12: each event by the last thing that it does to the fabric, and by the check that lets it pass. -/
theorem powerFailureAndCooling : Obligations.PowerFailureAndCooling := by
  unfold Obligations.PowerFailureAndCooling
  refine ⟨?fails, ?restored, ?cooling, fun s => ⟨exec_powerFail_ignored, exec_powerRestore_ignored, exec_cooling_ignored⟩⟩
  case fails =>
    intro s on supplied
    obtain ⟨m, e, fails, down⟩ := exec_powerFail on supplied
    refine ⟨_, fails, rfl, ?_⟩
    dsimp only
    rw [down, e.pwr_fabDown]
    exact ⟨rfl, rfl, rfl⟩
  case restored =>
    intro s failed
    obtain ⟨e, restores, supplied, on⟩ := exec_powerRestore failed
    exact ⟨_, restores, ⟨rfl, rfl⟩, supplied, on⟩
  case cooling =>
    intro s on cool
    obtain ⟨m, e, cools, boot⟩ := exec_cooling on cool
    refine ⟨_, cools, rfl, ?_⟩
    dsimp only
    rw [boot]
    exact ⟨e.bootOnly_enterBootOnly, e.stretch_enterBootOnly, e.limit_enterBootOnly⟩

/-! ### Temperature (R592) -/

theorem PWR_THERM_notThrottled : Reg.PWR_THERM ≠ Reg.PWR_STAT ∧ Reg.PWR_THERM ≠ Reg.GEN_PACE_SLOW
    ∧ Reg.PWR_THERM ≠ Reg.PWR_CNT_k 2 ∧ Reg.PWR_THERM ≠ Reg.HBM_STAT := by decide

/-- The device after the fabric's throttle has begun, gone on or ended. -/
def Dev.fabThrottled (d : Dev) (t : Int) : Dev :=
  if decide (t > 105) && !d.pwr.fabThrottle then
    { (d.raise 1 Src.MONITOR 0x0003 0xFFFF (wrap 64 t)).cnt (Reg.PWR_CNT_k 2) 1 with
      pwr := { ((d.raise 1 Src.MONITOR 0x0003 0xFFFF (wrap 64 t)).cnt (Reg.PWR_CNT_k 2) 1).pwr with
        fabThrottle := true
        fabCool := 0 } }.applyCap
  else if !d.pwr.fabThrottle then d
  else
    let n := if t ≤ 100 then d.pwr.fabCool + 1 else 0
    if n < 100 then { d with pwr := { d.pwr with fabCool := n } }
    else { d with pwr := { d.pwr with fabThrottle := false, fabCool := 0 } }.applyCap

/-- Checks above 110 °C are counted, and the second one raises its fault. -/
theorem Dev.fabThermal_eq (d : Dev) (t : Int) : ∃ (n : Nat) (e : Dev),
    e = { d.fabThrottled t with pwr := { (d.fabThrottled t).pwr with fabHot := n } }
      ∧ (d.fabThermal t = e.raise 2 Src.MONITOR 0x0004 0xFFFF (wrap 64 t) ∨ d.fabThermal t = e) :=
  ⟨_, _, rfl, ite_eq_or_eq _ _ _⟩

/-- Above 105 °C the fabric is throttled, whether it was before or not. -/
theorem Dev.throttle_fabThermal (d : Dev) {t : Int} (hot : t > 105) : (d.fabThermal t).pwr.fabThrottle = true := by
  have throttled : (d.fabThrottled t).pwr.fabThrottle = true := by
    unfold Dev.fabThrottled
    cases already : d.pwr.fabThrottle with
    | false =>
      rw [if_pos (by simpa using hot)]
      obtain ⟨x, y, z, pwr⟩ := Dev.pwr_applyCap _
      rw [pwr]
    | true =>
      rw [if_neg (by simp), if_neg (by simp), if_neg (by omega : ¬t ≤ 100)]
      exact already
  obtain ⟨n, e, counted, faulted | quiet⟩ := d.fabThermal_eq t
  · rw [faulted, counted]
    exact throttled
  · rw [quiet, counted]
    exact throttled

section Thermal
variable (d : Dev) {a : Nat} (notStat : a ≠ Reg.PWR_STAT) (notSlow : a ≠ Reg.GEN_PACE_SLOW)
include notStat notSlow

theorem Dev.reg_applyCap_ne : d.applyCap.reg a = d.reg a := by
  unfold Dev.applyCap
  dsimp only
  rw [Dev.reg_commandFab_ne _ _ notStat notSlow, Dev.reg_wf_ne _ _ _ notStat, Dev.reg_setStretch_ne _ _ notStat]

variable (notCount : a ≠ Reg.PWR_CNT_k 2)
include notCount

/-- The throttle writes PWR_STAT, the report of the slowest monitor and a counter. -/
theorem Dev.reg_fabThrottled (t : Int) : (d.fabThrottled t).reg a = d.reg a := by
  unfold Dev.fabThrottled
  split
  · rw [Dev.reg_applyCap_ne _ notStat notSlow]
    exact (Dev.reg_cnt_ne _ _ notCount).trans (Dev.reg_raise _ _ _ _ _ _ _)
  · split
    · rfl
    · dsimp only
      generalize (if t ≤ 100 then d.pwr.fabCool + 1 else 0) = cool
      split
      · rfl
      · exact Dev.reg_applyCap_ne _ notStat notSlow

theorem Dev.reg_fabThermal (t : Int) : (d.fabThermal t).reg a = d.reg a := by
  rw [← d.reg_fabThrottled notStat notSlow notCount t]
  obtain ⟨n, e, counted, faulted | quiet⟩ := d.fabThermal_eq t
  · rw [faulted, counted]
    rfl
  · rw [quiet, counted]
    rfl

end Thermal

/-- A stack's check writes a counter, and leaves the fabric's throttle. -/
theorem Dev.hbmThermal_keeps (d : Dev) (i : Nat) (t : Int) : (d.hbmThermal i t).pwr.fabThrottle = d.pwr.fabThrottle
    ∧ ∀ a, a ≠ Reg.PWR_CNT_k 2 → (d.hbmThermal i t).reg a = d.reg a := by
  obtain ⟨e, checked, throttle, regs⟩ : ∃ e : Dev, d.hbmThermal i t = (if t > 105 then
      if e.pwr.hbmOver.contains i then e
      else { e.raise 2 Src.MONITOR 0x0006 i (wrap 64 t) with pwr := { e.pwr with hbmOver := e.pwr.hbmOver ++ [i] } }
    else { e with pwr := { e.pwr with hbmOver := e.pwr.hbmOver.filter (· != i) } })
      ∧ e.pwr.fabThrottle = d.pwr.fabThrottle ∧ ∀ a, a ≠ Reg.PWR_CNT_k 2 → e.reg a = d.reg a := by
    refine ⟨_, rfl, ?_, fun a other => ?_⟩
    · split
      · split
        · dsimp only
          rw [Dev.pwr_cnt]
          rfl
        · rfl
      · rfl
    · split
      · split
        · exact (Dev.reg_cnt_ne _ _ other).trans (Dev.reg_raise _ _ _ _ _ _ _)
        · rfl
      · rfl
  rw [checked, ← throttle]
  split
  · split
    · exact ⟨rfl, regs⟩
    · exact ⟨rfl, regs⟩
  · exact ⟨rfl, regs⟩

/-- The device with the temperatures of a check in PWR_THERM and HBM_STAT. -/
def Dev.showTemps (d : Dev) (fab : Int) (hbm : List Int) : Dev :=
  match hbm.foldl (fun (a : Option Int) t => some (match a with
      | some x => max x t
      | none => t)) none with
  | some t => ((d.wf Reg.PWR_THERM Fld.PWR_THERM.FAB_MAX (wrap 8 fab)).wf Reg.PWR_THERM Fld.PWR_THERM.HBM_MAX (wrap 8 t)).wf
      Reg.HBM_STAT Fld.HBM_STAT.HOT (hotBits hbm)
  | none => d.wf Reg.PWR_THERM Fld.PWR_THERM.FAB_MAX (wrap 8 fab)

theorem Dev.fabMax_showTemps (d : Dev) (fab : Int) (hbm : List Int) :
    (d.showTemps fab hbm).rf Reg.PWR_THERM Fld.PWR_THERM.FAB_MAX = wrap 8 fab := by
  have fits : wrap 8 fab % 2 ^ 8 = wrap 8 fab := by
    unfold wrap
    omega
  unfold Dev.showTemps
  split
  · rw [Dev.rf_wf_ne _ _ _ _ PWR_THERM_notThrottled.2.2.2, Dev.rf_wf_field _ _ _, Dev.rf_wf_same]
    exact fits
  · rw [Dev.rf_wf_same]
    exact fits

/-- The checks of the fabric and of the stacks, on the temperatures shown. -/
def Dev.thermal (d : Dev) (fab : Int) (hbm : List Int) : Dev :=
  ((List.range 4).zip hbm).foldl (fun (d : Dev) p => d.hbmThermal p.1 p.2) ((d.showTemps fab hbm).fabThermal fab)

/-- Outside PORST the temperatures are shown, the checks are made, and the HBM limit follows the first and the last hot stack. -/
theorem exec_thermalCheck {fab : Int} {hbm : List Int} {s : State} (on : s.dev.pwr.porst = false) :
    ∃ lim, Safety.givesDev (.thermalCheck fab hbm) s
      (if ((s.dev.showTemps fab hbm).fabThermal fab).pwr.hbmHot.isEmpty == (s.dev.thermal fab hbm).pwr.hbmHot.isEmpty then
        s.dev.thermal fab hbm
      else (s.dev.thermal fab hbm).wf Reg.PWR_STAT Fld.PWR_STAT.HBM_LIM lim) := by
  have hd : exec (.thermalCheck fab hbm) s = execThermalCheck fab hbm s := rfl
  rw [execThermalCheck, runDev_eq] at hd
  rw [if_neg (by rw [on]; decide)] at hd
  exact ⟨_, hd⟩

theorem exec_thermalCheck_porst {fab : Int} {hbm : List Int} {s : State} (off : s.dev.pwr.porst = true) :
    Safety.givesDev (.thermalCheck fab hbm) s s.dev := by
  have hd : exec (.thermalCheck fab hbm) s = execThermalCheck fab hbm s := rfl
  rw [execThermalCheck, runDev_eq] at hd
  rwa [if_pos off] at hd

theorem exec_thermtrip (s : State) : Safety.givesDev .thermtrip s
    (if s.dev.pwr.porst then s.dev else { s.dev with pwr := { s.dev.pwr with tripped := true } }) := rfl

/-- Settles O13: a check by what it shows (`Dev.fabMax_showTemps`) and by the throttle (`Dev.throttle_fabThermal`), which no
stack's check changes; THERMTRIP by the one field that it sets. -/
theorem thermalLimits : Obligations.ThermalLimits := by
  unfold Obligations.ThermalLimits
  refine ⟨?check, ?trip, ?porst⟩
  case check =>
    intro fab hbm s on
    obtain ⟨notStat, notSlow, notCount, -⟩ := PWR_THERM_notThrottled
    have shown : (s.dev.thermal fab hbm).rf Reg.PWR_THERM Fld.PWR_THERM.FAB_MAX = wrap 8 fab := by
      have kept : (s.dev.thermal fab hbm).reg Reg.PWR_THERM = ((s.dev.showTemps fab hbm).fabThermal fab).reg Reg.PWR_THERM :=
        foldl_keeps (Dev.reg · Reg.PWR_THERM) (fun p _ d => (d.hbmThermal_keeps p.1 p.2).2 _ notCount) _
      rw [Dev.rf, kept, Dev.reg_fabThermal _ notStat notSlow notCount, ← Dev.rf, Dev.fabMax_showTemps]
    have throttled : fab > 105 → (s.dev.thermal fab hbm).pwr.fabThrottle = true := fun hot =>
      (foldl_keeps (fun d : Dev => d.pwr.fabThrottle) (fun p _ d => (d.hbmThermal_keeps p.1 p.2).1) _).trans
        (Dev.throttle_fabThermal _ hot)
    obtain ⟨lim, checked⟩ := exec_thermalCheck (fab := fab) (hbm := hbm) on
    refine ⟨_, checked, ⟨rfl, rfl⟩, ?_⟩
    dsimp only
    split
    · exact ⟨shown, throttled⟩
    · exact ⟨by rw [Dev.rf_wf_ne _ _ _ _ notStat, shown], throttled⟩
  case trip =>
    intro s on
    have trips := exec_thermtrip s
    rw [if_neg (by rw [on]; decide)] at trips
    exact ⟨_, trips, rfl, by simp [Dev.safeReqN], rfl⟩
  case porst =>
    intro fab hbm s off
    have trips := exec_thermtrip s
    rw [if_pos off] at trips
    exact ⟨exec_thermalCheck_porst off, trips⟩

end Machine
end Sys2Proof
end

section
/-!
PROOFS. The watch agents' reset and fence (O10), and the periodic self-test (O17).
-/
namespace Sys2Proof
namespace Machine

/-! ### What a retirement and a self-test leave of a tile (R112, R113, R116) -/

/-- From `d` to `e` only the moves that wait change in the tile, the aggregator's state stays, and no fault raised is lost. -/
structure Dev.ArraysStay (t : Nat) (d e : Dev) : Prop where
  tile : ∃ moves, e.tile t = { d.tile t with remap := moves }
  saf : e.saf = d.saf
  raised : ∀ f ∈ d.raised, f ∈ e.raised

namespace Dev.ArraysStay
variable {t : Nat} {d e f : Dev}

theorem refl (d : Dev) : ArraysStay t d d := ⟨⟨_, rfl⟩, rfl, fun _ h => h⟩

theorem trans (h : ArraysStay t d e) (h' : ArraysStay t e f) : ArraysStay t d f := by
  obtain ⟨moves, tile⟩ := h.tile
  obtain ⟨moves', tile'⟩ := h'.tile
  exact ⟨⟨moves', by rw [tile', tile]⟩, h'.saf.trans h.saf, fun r hr => h'.raised r (h.raised r hr)⟩

theorem setReg (d : Dev) (a v : Nat) : ArraysStay t d (d.setReg a v) := ⟨⟨_, rfl⟩, rfl, fun _ h => h⟩

theorem raise (d : Dev) (c s k u x : Nat) : ArraysStay t d (d.raise c s k u x) :=
  ⟨⟨_, rfl⟩, rfl, fun _ h => List.mem_append_left _ h⟩

theorem raiseAt (d : Dev) (n c s k u x : Nat) : ArraysStay t d (d.raiseAt n c s k u x) := by
  unfold Dev.raiseAt
  split
  · exact ⟨⟨_, rfl⟩, rfl, fun _ h => List.mem_append_left _ h⟩
  · exact raise d c s k u x

theorem dropTileOk (d : Dev) (u : Nat) : ArraysStay t d (d.dropTileOk u) := setReg d _ _

theorem remap (d : Dev) (moves : TileSt → AMap Nat) : ArraysStay t d (d.modTile t (fun x => { x with remap := moves x })) :=
  ⟨⟨_, Dev.tile_setTile_same _ _ _⟩, rfl, fun _ h => h⟩

theorem ite {c : Prop} [Decidable c] (he : ArraysStay t d e) (hf : ArraysStay t d f) : ArraysStay t d (if c then e else f) := by
  split
  · exact he
  · exact hf

/-- Rounds that each leave the tile's arrays leave them all together. -/
theorem foldl {σ α : Type} (g : σ → Dev) {step : σ → α → σ} (h : ∀ s x, ArraysStay t (g s) (g (step s x))) (xs : List α) (s : σ) :
    ArraysStay t (g s) (g (xs.foldl step s)) := by
  induction xs generalizing s with
  | nil => exact refl _
  | cons x xs ih => exact (h s x).trans (ih _)

theorem retire (d : Dev) (n p cause entry : Nat) : ArraysStay t d (d.retire n t p cause entry) := by
  unfold Dev.retire
  refine ite (refl d) ?_
  dsimp only
  refine trans ?retired (ite (raiseAt _ _ _ _ _ _ _) (refl _))
  refine trans ?moved (ite (dropTileOk _ _) (ite (trans (dropTileOk _ _) (raiseAt _ _ _ _ _ _ _)) (refl _)))
  exact trans (trans (trans (setReg _ _ _) (setReg _ _ _)) (remap _ _)) (raiseAt _ _ _ _ _ _ _)

theorem spareRow (d : Dev) (u p k : Nat) : ArraysStay t d (d.spareRow u p k).1 := by
  unfold Dev.spareRow
  dsimp only
  split
  · exact (setReg d _ _).trans (setReg _ _ _)
  · exact refl d

theorem spareCol (d : Dev) (u p k : Nat) : ArraysStay t d (d.spareCol u p k).1 := by
  unfold Dev.spareCol
  dsimp only
  split
  · exact (setReg d _ _).trans (setReg _ _ _)
  · exact refl d

theorem testArrays (d : Dev) (bound : Bool) (found : ArrayFaults) : ArraysStay t d (d.testArrays t bound found).1 := by
  unfold Dev.testArrays
  cases bound with
  | true => exact refl d
  | false =>
    refine (foldl Prod.fst (fun q x => ?row) _ (d, [])).trans (foldl Prod.fst (fun q x => ?col) _ _)
    case row =>
      dsimp only
      split
      · exact spareRow _ _ _ _
      · exact refl _
    case col =>
      dsimp only
      split
      · exact spareCol _ _ _ _
      · exact refl _

theorem resetArrays (d : Dev) (found : ArrayFaults) : ArraysStay t d (d.resetArrays t found) := by
  have tested := testArrays (t := t) d (d.tileBound t) found
  unfold Dev.resetArrays
  generalize d.testArrays t (d.tileBound t) found = q at tested ⊢
  obtain ⟨e, failing⟩ := q
  refine tested.trans ?_
  dsimp only
  refine ((foldl id (fun d p => ?back) _ e).trans ((setReg _ _ _).trans (foldl id (fun d p => ?fails) failing _))).trans
    (remap _ fun _ => [])
  case back => exact setReg _ _ _
  case fails => exact ite (setReg _ _ _) (retire _ _ _ _ _)

end Dev.ArraysStay

/-! ### The watch agents (R492) -/

section Watch
variable {s : State} {t : Fin 96}

theorem exec_haltTimeout (found : ArrayFaults) (halting : s.dev.saf.halting.contains t.val = true) :
    Safety.givesDev (.haltTimeout t found) s
      (((Dev.raise { s.dev with saf := { s.dev.saf with
        halting := s.dev.saf.halting.filter (· != t.val)
        wasReset := s.dev.saf.wasReset.filter (· != t.val) ++ [t.val] } } 1 Src.WATCH 0x0003 t.val 0).tileReset t.val).resetArrays
          t.val found) := by
  have hd : exec (.haltTimeout t found) s = execHaltTimeout t found s := rfl
  rw [execHaltTimeout, runDev_eq] at hd
  rwa [if_neg (by rw [halting]; decide)] at hd

theorem exec_fence (wasReset : s.dev.saf.wasReset.contains t.val = true) : Safety.givesDev (.fence t) s
    ((Dev.wf { s.dev with saf := { s.dev.saf with wasReset := s.dev.saf.wasReset.filter (· != t.val) } } (Reg.TILE_STAT t.val)
      Fld.TILE_STAT.FENCED 1).raise 1 Src.WATCH 0x0004 t.val 0) := by
  have hd : exec (.fence t) s = execFence t s := rfl
  rw [execFence, runDev_eq] at hd
  rwa [if_neg (by rw [wasReset]; decide)] at hd

theorem exec_xbarFault {r : Fin 24} (on : s.dev.ridgeOn r.val = true) : Safety.givesDev (.xbarFault r) s
    ((s.dev.wf (Reg.RDG_STAT r.val) Fld.RDG_STAT.XBAR_FAULT 1).raise 1 Src.RIDGE 0x0001 r.val 0) := by
  have hd : exec (.xbarFault r) s = execXbarFault r s := rfl
  rw [execXbarFault, runDev_eq] at hd
  rwa [if_pos on] at hd

end Watch

/-- A number filtered out of a list is in it no more. -/
theorem contains_filter_ne (xs : List Nat) (n : Nat) : (xs.filter (· != n)).contains n = false := by simp

theorem getD_replicate_default {α : Type} (n : Nat) (x : α) (i : Nat) : (List.replicate n x).getD i x = x := by
  simp [List.getD_eq_getElem?_getD, List.getElem?_replicate]
  split <;> rfl

/-- After a tile's reset its arrays hold nothing. -/
theorem Dev.larr_tileReset (d : Dev) (t l : Nat) : (d.tileReset t).larr t l = {} := by
  rw [Dev.larr, Dev.tileReset, Dev.modTile, Dev.tile_setTile_same]
  exact getD_replicate_default _ _ _

/-- Settles O10: the reset by what the arrays' self-test leaves (`Dev.ArraysStay`), the fence and the crossbar fault by the one
field and the record that each writes. -/
theorem watchAgentsResetAndFence : Obligations.WatchAgentsResetAndFence := by
  unfold Obligations.WatchAgentsResetAndFence
  refine ⟨?reset, ?fence, ?crossbar⟩
  case reset =>
    intro t found s halting
    have stay := Dev.ArraysStay.resetArrays (t := t.val) (Dev.tileReset (Dev.raise { s.dev with saf := { s.dev.saf with
      halting := s.dev.saf.halting.filter (· != t.val)
      wasReset := s.dev.saf.wasReset.filter (· != t.val) ++ [t.val] } } 1 Src.WATCH 0x0003 t.val 0) t.val) found
    refine ⟨_, exec_haltTimeout found halting, ⟨rfl, rfl⟩, ?_, ?_, stay.raised _ (List.mem_append_right _ (List.mem_singleton.mpr rfl)),
      fun l _ => ?_⟩
    · dsimp only
      rw [stay.saf]
      exact List.contains_iff_mem.mpr (List.mem_append_right _ (List.mem_singleton.mpr rfl))
    · dsimp only
      rw [stay.saf]
      exact contains_filter_ne _ _
    · obtain ⟨moves, tile⟩ := stay.tile
      dsimp only
      rw [Dev.larr, tile]
      exact Dev.larr_tileReset _ _ l
  case fence =>
    intro t s wasReset
    exact ⟨_, exec_fence wasReset, ⟨rfl, rfl⟩, Dev.rf_wf_same _ _ _, contains_filter_ne _ _, rfl⟩
  case crossbar =>
    intro r s on
    exact ⟨_, exec_xbarFault on, ⟨rfl, rfl⟩, Dev.rf_wf_same _ _ _, rfl, fun a other => Dev.reg_wf_ne _ _ _ other⟩

/-! ### The count of chunks done (R507, R512) -/

/-- A unit of tile memory lies in one of the three memories of a tile. -/
theorem tileMemRow_eq (u : Nat) : ∃ mem row, mem < 3 ∧ tileMemRow u = ((u - 0x010000000000) / 0x400000, mem, row) := by
  unfold tileMemRow
  dsimp only
  split
  · exact ⟨0, _, by decide, rfl⟩
  · split
    · exact ⟨1, _, by decide, rfl⟩
    · exact ⟨2, _, by decide, rfl⟩

theorem Dev.inTiles_of_region {d : Dev} {u t : Nat}
    (h : d.region u = .tileAm t ∨ d.region u = .tileWm t ∨ d.region u = .tilePs t) : 0x010000000000 ≤ u ∧ u < 0x010018000000 := by
  by_contra outside
  unfold Dev.region at h
  simp only [Bool.and_eq_true, decide_eq_true_eq, outside, if_false] at h
  split_ifs at h <;> simp at h

/-- The tile and the memory of a unit, with the tile one of 96 where the unit lies in tile memory. -/
theorem Dev.place_of_region (d : Dev) (u : Nat) : ∃ t mem row, tileMemRow u = (t, mem, row) ∧ mem < 3
    ∧ ∀ r, (d.region u = .tileAm r ∨ d.region u = .tileWm r ∨ d.region u = .tilePs r) → t < 96 := by
  obtain ⟨mem, row, inMem, place⟩ := tileMemRow_eq u
  refine ⟨_, mem, row, place, inMem, fun r h => ?_⟩
  obtain ⟨low, high⟩ := Dev.inTiles_of_region h
  omega

section Counted
variable (d : Dev) {a : Nat} (u : Nat) (above : regSpace + 0xC0000 ≤ a)
include above

/-- The counters of a tile stand in the tile's window, below the registers. -/
theorem reg_ne_tile {t : Nat} (h : t < 96) : (∀ m, m < 3 → a ≠ Reg.TILE_ECC_CE_m t m) ∧ a ≠ Reg.TILE_ECC_UE t
    ∧ a ≠ Reg.TILE_ECC_LAST t := by
  simp only [regSpace, Reg.TILE_ECC_CE_m, Reg.TILE_ECC_UE, Reg.TILE_ECC_LAST] at above ⊢
  exact ⟨fun m inMem => by omega, by omega, by omega⟩

theorem reg_ne_hbm : (∀ k, k < 5 → a ≠ Reg.HBM_CNT_k k) ∧ a ≠ Reg.HBM_UE_ADDR_LO ∧ a ≠ Reg.HBM_UE_ADDR_LO + 4
    ∧ a ≠ Reg.HBM_UE_INFO := by
  simp only [regSpace, Reg.HBM_CNT_k, Reg.HBM_UE_ADDR_LO, Reg.HBM_UE_INFO] at above ⊢
  exact ⟨fun k few => by omega, by omega, by omega, by omega⟩

/-- A correctable unit found is counted below the registers of functional safety. -/
theorem Dev.reg_corrected_above : (d.corrected u).reg a = d.reg a := by
  obtain ⟨hbm, -⟩ := reg_ne_hbm above
  obtain ⟨t, mem, row, place, inMem, inTile⟩ := d.place_of_region u
  unfold Dev.corrected
  rw [place]
  have counted : ∀ e : Dev, t < 96 →
      ((e.cnt (Reg.TILE_ECC_CE_m t mem) 1).setReg (Reg.TILE_ECC_LAST t) (mem * 2 ^ 29 + row % 2 ^ 15)).reg a = e.reg a :=
    fun e inTile => by
      obtain ⟨count, -, last⟩ := reg_ne_tile above inTile
      rw [Dev.reg_setReg_ne _ _ last, Dev.reg_cnt_ne _ _ (count mem inMem)]
  dsimp only
  split
  · exact Dev.reg_cnt_ne _ _ (hbm 0 (by decide))
  · split
    next => rfl
    next => rfl
    next r h => exact counted _ (inTile r (.inl h))
    next r h => exact counted _ (inTile r (.inr (.inl h)))
    next r h => exact counted _ (inTile r (.inr (.inr h)))
    next => rfl

/-- An uncorrectable unit found is counted below the registers of functional safety. -/
theorem Dev.reg_uncorrectable_above (req loop : Nat) : (d.uncorrectable u req loop).reg a = d.reg a := by
  obtain ⟨hbm, low, high, info⟩ := reg_ne_hbm above
  obtain ⟨t, mem, row, place, inMem, inTile⟩ := d.place_of_region u
  unfold Dev.uncorrectable
  rw [place]
  have counted : t < 96 →
      ((d.cnt (Reg.TILE_ECC_UE t) 1).setReg (Reg.TILE_ECC_LAST t) (2 ^ 31 + mem * 2 ^ 29 + row % 2 ^ 15)).reg a = d.reg a :=
    fun inTile => by
      obtain ⟨-, count, last⟩ := reg_ne_tile above inTile
      rw [Dev.reg_setReg_ne _ _ last, Dev.reg_cnt_ne _ _ count]
  have ofOffset (e : Dev) (o : Prop) [Decidable o] : (if o then e.cnt (Reg.HBM_CNT_k 2) 1 else e).reg a = e.reg a := by
    split
    · exact Dev.reg_cnt_ne _ _ (hbm 2 (by decide))
    · rfl
  have located (e : Dev) (x : Nat) : ((e.setReg64 Reg.HBM_UE_ADDR_LO u).setReg Reg.HBM_UE_INFO x).reg a = e.reg a := by
    rw [Dev.reg_setReg_ne _ _ info, Dev.reg_setReg64_ne _ _ low high]
  dsimp only
  split
  · have raised : ∀ e : Dev, ∀ x y : Nat, (if loop < 16 then e.raiseFor loop 1 Src.HBM 1 x y else e.raise 1 Src.HBM 1 x y).reg a
        = e.reg a := fun e x y => by split <;> rfl
    rw [raised, located, ofOffset, Dev.reg_cnt_ne _ _ (hbm 1 (by decide))]
  · split
    next => rfl
    next => rfl
    next r h => exact counted (inTile r (.inl h))
    next r h => exact counted (inTile r (.inr (.inl h)))
    next r h => exact counted (inTile r (.inr (.inr h)))
    next => rfl

end Counted

/-! ### Chunks of the periodic self-test (R507, R510 to R512) -/

theorem Dev.ArraysStay.chunk {t : Nat} {d e : Dev} (h : Dev.ArraysStay t d e) : (e.tile t).chunk = (d.tile t).chunk := by
  obtain ⟨moves, tile⟩ := h.tile
  rw [tile]

/-- A tile is read from the map of tiles alone. -/
theorem Dev.tile_congr {d e : Dev} (h : d.tiles = e.tiles) (t : Nat) : d.tile t = e.tile t := by rw [Dev.tile, h, Dev.tile]

@[simp] theorem Dev.tiles_cnt (d : Dev) (a n : Nat) : (d.cnt a n).tiles = d.tiles := by rw [d.cnt_frame]

section Chunk
variable (d : Dev) {t k : Nat}

/-- The count of chunks done stands above the other counters and below the self-test registers of the tiles. -/
theorem SAF_CNT_9_ne (inTile : t < 96) (inArray : k < 4) : regSpace + 0xC0000 ≤ Reg.SAF_CNT_k 9
    ∧ Reg.SAF_CNT_k 9 ≠ Reg.SAF_TILEt_ST t ∧ Reg.SAF_CNT_k 9 ≠ Reg.TILE_STAT t ∧ Reg.SAF_CNT_k 9 ≠ Reg.TILE_ARRn_STAT t k
    ∧ Reg.SAF_CNT_k 9 ≠ Reg.TILE_ARR_MAP t ∧ Reg.SAF_CNT_k 9 ≠ Reg.SAF_TILE_OK_k (t / 32) := by
  simp only [regSpace, Reg.SAF_CNT_k, Reg.SAF_TILEt_ST, Reg.TILE_STAT, Reg.TILE_ARRn_STAT, Reg.TILE_ARR_MAP, Reg.SAF_TILE_OK_k]
  exact ⟨by omega, by omega, by omega, by omega, by omega, by omega⟩

theorem Dev.reg_raiseAt (n c s k u x a : Nat) : (d.raiseAt n c s k u x).reg a = d.reg a := by
  unfold Dev.raiseAt
  split <;> rfl

theorem Dev.reg_retire (n cause entry : Nat) (inTile : t < 96) (inArray : k < 4) :
    (d.retire n t k cause entry).reg (Reg.SAF_CNT_k 9) = d.reg (Reg.SAF_CNT_k 9) := by
  obtain ⟨-, -, -, stat, map, ok⟩ := SAF_CNT_9_ne inTile inArray
  have dropped (e : Dev) : (e.dropTileOk t).reg (Reg.SAF_CNT_k 9) = e.reg (Reg.SAF_CNT_k 9) := Dev.reg_setReg_ne _ _ ok
  have raisedIf (e : Dev) (c : Prop) [Decidable c] (code x : Nat) :
      (if c then e.raiseAt n 1 Src.TILE code t x else e).reg (Reg.SAF_CNT_k 9) = e.reg (Reg.SAF_CNT_k 9) := by
    split
    · exact e.reg_raiseAt _ _ _ _ _ _ _
    · rfl
  have droppedIf (e : Dev) (c c' : Prop) [Decidable c] [Decidable c'] (x : Nat) :
      (if c then e.dropTileOk t else if c' then (e.dropTileOk t).raiseAt n 1 Src.TILE 0x000E t x else e).reg (Reg.SAF_CNT_k 9)
        = e.reg (Reg.SAF_CNT_k 9) := by
    split
    · exact dropped e
    · split
      · exact (Dev.reg_raiseAt _ _ _ _ _ _ _ _).trans (dropped e)
      · rfl
  unfold Dev.retire
  split
  · rfl
  · dsimp only
    rw [raisedIf, droppedIf, Dev.reg_raiseAt, Dev.reg_modTile, Dev.reg_setReg_ne _ _ map, Dev.reg_setReg_ne _ _ stat]

theorem Dev.chunk_endCycle : ((d.endCycle t).tile t).chunk = (d.tile t).chunk := by
  unfold Dev.endCycle
  dsimp only
  split
  · rfl
  · rw [Dev.tile_congr ((Dev.inc_tiles _ _ _ _).trans (Dev.wf_tiles _ _ _ _)), Dev.modTile, Dev.tile_setTile_same]

theorem Dev.reg_endCycle_ne {a : Nat} (other : a ≠ Reg.SAF_TILEt_ST t) : (d.endCycle t).reg a = d.reg a := by
  unfold Dev.endCycle
  dsimp only
  split
  · rfl
  · rw [Dev.inc, Dev.reg_wf_ne _ _ _ other, Dev.reg_wf_ne _ _ _ other, Dev.reg_modTile]

theorem Dev.readVerify_keeps : (d.readVerify t k).tiles = d.tiles
    ∧ ∀ a, regSpace + 0xC0000 ≤ a → (d.readVerify t k).reg a = d.reg a := by
  unfold Dev.readVerify
  dsimp only
  refine ⟨?_, fun a above => ?_⟩
  · refine (foldl_keeps Dev.tiles (fun u _ e => ?_) _).trans (foldl_keeps Dev.tiles (fun u _ e => ?_) d)
    · change (e.uncorrectable u 0xFF 16).tiles = e.tiles
      rw [e.uncorrectable_frame]
    · rw [e.corrected_frame]
  · refine (foldl_keeps (Dev.reg · a) (fun u _ e => ?_) _).trans (foldl_keeps (Dev.reg · a) (fun u _ e => ?_) d)
    · exact e.reg_uncorrectable_above u above 0xFF 16
    · exact e.reg_corrected_above u above

/-- Whatever a chunk has found, no chunk runs on the tile that did not run before, and the count of chunks stays. -/
theorem Dev.chunkOutcome_keeps (r : ChunkResult) (inTile : t < 96) : ((d.chunkOutcome t k r).tile t).chunk = (d.tile t).chunk
    ∧ (d.chunkOutcome t k r).reg (Reg.SAF_CNT_k 9) = d.reg (Reg.SAF_CNT_k 9) := by
  obtain ⟨above, test, stat, -⟩ := SAF_CNT_9_ne inTile (by decide : 0 < 4)
  unfold Dev.chunkOutcome
  split
  · obtain ⟨tiles, regs⟩ := d.readVerify_keeps (t := t) (k := k)
    exact ⟨congrArg TileSt.chunk (Dev.tile_congr tiles t), regs _ above⟩
  · cases r with
    | passed => exact ⟨rfl, rfl⟩
    | failed =>
      dsimp only
      split
      next inArray => exact ⟨(Dev.ArraysStay.retire d 16 k 2 0).chunk, d.reg_retire 16 2 0 inTile inArray⟩
      next =>
        refine ⟨rfl, ?_⟩
        rw [Dev.reg_raise, Dev.reg_wf_ne _ _ _ test, Dev.reg_wf_ne _ _ _ stat]

end Chunk

/-- A chunk that is done leaves the tile without one, counts, and has its outcome. -/
theorem exec_chunkDone {t : Fin 96} {k : Nat} {s : State} (r : ChunkResult) (chunk : (s.dev.tile t.val).chunk = some k) :
    ∃ x n, x.chunk = none ∧ Safety.givesDev (.chunkDone t r []) s (((((s.dev.setTile t.val x).cnt (Reg.SAF_CNT_k 9) 1).wf
      (Reg.SAF_TILEt_ST t.val) Fld.SAF_TILEt_ST.DONE n).endCycle t.val).chunkOutcome t.val k r) := by
  have hd : exec (.chunkDone t r []) s = execChunkDone t r [] s := rfl
  rw [execChunkDone, run_eq] at hd
  simp only [Mach.upsets_nil, chunk] at hd
  exact ⟨_, _, rfl, hd⟩

theorem exec_late {t : Fin 96} {s : State} (on : s.dev.tileOn t.val = true)
    (out : s.dev.rfB Reg.SAF_STAT Fld.SAF_STAT.OUT_EN = true) : Safety.givesDev (.late t) s
      (((s.dev.modTile t.val (fun x => { x with forced := false })).wf (Reg.SAF_TILEt_ST t.val) Fld.SAF_TILEt_ST.LATE 1).raise 1
        Src.SELFTEST 0x0001 t.val (s.dev.tile t.val).doneChunks.length) := by
  have hd : exec (.late t) s = execLate t s := rfl
  have done : ((s.dev.modTile t.val (fun x => { x with forced := false })).tile t.val).doneChunks
      = (s.dev.tile t.val).doneChunks := by
    rw [Dev.modTile, Dev.tile_setTile_same]
  rw [execLate, runDev_eq, if_neg (by rw [on, out]; decide)] at hd
  rw [← done]
  exact hd

/-! ### A forced tile (R510) -/

@[simp] theorem Dev.tiles_modList (d : Dev) (k : Nat) (f : ListSt → ListSt) : (d.modList k f).tiles = d.tiles := by
  rw [d.modList_frame]

theorem Dev.tiles_endBoost (d : Dev) (n : Nat) : (d.endBoost n).tiles = d.tiles := by
  unfold Dev.endBoost
  split
  · rfl
  · split
    · rfl
    · rfl

theorem Dev.tiles_beginSave (d : Dev) (n : Nat) : (d.beginSave n).tiles = d.tiles := by
  have halted (e : Dev) (ks : List Nat) (f : ListSt → ListSt) : (ks.foldl (fun d k => d.modList k f) e).tiles = e.tiles :=
    foldl_keeps Dev.tiles (fun k _ e => e.tiles_modList k f) e
  have told (e : Dev) (ks : List Nat) (bs : List Byte) : (ks.foldl (fun d k => d.toPeer k bs 1) e).tiles = e.tiles :=
    foldl_keeps Dev.tiles (fun k _ e => by rw [(Dev.ColOnly.toPeer e k 1 bs).rest]) e
  unfold Dev.beginSave
  split
  · rfl
  · exact (Dev.tiles_endBoost _ n).trans ((told _ _ _).trans (halted _ _ _))

/-- A call for a pre-emption changes no tile. -/
theorem Dev.tiles_callPreempt (d : Dev) (n : Nat) (caller : Option Nat) : (d.callPreempt n caller).tiles = d.tiles := by
  unfold Dev.callPreempt
  split
  · rfl
  next st _ =>
    dsimp only
    cases st.phase with
    | running =>
      generalize calling : d.modStep n _ = e
      have tiles : e.tiles = d.tiles := by rw [← calling]; rfl
      dsimp only
      split
      · exact tiles
      · split
        · split
          · exact tiles
          · exact (Dev.tiles_cnt _ _ _).trans tiles
        · exact (e.tiles_beginSave n).trans tiles
    | restoring => rfl
    | saving => rfl
    | preempted => rfl

theorem exec_selftestForce {t : Fin 96} {s : State} (on : s.dev.tileOn t.val = true)
    (enabled : s.dev.rfB Reg.SAF_CTRL Fld.SAF_CTRL.ST_EN = true) (out : s.dev.rfB Reg.SAF_STAT Fld.SAF_STAT.OUT_EN = true) :
    ∃ e, Safety.givesDev (.selftestForce t) s e
      ∧ e.tiles = (s.dev.modTile t.val (fun x => { x with forced := true })).tiles := by
  have hd : exec (.selftestForce t) s = execSelftestForce t s := rfl
  rw [execSelftestForce, runDev_eq, if_neg (by rw [on, enabled, out]; decide)] at hd
  refine ⟨_, hd, ?_⟩
  dsimp only
  split
  · split
    · exact Dev.tiles_callPreempt _ _ _
    · rfl
  · rfl

/-- Settles O17: a chunk by what its outcome leaves (`Dev.chunkOutcome_keeps`), a forced tile by the pre-emption that changes no
tile, a late interval by the field and the record that it writes. -/
theorem selfTestProgress : Obligations.SelfTestProgress := by
  unfold Obligations.SelfTestProgress
  refine ⟨?done, ?forced, ?late⟩
  case done =>
    intro t k r s chunk
    obtain ⟨x, n, free, done⟩ := exec_chunkDone r chunk
    obtain ⟨-, test, -⟩ := SAF_CNT_9_ne t.isLt (by decide : 0 < 4)
    obtain ⟨keepsChunk, keepsCount⟩ := Dev.chunkOutcome_keeps ((((s.dev.setTile t.val x).cnt (Reg.SAF_CNT_k 9) 1).wf
      (Reg.SAF_TILEt_ST t.val) Fld.SAF_TILEt_ST.DONE n).endCycle t.val) (k := k) r t.isLt
    refine ⟨_, done, ⟨rfl, rfl⟩, ?_, ?_⟩
    · refine keepsChunk.trans ((Dev.chunk_endCycle _).trans ?_)
      rw [Dev.tile_congr ((Dev.wf_tiles _ _ _ _).trans (Dev.tiles_cnt _ _ _)), Dev.tile_setTile_same, free]
    · refine keepsCount.trans ?_
      rw [Dev.reg_endCycle_ne _ test, Dev.reg_wf_ne _ _ _ test, Dev.reg_cnt]
      rfl
  case forced =>
    intro t s on enabled out
    obtain ⟨e, forces, tiles⟩ := exec_selftestForce on enabled out
    refine ⟨_, forces, ⟨rfl, rfl⟩, ?_⟩
    dsimp only
    rw [Dev.tile_congr tiles, Dev.modTile, Dev.tile_setTile_same]
  case late =>
    intro t s on out
    refine ⟨_, exec_late on out, ⟨rfl, rfl⟩, Dev.rf_wf_same _ _ _, ?_, rfl⟩
    change ((s.dev.modTile t.val (fun x => { x with forced := false })).tile t.val).forced = false
    rw [Dev.modTile, Dev.tile_setTile_same]

end Machine
end Sys2Proof
end

section
/-!
PROOFS. Timing supervision (O16), and the end of start-up error injection (O15).
-/
namespace Sys2Proof
namespace Machine

/-! ### Supervision (R496, R498, R500) -/

section StepSupervisor
variable {loop : Fin 16} {beats : Nat} {st : StepSt} {s : State} (step : (s.dev.loop loop.val).step = some st)
include step

theorem exec_stepSupervisorExpire (running : st.phase = .running) (free : s.dev.dbgHalted loop.val = false) (spent : st.budget ≤ 0) :
    Safety.gives (.stepSupervisorExpire loop beats) s ((Safety.mach s).superviseAbort loop.val 0 0xFFFF 0 (some beats)) := by
  have hd : exec (.stepSupervisorExpire loop beats) s = execStepSupervisorExpire loop beats s := rfl
  rw [execStepSupervisorExpire, run_eq] at hd
  simp only [step] at hd
  rw [if_neg (by simp [running, free, not_lt.2 spent])] at hd
  exact hd

theorem exec_stepSupervisorExpire_inBudget (left : 0 < st.budget) :
    Safety.givesDev (.stepSupervisorExpire loop beats) s s.dev := by
  have hd : exec (.stepSupervisorExpire loop beats) s = execStepSupervisorExpire loop beats s := rfl
  rw [execStepSupervisorExpire, run_eq] at hd
  simp only [step] at hd
  rw [if_pos (by simp [left])] at hd
  exact hd

end StepSupervisor

section Segment
variable {l : ListId} {beats : Nat} {x : ListSt} {b : Rat} {s : State} (list : s.dev.list (listKey l) = some x)
  (segment : x.segment = some b)
include list segment

theorem exec_segmentExpire {st : StepSt} (step : (s.dev.loop x.loop).step = some st) (running : st.phase = .running)
    (free : s.dev.dbgHalted x.loop = false) (spent : b ≤ 0) : Safety.gives (.segmentExpire l beats) s
      ((Safety.mach s).superviseAbort x.loop 1 (listUnit (listKey l)) (x.next % 2 ^ 20) (some beats)) := by
  have hd : exec (.segmentExpire l beats) s = execSegmentExpire l beats s := rfl
  rw [execSegmentExpire, run_eq] at hd
  simp only [list, segment, step] at hd
  rw [if_neg (by simp [running, free, not_lt.2 spent])] at hd
  exact hd

theorem exec_segmentExpire_inBudget (left : 0 < b) : Safety.givesDev (.segmentExpire l beats) s s.dev := by
  have hd : exec (.segmentExpire l beats) s = execSegmentExpire l beats s := rfl
  rw [execSegmentExpire, run_eq] at hd
  simp only [list, segment] at hd
  rw [if_pos (by simp [left])] at hd
  exact hd

end Segment

/-- Settles O16, by whether the budget is spent. -/
theorem supervisionExpires : Obligations.SupervisionExpires := by
  unfold Obligations.SupervisionExpires
  refine ⟨?spent, ?segmentSpent, ?inBudget, ?segmentInBudget⟩
  case spent =>
    intro loop beats st s step running free spent
    exact exec_stepSupervisorExpire step running free spent
  case segmentSpent =>
    intro l beats x st b s list step running free segment spent
    exact exec_segmentExpire list segment step running free spent
  case inBudget =>
    intro loop beats st s step left
    exact exec_stepSupervisorExpire_inBudget step left
  case segmentInBudget =>
    intro l beats x b s list segment left
    exact exec_segmentExpire_inBudget list segment left

/-! ### The end of start-up error injection (R493, R495) -/

/-- One step of the injection leaves the boot's state and the straps of the group. -/
theorem Dev.injectStep_keeps (d : Dev) (i : Nat) (r : InjectResult) :
    (d.injectStep i r).boot = d.boot ∧ (d.injectStep i r).reg Reg.COL_GRP = d.reg Reg.COL_GRP := by
  have wide : ((d.wf Reg.SAF_STAT Fld.SAF_STAT.INJ_FAIL 1).raise 1 Src.INJECT i 0xFFFF 0).boot = d.boot
      ∧ ((d.wf Reg.SAF_STAT Fld.SAF_STAT.INJ_FAIL 1).raise 1 Src.INJECT i 0xFFFF 0).reg Reg.COL_GRP = d.reg Reg.COL_GRP :=
    ⟨rfl, Dev.reg_wf_ne _ _ _ (by decide)⟩
  cases r with
  | passed => exact ⟨rfl, Dev.reg_setReg_ne _ _ (by decide)⟩
  | failed => exact wide
  | failedTiles ts =>
    unfold Dev.injectStep
    dsimp only
    split
    · refine ⟨foldl_keeps Dev.boot (fun t _ e => ?_) d, foldl_keeps (Dev.reg · Reg.COL_GRP) (fun t _ e => ?_) d⟩
      · rfl
      · exact Dev.reg_setReg_ne _ _ (by have := t.isLt; simp only [Reg.COL_GRP, Reg.SAF_TILE_OK_k]; omega)
    · exact wide

theorem Dev.flEnWrite_keeps (d : Dev) : (d.flEnWrite true).boot = d.boot
    ∧ (d.flEnWrite true).reg Reg.SAF_STAT = d.reg Reg.SAF_STAT := by
  have enabled : (d.wf Reg.FL_CTRL Fld.FL_CTRL.EN (b2n true)).reg Reg.SAF_STAT = d.reg Reg.SAF_STAT :=
    Dev.reg_wf_ne _ _ _ (by decide)
  unfold Dev.flEnWrite
  dsimp only
  split
  · split
    · exact ⟨rfl, (Dev.reg_wf_ne _ _ _ (by decide : Reg.SAF_STAT ≠ Reg.FL_STAT)).trans enabled⟩
    · exact ⟨rfl, enabled⟩
  · rw [if_neg (by simp)]
    exact ⟨rfl, enabled⟩

section AfterInjection
variable (d : Dev)

theorem Dev.reg_withBoot (b : BootSt) (a : Nat) : ({ d with boot := b } : Dev).reg a = d.reg a := rfl

theorem Dev.reg_afterInjection : d.afterInjection.reg Reg.SAF_STAT = d.reg Reg.SAF_STAT := by
  unfold Dev.afterInjection
  split
  · rw [Dev.reg_withBoot, Dev.reg_wf_ne _ _ _ (by decide), Dev.reg_wf_ne _ _ _ (by decide)]
  · split
    · exact d.reg_withBoot _ _
    · rw [(Dev.flEnWrite_keeps _).2, Dev.reg_setReg_ne _ _ (by decide), Dev.reg_setReg_ne _ _ (by decide), Dev.reg_withBoot]

theorem Dev.phase_afterInjection_retired (retired : d.boot.fuses.lcs = 4) : d.afterInjection.boot.phase = .stopped := by
  rw [Dev.afterInjection, if_pos retired]

theorem Dev.phase_afterInjection (lives : d.boot.fuses.lcs ≠ 4) : d.afterInjection.boot.phase
    = (if d.rf Reg.COL_GRP Fld.COL_GRP.BOOT_COL = 1 then .colBoot else .mounting) := by
  have oneBit : d.rf Reg.COL_GRP Fld.COL_GRP.BOOT_COL < 2 := bits_lt _ _ _
  rw [Dev.afterInjection, if_neg lives]
  by_cases strap : d.rf Reg.COL_GRP Fld.COL_GRP.BOOT_COL = 1
  · rw [if_pos (Dev.rfB_of_one strap), if_pos strap]
  · rw [if_neg (by rw [Dev.rfB_of_zero (by omega)]; decide), if_neg strap, (Dev.flEnWrite_keeps _).1]
    rfl

end AfterInjection

/-- The device as the results of the injection leave it, OUT_EN included. -/
def Dev.injected (d : Dev) (rs : List InjectResult) : Dev :=
  let e := ((List.range 11).foldl (fun (d : Dev) i => d.injectStep i (rs.getD i .failed)) d).wf Reg.SAF_STAT
    Fld.SAF_STAT.INJ_DONE 1
  e.wf Reg.SAF_STAT Fld.SAF_STAT.OUT_EN (1 - e.rf Reg.SAF_STAT Fld.SAF_STAT.INJ_FAIL)

theorem exec_errorInjection {rs : List InjectResult} {s : State} (injecting : s.dev.boot.phase = .injecting) :
    Safety.givesDev (.errorInjection rs) s (s.dev.injected rs).afterInjection := by
  have hd : exec (.errorInjection rs) s = execErrorInjection rs s := rfl
  rw [execErrorInjection, runDev_eq, if_neg (not_not_intro injecting)] at hd
  exact hd

section Injected
variable (d : Dev) (rs : List InjectResult)

theorem Dev.injected_keeps : (d.injected rs).boot = d.boot ∧ (d.injected rs).reg Reg.COL_GRP = d.reg Reg.COL_GRP := by
  refine ⟨foldl_keeps Dev.boot (fun i _ e => (e.injectStep_keeps i _).1) d, ?_⟩
  refine (Dev.reg_wf_ne _ _ _ (by decide)).trans ((Dev.reg_wf_ne _ _ _ (by decide)).trans ?_)
  exact foldl_keeps (Dev.reg · Reg.COL_GRP) (fun i _ e => (e.injectStep_keeps i _).2) d

theorem Dev.injDone_injected : (d.injected rs).rf Reg.SAF_STAT Fld.SAF_STAT.INJ_DONE = 1 :=
  (Dev.rf_wf_field _ _ _).trans (Dev.rf_wf_same _ _ _)

theorem Dev.outEn_injected : (d.injected rs).rf Reg.SAF_STAT Fld.SAF_STAT.OUT_EN
    = 1 - (d.injected rs).rf Reg.SAF_STAT Fld.SAF_STAT.INJ_FAIL := by
  have failKept (e : Dev) (n : Nat) : (e.wf Reg.SAF_STAT Fld.SAF_STAT.OUT_EN n).rf Reg.SAF_STAT Fld.SAF_STAT.INJ_FAIL
      = e.rf Reg.SAF_STAT Fld.SAF_STAT.INJ_FAIL := Dev.rf_wf_field _ _ _
  rw [Dev.injected, failKept, Dev.rf_wf_same]
  exact Nat.mod_eq_of_lt (Nat.lt_of_le_of_lt (Nat.sub_le _ _) (by decide))

end Injected

/-- Settles O15: the fields by the two writes that end the injection, the phase by the lifecycle state and the strap. -/
theorem injectionEndsStartUp : Obligations.InjectionEndsStartUp := by
  unfold Obligations.InjectionEndsStartUp
  intro rs s injecting
  obtain ⟨boot, strap⟩ := s.dev.injected_keeps rs
  have stat (f : Fd) : (s.dev.injected rs).afterInjection.rf Reg.SAF_STAT f = (s.dev.injected rs).rf Reg.SAF_STAT f := by
    rw [Dev.rf, Dev.rf, Dev.reg_afterInjection]
  refine ⟨_, exec_errorInjection injecting, ⟨rfl, rfl⟩, ?done, ?outEn, ?retired, ?lives⟩
  case done => exact (stat _).trans (s.dev.injDone_injected rs)
  case outEn =>
    dsimp only
    rw [stat, stat, Dev.outEn_injected]
  case retired =>
    intro retired
    exact Dev.phase_afterInjection_retired _ (by rw [boot, retired])
  case lives =>
    intro lives
    refine (Dev.phase_afterInjection _ (by rwa [boot])).trans ?_
    rw [Dev.rf, strap, ← Dev.rf]

end Machine
end Sys2Proof
end

section
/-!
PROOFS. A fault record that reaches the aggregator (O14).
-/
namespace Sys2Proof
namespace Machine

/-! ### What the safe state of the control engine leaves of the aggregator (R464) -/

/-- What the aggregator keeps: its own state, the latest sequence number, and its status. -/
def Dev.aggregator (d : Dev) : SafSt × Nat × Nat := (d.saf, d.reg Reg.SAF_SEQ, d.reg Reg.SAF_STAT)

/-- The two registers of the aggregator stand apart from this one. -/
abbrev notAggregator (a : Nat) : Prop := Reg.SAF_SEQ ≠ a ∧ Reg.SAF_STAT ≠ a

section Aggregator
variable (d : Dev)

theorem Dev.aggregator_setReg {a : Nat} (v : Nat) (other : notAggregator a) : (d.setReg a v).aggregator = d.aggregator := by
  rw [Dev.aggregator, Dev.reg_setReg_ne _ _ other.1, Dev.reg_setReg_ne _ _ other.2, Dev.setReg_saf, Dev.aggregator]

theorem Dev.aggregator_wf {a : Nat} (f : Fd) (v : Nat) (other : notAggregator a) : (d.wf a f v).aggregator = d.aggregator :=
  d.aggregator_setReg _ other

theorem Dev.aggregator_cnt {a : Nat} (n : Nat) (other : notAggregator a) : (d.cnt a n).aggregator = d.aggregator := by
  unfold Dev.cnt
  split
  · rfl
  · exact d.aggregator_setReg _ other

theorem Dev.aggregator_modChan (c : Nat) (f : ChanSt → ChanSt) : (d.modChan c f).aggregator = d.aggregator := rfl

theorem Dev.aggregator_modMac (m : Nat) (f : MacSt → MacSt) : (d.modMac m f).aggregator = d.aggregator := rfl

theorem CE_CHn_STAT_notAggregator {c : Nat} (channel : c < 256) : notAggregator (Reg.CE_CHn_STAT c) := by
  simp only [notAggregator, Reg.CE_CHn_STAT, Reg.SAF_SEQ, Reg.SAF_STAT]
  omega

theorem CE_CHn_MAN_notAggregator {c : Nat} (channel : c < 256) : notAggregator (Reg.CE_CHn_MAN c) := by
  simp only [notAggregator, Reg.CE_CHn_MAN, Reg.SAF_SEQ, Reg.SAF_STAT]
  omega

/-- The counters of a port stand apart from the aggregator's registers, even those of a port that is not there: a template of a
bank that no check has seen may name one. -/
theorem ETH_CNT_5_notAggregator (m : Nat) : notAggregator (Reg.ETH_CNT_k m 5) := by
  simp only [notAggregator, Reg.ETH_CNT_k, Reg.SAF_SEQ, Reg.SAF_STAT]
  omega

theorem CAN_CNT_3_notAggregator (n : Nat) : notAggregator (Reg.CAN_CNT_k n 3) := by
  simp only [notAggregator, Reg.CAN_CNT_k, Reg.SAF_SEQ, Reg.SAF_STAT]
  omega

theorem Dev.aggregator_setMode {c : Nat} (mode cause : Nat) (channel : c < 256) :
    (d.setMode c mode cause).aggregator = d.aggregator := by
  have stat (v : Nat) : (d.setReg (Reg.CE_CHn_STAT c) v).aggregator = d.aggregator :=
    d.aggregator_setReg v (CE_CHn_STAT_notAggregator channel)
  unfold Dev.setMode
  dsimp only
  split
  · rfl
  · split
    · exact stat _
    · split
      · exact (Dev.aggregator_cnt _ 1 (by decide)).trans (stat _)
      · split
        · exact stat _
        · split
          · exact (Dev.aggregator_setReg _ _ (CE_CHn_MAN_notAggregator channel)).trans (stat _)
          · exact stat _

theorem Dev.aggregator_queueCan (n buf : Nat) (f : CanTxSt) : (d.queueCan n buf f).aggregator = d.aggregator := by
  unfold Dev.queueCan
  dsimp only
  split
  · exact d.aggregator_cnt 1 (CAN_CNT_3_notAggregator n)
  · rfl

theorem Dev.aggregator_queueDrive (m q tmpl : Nat) (bs : List Byte) :
    (d.queueDrive m q tmpl bs).aggregator = d.aggregator := by
  unfold Dev.queueDrive
  dsimp only
  split
  · exact Dev.aggregator_cnt _ 1 (ETH_CNT_5_notAggregator m)
  · rw [Dev.aggregator_modMac]
    refine (foldl_keeps Dev.aggregator (fun k _ e => ?_) _).trans (d.aggregator_modMac m _)
    split
    · exact Dev.aggregator_cnt _ 1 (ETH_CNT_5_notAggregator k)
    · rfl

end Aggregator

section SafeState
variable (m : Mach)

theorem Mach.aggregator_driveFrame (b n stamp : Nat) : (m.driveFrame b n stamp).dev.aggregator = m.dev.aggregator := by
  unfold Mach.driveFrame
  dsimp only
  split
  · exact m.dev.aggregator_queueCan _ _ _
  · exact Dev.aggregator_queueDrive _ _ _ _ _

theorem Mach.aggregator_driveAll (stamp : Nat) : (m.driveAll stamp).dev.aggregator = m.dev.aggregator := by
  unfold Mach.driveAll
  dsimp only
  split
  · rfl
  · refine foldl_keeps (fun m : Mach => m.dev.aggregator) (fun n _ m => ?_) m
    split
    · exact m.aggregator_driveFrame _ _ _
    · rfl

theorem Mach.aggregator_safeAll : m.safeAll.dev.aggregator = m.dev.aggregator := by
  have channels (safe : List Nat) : ((List.range 256).foldl (fun d c =>
      ((d.setMode c 3 2).wf (Reg.CE_CHn_STAT c) Fld.CE_CHn_STAT.SAFE_CAUSE 2).modChan c (fun x => { x with
        out := safe.getD c 0
        outFlags := 1
        next := x.next.map (fun _ => (safe.getD c 0, 1, false, false))
        reqMode := false })) m.dev).aggregator = m.dev.aggregator := by
    refine foldl_keeps Dev.aggregator (fun c hc d => ?_) m.dev
    have channel := List.mem_range.1 hc
    exact (Dev.aggregator_wf _ _ _ (CE_CHn_STAT_notAggregator channel)).trans (d.aggregator_setMode 3 2 channel)
  unfold Mach.safeAll
  dsimp only
  split
  · exact (Mach.aggregator_driveAll _ _).trans ((Dev.aggregator_wf _ _ _ (by decide)).trans (channels _))
  · exact (Dev.aggregator_wf _ _ _ (by decide)).trans (channels _)

end SafeState

/-! ### One record (R483, R486, R487) -/

section Record
variable (d : Dev) (f : FaultRec)

/-- The sequence number of the next record. -/
def Dev.nextSeq (d : Dev) : Nat := (d.reg Reg.SAF_SEQ + 1) % 2 ^ 32

theorem Dev.nextSeq_lt : d.nextSeq < 2 ^ 32 := Nat.mod_lt _ (by decide)

/-- The record numbered, logged, counted, and captured by its watch agent. -/
def Dev.numbered (d : Dev) (f : FaultRec) : Dev :=
  let r := d.logRecord d.nextSeq f
  let e := ((d.setReg Reg.SAF_SEQ d.nextSeq).logAppend r).cnt (Reg.SAF_CNT_k (min 3 (d.promoted f))) 1
  if f.src = Src.TILE && f.unit < 96 then
    { e with saf := { e.saf with
      captured := AMap.set e.saf.captured f.unit (((AMap.find e.saf.captured f.unit).map (·.1)).getD r, r) } } else e

/-- What the class of a record holds: ALERT_N from F1 on, the latch from F2 on. -/
def Dev.latched (d : Dev) (c seq : Nat) : Dev :=
  let e := if c ≥ 1 then { d with saf := { d.saf with alertSeq := some seq } }.wf Reg.SAF_STAT Fld.SAF_STAT.ALERT 1 else d
  if c ≥ 2 && !e.f2 then (e.setReg Reg.SAF_F2_SEQ seq).wf Reg.SAF_STAT Fld.SAF_STAT.F2_LATCHED 1 else e

theorem Dev.record_eq : d.record f = if d.promoted f ≥ 3 then
    ((d.numbered f).latched (d.promoted f) d.nextSeq).setReg Reg.SAF_RESET_CAUSE (setBits (setBits
      (((d.numbered f).latched (d.promoted f) d.nextSeq).reg Reg.SAF_RESET_CAUSE) 31 24 f.src) 15 0 f.code)
    else (d.numbered f).latched (d.promoted f) d.nextSeq := rfl

theorem Dev.logAppend_keeps (r : List Byte) : (d.logAppend r).saf.log.getLast? = some r
    ∧ (d.logAppend r).reg Reg.SAF_SEQ = d.reg Reg.SAF_SEQ := by
  unfold Dev.logAppend
  dsimp only
  split
  · refine ⟨?_, Dev.reg_cnt_ne _ 1 (by decide)⟩
    rw [Dev.cnt_frame]
    exact List.getLast?_concat
  · exact ⟨List.getLast?_concat, rfl⟩

theorem Dev.numbered_spec : (d.numbered f).reg Reg.SAF_SEQ = d.nextSeq
    ∧ (d.numbered f).saf.log.getLast? = some (d.logRecord d.nextSeq f) := by
  obtain ⟨last, seq⟩ := (d.setReg Reg.SAF_SEQ d.nextSeq).logAppend_keeps (d.logRecord d.nextSeq f)
  have counter (n : Nat) : Reg.SAF_SEQ ≠ Reg.SAF_CNT_k n := by
    simp only [Reg.SAF_SEQ, Reg.SAF_CNT_k]
    omega
  have counted : (((d.setReg Reg.SAF_SEQ d.nextSeq).logAppend (d.logRecord d.nextSeq f)).cnt
      (Reg.SAF_CNT_k (min 3 (d.promoted f))) 1).reg Reg.SAF_SEQ = d.nextSeq := by
    rw [Dev.reg_cnt_ne _ 1 (counter _), seq, Dev.reg_setReg_same, Nat.mod_eq_of_lt d.nextSeq_lt]
  have logged : (((d.setReg Reg.SAF_SEQ d.nextSeq).logAppend (d.logRecord d.nextSeq f)).cnt
      (Reg.SAF_CNT_k (min 3 (d.promoted f))) 1).saf.log.getLast? = some (d.logRecord d.nextSeq f) := by
    rw [Dev.cnt_frame]
    exact last
  unfold Dev.numbered
  dsimp only
  split
  · exact ⟨counted, logged⟩
  · exact ⟨counted, logged⟩

section Latched
variable (c seq : Nat)

theorem Dev.latched_keeps : (d.latched c seq).saf.log = d.saf.log ∧ (d.latched c seq).reg Reg.SAF_SEQ = d.reg Reg.SAF_SEQ := by
  have latch (e : Dev) : (if c ≥ 2 && !e.f2 then (e.setReg Reg.SAF_F2_SEQ seq).wf Reg.SAF_STAT Fld.SAF_STAT.F2_LATCHED 1
      else e).saf.log = e.saf.log ∧ (if c ≥ 2 && !e.f2 then (e.setReg Reg.SAF_F2_SEQ seq).wf Reg.SAF_STAT
        Fld.SAF_STAT.F2_LATCHED 1 else e).reg Reg.SAF_SEQ = e.reg Reg.SAF_SEQ := by
    split
    · exact ⟨rfl, (Dev.reg_wf_ne _ _ _ (by decide)).trans (Dev.reg_setReg_ne _ _ (by decide))⟩
    · exact ⟨rfl, rfl⟩
  obtain ⟨log, seqKept⟩ := latch (if c ≥ 1 then
    { d with saf := { d.saf with alertSeq := some seq } }.wf Reg.SAF_STAT Fld.SAF_STAT.ALERT 1 else d)
  refine ⟨log.trans ?_, seqKept.trans ?_⟩
  · split
    · rfl
    · rfl
  · split
    · exact Dev.reg_wf_ne _ _ _ (by decide)
    · rfl

theorem Dev.alert_latched (f1 : c ≥ 1) : (d.latched c seq).rf Reg.SAF_STAT Fld.SAF_STAT.ALERT = 1 := by
  unfold Dev.latched
  rw [if_pos f1]
  dsimp only
  split
  · rw [Dev.rf_wf_field, Dev.rf, Dev.reg_setReg_ne _ _ (by decide)]
    exact Dev.rf_wf_same _ _ _
  · exact Dev.rf_wf_same _ _ _

theorem Dev.f2_latched (f2 : c ≥ 2) : (d.latched c seq).f2 = true := by
  unfold Dev.latched
  generalize (if c ≥ 1 then _ else d) = e
  dsimp only
  cases was : e.f2 with
  | true => rwa [if_neg (by simp)]
  | false =>
    rw [if_pos (by simp [f2])]
    exact Dev.rfB_of_one (Dev.rf_wf_same _ _ _)

end Latched

theorem Dev.aggregator_record : (d.record f).aggregator = ((d.numbered f).latched (d.promoted f) d.nextSeq).aggregator := by
  rw [Dev.record_eq]
  split
  · exact Dev.aggregator_setReg _ _ (by decide)
  · rfl

end Record

/-! ### The reaction to F3 (R483), and the aggregation of one record -/

/-- F3 keeps the log, the sequence number and what is latched, and a warm reset is to come. -/
theorem Dev.reactF3_keeps (d : Dev) : d.reactF3.saf.log = d.saf.log ∧ d.reactF3.reg Reg.SAF_SEQ = d.reg Reg.SAF_SEQ
    ∧ d.reactF3.rf Reg.SAF_STAT Fld.SAF_STAT.ALERT = d.rf Reg.SAF_STAT Fld.SAF_STAT.ALERT
    ∧ d.reactF3.rf Reg.SAF_STAT Fld.SAF_STAT.F2_LATCHED = d.rf Reg.SAF_STAT Fld.SAF_STAT.F2_LATCHED
    ∧ d.reactF3.saf.resetAt.isSome = true := by
  have scheduled (x : Nat) : (d.saf.resetAt.orElse (fun _ => some x)).isSome = true := by
    cases d.saf.resetAt with
    | none => rfl
    | some y => rfl
  have cause (v : Nat) (f : Fd) : (d.setReg Reg.SAF_RESET_CAUSE v).rf Reg.SAF_STAT f = d.rf Reg.SAF_STAT f := by
    rw [Dev.rf, Dev.reg_setReg_ne _ _ (by decide), Dev.rf]
  unfold Dev.reactF3
  dsimp only
  split
  · refine ⟨rfl, ?_, ?_, ?_, scheduled _⟩
    · exact (Dev.reg_wf_ne _ _ _ (by decide)).trans (Dev.reg_setReg_ne _ _ (by decide))
    · exact (Dev.rf_wf_field _ _ _).trans (cause _ _)
    · exact (Dev.rf_wf_field _ _ _).trans (cause _ _)
  · exact ⟨rfl, Dev.reg_setReg_ne _ _ (by decide), cause _ _, cause _ _, scheduled _⟩

/-- What a record of class `c` with number `seq`, logged as `r`, leaves of the aggregator. -/
structure Dev.Recorded (e : Dev) (c seq : Nat) (r : List Byte) : Prop where
  seq : e.reg Reg.SAF_SEQ = seq
  last : e.saf.log.getLast? = some r
  alert : c ≥ 1 → e.rf Reg.SAF_STAT Fld.SAF_STAT.ALERT = 1
  f2 : c ≥ 2 → e.f2 = true

namespace Dev.Recorded
variable {d e : Dev} {c seq : Nat} {r : List Byte}

theorem congr (h : Recorded d c seq r) (same : e.aggregator = d.aggregator) : Recorded e c seq r := by
  obtain ⟨saf, seqSame, stat⟩ := Prod.ext_iff.1 same |>.imp id Prod.ext_iff.1
  have field (f : Fd) : e.rf Reg.SAF_STAT f = d.rf Reg.SAF_STAT f := congrArg (bits · f.hi f.lo) stat
  exact ⟨seqSame.trans h.seq, (congrArg (fun x : SafSt => x.log.getLast?) saf).trans h.last, fun f1 => (field _).trans (h.alert f1),
    fun f2 => (congrArg (· != 0) (field _)).trans (h.f2 f2)⟩

theorem reactF3 (h : Recorded d c seq r) : Recorded d.reactF3 c seq r := by
  obtain ⟨log, seqSame, alert, f2, -⟩ := d.reactF3_keeps
  exact ⟨seqSame.trans h.seq, by rw [log, h.last], fun f1 => alert.trans (h.alert f1),
    fun hc => (congrArg (· != 0) f2).trans (h.f2 hc)⟩

theorem alertN (h : Recorded e c seq r) (f1 : c ≥ 1) : e.alertN = false := by
  rw [Dev.alertN, Dev.rfB_of_one (h.alert f1)]
  rfl

theorem safeReqN (h : Recorded e c seq r) (hc : c ≥ 2) : e.safeReqN = false := by
  have latched : e.rfB Reg.SAF_STAT Fld.SAF_STAT.F2_LATCHED = true := h.f2 hc
  simp [Dev.safeReqN, latched]

end Dev.Recorded

theorem Dev.recorded_record (d : Dev) (f : FaultRec) : (d.record f).Recorded (d.promoted f) d.nextSeq (d.logRecord d.nextSeq f) := by
  obtain ⟨seq, last⟩ := d.numbered_spec f
  obtain ⟨log, seqKept⟩ := (d.numbered f).latched_keeps (d.promoted f) d.nextSeq
  have latched : ((d.numbered f).latched (d.promoted f) d.nextSeq).Recorded (d.promoted f) d.nextSeq (d.logRecord d.nextSeq f) :=
    ⟨seqKept.trans seq, by rw [log, last], Dev.alert_latched _ _ _, Dev.f2_latched _ _ _⟩
  exact latched.congr (d.aggregator_record f)

section Aggregate
variable (m : Mach) (f : FaultRec)

theorem Mach.aggregate_one : m.aggregate [f] = if max 0 (m.dev.promoted f) ≥ 3 then
    (if max 0 (m.dev.promoted f) ≥ 2 && !m.dev.f2 then (m.mod (Dev.record · f)).safeAll else m.mod (Dev.record · f)).mod Dev.reactF3
    else (if max 0 (m.dev.promoted f) ≥ 2 && !m.dev.f2 then (m.mod (Dev.record · f)).safeAll else m.mod (Dev.record · f)) := rfl

/-- One record that reaches the aggregator is numbered and logged, holds what its class holds, and of class F3 schedules the
warm reset. -/
theorem Mach.recorded_aggregate :
    (m.aggregate [f]).dev.Recorded (m.dev.promoted f) m.dev.nextSeq (m.dev.logRecord m.dev.nextSeq f)
    ∧ (m.dev.promoted f ≥ 3 → (m.aggregate [f]).dev.saf.resetAt.isSome = true) := by
  have safe (c : Prop) [Decidable c] : (if c then (m.mod (Dev.record · f)).safeAll else m.mod (Dev.record · f)).dev.Recorded
      (m.dev.promoted f) m.dev.nextSeq (m.dev.logRecord m.dev.nextSeq f) := by
    split
    · exact (m.dev.recorded_record f).congr (Mach.aggregator_safeAll _)
    · exact m.dev.recorded_record f
  rw [Mach.aggregate_one, Nat.zero_max]
  split
  next f3 =>
    refine ⟨(safe _).reactF3, fun _ => ?_⟩
    obtain ⟨-, -, -, -, scheduled⟩ := Dev.reactF3_keeps _
    exact scheduled
  next notF3 => exact ⟨safe _, fun f3 => absurd f3 notF3⟩

end Aggregate

theorem exec_faultRecord (n : Nat) (s : State) : Safety.gives (.faultRecord n) s
    (((Safety.mach s).mod (fun d => { d with raised := d.raised.drop n })).aggregate (s.dev.raised.take n)) := rfl

theorem exec_mismatch (pair : Fin 4) (s : State) : Safety.gives (.mismatch pair) s
    ((Safety.mach s).aggregate [{ cls := 3, src := Src.LOCKSTEP, code := 0x0001, unit := pair.val }]) := rfl

/-- Settles O14: one record through the aggregator by what it holds (`Mach.recorded_aggregate`). -/
theorem faultRecordIsLoggedAndActs : Obligations.FaultRecordIsLoggedAndActs := by
  unfold Obligations.FaultRecordIsLoggedAndActs
  refine ⟨?record, exec_faultRecord, ?mismatch⟩
  case record =>
    intro f rest s raised
    have arrives := exec_faultRecord 1 s
    rw [raised] at arrives
    obtain ⟨recorded, resets⟩ := ((Safety.mach s).mod (fun d => { d with raised := d.raised.drop 1 })).recorded_aggregate f
    exact ⟨_, arrives, recorded.seq, recorded.last, recorded.alertN, recorded.safeReqN, resets⟩
  case mismatch =>
    intro pair s
    obtain ⟨recorded, resets⟩ := (Safety.mach s).recorded_aggregate
      { cls := 3, src := Src.LOCKSTEP, code := 0x0001, unit := pair.val }
    have f3 : (Safety.mach s).dev.promoted { cls := 3, src := Src.LOCKSTEP, code := 0x0001, unit := pair.val } = 3 := rfl
    exact ⟨_, exec_mismatch pair s, recorded.seq, recorded.alertN (by rw [f3]; decide), recorded.safeReqN (by rw [f3]; decide),
      resets (by rw [f3])⟩

end Machine
end Sys2Proof
end

section
/-!
PROOFS. Safety packets (O33).
-/
namespace Sys2Proof
namespace Machine

section
variable {tag : BitVec 16} {p : Packet} {s : State}

theorem exec_faultLog (ready : Safety.ready s 0x0801 tag.toNat p) (some_ : 1 ≤ pay16 p.payload 4) (most : pay16 p.payload 4 ≤ 1000) :
    Safety.givesDev (.faultLog tag) s (s.dev.reply p ST.OK
      (((s.dev.saf.log.filter (fun r => decide (sext 32 (field r 0 4 + 2 ^ 32 - pay32 p.payload 0) ≥ 0))).take
        (pay16 p.payload 4)).flatMap id)) := by
  have hd := gives_of_cmd (c := .faultLog tag) rfl ready
  dsimp only at hd
  rw [if_neg (by simp only [Bool.or_eq_true, decide_eq_true_eq]; omega)] at hd
  exact givesDev_of_gives hd rfl

/-! ### FAULT_ACK (R487) -/

theorem exec_faultAck (ready : Safety.ready s 0x0802 tag.toNat p) : Safety.gives (.faultAck tag) s
    (if sext 32 (pay32 p.payload 0 + 2 ^ 32 - s.dev.reg Reg.SAF_SEQ) > 0
        || sext 32 (pay32 p.payload 0 + 2 ^ 32 - s.dev.reg Reg.SAF_ACK) < 0 then (Safety.mach s).fail p ST.BAD_PARAM
      else ((Safety.mach s).mod (fun d => (d.setReg Reg.SAF_ACK (pay32 p.payload 0)).alertAfterAck)).ok p []) :=
  (gives_of_cmd (c := .faultAck tag) rfl ready :)

theorem exec_faultAck_refused (ready : Safety.ready s 0x0802 tag.toNat p)
    (refused : sext 32 (pay32 p.payload 0 + 2 ^ 32 - s.dev.reg Reg.SAF_SEQ) > 0
      ∨ sext 32 (pay32 p.payload 0 + 2 ^ 32 - s.dev.reg Reg.SAF_ACK) < 0) :
    Safety.givesDev (.faultAck tag) s (s.dev.reply p ST.BAD_PARAM []) := by
  have hd := exec_faultAck ready
  rw [if_pos (by simpa using refused)] at hd
  exact givesDev_of_gives hd rfl

theorem exec_faultAck_moves (ready : Safety.ready s 0x0802 tag.toNat p)
    (had : sext 32 (pay32 p.payload 0 + 2 ^ 32 - s.dev.reg Reg.SAF_SEQ) ≤ 0)
    (forward : sext 32 (pay32 p.payload 0 + 2 ^ 32 - s.dev.reg Reg.SAF_ACK) ≥ 0) :
    Safety.givesDev (.faultAck tag) s
      (((s.dev.setReg Reg.SAF_ACK (pay32 p.payload 0)).alertAfterAck).reply p ST.OK []) := by
  have hd := exec_faultAck ready
  rw [if_neg (by simpa using ⟨had, forward⟩)] at hd
  exact givesDev_of_gives hd rfl

theorem Dev.reg_alertAfterAck_ne (d : Dev) {a : Nat} (other : a ≠ Reg.SAF_STAT) : d.alertAfterAck.reg a = d.reg a :=
  Dev.reg_wf_ne _ _ _ other

/-! ### SAFETY_CLEAR (R488) -/

theorem exec_safetyClear {f2 : Bool} (ready : Safety.ready s 0x0803 tag.toNat p) : Safety.gives (.safetyClear tag f2) s
    (if decide (sext 32 (s.dev.reg Reg.SAF_ACK + 2 ^ 32 - s.dev.reg Reg.SAF_F2_SEQ) < 0) || s.dev.saf.missF2
        || s.dev.col.lost || !s.dev.rfB Reg.SAF_STAT Fld.SAF_STAT.OUT_EN || f2 then (Safety.mach s).fail p ST.STATE
      else ((Safety.mach s).mod (fun d => (d.wf Reg.SAF_STAT Fld.SAF_STAT.F2_LATCHED 0).wf Reg.CE_STAT
        Fld.CE_STAT.SAFE_ALL 0)).ok p []) :=
  (gives_of_cmd (c := .safetyClear tag f2) rfl ready :)

theorem exec_safetyClear_behind {f2 : Bool} (ready : Safety.ready s 0x0803 tag.toNat p)
    (behind : sext 32 (s.dev.reg Reg.SAF_ACK + 2 ^ 32 - s.dev.reg Reg.SAF_F2_SEQ) < 0) :
    Safety.givesDev (.safetyClear tag f2) s (s.dev.reply p ST.STATE []) := by
  have hd := exec_safetyClear (f2 := f2) ready
  rw [decide_eq_true behind, if_pos (by simp)] at hd
  exact givesDev_of_gives hd rfl

theorem exec_safetyClear_unlatches (ready : Safety.ready s 0x0803 tag.toNat p)
    (acknowledged : sext 32 (s.dev.reg Reg.SAF_ACK + 2 ^ 32 - s.dev.reg Reg.SAF_F2_SEQ) ≥ 0) (missed : s.dev.saf.missF2 = false)
    (leads : s.dev.col.lost = false) (out : s.dev.rfB Reg.SAF_STAT Fld.SAF_STAT.OUT_EN = true) :
    Safety.givesDev (.safetyClear tag false) s (((s.dev.wf Reg.SAF_STAT Fld.SAF_STAT.F2_LATCHED 0).wf Reg.CE_STAT
      Fld.CE_STAT.SAFE_ALL 0).reply p ST.OK []) := by
  have hd := exec_safetyClear (f2 := false) ready
  rw [decide_eq_false (not_lt.2 acknowledged), missed, leads, out, if_neg (by decide)] at hd
  exact givesDev_of_gives hd rfl

/-! ### RESET and CAIRN_CONFIG (R502, R563) -/

theorem exec_reset (ready : Safety.ready s 0x0103 tag.toNat p) (key : pay32 p.payload 0 = 0x52535421) :
    Safety.givesDev (.reset tag) s ((s.dev.reply p ST.OK []).raise 3 Src.COMMAND 1 0xFFFF p.tag) := by
  have hd := gives_of_cmd (c := .reset tag) rfl ready
  rw [if_neg (not_not_intro key)] at hd
  exact givesDev_of_gives hd rfl

theorem exec_cairnConfig (ready : Safety.ready s 0x0804 tag.toNat p)
    (off : s.dev.rfB Reg.SAF_CTRL Fld.SAF_CTRL.CAIRN_EN = false) (good : (Safety.mach s).cairnBad (slice p.payload 0 256) = false) :
    Safety.givesDev (.cairnConfig tag) s (Dev.reply { s.dev with cairn := some (slice p.payload 0 256) } p ST.OK []) := by
  have hd := gives_of_cmd (c := .cairnConfig tag) rfl ready
  dsimp only at hd
  rw [if_neg (by simp [Safety.mach, off]), if_neg (by rw [good]; decide)] at hd
  exact givesDev_of_gives hd rfl

end

/-- Settles O33: each packet runs its meaning; the registers by the two that the packet writes. -/
theorem safetyPackets : Obligations.SafetyPackets := by
  unfold Obligations.SafetyPackets
  refine ⟨?log, ?ackRefused, ?ack, ?behind, ?clear, ?reset, ?cairn⟩
  case log => exact fun tag p s ready some_ most => exec_faultLog ready some_ most
  case ackRefused => exact fun tag p s ready refused => exec_faultAck_refused ready refused
  case ack =>
    intro tag p s ready had forward
    refine ⟨_, exec_faultAck_moves ready had forward, ?_, fun a apart => ?_⟩
    · rw [Dev.reg_alertAfterAck_ne _ (by decide), Dev.reg_setReg_same]
      exact Nat.mod_eq_of_lt (field_lt _ _ _)
    · obtain ⟨ack, stat⟩ : a ≠ Reg.SAF_ACK ∧ a ≠ Reg.SAF_STAT := by simpa using apart
      rw [Dev.reg_alertAfterAck_ne _ stat, Dev.reg_setReg_ne _ _ ack]
  case behind => exact fun tag f2 p s ready behind => exec_safetyClear_behind ready behind
  case clear =>
    intro tag p s ready acknowledged missed leads out
    refine ⟨_, exec_safetyClear_unlatches ready acknowledged missed leads out, ?_, Dev.rf_wf_same _ _ _, fun a apart => ?_⟩
    · exact Dev.rfB_of_zero ((Dev.rf_wf_ne _ _ _ _ (by decide)).trans (Dev.rf_wf_same _ _ _))
    · obtain ⟨saf, ce⟩ : a ≠ Reg.SAF_STAT ∧ a ≠ Reg.CE_STAT := by simpa using apart
      rw [Dev.reg_wf_ne _ _ _ ce, Dev.reg_wf_ne _ _ _ saf]
  case reset => exact fun tag p s ready key => exec_reset ready key
  case cairn => exact fun tag p s ready off good => exec_cairnConfig ready off good

end Machine
end Sys2Proof
end

section
/-!
PROOFS. Challenges and tokens (O18).
-/
namespace Sys2Proof
namespace Machine

/-! ### Challenges (R537) -/

section Challenge
variable (d : Dev)

/-- Free bytes advance the counter of free values and change nothing else. -/
theorem Dev.freeBytes_frame (n : Nat) : ∃ k, (d.freeBytes n).2 = { d with free := k } := by
  induction n generalizing d with
  | zero => exact ⟨d.free, rfl⟩
  | succ n ih =>
    obtain ⟨k, rest⟩ := ih { d with free := d.free + 1 }
    exact ⟨k, rest⟩

theorem Dev.issueChallenge_dead (dead : d.tokenFails ≥ 3) : d.issueChallenge = (List.replicate 64 0, d) := by
  rw [Dev.issueChallenge, if_pos dead]

theorem Dev.issueChallenge_live (live : d.tokenFails < 3) : ∃ nonce,
    d.issueChallenge.2.boot.challenge = some (nonce, d.stamp, d.nsNow) := by
  obtain ⟨k, drawn⟩ := d.freeBytes_frame 32
  refine ⟨(d.freeBytes 32).1, ?_⟩
  rw [Dev.issueChallenge, if_neg (not_le.2 live)]
  change some ((d.freeBytes 32).1, (d.freeBytes 32).2.stamp, (d.freeBytes 32).2.nsNow) = _
  rw [drawn]
  rfl

end Challenge

theorem exec_tapChal_dead {s : State} (dead : s.dev.tokenFails ≥ 3) : Safety.givesDev .tapChal s s.dev := by
  have hd : exec .tapChal s = execTapChal s := rfl
  rw [execTapChal, runDev_eq, s.dev.issueChallenge_dead dead, ite_self] at hd
  exact hd

theorem exec_tapChal {s : State} (on : s.dev.pwr.porst = false) : Safety.givesDev .tapChal s s.dev.issueChallenge.2 := by
  have hd : exec .tapChal s = execTapChal s := rfl
  rw [execTapChal, runDev_eq, if_neg (by rw [on]; decide)] at hd
  exact hd

theorem exec_challengeExpire {s : State} (live : s.dev.boot.challenge ≠ none) : ∃ e : Dev,
    Safety.givesDev .challengeExpire s (e.modBoot (fun b => { b with challenge := none })) := by
  obtain ⟨c, hc⟩ := Option.ne_none_iff_exists'.1 live
  have hd : exec .challengeExpire s = execChallengeExpire s := rfl
  rw [execChallengeExpire, runDev_eq] at hd
  simp only [hc] at hd
  exact ⟨_, hd⟩

/-! ### Tokens (R538 to R540) -/

section Token
variable (d : Dev) {t : List Byte} {lifecycle : Bool}

/-- The device after a token that verified: the challenge is void. -/
def Dev.voidChallenge (d : Dev) : Dev := d.modBoot (fun b => { b with challenge := none })

/-- The device after a token that did not verify: the challenge is void, and the failure is counted and raised. -/
def Dev.tokenFailed (d : Dev) : Dev := (d.voidChallenge.inc Reg.DBG_STAT Fld.DBG_STAT.FAILS 1).raise 1 Src.SECURITY 0x0004 0xFFFF 0

theorem Dev.tryToken_ok (ok : d.tokenStatus t lifecycle = ST.OK) : d.tryToken t lifecycle = (ST.OK, d.voidChallenge) := by
  rw [Dev.tryToken, ok, if_pos rfl]
  rfl

theorem Dev.tryToken_failed (bad : d.tokenStatus t lifecycle ≠ ST.OK) :
    d.tryToken t lifecycle = (d.tokenStatus t lifecycle, d.tokenFailed) := by
  rw [Dev.tryToken, if_neg bad]
  rfl

theorem Dev.tokenFails_tokenFailed (few : d.tokenFails < 3) : d.tokenFailed.tokenFails = d.tokenFails + 1 := by
  have counted : d.tokenFailed.tokenFails = satAdd 8 d.tokenFails 1 % 2 ^ 8 :=
    Dev.rf_wf_same d.voidChallenge Reg.DBG_STAT (f := Fld.DBG_STAT.FAILS) (satAdd 8 d.tokenFails 1)
  rw [counted, satAdd]
  omega

theorem Dev.dbgOpen_tokenFailed : d.tokenFailed.dbgOpen = d.dbgOpen :=
  congrArg (· != 0) (Dev.rf_wf_field d.voidChallenge Reg.DBG_STAT (f := Fld.DBG_STAT.FAILS) (g := Fld.DBG_STAT.OPEN) _)

theorem Dev.raised_tokenFailed : d.tokenFailed.raised = d.raised ++ [Safety.rec 1 Src.SECURITY 4 0xFFFF 0] := rfl

end Token

section OpenPort
variable (m : Mach) (scope : Nat)

/-- The port opened, on a device whose identity is blocked (R539). -/
def Dev.portOpened (d : Dev) (scope : Nat) : Dev :=
  let d := d.raise 2 Src.SECURITY 0x0005 0xFFFF 0
  let d := (d.wf Reg.SEC_LCS Fld.SEC_LCS.STATE 3).wf Reg.SEC_LCS Fld.SEC_LCS.DEBUG_THIS_BOOT 1
  let d := (d.wf Reg.DBG_STAT Fld.DBG_STAT.OPEN 1).wf Reg.DBG_STAT Fld.DBG_STAT.SCOPE scope
  d.wf Reg.SAF_STAT Fld.SAF_STAT.DEBUG_HOLD 1

theorem Mach.openPort_eq : ∃ e : Dev, (m.openPort scope).dev = (e.wf Reg.SEC_LCS Fld.SEC_LCS.ID_BLOCK 1).portOpened scope
    ∧ e.boot.fuses.debugCount = min 64 (m.dev.boot.fuses.debugCount + 1) ∧ e.boot.challenge = m.dev.boot.challenge
    ∧ e.raised = m.dev.raised :=
  ⟨_, rfl, rfl, rfl, rfl⟩

section PortOpened
variable (d : Dev)

theorem Dev.dbgOpen_portOpened : (d.portOpened scope).dbgOpen = true := by
  refine Dev.rfB_of_one ?_
  rw [Dev.portOpened, Dev.rf_wf_ne _ _ _ _ (by decide), Dev.rf_wf_field]
  exact Dev.rf_wf_same _ _ _

theorem Dev.scope_portOpened (fits : scope < 2 ^ 3) : (d.portOpened scope).rf Reg.DBG_STAT Fld.DBG_STAT.SCOPE = scope := by
  rw [Dev.portOpened, Dev.rf_wf_ne _ _ _ _ (by decide), Dev.rf_wf_same]
  exact Nat.mod_eq_of_lt fits

theorem Dev.idBlock_portOpened : (d.portOpened scope).rf Reg.SEC_LCS Fld.SEC_LCS.ID_BLOCK
    = d.rf Reg.SEC_LCS Fld.SEC_LCS.ID_BLOCK := by
  rw [Dev.portOpened, Dev.rf_wf_ne _ _ _ _ (by decide), Dev.rf_wf_ne _ _ _ _ (by decide), Dev.rf_wf_ne _ _ _ _ (by decide),
    Dev.rf_wf_field, Dev.rf_wf_field]
  rfl

theorem Dev.raised_portOpened : (d.portOpened scope).raised = d.raised ++ [Safety.rec 2 Src.SECURITY 5 0xFFFF 0] := rfl

end PortOpened
end OpenPort

/-! ### A debug token from either side (R539, R540) -/

section DebugToken
variable (m : Mach) {t : List Byte}

theorem Mach.debugToken_dead (dead : m.dev.tokenFails ≥ 3) : m.debugToken t = (ST.AUTH_FAIL, m) := by
  rw [Mach.debugToken, if_pos dead]

theorem Mach.debugToken_isOpen (isOpen : m.dev.dbgOpen = true) : (m.debugToken t).2 = m := by
  rw [Mach.debugToken, if_pos isOpen]
  split
  · rfl
  · rfl

variable (few : m.dev.tokenFails < 3) (closed : m.dev.dbgOpen = false)
include few closed

theorem Mach.debugToken_failed (bad : m.dev.tokenStatus t false ≠ ST.OK) :
    m.debugToken t = (m.dev.tokenStatus t false, m.mod Dev.tokenFailed) := by
  rw [Mach.debugToken, if_neg (not_le.2 few), if_neg (by rw [closed]; decide), m.dev.tryToken_failed bad]
  dsimp only
  rw [if_neg bad]
  rfl

theorem Mach.debugToken_ok (ok : m.dev.tokenStatus t false = ST.OK) :
    m.debugToken t = (ST.OK, (m.mod Dev.voidChallenge).openPort (bits (field t 0x30 4) 2 0)) := by
  rw [Mach.debugToken, if_neg (not_le.2 few), if_neg (by rw [closed]; decide), m.dev.tryToken_ok ok]
  dsimp only
  rw [if_pos rfl]
  rfl

end DebugToken

section TapToken
variable {tok : List Byte} {s : State}

theorem exec_tapToken (on : s.dev.pwr.porst = false) :
    Safety.gives (.tapToken tok) s ((Safety.mach s).debugToken tok).2 := by
  have hd : exec (.tapToken tok) s = execTapToken tok s := rfl
  rw [execTapToken, run_eq, if_neg (by rw [on]; decide)] at hd
  exact hd

theorem exec_tapToken_noEffect (none_ : s.dev.pwr.porst = true ∨ s.dev.tokenFails ≥ 3 ∨ s.dev.dbgOpen = true) :
    Safety.givesDev (.tapToken tok) s s.dev := by
  cases porst : s.dev.pwr.porst with
  | true =>
    have hd : exec (.tapToken tok) s = execTapToken tok s := rfl
    rw [execTapToken, run_eq, if_pos porst] at hd
    exact hd
  | false =>
    have same : ((Safety.mach s).debugToken tok).2 = Safety.mach s := by
      rcases none_ with off | dead | isOpen
      · rw [porst] at off
        cases off
      · rw [Mach.debugToken_dead _ dead]
      · exact Mach.debugToken_isOpen _ isOpen
    have hd := exec_tapToken (tok := tok) porst
    rw [same] at hd
    exact givesDev_of_gives hd rfl

end TapToken

/-- Settles O18: challenges by the failures so far, tokens by their status. -/
theorem challengesAndTokens : Obligations.ChallengesAndTokens := by
  unfold Obligations.ChallengesAndTokens
  refine ⟨?dead, ?live, ?failed, ?opens, ?noEffect, ?expires⟩
  case dead => exact fun s dead => ⟨s.dev.issueChallenge_dead dead, exec_tapChal_dead dead⟩
  case live =>
    intro s on few
    exact ⟨_, exec_tapChal on, ⟨rfl, rfl⟩, rfl, s.dev.issueChallenge_live few⟩
  case failed =>
    intro tok s on few closed bad
    have hd := exec_tapToken (tok := tok) on
    rw [(Safety.mach s).debugToken_failed few closed bad] at hd
    exact ⟨_, givesDev_of_gives hd rfl, ⟨rfl, rfl⟩, rfl, Dev.tokenFails_tokenFailed _ few,
      (Dev.dbgOpen_tokenFailed _).trans closed, Dev.raised_tokenFailed _⟩
  case opens =>
    intro tok s on few closed ok
    have hd := exec_tapToken (tok := tok) on
    rw [(Safety.mach s).debugToken_ok few closed ok] at hd
    obtain ⟨e, opened, count, -, raised⟩ := ((Safety.mach s).mod Dev.voidChallenge).openPort_eq
      (bits (field tok 0x30 4) 2 0)
    refine ⟨_, hd, ?_⟩
    dsimp only
    rw [opened]
    refine ⟨Dev.dbgOpen_portOpened _ _, Dev.scope_portOpened _ _ (bits_lt _ _ _), count,
      (Dev.idBlock_portOpened _ _).trans (Dev.rf_wf_same _ _ _), (Dev.raised_portOpened _ _).trans ?_⟩
    rw [Dev.wf_raised, raised]
    rfl
  case noEffect => exact fun tok s none_ => exec_tapToken_noEffect none_
  case expires =>
    intro s live
    obtain ⟨e, expires⟩ := exec_challengeExpire live
    exact ⟨_, expires, ⟨rfl, rfl⟩, rfl⟩

end Machine
end Sys2Proof
end

section
/-!
PROOFS. Security packets (O32).
-/
namespace Sys2Proof
namespace Machine

/-! ### Attestation (R530 to R533) -/

/-- A report begins with the magic number. -/
theorem Mach.magic_report (m : Mach) (nonce more : List Byte) : field (m.report nonce ++ more) 0 4 = 0x5A564154 := by
  obtain ⟨rest, magic⟩ : leBytes 4 0x5A564154 <+: m.report nonce ++ more := by
    unfold Mach.report
    iterate 21 refine List.prefix_append_of_prefix ?_
    exact List.prefix_append _ _
  rw [← magic, field_leBytes_append]
  exact Nat.mod_eq_of_lt (by decide)

section Packets
variable {tag : BitVec 16} {p : Packet} {s : State}

theorem exec_attest_refused (ready : Safety.ready s 0x0902 tag.toNat p)
    (blocked : s.dev.rfB Reg.SEC_LCS Fld.SEC_LCS.ID_BLOCK = true) :
    Safety.givesDev (.attest tag) s (s.dev.reply p ST.STATE []) := by
  have hd := gives_of_cmd (c := .attest tag) rfl ready
  dsimp only [Safety.mach] at hd
  rw [blocked, Bool.true_or, Bool.true_or, if_pos rfl] at hd
  exact givesDev_of_gives hd rfl

theorem exec_attest (ready : Safety.ready s 0x0902 tag.toNat p) (free : s.dev.rfB Reg.SEC_LCS Fld.SEC_LCS.ID_BLOCK = false)
    (notBlank : s.dev.boot.fuses.lcs ≠ 0) (notRetired : s.dev.boot.fuses.lcs ≠ 4) : Safety.givesDev (.attest tag) s
      ((s.dev.freeBytes 96).2.reply p ST.OK ((Safety.mach s).report (slice p.payload 0 32)
        ++ ((s.dev.freeBytes 96).1 ++ List.replicate 160 0))) := by
  have hd := gives_of_cmd (c := .attest tag) rfl ready
  dsimp only at hd
  rw [if_neg (by simp [Safety.mach, free, notBlank, notRetired]), List.append_assoc, show (Safety.mach s).dev = s.dev from rfl] at hd
  have replied := givesDev_of_gives hd (by rfl)
  rw [Mach.ok, Mach.answer, Mach.mod_dev] at replied
  exact replied

theorem exec_debugChallenge (ready : Safety.ready s 0x0903 tag.toNat p) :
    Safety.givesDev (.debugChallenge tag) s (s.dev.issueChallenge.2.reply p ST.OK s.dev.issueChallenge.1) :=
  givesDev_of_gives (gives_of_cmd (c := .debugChallenge tag) rfl ready) rfl

/-! ### DEBUG_TOKEN (R539, R540) -/

theorem exec_debugToken {st : Nat} {m : Mach} (ready : Safety.ready s 0x0904 tag.toNat p)
    (tried : (Safety.mach s).debugToken (slice p.payload 0 288) = (st, m)) :
    Safety.gives (.debugToken tag) s (m.answer p st []) := by
  have hd := gives_of_cmd (c := .debugToken tag) rfl ready
  dsimp only at hd
  rw [tried] at hd
  exact hd

/-! ### LIFECYCLE (R535) -/

/-- The device with the fuses of its target. -/
def Dev.moveLifecycle (d : Dev) (target : Nat) : Dev :=
  d.modFuses (fun f => if f.lcs = 4 then f else if target = 4 then f.retire else { f with lcs := target })

theorem exec_lifecycle_dead (ready : Safety.ready s 0x0905 tag.toNat p) (dead : s.dev.tokenFails ≥ 3) :
    Safety.givesDev (.lifecycle tag) s (s.dev.reply p ST.AUTH_FAIL []) := by
  have hd := gives_of_cmd (c := .lifecycle tag) rfl ready
  dsimp only at hd
  rw [if_pos (by exact dead)] at hd
  exact givesDev_of_gives hd rfl

/-- The moves that LIFECYCLE makes, as it tests them. -/
theorem lifecycle_moves {lcs target : Nat} (allowed : lcs = 1 ∧ target = 2 ∨ (lcs = 1 ∨ lcs = 2) ∧ target = 4) :
    ¬(!(lcs == 1 && target == 2 || (lcs == 1 || lcs == 2) && target == 4)) = true := by
  simpa only [Bool.not_eq_true', Bool.not_eq_false, Bool.or_eq_true, Bool.and_eq_true, beq_iff_eq] using allowed

section Lifecycle
variable {target : Nat} (ready : Safety.ready s 0x0905 tag.toNat p) (few : s.dev.tokenFails < 3)
  (moveTo : bits (field (slice p.payload 0 288) 0x30 4) 2 0 = target)
  (allowed : s.dev.lcs = 1 ∧ target = 2 ∨ (s.dev.lcs = 1 ∨ s.dev.lcs = 2) ∧ target = 4)
include ready few moveTo allowed

theorem exec_lifecycle_failed (bad : s.dev.tokenStatus (slice p.payload 0 288) true ≠ ST.OK) :
    Safety.givesDev (.lifecycle tag) s (s.dev.tokenFailed.reply p (s.dev.tokenStatus (slice p.payload 0 288) true) []) := by
  have hd := gives_of_cmd (c := .lifecycle tag) rfl ready
  dsimp only at hd
  rw [if_neg (by exact not_le.2 few), moveTo, if_neg (by exact lifecycle_moves allowed), (Safety.mach s).dev.tryToken_failed bad,
    if_pos (by exact bad)] at hd
  exact givesDev_of_gives hd rfl

theorem exec_lifecycle (ok : s.dev.tokenStatus (slice p.payload 0 288) true = ST.OK) : Safety.gives (.lifecycle tag) s
    (((if target = 4 then ((Safety.mach s).mod Dev.voidChallenge).eraseFlash else (Safety.mach s).mod Dev.voidChallenge).mod
      (Dev.moveLifecycle · target)).ok p []) := by
  have hd := gives_of_cmd (c := .lifecycle tag) rfl ready
  dsimp only at hd
  rw [if_neg (by exact not_le.2 few), moveTo, if_neg (by exact lifecycle_moves allowed), (Safety.mach s).dev.tryToken_ok ok,
    if_neg (by simp)] at hd
  exact hd

end Lifecycle
end Packets

theorem Mach.boot_store (m : Mach) (a : Nat) (bs : List Byte) : (m.store a bs).dev.boot = m.dev.boot := rfl

/-- The erasure of flash leaves the boot's state, and flash blank. -/
theorem Mach.eraseFlash_keeps (m : Mach) : m.eraseFlash.dev.boot = m.dev.boot ∧ m.eraseFlash.dev.flState = FL.BLANK := by
  refine ⟨?_, Dev.flState_setFlState _ (by decide)⟩
  refine (foldl_keeps Dev.boot (fun b _ d => ?_) _).trans (foldl_keeps (fun m : Mach => m.dev.boot) (fun x _ m => ?_) m)
  · rfl
  · exact m.boot_store _ _

/-- The third of four entries, where it alone is replaced. -/
theorem getD_replace_two {α : Type} (h d : α) (old : Nat → α) :
    ((List.range 4).map (fun i => if i = 2 then h else old i)).getD 2 d = h := rfl

section OwnerKey
variable {tag : BitVec 16} {p : Packet} {s : State} (ready : Safety.ready s 0x0906 tag.toNat p)
include ready

theorem exec_ownerKey_refused (refused : s.dev.lcs ≠ 1 ∨ bit s.dev.boot.fuses.present 2 = true) :
    Safety.givesDev (.ownerKey tag) s (s.dev.reply p ST.STATE []) := by
  have hd := gives_of_cmd (c := .ownerKey tag) rfl ready
  dsimp only at hd
  rw [if_pos (by rw [Bool.or_eq_true, decide_eq_true_iff]; exact refused)] at hd
  exact givesDev_of_gives hd rfl

theorem exec_ownerKey (provisioned : s.dev.lcs = 1) (first : bit s.dev.boot.fuses.present 2 = false) : ∃ e : Dev,
    Safety.givesDev (.ownerKey tag) s (e.reply p ST.OK [])
    ∧ e.boot.fuses.hashes.getD 2 [] = sha384 (slice p.payload 0 97)
    ∧ e.boot.fuses.present = s.dev.boot.fuses.present + 4 := by
  have hd := gives_of_cmd (c := .ownerKey tag) rfl ready
  dsimp only at hd
  rw [if_neg (by simp [Safety.mach, provisioned, first])] at hd
  exact ⟨_, givesDev_of_gives hd rfl, getD_replace_two _ _ _, rfl⟩

end OwnerKey

/-- Settles O32: a token by its status, a lifecycle token that verifies by its target. -/
theorem securityPackets : Obligations.SecurityPackets := by
  unfold Obligations.SecurityPackets
  refine ⟨?attest, ?blocked, ?challenge, ?dead, ?opens, ?deployed, ?retired, ?debugFails, ?lifecycleFails, ?second, ?first⟩
  case attest =>
    intro tag p s ready free notBlank notRetired
    exact ⟨_, _, exec_attest ready free notBlank notRetired, List.take_left.symm, Mach.magic_report _ _ _⟩
  case blocked => exact fun tag p s ready blocked => exec_attest_refused ready blocked
  case challenge => exact fun tag p s ready => exec_debugChallenge ready
  case dead =>
    intro c op tag p s packet ready dead
    simp only [List.mem_cons, Prod.mk.injEq, List.not_mem_nil, or_false] at packet
    rcases packet with ⟨rfl, rfl⟩ | ⟨rfl, rfl⟩
    · exact givesDev_of_gives (exec_debugToken ready ((Safety.mach s).debugToken_dead dead)) rfl
    · exact exec_lifecycle_dead ready dead
  case opens =>
    intro tag p s ready few closed ok
    obtain ⟨e, opened, -, void, -⟩ := ((Safety.mach s).mod Dev.voidChallenge).openPort_eq
      (bits (field (slice p.payload 0 288) 0x30 4) 2 0)
    refine ⟨_, exec_debugToken ready ((Safety.mach s).debugToken_ok few closed ok), ?_, ?_⟩
    · rw [opened]
      exact Dev.dbgOpen_portOpened _ _
    · rw [opened]
      exact void
  case deployed =>
    intro tag p s ready few provisioned target ok lives
    have hd := exec_lifecycle ready few target (.inl ⟨provisioned, rfl⟩) ok
    rw [if_neg (by decide)] at hd
    refine ⟨_, givesDev_of_gives hd rfl, ?_, rfl⟩
    change (if s.dev.boot.fuses.lcs = 4 then s.dev.boot.fuses else { s.dev.boot.fuses with lcs := 2 }).lcs = 2
    rw [if_neg lives]
  case retired =>
    intro tag p s ready few before target ok
    have hd := exec_lifecycle ready few target (.inr ⟨before, rfl⟩) ok
    rw [if_pos rfl] at hd
    obtain ⟨boot, blank⟩ := ((Safety.mach s).mod Dev.voidChallenge).eraseFlash_keeps
    refine ⟨_, hd, ?_, ?_, blank⟩
    · generalize ((Safety.mach s).mod Dev.voidChallenge).eraseFlash = m
      change (if m.dev.boot.fuses.lcs = 4 then m.dev.boot.fuses else m.dev.boot.fuses.retire).lcs = 4
      split
      next already => exact already
      next => rfl
    · change (((Safety.mach s).mod Dev.voidChallenge).eraseFlash.dev.boot).challenge = none
      rw [boot]
      rfl
  case debugFails =>
    intro tag p st s ready few closed status bad
    subst status
    exact ⟨_, givesDev_of_gives (exec_debugToken ready ((Safety.mach s).debugToken_failed few closed bad)) rfl,
      Dev.tokenFails_tokenFailed _ few, rfl⟩
  case lifecycleFails =>
    intro tag p st s ready few allowed status bad
    subst status
    exact ⟨_, exec_lifecycle_failed ready few rfl allowed bad, Dev.tokenFails_tokenFailed _ few, rfl⟩
  case second => exact fun tag p s ready refused => exec_ownerKey_refused ready refused
  case first => exact fun tag p s ready provisioned first => exec_ownerKey ready provisioned first

end Machine
end Sys2Proof
end

section
/-!
PROOFS. Firmware and recovery packets (O31).
-/
namespace Sys2Proof
namespace Machine

/-! ### FW_ACTIVATE (R524) -/

section Activate
variable {tag : BitVec 16} {fails : List (Fin 2 × Fin 3)} {p : Packet} {s : State}
  (ready : Safety.ready s 0x0509 tag.toNat p) (slot : pay8 p.payload 0 ≤ 1)
include ready slot

theorem exec_fwActivate_refused (refused : s.dev.boot.slot = some (pay8 p.payload 0) ∨ s.dev.flState ≠ FL.READY) :
    Safety.givesDev (.fwActivate tag fails) s (s.dev.reply p ST.STATE []) := by
  have hd := gives_of_cmd (c := .fwActivate tag fails) rfl ready
  dsimp only at hd
  rw [if_neg (not_lt.2 slot), if_pos (by rw [Bool.or_eq_true, decide_eq_true_iff, decide_eq_true_iff]; exact refused)] at hd
  exact givesDev_of_gives hd rfl

theorem exec_fwActivate {m m2 : Mach} {x : ImgRec × ImgRec} {other : Option BootRec}
    (unused : s.dev.boot.slot ≠ some (pay8 p.payload 0)) (flash : s.dev.flState = FL.READY)
    (verified : (Safety.mach s).slotImages (pay8 p.payload 0) fails false id = (m, .inr x))
    (beside : m.bootRec (1 - pay8 p.payload 0) = (m2, other)) :
    Safety.gives (.fwActivate tag fails) s ((m2.writeBootRec (pay8 p.payload 0) ⟨match other with
      | some y => (y.seq + 1) % 2 ^ 32
      | none => 1, 0, 0⟩).ok p []) := by
  have hd := gives_of_cmd (c := .fwActivate tag fails) rfl ready
  dsimp only at hd
  rw [if_neg (not_lt.2 slot), if_neg (by simp [Safety.mach, unused, flash]), verified] at hd
  dsimp only at hd
  simp only [beside] at hd
  cases other with
  | none => exact hd
  | some y => exact hd

end Activate

/-! ### FW_COMMIT (R525) -/

section Commit
variable {tag : BitVec 16} {p : Packet} {s : State} (ready : Safety.ready s 0x050A tag.toNat p)
include ready

theorem exec_fwCommit_noSlot (none_ : s.dev.boot.slot = none) :
    Safety.givesDev (.fwCommit tag) s (s.dev.reply p ST.STATE []) := by
  have hd := gives_of_cmd (c := .fwCommit tag) rfl ready
  dsimp only [Safety.mach] at hd
  rw [none_] at hd
  exact givesDev_of_gives hd rfl

section Slot
variable {n : Nat} {m : Mach} {x : BootRec} (slot : s.dev.boot.slot = some n) (serving : s.dev.flServing = true)
  (rec : (Safety.mach s).bootRec n = (m, some x))
include slot serving rec

theorem exec_fwCommit_unwritable (known : pay8 p.payload 0 ≤ 1) (uncommitted : x.state ≠ 1) (busy : m.dev.flState ≠ FL.READY) :
    Safety.gives (.fwCommit tag) s (m.fail p ST.STATE) := by
  have hd := gives_of_cmd (c := .fwCommit tag) rfl ready
  dsimp only at hd
  simp only [show (Safety.mach s).dev.boot.slot = some n from slot] at hd
  rw [if_neg (not_lt.2 known), if_neg (by simpa [Safety.mach] using serving), rec] at hd
  dsimp only at hd
  rw [if_pos (by simp [uncommitted, busy])] at hd
  exact hd

/-- A commit that the record allows: the record is marked where it is not yet, and the floor is raised when asked. -/
theorem exec_fwCommit {m2 : Mach} {a b : ImgRec} (known : pay8 p.payload 0 ≤ 1)
    (writable : x.state = 1 ∨ m.dev.flState = FL.READY)
    (marked : m2 = (if x.state = 1 then m else m.writeBootRec n { x with state := 1 })) (one : m2.dev.boot.stage1 = some a)
    (two : m2.dev.boot.tarinady = some b) : Safety.gives (.fwCommit tag) s ((if pay8 p.payload 0 = 1 then
      m2.mod (fun d => (d.modFuses (fun f => { f with svnMin := max d.boot.fuses.svnMin (min 64 (min a.svn b.svn)) })).wf
        Reg.SEC_LCS Fld.SEC_LCS.SVN_MIN (max d.boot.fuses.svnMin (min 64 (min a.svn b.svn)))) else m2).ok p []) := by
  have hd := gives_of_cmd (c := .fwCommit tag) rfl ready
  dsimp only at hd
  simp only [show (Safety.mach s).dev.boot.slot = some n from slot] at hd
  rw [if_neg (not_lt.2 known), if_neg (by simpa [Safety.mach] using serving), rec] at hd
  dsimp only at hd
  rw [if_neg (by rcases writable with h | h <;> simp [h])] at hd
  by_cases committed : x.state = 1
  · rw [if_pos committed] at marked
    subst marked
    rw [show Option.filter (fun y : BootRec => y.state != 1) (some x) = none by simp [committed]] at hd
    simp only [one, two] at hd
    exact hd
  · rw [if_neg committed] at marked
    subst marked
    rw [show Option.filter (fun y : BootRec => y.state != 1) (some x) = some x by simp [committed]] at hd
    simp only [one, two] at hd
    exact hd

end Slot
end Commit

/-! ### RECOVERY_LOAD (R529, R564) -/

section Recovery
variable {tag : BitVec 16} {p : Packet} {s : State} (ready : Safety.ready s 0x0907 tag.toNat p)
  (next : pay32 p.payload 0 = s.dev.boot.recovery.length)
include ready next

theorem exec_recoveryLoad_part (more : bit (pay32 p.payload 4) 0 = false) : Safety.givesDev (.recoveryLoad tag) s
    ((s.dev.modBoot (fun b => { b with recovery := s.dev.boot.recovery ++ p.payload.drop 8 })).reply p ST.OK []) := by
  have hd := gives_of_cmd (c := .recoveryLoad tag) rfl ready
  dsimp only at hd
  rw [if_neg (by exact not_not_intro next), if_pos (by rw [more]; rfl)] at hd
  exact givesDev_of_gives hd rfl

section Last
variable {m : Mach} (last : bit (pay32 p.payload 4) 0 = true)
include last

theorem exec_recoveryLoad_bad {r : Nat} (bad : (Safety.mach s).verify (s.dev.boot.recovery ++ p.payload.drop 8) 1
    (s.dev.boot.recovery ++ p.payload.drop 8).length false = (m, .inl r)) :
    Safety.gives (.recoveryLoad tag) s (m.fail p (verifyStatus r)) := by
  have hd := gives_of_cmd (c := .recoveryLoad tag) rfl ready
  dsimp only [Safety.mach] at hd
  rw [if_neg (not_not_intro next), if_neg (by rw [last]; decide)] at hd
  rw [Safety.mach] at bad
  simp only [bad] at hd
  exact hd

theorem exec_recoveryLoad_good {one : ImgRec} (good : (Safety.mach s).verify (s.dev.boot.recovery ++ p.payload.drop 8) 1
    (s.dev.boot.recovery ++ p.payload.drop 8).length false = (m, .inr one)) :
    Safety.gives (.recoveryLoad tag) s (((((m.mod (fun d => d.modBoot (fun b => { b with recovery := [] }))).store one.load
        (slice (s.dev.boot.recovery ++ p.payload.drop 8) 512 (one.stop - one.load))).ok p []).mod
          (fun d => (d.setStage 2).modBoot (fun b => { b with stage1 := some one })))) := by
  have hd := gives_of_cmd (c := .recoveryLoad tag) rfl ready
  dsimp only [Safety.mach] at hd
  rw [if_neg (not_not_intro next), if_neg (by rw [last]; decide)] at hd
  rw [Safety.mach] at good
  simp only [good] at hd
  exact hd

end Last
end Recovery

/-- Settles O31: each packet by the slot, the record and the verification that it meets. -/
theorem firmwarePackets : Obligations.FirmwarePackets := by
  unfold Obligations.FirmwarePackets
  refine ⟨?refused, ?activates, ?noSlot, ?unwritable, ?commits, ?part, ?last⟩
  case refused => exact fun tag fails p s ready slot refused => exec_fwActivate_refused ready slot refused
  case activates =>
    intro tag fails p m m2 x other s ready slot unused flash verified beside
    have hd := exec_fwActivate ready slot unused flash verified beside
    cases other with
    | none => exact hd
    | some y => exact hd
  case noSlot => exact fun tag p s ready none_ => exec_fwCommit_noSlot ready none_
  case unwritable =>
    exact fun tag p n m x s ready slot known serving rec uncommitted busy =>
      exec_fwCommit_unwritable ready slot serving rec known uncommitted busy
  case commits =>
    intro tag p n m m2 x a b v s ready slot serving rec writable marked one two floor
    have commits (known : pay8 p.payload 0 ≤ 1) := exec_fwCommit ready slot serving rec known writable marked one two
    refine ⟨fun keep => ?_, fun raise => ?_⟩
    · have hd := commits (by omega)
      rwa [if_neg (by omega)] at hd
    · have hd := commits (by omega)
      rw [if_pos raise] at hd
      rw [floor]
      exact hd
  case part => exact fun tag p s ready next more => ⟨_, exec_recoveryLoad_part ready next more, rfl⟩
  case last =>
    intro tag p m bs s ready next last image
    subst image
    exact ⟨fun r bad => exec_recoveryLoad_bad ready next last bad, fun one good => exec_recoveryLoad_good ready next last good⟩

end Machine
end Sys2Proof
end

section
/-!
PROOFS. The debug port (O37).
-/
namespace Sys2Proof
namespace Machine

/-! ### Halt, step and resume of lists (R542) -/

/-- Where each round of a fold keeps `P` and keeps `Q`, and the round of `x` makes `Q` of `P`, the fold makes `Q` of `P`. -/
theorem foldl_reaches {σ α : Type} {P Q : σ → Prop} {f : σ → α → σ} {xs : List α} {x : α} (hx : x ∈ xs)
    (keepsP : ∀ s y, P s → P (f s y)) (keepsQ : ∀ s y, Q s → Q (f s y)) (reaches : ∀ s, P s → Q (f s x)) {s : σ} (start : P s) :
    Q (xs.foldl f s) := by
  have foldP (ys : List α) (s : σ) (h : P s) : P (ys.foldl f s) := List.foldlRecOn ys f h fun s h y _ => keepsP s y h
  have foldQ (ys : List α) (s : σ) (h : Q s) : Q (ys.foldl f s) := List.foldlRecOn ys f h fun s h y _ => keepsQ s y h
  obtain ⟨before, after, rfl⟩ := List.append_of_mem hx
  rw [List.foldl_append, List.foldl_cons]
  exact foldQ after _ (reaches _ (foldP before s start))

/-- What a map finds at a key, it holds. -/
theorem AMap.mem_of_find {β : Type} {m : AMap β} {k : Nat} {v : β} (found : AMap.find m k = some v) : (k, v) ∈ m := by
  induction m with
  | nil => cases found
  | cons p rest ih =>
    obtain ⟨j, u⟩ := p
    unfold AMap.find at found
    split at found
    next same =>
      obtain rfl := Option.some.inj found
      rw [same]
      exact List.mem_cons_self
    next =>
      split at found
      · cases found
      · exact List.mem_cons_of_mem _ (ih found)

section ModList
variable {d : Dev} {f : ListSt → ListSt} {k : Nat} {l : ListSt}

/-- The list `k` has a state from which `f` gives `l`. -/
def Dev.becomes (f : ListSt → ListSt) (k : Nat) (l : ListSt) (d : Dev) : Prop := ∃ x, d.list k = some x ∧ f x = l

theorem Dev.list_modList_ne {j : Nat} (other : k ≠ j) : (d.modList j f).list k = d.list k := by
  unfold Dev.modList
  split
  · rfl
  · exact d.list_setList_ne _ other

variable (idem : f l = l)
include idem

theorem Dev.list_modList_done (j : Nat) (done : d.list k = some l) : (d.modList j f).list k = some l := by
  by_cases other : k = j
  · subst other
    rw [Dev.list_modList_same, done, Option.map_some, idem]
  · rwa [Dev.list_modList_ne other]

theorem Dev.becomes_modList (j : Nat) (h : d.becomes f k l) : (d.modList j f).becomes f k l := by
  obtain ⟨x, list, becomes⟩ := h
  by_cases other : k = j
  · subst other
    exact ⟨f x, by rw [Dev.list_modList_same, list, Option.map_some], by rw [becomes, idem]⟩
  · exact ⟨x, (Dev.list_modList_ne other).trans list, becomes⟩

/-- A change of every list named, that changes none twice, changes a list named. -/
theorem Dev.list_foldl_modList {ks : List Nat} (named : k ∈ ks) (h : d.becomes f k l) :
    (ks.foldl (fun (d : Dev) j => d.modList j f) d).list k = some l := by
  refine foldl_reaches (P := Dev.becomes f k l) (Q := fun d => d.list k = some l) named (fun d j => Dev.becomes_modList idem j)
    (fun d j => Dev.list_modList_done idem j) (fun d h => ?_) h
  obtain ⟨x, list, becomes⟩ := h
  rw [Dev.list_modList_same, list, Option.map_some, becomes]

end ModList

section Lists
variable {d : Dev} {k : Nat} {l : ListSt}

theorem Dev.mem_stepLists {n : Nat} (list : d.list k = some l) (inStep : l.loop = n) : k ∈ d.stepLists n :=
  List.mem_map.2 ⟨(k, l), List.mem_filter.2 ⟨AMap.mem_of_find list, by rw [inStep, beq_self_eq_true]⟩, rfl⟩

theorem Dev.mem_dbgKeys {tile : Nat} (list : d.list k = some l) (named : listUnit k = tile) : k ∈ d.dbgKeys tile :=
  List.mem_filter.2 ⟨List.mem_map.2 ⟨(k, l), AMap.mem_of_find list, rfl⟩, by rw [named, beq_self_eq_true]⟩

/-- A list as a halt of the debug port leaves it. -/
def ListSt.dbgHalted (l : ListSt) : ListSt := { l with dbgHalt := true, dbgStep := false }

/-- A halted list as a step of the debug port leaves it; another list stays. -/
def ListSt.dbgStepped (l : ListSt) : ListSt :=
  if l.dbgHalt then { l with dbgHalt := false, dbgStep := true, dbgPassed := some l.nextIdx } else l

/-- A halted list as the debug port resumes it; another list stays. -/
def ListSt.dbgResumed (l : ListSt) : ListSt :=
  if l.dbgHalt then { l with dbgHalt := false, dbgStep := false, dbgPassed := some l.nextIdx } else l

theorem ListSt.dbgHalt_dbgResumed (l : ListSt) : l.dbgResumed.dbgHalt = false := by
  unfold ListSt.dbgResumed
  split
  · rfl
  next running => exact Bool.eq_false_iff.2 running

theorem Dev.dbgHaltList_eq {j : Nat} {x : ListSt} (list : d.list j = some x) : d.dbgHaltList j
    = if d.rfB Reg.DBG_RT_CTRL Fld.DBG_RT_CTRL.GROUP then
        (d.stepLists x.loop).foldl (fun (d : Dev) k => d.modList k ListSt.dbgHalted) d
      else d.modList j ListSt.dbgHalted := by
  unfold Dev.dbgHaltList
  rw [list]
  rfl

/-- A halt of any list leaves a list that is halted halted, and one that a halt is to change so. -/
theorem Dev.dbgHaltList_keeps (j : Nat) : (d.becomes ListSt.dbgHalted k l.dbgHalted →
      (d.dbgHaltList j).becomes ListSt.dbgHalted k l.dbgHalted)
    ∧ (d.list k = some l.dbgHalted → (d.dbgHaltList j).list k = some l.dbgHalted) := by
  cases list : d.list j with
  | none =>
    have same : d.dbgHaltList j = d := by rw [Dev.dbgHaltList, list]
    rw [same]
    exact ⟨id, id⟩
  | some x =>
    rw [Dev.dbgHaltList_eq list]
    split
    · exact ⟨fun h => List.foldlRecOn _ _ h fun d h j _ => Dev.becomes_modList (by rfl) j h,
        fun h => List.foldlRecOn (motive := fun d : Dev => d.list k = some l.dbgHalted) _ _ h
          fun d h j _ => Dev.list_modList_done (by rfl) j h⟩
    · exact ⟨Dev.becomes_modList (by rfl) j, Dev.list_modList_done (by rfl) j⟩

/-- The halt of a list halts it, alone or with the lists of its step. -/
theorem Dev.list_dbgHaltList (h : d.becomes ListSt.dbgHalted k l.dbgHalted) : (d.dbgHaltList k).list k = some l.dbgHalted := by
  obtain ⟨x, list, becomes⟩ := h
  rw [Dev.dbgHaltList_eq list]
  split
  · exact Dev.list_foldl_modList (by rfl) (Dev.mem_stepLists list rfl) ⟨x, list, becomes⟩
  · rw [Dev.list_modList_same, list, Option.map_some, becomes]

end Lists

theorem exec_halt {s : State} (isOpen : s.dev.dbgOpen = true) : Safety.givesDev .halt s
    ((s.dev.dbgKeys (s.dev.rf Reg.DBG_RT_CTRL Fld.DBG_RT_CTRL.TILE)).foldl (fun (d : Dev) k => d.dbgHaltList k) s.dev) := by
  have hd : exec .halt s = execHalt s := rfl
  rw [execHalt, runDev_eq, Dev.dbgHaltTile, if_neg (by rw [isOpen]; decide)] at hd
  exact hd

theorem exec_step {s : State} (isOpen : s.dev.dbgOpen = true) : Safety.givesDev .step s
    ((s.dev.dbgKeys (s.dev.rf Reg.DBG_RT_CTRL Fld.DBG_RT_CTRL.TILE)).foldl (fun (d : Dev) k => d.modList k ListSt.dbgStepped)
      s.dev) := by
  have hd : exec .step s = execStep s := rfl
  rw [execStep, runDev_eq, Dev.dbgStepTile, if_neg (by rw [isOpen]; decide)] at hd
  exact hd

theorem exec_resume {s : State} (isOpen : s.dev.dbgOpen = true) : Safety.givesDev .resume s
    ((s.dev.lists.map (·.1)).foldl (fun (d : Dev) k => d.modList k ListSt.dbgResumed) s.dev).resumeLoops := by
  have hd : exec .resume s = execResume s := rfl
  rw [execResume, runDev_eq, Dev.dbgResume, if_neg (by rw [isOpen]; decide)] at hd
  exact hd

theorem exec_dbg_closed {s : State} (closed : s.dev.dbgOpen = false) : Safety.givesDev .halt s s.dev
    ∧ Safety.givesDev .step s s.dev ∧ Safety.givesDev .resume s s.dev := by
  have halt : exec .halt s = execHalt s := rfl
  have step : exec .step s = execStep s := rfl
  have resume : exec .resume s = execResume s := rfl
  rw [execHalt, runDev_eq, Dev.dbgHaltTile, if_pos (by rw [closed]; decide)] at halt
  rw [execStep, runDev_eq, Dev.dbgStepTile, if_pos (by rw [closed]; decide)] at step
  rw [execResume, runDev_eq, Dev.dbgResume, if_pos (by rw [closed]; decide)] at resume
  exact ⟨halt, step, resume⟩

/-! ### No list halted -/

/-- No halt of the debug port stands against list `k`. -/
def Dev.listRuns (k : Nat) (d : Dev) : Prop := ∀ l, d.list k = some l → l.dbgHalt = false

section Runs
variable {d : Dev} {k : Nat}

theorem Dev.listRuns_of_lists {e : Dev} (same : e.lists = d.lists) (h : d.listRuns k) : e.listRuns k := by
  intro l list
  refine h l ?_
  rw [Dev.list, ← same]
  exact list

/-- A change of a list that halts none that runs. -/
theorem Dev.listRuns_modList {f : ListSt → ListSt} (j : Nat) (keeps : ∀ l, l.dbgHalt = false → (f l).dbgHalt = false)
    (h : d.listRuns k) : (d.modList j f).listRuns k := by
  intro l list
  by_cases other : k = j
  · subst other
    rw [Dev.list_modList_same] at list
    obtain ⟨x, found, rfl⟩ := Option.map_eq_some_iff.1 list
    exact keeps x (h x found)
  · rw [Dev.list_modList_ne other] at list
    exact h l list

theorem Dev.lists_endBoost (d : Dev) (n : Nat) : (d.endBoost n).lists = d.lists := by
  unfold Dev.endBoost
  split
  · rfl
  · split
    · rfl
    · rfl

theorem Dev.listRuns_beginSave (n : Nat) (h : d.listRuns k) : (d.beginSave n).listRuns k := by
  unfold Dev.beginSave
  split
  · exact h
  next st _ =>
    refine Dev.listRuns_of_lists (Dev.lists_endBoost _ n) (Dev.listRuns_of_lists
      (foldl_keeps Dev.lists (fun p _ e => by rw [(Dev.ColOnly.toPeer e p 1 _).rest]) _) ?_)
    exact List.foldlRecOn _ _ (Dev.listRuns_of_lists rfl h) fun e he j _ => Dev.listRuns_modList j (fun l running => running) he

theorem Dev.listRuns_resumeLoops (h : d.listRuns k) : d.resumeLoops.listRuns k := by
  refine List.foldlRecOn _ _ h fun e he n _ => ?_
  unfold Dev.afterRelease
  split
  · exact he
  · split
    · exact Dev.listRuns_beginSave n he
    · exact he

/-- Once every list has been resumed, none is halted. -/
theorem Dev.listRuns_resumed (d : Dev) (k : Nat) :
    ((d.lists.map (·.1)).foldl (fun (d : Dev) k => d.modList k ListSt.dbgResumed) d).listRuns k := by
  have keeps (e : Dev) (j : Nat) (h : e.listRuns k) : (e.modList j ListSt.dbgResumed).listRuns k :=
    Dev.listRuns_modList j (fun l _ => l.dbgHalt_dbgResumed) h
  cases list : d.list k with
  | none => exact List.foldlRecOn _ _ (fun l found => by rw [list] at found; cases found) fun e he j _ => keeps e j he
  | some l =>
    refine foldl_reaches (P := fun _ => True) (Q := Dev.listRuns k) (List.mem_map.2 ⟨(k, l), AMap.mem_of_find list, rfl⟩)
      (fun _ _ _ => trivial) keeps (fun e _ x found => ?_) trivial
    rw [Dev.list_modList_same] at found
    obtain ⟨y, -, rfl⟩ := Option.map_eq_some_iff.1 found
    exact y.dbgHalt_dbgResumed

end Runs

/-! ### The debug module (R541) -/

theorem Dev.harts_beginSave (d : Dev) (n : Nat) : (d.beginSave n).harts = d.harts := by
  have ended (e : Dev) : (e.endBoost n).harts = e.harts := by
    unfold Dev.endBoost
    split
    · rfl
    · split
      · rfl
      · rfl
  have halted (e : Dev) (ks : List Nat) (f : ListSt → ListSt) : (ks.foldl (fun d k => d.modList k f) e).harts = e.harts :=
    foldl_keeps Dev.harts (fun k _ e => by rw [e.modList_frame]) e
  have told (e : Dev) (ks : List Nat) (bs : List Byte) : (ks.foldl (fun d k => d.toPeer k bs 1) e).harts = e.harts :=
    foldl_keeps Dev.harts (fun k _ e => by rw [(Dev.ColOnly.toPeer e k 1 bs).rest]) e
  unfold Dev.beginSave
  split
  · rfl
  · exact (ended _).trans ((told _ _ _).trans (halted _ _ _))

theorem Dev.harts_resumeLoops (d : Dev) : d.resumeLoops.harts = d.harts := by
  refine foldl_keeps Dev.harts (fun n _ e => ?_) d
  unfold Dev.afterRelease
  split
  · rfl
  · split
    · exact e.harts_beginSave n
    · rfl

section Dmi
variable {h : Fin 100} {s : State} (isOpen : s.dev.dbgOpen = true)
  (scope : bit (s.dev.rf Reg.DBG_STAT Fld.DBG_STAT.SCOPE) 0 = true) (there : h.val < 4 ∨ s.dev.tileOn (h.val - 4) = true)
include isOpen scope there

theorem exec_dmi (op : DmiOp) : Safety.gives (.dmi h op) s (match op with
    | .halt => (Safety.mach s).mod (fun d => if d.harts.contains h.val then d else { d with harts := d.harts ++ [h.val] })
    | .step => if h.val ≥ 4 && s.dev.harts.contains h.val then (Safety.mach s).dmiStep (h.val - 4) else Safety.mach s
    | .resume => (Safety.mach s).mod (fun d => { d with harts := d.harts.filter (· != h.val) }.resumeLoops)
    | .trigger n v => (Safety.mach s).mod (fun d => { d with triggers := AMap.set d.triggers (4 * h.val + n.val) v })) := by
  have hd : exec (.dmi h op) s = execDmi h op s := rfl
  rw [execDmi, run_eq] at hd
  dsimp only at hd
  rw [if_neg (by rcases there with small | on <;> simp [*])] at hd
  cases op with
  | halt => exact hd
  | step => exact hd
  | resume => exact hd
  | trigger n v => exact hd

theorem exec_dmi_halt : ∃ e, Safety.givesDev (.dmi h .halt) s e ∧ e.harts.contains h.val = true := by
  refine ⟨_, givesDev_of_gives (exec_dmi isOpen scope there .halt) rfl, ?_⟩
  dsimp only [Mach.mod_dev]
  split
  next already => exact already
  next => simp

theorem exec_dmi_resume : ∃ e, Safety.givesDev (.dmi h .resume) s e ∧ e.harts.contains h.val = false := by
  refine ⟨_, givesDev_of_gives (exec_dmi isOpen scope there .resume) rfl, ?_⟩
  rw [Mach.mod_dev, Dev.harts_resumeLoops]
  simp

theorem exec_dmi_step_none (none_ : h.val < 4 ∨ s.dev.harts.contains h.val = false) :
    Safety.givesDev (.dmi h .step) s s.dev := by
  have hd := exec_dmi isOpen scope there .step
  dsimp only at hd
  have noSpur : (decide (h.val ≥ 4) && s.dev.harts.contains h.val) = false := by
    rcases none_ with summit | runs
    · rw [decide_eq_false (not_le.2 summit), Bool.false_and]
    · rw [runs, Bool.and_false]
  rw [noSpur, if_neg (by decide)] at hd
  exact givesDev_of_gives hd rfl

theorem exec_dmi_step (spur : 4 ≤ h.val) (halted : s.dev.harts.contains h.val = true) :
    Safety.gives (.dmi h .step) s ((Safety.mach s).dmiStep (h.val - 4)) := by
  have hd := exec_dmi isOpen scope there .step
  dsimp only at hd
  rwa [decide_eq_true (show h.val ≥ 4 from spur), halted, if_pos (by decide)] at hd

end Dmi

/-! ### BUSACC (R544) -/

/-- A place in HBM stands below the other memories. -/
theorem Dev.lt_of_region_hbm {d : Dev} {a : Nat} (hbm : d.region a = .hbm) : a < hbmSize := by
  unfold Dev.region at hbm
  split at hbm
  · assumption
  · dsimp only at hbm
    split_ifs at hbm

/-- An area that ends where another begins, or before, does not meet it. -/
theorem areaMeets_below {x y : Area} (below : x.1 + x.2 ≤ y.1) : areaMeets x y = false := by
  rw [areaMeets, decide_eq_false (p := y.1 < x.1 + x.2) (by omega), Bool.and_false]

/-- The areas that the control engine holds stand above HBM. -/
theorem above_hbm_of_engineArea {d : Dev} {y : Area} (engine : y ∈ (ceMem, 0x100000) :: d.heldBanks) : hbmSize ≤ y.1 := by
  have bank (b : Nat) : hbmSize ≤ bankBase b :=
    (show hbmSize ≤ ceMem + 0x100000 by decide).trans (Nat.le_add_right _ _)
  rcases List.mem_cons.1 engine with rfl | held
  · decide
  · unfold Dev.heldBanks at held
    dsimp only at held
    split at held
    · rcases List.mem_pair.1 held with rfl | rfl
      · exact bank 0
      · exact bank 1
    · rw [List.mem_singleton.1 held]
      exact bank _

section Busacc
variable {addr : BitVec 48} {collide : Bool} {s : State} (reaches : s.dev.busReaches (addr.toNat / 8 * 8) = true)
  (hbm : s.dev.region (addr.toNat / 8 * 8) = .hbm) (clean : Safety.noErrors s)

/-- Eight bytes at a place of HBM end within HBM, which the control engine's memory and Tarn memory stand above. -/
theorem busacc_below {d : Dev} (hbm : d.region (addr.toNat / 8 * 8) = .hbm) {a : Nat} (above : hbmSize ≤ a) :
    addr.toNat / 8 * 8 + 8 ≤ a := by
  have below := Dev.lt_of_region_hbm hbm
  have size : hbmSize = 12884901888 * 8 := rfl
  omega

include reaches hbm clean

theorem exec_busacc_read : ∃ e : Dev, Safety.givesDev (.busacc addr none collide []) s
    { e with readData := (Safety.mach s).rdNat (addr.toNat / 8 * 8) 8, readFlag := false } := by
  obtain ⟨noUe, noCe, -, -⟩ := clean
  have hd : exec (.busacc addr none collide []) s = execBusacc addr none collide [] s := rfl
  rw [execBusacc, run_eq, Mach.upsets_nil] at hd
  dsimp only at hd
  rw [if_neg (by rw [reaches]; decide), Mach.busRead] at hd
  have noLaw : areaMeets (addr.toNat / 8 * 8, 8) lawArea = false := areaMeets_below (busacc_below hbm (by decide))
  have noTarn : areaMeets (addr.toNat / 8 * 8, 8) tarnInner = false := areaMeets_below (busacc_below hbm (by decide))
  simp only [hbm, Mach.eccRead_noErrors (m := ⟨s.mem, [], s.dev⟩) noUe noCe, Mach.memBytes, noLaw, noTarn] at hd
  exact ⟨_, hd⟩

theorem exec_busacc_write (v : DWord) : ∃ e : Dev,
    exec (.busacc addr (some v) collide []) s = .next { s with
      mem := Memory.writeLog s.mem ((Safety.mach s).store (addr.toNat / 8 * 8) (leBytes 8 v.toNat)).log, dev := e } := by
  obtain ⟨noUe, noCe, -, -⟩ := clean
  have hd : exec (.busacc addr (some v) collide []) s = execBusacc addr (some v) collide [] s := rfl
  rw [execBusacc, run_eq, Mach.upsets_nil] at hd
  dsimp only at hd
  rw [if_neg (by rw [reaches]; decide), Mach.busWrite] at hd
  have noWeights : s.dev.boundWeights (addr.toNat / 8 * 8) (leBytes 8 v.toNat).length = none := by
    rw [Dev.boundWeights, hbm]
  have noBank : anyArea (addr.toNat / 8 * 8, (leBytes 8 v.toNat).length) ((ceMem, 0x100000) :: s.dev.heldBanks) = false := by
    rw [leBytes_length]
    refine List.any_eq_false.2 fun y hy => ?_
    rw [areaMeets_below (busacc_below hbm (above_hbm_of_engineArea hy))]
    decide
  simp only [hbm, Mach.agentWrite, noWeights, noBank, Mach.rmwCheck_noErrors (m := ⟨s.mem, [], s.dev⟩) noUe noCe] at hd
  exact ⟨_, hd⟩

end Busacc

/-- Settles O37: the lists by what each round of a halt, a step or a resume leaves of them, the debug module by its command,
BUSACC by a place of HBM without errors. -/
theorem debugPortCommands : Obligations.DebugPortCommands := by
  unfold Obligations.DebugPortCommands
  refine ⟨?halt, ?step, ?resume, ?closed, ?dmi, ?read, ?write⟩
  case halt =>
    intro k l s isOpen list named
    refine ⟨_, exec_halt isOpen, ⟨rfl, rfl⟩, ?_⟩
    exact foldl_reaches (P := Dev.becomes ListSt.dbgHalted k l.dbgHalted) (Q := fun d => d.list k = some l.dbgHalted)
      (Dev.mem_dbgKeys list named) (fun d j => (d.dbgHaltList_keeps j).1) (fun d j => (d.dbgHaltList_keeps j).2)
      (fun d => Dev.list_dbgHaltList) ⟨l, list, rfl⟩
  case step =>
    intro k l s isOpen list halted named
    have stepped : l.dbgStepped = { l with dbgHalt := false, dbgStep := true, dbgPassed := some l.nextIdx } := if_pos halted
    refine ⟨_, exec_step isOpen, ⟨rfl, rfl⟩, ?_⟩
    rw [← stepped]
    exact Dev.list_foldl_modList (by rw [stepped]; rfl) (Dev.mem_dbgKeys list named) ⟨l, list, rfl⟩
  case resume =>
    intro s isOpen
    have runs (k : Nat) := Dev.listRuns_resumeLoops (s.dev.listRuns_resumed k)
    have resumes := exec_resume isOpen
    generalize Dev.resumeLoops _ = e at runs resumes
    exact ⟨_, resumes, ⟨rfl, rfl⟩, runs⟩
  case closed => exact fun s closed => exec_dbg_closed closed
  case dmi =>
    intro h s isOpen scope there
    obtain ⟨e, halts, halted⟩ := exec_dmi_halt isOpen scope there
    obtain ⟨f, resumes, resumed⟩ := exec_dmi_resume isOpen scope there
    exact ⟨⟨_, halts, halted⟩, ⟨_, resumes, resumed⟩,
      fun n v => givesDev_of_gives (exec_dmi isOpen scope there (.trigger n v)) rfl, exec_dmi_step_none isOpen scope there,
      exec_dmi_step isOpen scope there⟩
  case read =>
    intro addr collide s reaches hbm clean
    obtain ⟨e, reads⟩ := exec_busacc_read (collide := collide) reaches hbm clean
    exact ⟨_, reads, ⟨rfl, rfl⟩, rfl, rfl⟩
  case write =>
    intro addr v collide s ok reaches hbm clean plain
    obtain ⟨e, writes⟩ := exec_busacc_write (collide := collide) reaches hbm clean v
    have stored (x : Nat) := Memory.read_store (m := Safety.mach s) ok plain (addr.toNat / 8 * 8) (leBytes 8 v.toNat) x
    rw [leBytes_length] at stored
    refine ⟨_, writes, fun i inside => ?_, fun x outside => ?_⟩
    · exact (stored _).trans ((if_pos (by omega)).trans (by rw [Nat.add_sub_cancel_left]))
    · exact (stored x).trans (if_neg (by omega))

end Machine
end Sys2Proof
end

section
/-!
PROOFS. Resets (O36).
-/
namespace Sys2Proof
namespace Machine

/-! ### What the release of PORST leaves of the power and the straps (R579) -/

/-- The power, the boot, the straps of the group and the power status. -/
def Dev.powerView (d : Dev) : PwrSt × BootSt × Nat × Nat := (d.pwr, d.boot, d.reg Reg.COL_GRP, d.reg Reg.PWR_STAT)

theorem Dev.of_powerView {d e : Dev} (same : e.powerView = d.powerView) : e.pwr = d.pwr ∧ e.boot = d.boot
    ∧ e.reg Reg.COL_GRP = d.reg Reg.COL_GRP ∧ e.reg Reg.PWR_STAT = d.reg Reg.PWR_STAT := by
  simpa only [Dev.powerView, Prod.mk.injEq] using same

/-- A register apart from the group's straps and the power status. -/
abbrev notPowerView (a : Nat) : Prop := Reg.COL_GRP ≠ a ∧ Reg.PWR_STAT ≠ a

section PowerView
variable (d : Dev)

theorem Dev.powerView_setReg {a : Nat} (v : Nat) (other : notPowerView a) : (d.setReg a v).powerView = d.powerView := by
  rw [Dev.powerView, Dev.reg_setReg_ne _ _ other.1, Dev.reg_setReg_ne _ _ other.2]
  rfl

theorem Dev.powerView_wf {a : Nat} (f : Fd) (v : Nat) (other : notPowerView a) : (d.wf a f v).powerView = d.powerView :=
  d.powerView_setReg _ other

theorem Dev.powerView_raiseAt (n c s k u x : Nat) : (d.raiseAt n c s k u x).powerView = d.powerView := by
  unfold Dev.raiseAt
  split <;> rfl

theorem Dev.powerView_modTile (t : Nat) (f : TileSt → TileSt) : (d.modTile t f).powerView = d.powerView := rfl

section Tile
variable {t p : Nat} (inTile : t < 96) (inArray : p < 4)
include inTile

theorem TILE_ARR_notPowerView (inArray : p < 4) : notPowerView (Reg.TILE_ARRn_STAT t p) ∧ notPowerView (Reg.TILE_ARR_MAP t)
    ∧ notPowerView (Reg.SAF_TILE_OK_k (t / 32)) := by
  simp only [notPowerView, Reg.TILE_ARRn_STAT, Reg.TILE_ARR_MAP, Reg.SAF_TILE_OK_k, Reg.COL_GRP, Reg.PWR_STAT]
  omega

theorem Dev.powerView_dropTileOk : (d.dropTileOk t).powerView = d.powerView :=
  d.powerView_setReg _ (TILE_ARR_notPowerView inTile (by decide : 0 < 4)).2.2

include inArray

theorem Dev.powerView_retire (n cause entry : Nat) : (d.retire n t p cause entry).powerView = d.powerView := by
  obtain ⟨stat, map, -⟩ := TILE_ARR_notPowerView inTile inArray
  have raisedIf (e : Dev) (c : Prop) [Decidable c] (code x : Nat) :
      (if c then e.raiseAt n 1 Src.TILE code t x else e).powerView = e.powerView := by
    split
    · exact e.powerView_raiseAt _ _ _ _ _ _
    · rfl
  have droppedIf (e : Dev) (c c' : Prop) [Decidable c] [Decidable c'] (x : Nat) :
      (if c then e.dropTileOk t else if c' then (e.dropTileOk t).raiseAt n 1 Src.TILE 0x000E t x else e).powerView
        = e.powerView := by
    split
    · exact e.powerView_dropTileOk inTile
    · split
      · exact (Dev.powerView_raiseAt _ _ _ _ _ _ _).trans (e.powerView_dropTileOk inTile)
      · rfl
  unfold Dev.retire
  split
  · rfl
  · dsimp only
    rw [raisedIf, droppedIf, Dev.powerView_raiseAt, Dev.powerView_modTile]
    exact (Dev.powerView_setReg _ _ map).trans (Dev.powerView_setReg _ _ stat)

theorem Dev.powerView_spareRow (k : Nat) : (d.spareRow t p k).1.powerView = d.powerView := by
  obtain ⟨stat, -⟩ := TILE_ARR_notPowerView inTile inArray
  unfold Dev.spareRow
  dsimp only
  split
  · exact (Dev.powerView_wf _ _ _ stat).trans (Dev.powerView_wf _ _ _ stat)
  · rfl

theorem Dev.powerView_spareCol (k : Nat) : (d.spareCol t p k).1.powerView = d.powerView := by
  obtain ⟨stat, -⟩ := TILE_ARR_notPowerView inTile inArray
  unfold Dev.spareCol
  dsimp only
  split
  · exact (Dev.powerView_wf _ _ _ stat).trans (Dev.powerView_wf _ _ _ stat)
  · rfl

end Tile

/-- A self-test so far: the power stays, and the arrays found bad are arrays. -/
def Dev.testView (d : Dev) (q : Dev × List Nat) : Prop := q.1.powerView = d.powerView ∧ ∀ p ∈ q.2, p < 4

theorem Dev.testView_fix {q : Dev × List Nat} {r : Dev × Bool} (h : d.testView q) (p : Fin 4) (same : r.1.powerView = q.1.powerView) :
    d.testView (if r.2 then (r.1, q.2) else (q.1, q.2 ++ [p.val])) := by
  obtain ⟨view, arrays⟩ := h
  split
  · exact ⟨same.trans view, arrays⟩
  · refine ⟨view, fun x hx => ?_⟩
    rcases List.mem_append.1 hx with old | new
    · exact arrays x old
    · rw [List.mem_singleton.1 new]
      exact p.isLt

theorem Dev.testView_testArrays {t : Nat} (inTile : t < 96) (found : ArrayFaults) : d.testView (d.testArrays t false found) := by
  have rows : d.testView (found.rows.foldl (fun q x => if (q.1.spareRow t x.1.val x.2.val).2 then
      ((q.1.spareRow t x.1.val x.2.val).1, q.2) else (q.1, q.2 ++ [x.1.val])) (d, [])) :=
    List.foldlRecOn _ _ ⟨rfl, fun p hp => absurd hp List.not_mem_nil⟩ fun q h x _ =>
      d.testView_fix h x.1 (q.1.powerView_spareRow inTile x.1.isLt x.2.val)
  have cols := List.foldlRecOn (motive := d.testView) found.cols (fun q x => if (q.1.spareCol t x.1.val x.2.val).2 then
      ((q.1.spareCol t x.1.val x.2.val).1, q.2) else (q.1, q.2 ++ [x.1.val])) rows fun q h x _ =>
      d.testView_fix h x.1 (q.1.powerView_spareCol inTile x.1.isLt x.2.val)
  obtain ⟨view, arrays⟩ := cols
  refine ⟨view, fun p hp => ?_⟩
  rcases List.mem_append.1 (List.mem_eraseDups.1 hp) with known | beyond
  · exact arrays p known
  · obtain ⟨i, -, rfl⟩ := List.mem_map.1 beyond
    exact i.isLt

theorem Dev.powerView_arrayRepairs (env : ReleaseEnv) : (d.arrayRepairs env).powerView = d.powerView := by
  unfold Dev.arrayRepairs
  refine (foldl_keeps Dev.powerView (fun t _ e => ?cleared) _).trans (foldl_keeps Dev.powerView (fun x _ e => ?tested) d)
  case cleared =>
    split
    · rfl
    · rfl
  case tested =>
    obtain ⟨view, arrays⟩ := e.testView_testArrays x.1.isLt x.2
    refine (foldl_keeps Dev.powerView (fun p hp e => ?_) _).trans view
    exact e.powerView_retire x.1.isLt (arrays p hp) 16 3 0

theorem Dev.powerView_senseFuses : d.senseFuses.powerView = d.powerView := by
  have sensed (e : Dev) (a : Nat) (f : Fd) (v : Nat) (other : notPowerView a) : (e.wf a f v).powerView = e.powerView :=
    e.powerView_wf f v other
  unfold Dev.senseFuses
  dsimp only
  split
  · rw [sensed _ _ _ _ (by decide), sensed _ _ _ _ (by decide), sensed _ _ _ _ (by decide), sensed _ _ _ _ (by decide),
      sensed _ _ _ _ (by decide), sensed _ _ _ _ (by decide), sensed _ _ _ _ (by decide), sensed _ _ _ _ (by decide)]
  · rw [sensed _ _ _ _ (by decide), sensed _ _ _ _ (by decide), sensed _ _ _ _ (by decide), sensed _ _ _ _ (by decide),
      sensed _ _ _ _ (by decide), sensed _ _ _ _ (by decide)]

theorem Dev.powerView_resetPorts : d.resetPorts.powerView = d.powerView := by
  refine foldl_keeps Dev.powerView (fun p hp e => ?_) d
  have port : p < 6 := List.mem_range.1 hp
  have stat : notPowerView (Reg.COL_Pp_STAT p) ∧ notPowerView (Reg.COL_Pp_CTRL p) := by
    simp only [notPowerView, Reg.COL_Pp_STAT, Reg.COL_Pp_CTRL, Reg.COL_GRP, Reg.PWR_STAT]
    omega
  obtain ⟨stat, ctrl⟩ := stat
  refine (Dev.powerView_wf _ _ _ stat).trans ((Dev.powerView_wf _ _ _ ctrl).trans ?_)
  split
  · exact e.powerView_wf _ _ stat
  · rfl

end PowerView

/-- The device right after the release, with the straps sampled. -/
def Dev.strapped (d : Dev) (env : ReleaseEnv) : Dev :=
  (((({ d with
    pwr := { d.pwr with porst := false, fabOn := true }
    boot := { d.boot with phase := .filling } } : Dev).wf Reg.COL_GRP Fld.COL_GRP.PKG env.pkgId.val).wf Reg.COL_GRP
      Fld.COL_GRP.GRP env.grpM1.val).wf Reg.COL_GRP Fld.COL_GRP.BOOT_COL (b2n env.colBoot))

section Strapped
variable (d : Dev) (env : ReleaseEnv)

theorem Dev.straps_strapped : (d.strapped env).rf Reg.COL_GRP Fld.COL_GRP.PKG = env.pkgId.val
    ∧ (d.strapped env).rf Reg.COL_GRP Fld.COL_GRP.GRP = env.grpM1.val
    ∧ (d.strapped env).rfB Reg.COL_GRP Fld.COL_GRP.BOOT_COL = env.colBoot := by
  refine ⟨?_, ?_, Dev.rfB_wf_bit _ _ _⟩
  · rw [Dev.strapped, Dev.rf_wf_field, Dev.rf_wf_field, Dev.rf_wf_same]
    exact Nat.mod_eq_of_lt env.pkgId.isLt
  · rw [Dev.strapped, Dev.rf_wf_field, Dev.rf_wf_same]
    exact Nat.mod_eq_of_lt env.grpM1.isLt

/-- Boot-only mode leaves the power on, the boot's state and the straps. -/
theorem Dev.enterBootOnly_keeps : d.enterBootOnly.pwr.porst = d.pwr.porst ∧ d.enterBootOnly.pwr.fabOn = d.pwr.fabOn
    ∧ d.enterBootOnly.boot = d.boot ∧ d.enterBootOnly.reg Reg.COL_GRP = d.reg Reg.COL_GRP := by
  have stretched (e : Dev) (n : Nat) : (e.setStretch n).boot = e.boot := by
    obtain ⟨x, set⟩ := e.setStretch_eq n
    rw [set]
    rfl
  have commanded (e : Dev) (mv : Nat) : (e.commandFab mv).boot = e.boot := by
    obtain same | ⟨x, b, v, set⟩ := e.commandFab_eq mv
    · rw [same]
    · rw [set]
      rfl
  obtain ⟨x, stretch⟩ := (d.wf Reg.PWR_STAT Fld.PWR_STAT.BOOT_ONLY 1).pwr_setStretch 32
  obtain ⟨y, z, rail⟩ := (((d.wf Reg.PWR_STAT Fld.PWR_STAT.BOOT_ONLY 1).setStretch 32).wf Reg.PWR_STAT
    Fld.PWR_STAT.HBM_LIM 3).pwr_commandFab 650
  have pwr : d.enterBootOnly.pwr = { d.pwr with stretching := x, moving := y, settled := z } := by
    rw [Dev.enterBootOnly, rail, Dev.wf_pwr, stretch, Dev.wf_pwr]
  refine ⟨by rw [pwr], by rw [pwr], ?_, ?_⟩
  · rw [Dev.enterBootOnly, commanded, Dev.wf_boot, stretched, Dev.wf_boot]
  · rw [Dev.enterBootOnly, Dev.reg_commandFab_ne _ _ (by decide) (by decide), Dev.reg_wf_ne _ _ _ (by decide),
      Dev.reg_setStretch_ne _ _ (by decide), Dev.reg_wf_ne _ _ _ (by decide)]

end Strapped

theorem exec_resetRelease {env : ReleaseEnv} {s : State} (off : s.dev.pwr.porst = true) (power : env.pwrFailN = true) :
    Safety.givesDev (.resetRelease env) s (((if env.coolOk then s.dev.strapped env
      else (s.dev.strapped env).enterBootOnly).senseFuses.resetPorts).arrayRepairs env) := by
  have hd : exec (.resetRelease env) s = execResetRelease env s := rfl
  rw [execResetRelease, run_eq, Mach.mod_dev, if_neg (by rw [off, power]; decide)] at hd
  exact hd

theorem exec_resetRelease_noEffect {env : ReleaseEnv} {s : State} (none_ : s.dev.pwr.porst = false ∨ env.pwrFailN = false) :
    Safety.givesDev (.resetRelease env) s s.dev := by
  have hd : exec (.resetRelease env) s = execResetRelease env s := rfl
  rw [execResetRelease, run_eq, Mach.mod_dev, if_pos (by rcases none_ with h | h <;> simp [h])] at hd
  exact hd

/-- The release: power on, the boot begun, and the straps as sampled. -/
theorem resetRelease_leaves {env : ReleaseEnv} {s : State} (off : s.dev.pwr.porst = true) (power : env.pwrFailN = true) :
    ∃ e, Safety.givesDev (.resetRelease env) s e ∧ e.pwr.porst = false ∧ e.pwr.fabOn = true ∧ e.boot.phase = .filling
      ∧ e.rf Reg.COL_GRP Fld.COL_GRP.PKG = env.pkgId.val ∧ e.rf Reg.COL_GRP Fld.COL_GRP.GRP = env.grpM1.val
      ∧ e.rfB Reg.COL_GRP Fld.COL_GRP.BOOT_COL = env.colBoot ∧ (env.coolOk = false → e.bootOnly = true) := by
  have hd := exec_resetRelease off power
  have view := ((Dev.powerView_arrayRepairs (if env.coolOk then s.dev.strapped env else (s.dev.strapped env).enterBootOnly
    ).senseFuses.resetPorts env).trans (Dev.powerView_resetPorts _)).trans (Dev.powerView_senseFuses _)
  generalize Dev.arrayRepairs _ env = e at hd view
  obtain ⟨pkg, grp, colBoot⟩ := s.dev.straps_strapped env
  obtain ⟨porst, fabOn, boot, group⟩ := (s.dev.strapped env).enterBootOnly_keeps
  refine ⟨e, hd, ?_⟩
  cases cool : env.coolOk with
  | true =>
    rw [cool, if_pos rfl] at view
    obtain ⟨samePwr, sameBoot, sameGroup, -⟩ := Dev.of_powerView view
    rw [samePwr, sameBoot, Dev.rfB_congr sameGroup, Dev.rf, Dev.rf, sameGroup]
    exact ⟨rfl, rfl, rfl, pkg, grp, colBoot, nofun⟩
  | false =>
    rw [cool, if_neg (by decide)] at view
    obtain ⟨samePwr, sameBoot, sameGroup, sameStat⟩ := Dev.of_powerView view
    rw [samePwr, sameBoot, Dev.rfB_congr (sameGroup.trans group), Dev.rf, Dev.rf, sameGroup, group, porst, fabOn, boot, Dev.bootOnly,
      Dev.rfB_congr sameStat]
    exact ⟨rfl, rfl, rfl, pkg, grp, colBoot, fun _ => (s.dev.strapped env).bootOnly_enterBootOnly⟩

/-! ### The cut of the flash subsystem leaves its regions and the boot (R483, R580) -/

/-- What the cut leaves: the boot's state, the regions, and the reset to come. -/
def Dev.cutView (d : Dev) : BootSt × AMap RegionRec × SafSt := (d.boot, d.flash.regions, d.saf)

theorem Dev.cutView_modFlash (d : Dev) {f : FlashSt → FlashSt} (regions : ∀ x, (f x).regions = x.regions) :
    (d.modFlash f).cutView = d.cutView := by
  rw [Dev.cutView, Dev.modFlash, regions, Dev.cutView]

theorem Mach.cutView_store (m : Mach) (a : Nat) (bs : List Byte) : (m.store a bs).dev.cutView = m.dev.cutView := rfl

theorem Mach.cutView_flashCut (m : Mach) : m.flashCut.dev.cutView = m.dev.cutView := by
  have draw (m : Mach) : ({ m with dev := m.dev.fresh.2 } : Mach).dev.cutView = m.dev.cutView := rfl
  unfold Mach.flashCut
  dsimp only
  split
  · rfl
  · refine (foldl_keeps (fun m : Mach => m.dev.cutView) (fun x _ m => ?journal) _).trans
      (foldl_keeps (fun m : Mach => m.dev.cutView) (fun w _ m => ?buffer) m)
    case buffer =>
      split
      · exact (Dev.cutView_modFlash _ (by intro f; rfl)).trans ((Mach.cutView_store _ _ _).trans (draw m))
      · exact (Dev.cutView_modFlash _ (by intro f; rfl)).trans (draw m)
    case journal =>
      split
      · exact draw m
      · exact (Dev.cutView_modFlash _ (by intro f; rfl)).trans ((Mach.cutView_store _ _ _).trans (draw m))

/-- A reset that clears memory but for a part of it, and then changes the device. -/
theorem runKeep_mod (keep : Memory → Dev → Nat → Bool) (g : Dev → Dev) {s u : State} (queue : u.pending = s.pending) :
    runKeep keep (fun m => m.mod g) u
      = .next { s with mem := Memory.keepOnly u.mem (keep u.mem u.dev), dev := g u.dev } := by
  rw [runKeep_eq, run_eq, ← queue]
  rfl

section Cut
variable (s : State) (m : Mach)

theorem State.cutView_cut : (s.cut m).dev.cutView = m.dev.cutView := m.cutView_flashCut

theorem State.wf_cut (ok : Safety.memOk s) : (s.cut m).mem.wf = true := Memory.wf_writeLog _ ok

end Cut

/-! ### PORST (R580) -/

/-- With the power off, every register but those that fuses fix has its value at reset. -/
theorem Dev.reg_poweredOff (d : Dev) {a : Nat} (free : a ∉ fusedRegs) : d.poweredOff.reg a = State.reset.dev.reg a := by
  have gone : AMap.find d.poweredOff.regs a = none := by
    refine Option.eq_none_iff_forall_ne_some.2 fun w found => free ?_
    obtain ⟨-, kept⟩ := List.mem_filter.1 (AMap.mem_of_find found)
    exact List.contains_iff_mem.1 kept
  rw [Dev.reg, gone]
  rfl

theorem porstAssert_leaves {s : State} (ok : Safety.memOk s) : ∃ t, exec .porstAssert s = .next t ∧ t.pending = s.pending
    ∧ (∀ a, a < flashMem → Memory.read t.mem a = 0) ∧ t.dev.boot.phase = .off ∧ t.dev.boot.fuses = s.dev.boot.fuses
    ∧ t.dev.pwr.porst = true ∧ (∀ a, a ∉ fusedRegs → t.dev.reg a = State.reset.dev.reg a)
    ∧ t.dev.flash.regions = s.dev.flash.regions := by
  have hd := exec_porstAssert s
  have view := s.cutView_cut (Safety.mach s)
  have wf := s.wf_cut (Safety.mach s) ok
  have queue := s.cut_pending (Safety.mach s)
  generalize s.cut (Safety.mach s) = c at hd view wf queue
  rw [runKeep_mod _ _ queue] at hd
  simp only [Dev.cutView, Prod.mk.injEq] at view
  obtain ⟨boot, regions, -⟩ := view
  refine ⟨_, hd, rfl, fun a below => ?_, rfl, (congrArg BootSt.fuses boot :), rfl, fun a free => c.dev.reg_poweredOff free, regions⟩
  exact (Memory.read_keepOnly (fun a => decide (a ≥ flashMem)) a wf).trans (if_neg (by simpa using below))

/-! ### The warm reset (R483, R526) -/

/-- The boot's state and the aggregator's. -/
def Dev.bootView (d : Dev) : BootSt × SafSt := (d.boot, d.saf)

section BootView
variable (d : Dev)

theorem Dev.bootView_setReg (a v : Nat) : (d.setReg a v).bootView = d.bootView := rfl
theorem Dev.bootView_wf (a : Nat) (f : Fd) (v : Nat) : (d.wf a f v).bootView = d.bootView := rfl

theorem Dev.bootView_senseFuses : d.senseFuses.bootView = d.bootView := by
  unfold Dev.senseFuses
  dsimp only
  split <;> rfl

theorem Dev.bootView_resetPorts : d.resetPorts.bootView = d.bootView := by
  refine foldl_keeps Dev.bootView (fun p _ e => ?_) d
  rw [Dev.setPortState, Dev.bootView_wf, Dev.bootView_wf]
  split <;> rfl

theorem Dev.bootView_paceSlow : d.paceSlow.bootView = d.bootView := by
  obtain ⟨v, slow⟩ := d.paceSlow_eq
  rw [slow, Dev.bootView_setReg]

theorem Dev.bootView_warmed : d.warmed.bootView
    = ({ phase := .filling, fuses := d.boot.fuses, challenge := d.boot.challenge }, { f3s := d.saf.f3s }) := by
  unfold Dev.warmed
  dsimp only
  rw [Dev.bootView_resetPorts]
  refine (foldl_keeps Dev.bootView (fun t _ e => ?_) _).trans ?_
  · split <;> rfl
  · split
    · rw [Dev.bootView_paceSlow, Dev.bootView_wf, Dev.bootView_wf]
      split
      · exact Dev.bootView_senseFuses _
      · exact Dev.bootView_senseFuses _
    · rw [Dev.bootView_wf]
      split
      · exact Dev.bootView_senseFuses _
      · exact Dev.bootView_senseFuses _

end BootView

/-- What stands outside Summit RAM. -/
def outsideSummitRam (a : Nat) : Bool := decide (a < summitRam) || decide (a ≥ summitRam + 0x200000)

theorem read_outsideSummitRam {m : Memory} (wf : m.wf = true) {i : Nat} (inside : i < 0x200000) :
    Memory.read (Memory.keepOnly m outsideSummitRam) (summitRam + i) = 0 := by
  have cleared : outsideSummitRam (summitRam + i) = false := by
    rw [outsideSummitRam, decide_eq_false (by omega), decide_eq_false (by omega)]
    rfl
  rw [Memory.read_keepOnly _ _ wf, cleared, if_neg (by decide)]

/-- The warm reset warms a device whose boot is as it was, with Summit RAM cleared. -/
theorem exec_warmReset_warmed {s : State} {at_ : Nat} (ok : Safety.memOk s) (due : s.dev.saf.resetAt = some at_) :
    ∃ c : State, c.mem.wf = true ∧ c.dev.boot = s.dev.boot ∧ exec .warmReset s
      = .next { s with mem := Memory.keepOnly c.mem outsideSummitRam, dev := c.dev.warmed } := by
  obtain ⟨tb, rise, reached⟩ := s.dev.reach_frame (nsStamp at_)
  have view := s.cutView_cut ((Safety.mach s).mod (fun d => d.reach (nsStamp at_)))
  rw [Mach.mod_dev, show (Safety.mach s).dev = s.dev from rfl, reached] at view
  simp only [Dev.cutView, Prod.mk.injEq] at view
  obtain ⟨boot, -, -⟩ := view
  exact ⟨_, s.wf_cut _ ok, boot,
    (exec_warmReset_due due).trans (runKeep_mod (fun _ _ => outsideSummitRam) _ (s.cut_pending _))⟩

theorem warmReset_leaves {s : State} {at_ : Nat} (ok : Safety.memOk s) (due : s.dev.saf.resetAt = some at_) :
    ∃ t, exec .warmReset s = .next t ∧ t.pending = s.pending ∧ t.dev.boot.phase = .filling ∧ t.dev.saf.resetAt = none
    ∧ t.dev.boot.fuses = s.dev.boot.fuses ∧ (∀ i, i < 0x200000 → Memory.read t.mem (summitRam + i) = 0) := by
  obtain ⟨c, wf, boot, resets⟩ := exec_warmReset_warmed ok due
  have warm := c.dev.bootView_warmed
  simp only [Dev.bootView, Prod.mk.injEq] at warm
  obtain ⟨warmBoot, warmSaf⟩ := warm
  generalize c.dev.warmed = e at resets warmBoot warmSaf
  refine ⟨_, resets, rfl, congrArg BootSt.phase warmBoot, congrArg SafSt.resetAt warmSaf,
    (congrArg BootSt.fuses warmBoot).trans (congrArg BootSt.fuses boot :), fun i inside => ?_⟩
  exact read_outsideSummitRam wf inside

/-- Settles O36: the release by what it leaves of power and straps, PORST and the warm reset by what their clearing keeps. -/
theorem resetsLeaveState : Obligations.ResetsLeaveState := by
  unfold Obligations.ResetsLeaveState
  refine ⟨?release, ?porst, ?warm, ?notDue, ?noRelease⟩
  case release =>
    intro env s off power
    obtain ⟨e, releases, leaves⟩ := resetRelease_leaves off power
    exact ⟨_, releases, ⟨rfl, rfl⟩, leaves⟩
  case porst => exact fun s ok => porstAssert_leaves ok
  case warm => exact fun at_ s ok due => warmReset_leaves ok due
  case notDue => exact fun s notDue => exec_warmReset_notDue notDue
  case noRelease => exact fun env s none_ => exec_resetRelease_noEffect none_

end Machine
end Sys2Proof
end

section
/-!
PROOFS. A reply that enters the buffer (O19).
-/
namespace Sys2Proof
namespace Machine

section Place
variable {d : Dev} {r : List Byte}

/-- Where every outstanding command is of this package, none goes to another. -/
theorem Dev.pumpRemote_local (own : ∀ x ∈ d.sdio.outstanding, x.pkg = d.pkg) : d.pumpRemote = d := by
  refine List.foldlRecOn (motive := fun e => e = d) _ _ rfl fun e he x hx => ?_
  subst he
  rw [if_neg (by simp [own x hx])]

/-- The reply buffer with a reply at its end, and its command, if it has one, answered. -/
def SdioSt.answered (s : SdioSt) (r : List Byte) (tag : Option Nat) : SdioSt :=
  { s with
    replies := s.replies ++ [r]
    outstanding := match tag with
      | none => s.outstanding
      | some tag => s.outstanding.filter (fun p => p.tag != tag) }

variable {tag : Option Nat} (noWait : d.sdio.waiting = []) (room : d.sdio.replyBytes + r.length ≤ 65536)
include noWait room

theorem Dev.putReply_room : d.putReply r tag = { d with sdio := d.sdio.answered r tag }.cnt (Reg.SDIO_CNT_k 1) 1 := by
  have settled : SdioSt.settle d.sdio [(r, tag)] = d.sdio.answered r tag := by
    unfold SdioSt.settle
    rw [if_pos room]
    cases tag with
    | none => simp [SdioSt.settle, SdioSt.answered, noWait]
    | some tag => simp [SdioSt.settle, SdioSt.answered, noWait]
  rw [Dev.putReply, noWait, List.nil_append, settled]
  congr 1
  simp [SdioSt.answered]

theorem Dev.place_room (own : ∀ x ∈ d.sdio.outstanding, x.pkg = d.pkg) :
    d.place r tag = { d with sdio := d.sdio.answered r tag }.cnt (Reg.SDIO_CNT_k 1) 1 := by
  rw [Dev.place, Dev.putReply_room noWait room]
  have pkg : ({ d with sdio := d.sdio.answered r tag }.cnt (Reg.SDIO_CNT_k 1) 1).pkg = d.pkg :=
    congrArg (bits · _ _) (Dev.reg_cnt_ne _ 1 (by decide))
  refine Dev.pumpRemote_local fun x hx => ?_
  rw [pkg]
  refine own x ?_
  rw [Dev.cnt_frame] at hx
  cases tag with
  | none => exact hx
  | some tag => exact List.mem_of_mem_filter hx

end Place

/-- The device that counts a refusal (R559). -/
def Dev.countRefused (d : Dev) (st : Nat) : Dev := if st = ST.OK then d else d.cnt (Reg.SDIO_CNT_k 7) 1

theorem Dev.countRefused_sdio (d : Dev) (st : Nat) : (d.countRefused st).sdio = d.sdio := by
  unfold Dev.countRefused
  split
  · rfl
  · rw [Dev.cnt_frame]

theorem Dev.reg_countRefused_ne (d : Dev) (st : Nat) {a : Nat} (other : a ≠ Reg.SDIO_CNT_k 7) :
    (d.countRefused st).reg a = d.reg a := by
  unfold Dev.countRefused
  split
  · rfl
  · exact Dev.reg_cnt_ne _ 1 other

/-- A reply of a command of this package, while none waits and there is room. -/
theorem Dev.reply_room {d : Dev} {p : Packet} {st : Nat} {pl : List Byte} (here : d.servedFor p.tag = none)
    (noWait : d.sdio.waiting = []) (final : st ≠ ST.DEFERRED)
    (room : d.sdio.replyBytes + (mkPacket p.op p.tag 1 p.pkg st pl).length ≤ 65536)
    (own : ∀ x ∈ d.sdio.outstanding, x.pkg = d.pkg) : d.reply p st pl
      = { d.countRefused st with sdio := d.sdio.answered (mkPacket p.op p.tag 1 p.pkg st pl) (some p.tag) }.cnt
          (Reg.SDIO_CNT_k 1) 1 := by
  have counted : (if st = ST.OK || st = ST.DEFERRED then d else d.cnt (Reg.SDIO_CNT_k 7) 1) = d.countRefused st := by
    rw [Dev.countRefused]
    simp only [final, decide_false, Bool.or_false, decide_eq_true_eq]
  have sdio := d.countRefused_sdio st
  have here' : (d.countRefused st).servedFor p.tag = none := by
    unfold Dev.countRefused
    split
    · exact here
    · rw [Dev.cnt_frame]
      exact here
  have pkg : (d.countRefused st).pkg = d.pkg := congrArg (bits · _ _) (d.reg_countRefused_ne st (by decide))
  have placed := Dev.place_room (d := d.countRefused st) (r := mkPacket p.op p.tag 1 p.pkg st pl) (tag := some p.tag)
    (by rw [sdio, noWait]) (by rw [sdio]; exact room) (by rw [sdio, pkg]; exact own)
  rw [sdio] at placed
  unfold Dev.reply
  dsimp only
  rw [counted, if_neg final, here']
  exact placed

/-- Settles O19: the reply by the buffer that has room for it (`Dev.reply_room`), the counters by the two counts. -/
theorem replyEntersBuffer : Obligations.ReplyEntersBuffer := by
  unfold Obligations.ReplyEntersBuffer
  intro d p st pl here noWait final room own
  rw [Dev.reply_room here noWait final room own]
  refine ⟨?sdio, ?replies, fun refused => ?refused⟩
  case sdio =>
    rw [Dev.cnt_frame]
    rfl
  case replies =>
    rw [Dev.reg_cnt]
    exact congrArg (satAdd 32 · 1) (d.reg_countRefused_ne st (by decide))
  case refused =>
    rw [Dev.reg_cnt_ne _ 1 (by decide)]
    refine Eq.trans ?_ (d.reg_cnt (Reg.SDIO_CNT_k 7) 1)
    change (d.countRefused st).reg _ = _
    rw [Dev.countRefused, if_neg refused]

end Machine
end Sys2Proof
end

section
/-!
PROOFS. Register packets (O21).
-/
namespace Sys2Proof
namespace Machine

/-- What a REG_RMW that may run does (R567). -/
def Mach.rmwPacket (m : Mach) (p : Packet) : Mach :=
  match m.dev.regRange (pay64 p.payload 0) 1 with
  | some st => m.fail p st
  | none =>
    let (m1, old) := m.regRead (agentId .command) (pay64 p.payload 0)
    let (m2, locked) := m1.regWrite (pay64 p.payload 0) (Nat.lor
      (Nat.land old (2 ^ 32 - 1 - Nat.lor (pay32 p.payload 8) (w1cMask (pay64 p.payload 0))))
      (Nat.land (pay32 p.payload 12) (pay32 p.payload 8)))
    if locked then (m.mod (fun d => d.flagLock (d.lockAt (pay64 p.payload 0)))).fail p ST.LOCKED_WRITE
    else
      let (m3, new) := m2.regRead (agentId .command) (pay64 p.payload 0)
      m3.ok p (leBytes 4 old ++ leBytes 4 new)

section RegPackets
variable {tag : BitVec 16} {p : Packet} {s : State}

theorem exec_regRead_refused {st : Nat} (ready : Safety.ready s 0x0201 tag.toNat p)
    (refused : s.dev.regRange (pay64 p.payload 0) (pay32 p.payload 8) = some st) :
    Safety.givesDev (.regRead tag) s (s.dev.reply p st []) := by
  have hd := gives_of_cmd (c := .regRead tag) rfl ready
  dsimp only [Safety.mach] at hd
  rw [refused] at hd
  exact givesDev_of_gives hd rfl

theorem exec_regRead {m : Mach} {ws : List Nat} (ready : Safety.ready s 0x0201 tag.toNat p)
    (allowed : s.dev.regRange (pay64 p.payload 0) (pay32 p.payload 8) = none)
    (read : (Safety.mach s).regWords (agentId .command) (pay64 p.payload 0) (pay32 p.payload 8) = (m, ws)) :
    Safety.gives (.regRead tag) s (m.ok p (ws.flatMap (leBytes 4))) := by
  have hd := gives_of_cmd (c := .regRead tag) rfl ready
  dsimp only at hd
  rw [show (Safety.mach s).dev = s.dev from rfl, allowed] at hd
  simp only [read] at hd
  exact hd

theorem exec_regWrite {m : Mach} {locked : Bool} (ready : Safety.ready s 0x0202 tag.toNat p)
    (allowed : s.dev.regRange (pay64 p.payload 0) (pay32 p.payload 8) = none)
    (wrote : (Safety.mach s).putWords (pay64 p.payload 0)
      ((List.range (pay32 p.payload 8)).map (fun i => pay32 p.payload (12 + 4 * i))) = (m, locked)) :
    Safety.gives (.regWrite tag) s (m.answer p (if locked then ST.LOCKED_WRITE else ST.OK) []) := by
  have hd := gives_of_cmd (c := .regWrite tag) rfl ready
  dsimp only at hd
  rw [show (Safety.mach s).dev = s.dev from rfl, allowed] at hd
  simp only [wrote] at hd
  cases locked with
  | true => exact hd
  | false => exact hd

section Rmw
variable {m1 m2 : Mach} {old : Nat} (ready : Safety.ready s 0x0203 tag.toNat p)
  (allowed : s.dev.regRange (pay64 p.payload 0) 1 = none)
  (read : (Safety.mach s).regRead (agentId .command) (pay64 p.payload 0) = (m1, old))
include ready allowed read

theorem exec_regRmw {m3 : Mach} {new : Nat} (wrote : m1.regWrite (pay64 p.payload 0) (Nat.lor
        (Nat.land old (2 ^ 32 - 1 - Nat.lor (pay32 p.payload 8) (w1cMask (pay64 p.payload 0))))
        (Nat.land (pay32 p.payload 12) (pay32 p.payload 8))) = (m2, false))
    (again : m2.regRead (agentId .command) (pay64 p.payload 0) = (m3, new)) :
    Safety.gives (.regRmw tag) s (m3.ok p (leBytes 4 old ++ leBytes 4 new)) := by
  have hd := gives_of_cmd (c := .regRmw tag) (f := Mach.rmwPacket) rfl ready
  have runs : (Safety.mach s).rmwPacket p = m3.ok p (leBytes 4 old ++ leBytes 4 new) := by
    unfold Mach.rmwPacket
    rw [show (Safety.mach s).dev = s.dev from rfl, allowed]
    rw [read]
    dsimp only
    rw [wrote]
    dsimp only
    rw [if_neg Bool.false_ne_true, again]
  rwa [runs] at hd

theorem exec_regRmw_locked (wrote : m1.regWrite (pay64 p.payload 0) (Nat.lor
        (Nat.land old (2 ^ 32 - 1 - Nat.lor (pay32 p.payload 8) (w1cMask (pay64 p.payload 0))))
        (Nat.land (pay32 p.payload 12) (pay32 p.payload 8))) = (m2, true)) :
    Safety.givesDev (.regRmw tag) s
      ((s.dev.flagLock (s.dev.lockAt (pay64 p.payload 0))).reply p ST.LOCKED_WRITE []) := by
  have hd := gives_of_cmd (c := .regRmw tag) (f := Mach.rmwPacket) rfl ready
  have runs : (Safety.mach s).rmwPacket p
      = ((Safety.mach s).mod (fun d => d.flagLock (d.lockAt (pay64 p.payload 0)))).fail p ST.LOCKED_WRITE := by
    unfold Mach.rmwPacket
    rw [show (Safety.mach s).dev = s.dev from rfl, allowed]
    rw [read]
    dsimp only
    rw [wrote]
    dsimp only
    rw [if_pos rfl]
  rw [runs] at hd
  exact givesDev_of_gives hd rfl

end Rmw
end RegPackets

/-- Settles O21: each packet runs its meaning on a range that no check refuses. -/
theorem registerPackets : Obligations.RegisterPackets := by
  unfold Obligations.RegisterPackets
  refine ⟨?refused, ?read, ?write, ?rmw, ?locked⟩
  case refused => exact fun tag p st s ready refused => exec_regRead_refused ready refused
  case read => exact fun tag p m ws s ready allowed read => exec_regRead ready allowed read
  case write => exact fun tag p m locked s ready allowed wrote => exec_regWrite ready allowed wrote
  case rmw => exact fun tag p m1 m2 m3 old new s ready allowed read wrote again => exec_regRmw ready allowed read wrote again
  case locked => exact fun tag p m1 m2 old s ready allowed read wrote => exec_regRmw_locked ready allowed read wrote

end Machine
end Sys2Proof
end

section
/-!
PROOFS. MEM_WRITE and MEM_FILL (O22).
-/
namespace Sys2Proof
namespace Machine

/-! ### What a command's write stores (R568 to R570) -/

section Stores
variable {base : Memory} (ok : base.wf = true) (m : Mach) {a : Nat} {bs : List Byte} {x : Nat}
include ok

theorem Memory.read_dmaStore (rows : List (Nat × Nat)) (outside : x < a ∨ a + bs.length ≤ x) :
    Memory.read (Memory.writeLog base (m.dmaStore a bs rows).log) x = Memory.read (Memory.writeLog base m.log) x :=
  Memory.read_store_outside ok m a bs outside

/-- A command's write stores nothing outside its range, whatever it meets there. -/
theorem Memory.read_commandWrite (p : Packet) (force : Bool) (rows : List (Nat × Nat)) (outside : x < a ∨ a + bs.length ≤ x) :
    Memory.read (Memory.writeLog base (m.commandWrite p a bs force rows).log) x = Memory.read (Memory.writeLog base m.log) x := by
  have refused (st : Nat) : (m.refuseWrite p a bs.length st).log = m.log := by
    unfold Mach.refuseWrite
    dsimp only
    split
    · rfl
    · split
      · rfl
      · split
        · rfl
        · rfl
  have stored : Memory.read (Memory.writeLog base (m.commandStore a bs rows).1.log) x
      = Memory.read (Memory.writeLog base m.log) x := by
    have checked : (m.rmwCheck a bs.length dmaReq 16).1.log = m.log := by
      unfold Mach.rmwCheck
      dsimp only
      split
      · rfl
      · rfl
    unfold Mach.commandStore
    generalize m.rmwCheck a bs.length dmaReq 16 = q at checked
    obtain ⟨e, bad⟩ := q
    rw [← show e.log = m.log from checked]
    cases bad with
    | none => exact Memory.read_dmaStore ok e rows outside
    | some u =>
      refine Memory.read_dmaStore ok e rows ?_
      rw [List.length_take]
      omega
  unfold Mach.commandWrite
  split
  · rw [refused]
  · generalize m.commandStore a bs rows = q at stored
    obtain ⟨e, whole⟩ := q
    cases whole with
    | true => exact stored
    | false => exact stored

end Stores

/-- A packet that stores nothing at a byte leaves it as the errors of the environment have made it, whether or not it may
run. -/
theorem read_of_cmd_upsets {c : Instr} {s t : State} {op tag : Nat} {us : List Upset} {p : Packet} {f : Mach → Packet → Mach}
    {x : Nat} (hc : exec c s = run (fun m => (m.upsets us).cmd op tag f) s) (next : exec c s = .next t)
    (found : s.dev.sdio.outstanding.find? (fun q => q.tag == tag && q.op == op && q.pkg == s.dev.pkg) = some p)
    (keeps : ∀ m : Mach, Memory.read (Memory.writeLog s.mem (f m p).log) x = Memory.read (Memory.writeLog s.mem m.log) x) :
    Memory.read t.mem x = Memory.read (Safety.upsetMem s us) x := by
  have sdio : ((Safety.mach s).upsets us).dev.sdio = s.dev.sdio := Mach.upsets_keep (fun d u => by rw [d.upset_frame u]) _ us
  have pkg : ((Safety.mach s).upsets us).dev.pkg = s.dev.pkg :=
    congrArg (bits · _ _) (Mach.upsets_keep (g := (Dev.reg · Reg.COL_GRP)) (fun d u => d.reg_upset u (by decide)) _ us)
  rw [hc, run_eq] at next
  cases next
  change Memory.read (Memory.writeLog s.mem (((Safety.mach s).upsets us).cmd op tag f).log) x = _
  unfold Mach.cmd
  rw [sdio, pkg, found]
  dsimp only
  split
  · rfl
  · split
    · rfl
    · exact keeps _

/-! ### A write that no check refuses -/

/-- A command's write that no check refuses, in memory without errors, stores its bytes and replies ST_OK. -/
theorem Mach.commandWrite_clean {s : State} (clean : Safety.noErrors s) {p : Packet} {a : Nat} {bs : List Byte} {force : Bool}
    {rows : List (Nat × Nat)} (allowed : (Safety.mach s).writeRefusal a bs.length force = none) :
    (Safety.mach s).commandWrite p a bs force rows = ((Safety.mach s).dmaStore a bs rows).ok p [] := by
  obtain ⟨noUe, noCe, -, -⟩ := clean
  unfold Mach.commandWrite
  rw [allowed]
  simp only [Mach.commandStore, Mach.rmwCheck_noErrors (m := Safety.mach s) noUe noCe, Option.isNone_none]

/-- The bytes stored read back. -/
theorem read_written {s : State} (ok : Safety.memOk s) (plain : s.dev.flash.flipped = []) {a i : Nat} {bs : List Byte}
    (rows : List (Nat × Nat)) (inside : i < bs.length) :
    Memory.read (Memory.writeLog s.mem ((Safety.mach s).dmaStore a bs rows).log) (a + i) = bs.getD i 0 := by
  have stored := Memory.read_store (m := Safety.mach s) ok plain a bs (a + i)
  rw [if_pos (by omega), Nat.add_sub_cancel_left] at stored
  exact stored

/-! ### The bytes of a fill -/

theorem length_replicate_flatMap (n : Nat) (bs : List Byte) : ((List.replicate n bs).flatMap id).length = n * bs.length := by
  simp

/-- A run of bytes repeated holds at each place the byte of that place in the run. -/
theorem getD_replicate_flatMap {n i : Nat} {bs : List Byte} (inside : i < n * bs.length) :
    ((List.replicate n bs).flatMap id).getD i 0 = bs.getD (i % bs.length) 0 := by
  induction n generalizing i with
  | zero => omega
  | succ n ih =>
    rw [List.replicate_succ, List.flatMap_cons, id_eq]
    by_cases first : i < bs.length
    · rw [List.getD_append _ _ _ _ first, Nat.mod_eq_of_lt first]
    · rw [Nat.succ_mul] at inside
      rw [List.getD_append_right _ _ _ _ (not_lt.1 first), ih (by omega), ← Nat.mod_eq_sub_mod (not_lt.1 first)]

/-- Settles O22: outside the range by what a command's write stores (`Memory.read_commandWrite`), inside it by the bytes that
an unrefused write stores. -/
theorem memoryWritePackets : Obligations.MemoryWritePackets := by
  unfold Obligations.MemoryWritePackets
  refine ⟨?writeOutside, ?write, ?fillOutside, ?fill⟩
  case writeOutside =>
    intro tag p hit us s t ok next found x outside
    refine read_of_cmd_upsets (c := .memWrite tag hit us) rfl next found fun m => ?_
    exact Memory.read_commandWrite ok m p _ _ (by rwa [List.length_drop])
  case write =>
    intro tag p hit s ok ready clean plain allowed
    have hd := gives_of_cmd_upsets (c := .memWrite tag hit []) rfl ready
    rw [Mach.upsets_nil, Mach.commandWrite_clean clean allowed] at hd
    exact ⟨_, _, hd, rfl, fun i inside => read_written ok plain (rowNats hit) inside⟩
  case fillOutside =>
    intro tag p hit us s t ok next found x outside
    refine read_of_cmd_upsets (c := .memFill tag hit us) rfl next found fun m => ?_
    dsimp only
    split
    · rfl
    · refine Memory.read_commandWrite ok m p _ _ ?_
      rw [length_replicate_flatMap, leBytes_length]
      omega
  case fill =>
    intro tag p hit s ok ready clean plain wordAt words some_ allowed
    have hd := gives_of_cmd_upsets (c := .memFill tag hit []) rfl ready
    have length : ((List.replicate (pay32 p.payload 8 / 4) (leBytes 4 (pay32 p.payload 12))).flatMap id).length
        = pay32 p.payload 8 := by
      rw [length_replicate_flatMap, leBytes_length]
      omega
    dsimp only at hd
    rw [Mach.upsets_nil, if_neg (by simp [wordAt, words, some_]), Mach.commandWrite_clean clean (by rwa [length])] at hd
    refine ⟨_, _, hd, rfl, fun i inside => (read_written ok plain (rowNats hit) (by rwa [length])).trans ?_⟩
    rw [getD_replicate_flatMap (by rw [leBytes_length]; omega), leBytes_length]

end Machine
end Sys2Proof
end

section
/-!
PROOFS. The command window (O38): a packet's fields, its way through the scan, and what the scan leaves as it was.
-/
namespace Sys2Proof

/-! ### The check values fit their widths (R377) -/

theorem CrcParams.run_lt {p : CrcParams} (step : ∀ (r : Nat) (b : Byte), r < 2 ^ p.width → p.byte r b < 2 ^ p.width)
    (bs : List Byte) {r : Nat} (start : r < 2 ^ p.width) : p.run r bs < 2 ^ p.width :=
  List.foldlRecOn (motive := fun v => v < 2 ^ p.width) bs _ start fun v hv b _ => step v b hv

theorem crcBitL_lt {w poly : Nat} (fits : poly < 2 ^ w) (r : Nat) : crcBitL w poly r < 2 ^ w := by
  have shifted := Nat.mod_lt (r * 2) (Nat.two_pow_pos w)
  unfold crcBitL
  split
  · exact Nat.xor_lt_two_pow shifted fits
  · exact shifted

theorem crcBitR_lt {w poly r : Nat} (fits : poly < 2 ^ w) (h : r < 2 ^ w) : crcBitR poly r < 2 ^ w := by
  have half : r / 2 < 2 ^ w := lt_of_le_of_lt (Nat.div_le_self r 2) h
  unfold crcBitR
  split
  · exact Nat.xor_lt_two_pow half fits
  · exact half

theorem crc16_lt (bs : List Byte) : crc16 bs < 2 ^ 16 := by
  refine Nat.xor_lt_two_pow (CrcParams.run_lt (p := crcParams 2) (fun r b h => ?_) bs (by decide)) (by decide)
  have shifted : b.toNat * 2 ^ 8 < 2 ^ 16 := by have := b.isLt; omega
  exact List.foldlRecOn (motive := fun v => v < 2 ^ 16) _ _ (Nat.xor_lt_two_pow h shifted) fun v _ _ _ =>
    crcBitL_lt (by decide) v

theorem crc32c_lt (bs : List Byte) : crc32c bs < 2 ^ 32 := by
  refine Nat.xor_lt_two_pow (CrcParams.run_lt (p := crcParams 0) (fun r b h => ?_) bs (by decide)) (by decide)
  have byte : b.toNat < 2 ^ 32 := by have := b.isLt; omega
  exact List.foldlRecOn (motive := fun v => v < 2 ^ 32) _ _ (Nat.xor_lt_two_pow h byte) fun v hv _ _ =>
    crcBitR_lt (by decide) hv

namespace Machine

/-! ### The parts of a packet and its header's fields (R552, R553) -/

section Packet

/-- The number behind a part of known length. -/
theorem field_after {as : List Byte} {k : Nat} (h : as.length = k) (n v : Nat) (bs : List Byte) :
    field (as ++ (leBytes n v ++ bs)) k n = v % 2 ^ (8 * n) := by
  rw [← field_leBytes_append n v bs]
  exact field_append_skip h _ 0 n

variable (op tag fl pkg n st : Nat)

/-- The header that its HCRC checks. -/
def packetHead : List Byte :=
  leBytes 1 0x5A ++ leBytes 1 0x01 ++ leBytes 2 op ++ leBytes 2 tag ++ leBytes 1 fl ++ leBytes 1 pkg ++ leBytes 4 n
    ++ leBytes 2 st

/-- What follows the header. -/
def packetTail (payload : List Byte) : List Byte :=
  if payload.isEmpty then [] else payload ++ leBytes 4 (crc32c payload)

theorem mkPacket_eq (payload : List Byte) : mkPacket op tag fl pkg st payload
    = packetHead op tag fl pkg payload.length st
      ++ (leBytes 2 (crc16 (packetHead op tag fl pkg payload.length st)) ++ packetTail payload) := by
  rw [← List.append_assoc]
  rfl

theorem packetHead_length : (packetHead op tag fl pkg n st).length = 14 := by simp [packetHead]

theorem packetTail_length (payload : List Byte) :
    (packetTail payload).length = payload.length + (if payload.length = 0 then 0 else 4) := by
  cases payload with
  | nil => rfl
  | cons b bs => simp [packetTail]

variable (rest : List Byte)

theorem field_head_start : field (packetHead op tag fl pkg n st ++ rest) 0 1 = 0x5A := by
  simp only [packetHead, List.append_assoc]
  exact field_leBytes_append 1 0x5A _

theorem field_head_version : field (packetHead op tag fl pkg n st ++ rest) 1 1 = 1 := by
  have parts : packetHead op tag fl pkg n st ++ rest = leBytes 1 0x5A ++ (leBytes 1 0x01
    ++ (leBytes 2 op ++ leBytes 2 tag ++ leBytes 1 fl ++ leBytes 1 pkg ++ leBytes 4 n ++ leBytes 2 st ++ rest)) := by
    simp only [packetHead, List.append_assoc]
  rw [parts]
  exact field_after rfl 1 1 _

theorem field_head_op : field (packetHead op tag fl pkg n st ++ rest) 2 2 = op % 2 ^ 16 := by
  have parts : packetHead op tag fl pkg n st ++ rest = (leBytes 1 0x5A ++ leBytes 1 0x01)
    ++ (leBytes 2 op ++ (leBytes 2 tag ++ leBytes 1 fl ++ leBytes 1 pkg ++ leBytes 4 n ++ leBytes 2 st ++ rest)) := by
    simp only [packetHead, List.append_assoc]
  rw [parts]
  exact field_after rfl 2 op _

theorem field_head_tag : field (packetHead op tag fl pkg n st ++ rest) 4 2 = tag % 2 ^ 16 := by
  have parts : packetHead op tag fl pkg n st ++ rest = (leBytes 1 0x5A ++ leBytes 1 0x01 ++ leBytes 2 op)
    ++ (leBytes 2 tag ++ (leBytes 1 fl ++ leBytes 1 pkg ++ leBytes 4 n ++ leBytes 2 st ++ rest)) := by
    simp only [packetHead, List.append_assoc]
  rw [parts]
  exact field_after rfl 2 tag _

theorem field_head_flags : field (packetHead op tag fl pkg n st ++ rest) 6 1 = fl % 2 ^ 8 := by
  have parts : packetHead op tag fl pkg n st ++ rest = (leBytes 1 0x5A ++ leBytes 1 0x01 ++ leBytes 2 op ++ leBytes 2 tag)
    ++ (leBytes 1 fl ++ (leBytes 1 pkg ++ leBytes 4 n ++ leBytes 2 st ++ rest)) := by
    simp only [packetHead, List.append_assoc]
  rw [parts]
  exact field_after rfl 1 fl _

theorem field_head_pkg : field (packetHead op tag fl pkg n st ++ rest) 7 1 = pkg % 2 ^ 8 := by
  have parts : packetHead op tag fl pkg n st ++ rest
    = (leBytes 1 0x5A ++ leBytes 1 0x01 ++ leBytes 2 op ++ leBytes 2 tag ++ leBytes 1 fl)
      ++ (leBytes 1 pkg ++ (leBytes 4 n ++ leBytes 2 st ++ rest)) := by
    simp only [packetHead, List.append_assoc]
  rw [parts]
  exact field_after rfl 1 pkg _

theorem field_head_length : field (packetHead op tag fl pkg n st ++ rest) 8 4 = n % 2 ^ 32 := by
  have parts : packetHead op tag fl pkg n st ++ rest
    = (leBytes 1 0x5A ++ leBytes 1 0x01 ++ leBytes 2 op ++ leBytes 2 tag ++ leBytes 1 fl ++ leBytes 1 pkg)
      ++ (leBytes 4 n ++ (leBytes 2 st ++ rest)) := by
    simp only [packetHead, List.append_assoc]
  rw [parts]
  exact field_after rfl 4 n _

theorem field_head_status : field (packetHead op tag fl pkg n st ++ rest) 12 2 = st % 2 ^ 16 := by
  have parts : packetHead op tag fl pkg n st ++ rest
    = (leBytes 1 0x5A ++ leBytes 1 0x01 ++ leBytes 2 op ++ leBytes 2 tag ++ leBytes 1 fl ++ leBytes 1 pkg ++ leBytes 4 n)
      ++ (leBytes 2 st ++ rest) := by
    simp only [packetHead, List.append_assoc]
  rw [parts]
  exact field_after rfl 2 st _

end Packet

/-! ### The scan on a whole packet (R549, R554, R555) -/

/-- The device with `b` in its command buffer. -/
def Dev.loaded (d : Dev) (b : List Byte) : Dev := { d with sdio := { d.sdio with cmd := b } }

/-- The device once the header of the packet in its buffer has been counted. -/
def Dev.headerTaken (d : Dev) : Dev :=
  { d with sdio := { d.sdio with scanning := false, hdr := some d.stamp } }.cnt (Reg.SDIO_CNT_k 0) 1

/-- The device with nothing in its command buffer. -/
def Dev.emptied (d : Dev) : Dev := { d with sdio := { d.sdio with cmd := [], hdr := none } }

section Scan
variable {d e : Dev}

theorem Dev.scanLoop_some (h : d.scanStep = some e) (n : Nat) : d.scanLoop (n + 1) = e.scanLoop n := by
  rw [Dev.scanLoop, h]

theorem Dev.scanLoop_none (h : d.scanStep = none) (n : Nat) : d.scanLoop n = d := by
  cases n with
  | zero => rfl
  | succ n => rw [Dev.scanLoop, h]

theorem Dev.scanStep_off (h : d.sdio.ioe1 = false) : d.scanStep = none := by
  unfold Dev.scanStep
  dsimp only
  rw [if_pos (by simp [h])]

theorem Dev.scanStep_empty (h : d.sdio.cmd = []) : d.scanStep = none := by
  unfold Dev.scanStep
  dsimp only
  rw [if_pos (by simp [h])]

/-- A header that its HCRC matches, of version 1 and with a length in range, is counted and gets its stamp. -/
theorem Dev.scanStep_header (on : (d.sdio.ior1 && d.sdio.ioe1) = true) (between : d.sdio.skip = 0)
    (fresh : d.sdio.hdr = none) (start : field d.sdio.cmd 0 1 = 0x5A) (whole : 16 ≤ d.sdio.cmd.length)
    (good : crc16 (d.sdio.cmd.take 14) = field d.sdio.cmd 14 2) (version : field d.sdio.cmd 1 1 = 1)
    (fits : field d.sdio.cmd 8 4 ≤ 32768) : d.scanStep = some d.headerTaken := by
  have held : d.sdio.cmd ≠ [] := fun none => by simp [none] at whole
  unfold Dev.scanStep
  dsimp only
  rw [if_neg (by simpa [held] using on), if_neg (by omega), fresh]
  dsimp only
  rw [if_neg (by omega), if_neg (by omega), if_neg (by simpa using good), if_neg (by omega), if_neg (by omega)]
  rfl

/-- A packet whose header has been taken, and which is whole, goes through the checks of R554. -/
theorem Dev.scanStep_packet {stamp n : Nat} (on : (d.sdio.ior1 && d.sdio.ioe1) = true) (between : d.sdio.skip = 0)
    (taken : d.sdio.hdr = some stamp) (len : field d.sdio.cmd 8 4 = n)
    (whole : d.sdio.cmd.length = 16 + n + (if n = 0 then 0 else 4)) : d.scanStep = some
      (d.emptied.checkPacket (d.sdio.cmd.take 16)
        ((d.sdio.cmd.drop 16).take n) ((d.sdio.cmd.drop (16 + n)).take 4) stamp) := by
  have held : d.sdio.cmd ≠ [] := fun none => by simp [none] at whole; omega
  unfold Dev.scanStep
  dsimp only
  rw [if_neg (by simpa [held] using on), if_neg (by omega), taken, len]
  dsimp only
  rw [if_neg (by omega), ← whole, List.drop_length]
  rfl

/-- The command `x`, for this package, meets none of the checks 5 to 12 of R554, and no other package has a command. -/
structure Dev.Takes (d : Dev) (x : Packet) : Prop where
  fresh : d.sdio.outstanding.any (fun y => y.tag == x.tag) = false
  notDeferred : d.sdio.deferred.any (fun y => y.1 == x.tag) = false
  room : d.sdio.outstanding.length < 32
  known : (opLength x.op).isSome = true
  long : lengthOk x.op x.payload = true
  here : x.pkg = d.pkg
  inGroup : d.pkg < d.grp
  running : d.boot.phase ≠ .recovery
  own : ∀ y ∈ d.sdio.outstanding, y.pkg = d.pkg

/-- The check value of a packet's payload is good, and its fields spell the command `x` with the flags `fl`. -/
structure Spells (h payload pcrc : List Byte) (fl : Nat) (x : Packet) : Prop where
  good : payload.isEmpty = true ∨ crc32c payload = leNat pcrc
  op : field h 2 2 = x.op
  tag : field h 4 2 = x.tag
  flags : field h 6 1 = fl
  pkg : field h 7 1 = x.pkg
  status : field h 12 2 = 0
  payload : payload = x.payload
  fence : x.fence = bit fl 1

/-- A packet that meets none of the checks 4 to 12 is accepted as the youngest outstanding command. -/
theorem Dev.checkPacket_accepts {h payload pcrc : List Byte} {fl : Nat} {x : Packet} (takes : d.Takes x)
    (spells : Spells h payload pcrc fl x) (flags : fl = 0 ∨ fl = 2) : d.checkPacket h payload pcrc x.stamp
      = { d with sdio := { d.sdio with outstanding := d.sdio.outstanding ++ [x] } } := by
  obtain ⟨fresh, notDeferred, room, known, long, here, inGroup, running, own⟩ := takes
  obtain ⟨good, op, tag, fl', pkg, status, rfl, fence⟩ := spells
  have reached : d.reachable d.pkg = true := by simp [Dev.reachable]
  unfold Dev.checkPacket
  dsimp only
  rw [op, tag, fl', pkg, status, here]
  rw [if_neg (by rcases good with h | h <;> simp [h]), if_neg (by rcases flags with h | h <;> simp [h]),
    if_neg (by rw [fresh, notDeferred]; decide), if_neg (by omega),
    if_neg (by simpa [Option.isNone_iff_eq_none, Option.isSome_iff_ne_none] using known), if_neg (by simp [long]),
    if_neg (by omega), if_neg (by simp [reached]), if_neg (by simp [running]), ← fence, ← here]
  refine Dev.pumpRemote_local fun y hy => ?_
  obtain hy | hy := List.mem_append.mp hy
  · exact own y hy
  · rw [List.mem_singleton.mp hy]
    exact here

/-- A scan that leaves the buffer empty: it is cut nowhere any more, and only SPACE may be set. -/
theorem Dev.sdioScan_drained (loop : d.scanLoop (2 * d.sdio.cmd.length + 4) = e) (drained : e.sdio.cmd = []) :
    d.sdioScan.sdio = { e.sdio with cut := false } ∧ ∀ a, a ≠ Reg.SDIO_INT_STAT → d.sdioScan.reg a = e.reg a := by
  unfold Dev.sdioScan
  dsimp only
  have bare : e.sdio.cmd.isEmpty = true := by rw [drained]; rfl
  rw [loop, if_pos bare]
  split
  · exact ⟨rfl, fun a other => Dev.reg_wf_ne _ _ _ other⟩
  · exact ⟨rfl, fun _ _ => rfl⟩

theorem Dev.sdioFeed_nil (n : Nat) : Dev.sdioFeed n [] d = d := by
  cases n <;> rfl

/-- Bytes that the empty buffer has room for are taken at once. -/
theorem Dev.sdioFeed_fits (empty : d.sdio.cmd = []) {bs : List Byte} (some : bs ≠ []) (fits : bs.length ≤ 65536) (n : Nat) :
    Dev.sdioFeed (n + 1) bs d = (d.loaded bs).sdioScan := by
  have room : d.cmdSpace = 65536 := by rw [Dev.cmdSpace, empty]; rfl
  rw [Dev.sdioFeed]
  dsimp only
  rw [room, if_neg (by simpa using some), if_neg (by decide), List.drop_eq_nil_of_le fits, List.take_of_length_le fits,
    Dev.sdioFeed_nil, empty, List.nil_append]
  rfl

end Scan

/-- The device once the packet in its buffer has been accepted as the command `x`. -/
def Dev.accepted (d : Dev) (x : Packet) : Dev :=
  { d.headerTaken with sdio := { d.sdio with
      cmd := [], scanning := false, hdr := none, outstanding := d.sdio.outstanding ++ [x] } }

/-- What the header leaves does not bear on the checks. -/
theorem Dev.Takes.headerTaken {d : Dev} {x : Packet} (h : d.Takes x) (b : List Byte) :
    (d.loaded b).headerTaken.emptied.Takes x := by
  have strap : (d.loaded b).headerTaken.emptied.reg Reg.COL_GRP = d.reg Reg.COL_GRP := Dev.reg_cnt_ne _ 1 (by decide)
  have pkg : (d.loaded b).headerTaken.emptied.pkg = d.pkg := congrArg (bits · _ _) strap
  have grp : (d.loaded b).headerTaken.emptied.grp = d.grp := congrArg (bits · _ _ + 1) strap
  exact { fresh := h.fresh, notDeferred := h.notDeferred, room := h.room, known := h.known, long := h.long,
          here := h.here.trans pkg.symm, inGroup := by rw [pkg, grp]; exact h.inGroup, running := h.running,
          own := by rw [pkg]; exact h.own }

/-- A command as the host writes it. -/
def Packet.written (x : Packet) (fl : Nat) : List Byte := mkPacket x.op x.tag fl x.pkg 0 x.payload

section Written
variable {d : Dev} {x : Packet} {fl : Nat} (op : x.op < 2 ^ 16) (tag : x.tag < 2 ^ 16) (flags : fl = 0 ∨ fl = 2)
  (pkg : x.pkg < 2 ^ 8) (fence : x.fence = bit fl 1) (fits : x.payload.length ≤ 32768)

theorem Packet.written_length : (x.written fl).length
    = 16 + x.payload.length + (if x.payload.length = 0 then 0 else 4) := by
  simp only [Packet.written, mkPacket_eq, List.length_append, packetHead_length, leBytes_length, packetTail_length]
  omega

theorem Packet.written_take14 : (x.written fl).take 14 = packetHead x.op x.tag fl x.pkg x.payload.length 0 := by
  rw [Packet.written, mkPacket_eq]
  exact List.take_left' (packetHead_length ..)

theorem Packet.written_crc : crc16 ((x.written fl).take 14) = field (x.written fl) 14 2 := by
  rw [Packet.written_take14, Packet.written, mkPacket_eq, field_after (packetHead_length ..)]
  exact (Nat.mod_eq_of_lt (crc16_lt _)).symm

include fits in
theorem Packet.written_size : field (x.written fl) 8 4 = x.payload.length := by
  rw [Packet.written, mkPacket_eq, field_head_length]
  exact Nat.mod_eq_of_lt (by omega)

theorem Packet.written_drop16 : (x.written fl).drop 16 = packetTail x.payload := by
  rw [Packet.written, mkPacket_eq, ← List.append_assoc]
  exact List.drop_left' (by simp [packetHead_length])

theorem Packet.written_take16 : (x.written fl).take 16 = packetHead x.op x.tag fl x.pkg x.payload.length 0
    ++ leBytes 2 (crc16 (packetHead x.op x.tag fl x.pkg x.payload.length 0)) := by
  rw [Packet.written, mkPacket_eq, ← List.append_assoc]
  exact List.take_left' (by simp [packetHead_length])

include op tag flags pkg fence in
/-- A written command's parts spell it. -/
theorem Packet.written_spells : Spells ((x.written fl).take 16) (((x.written fl).drop 16).take x.payload.length)
    (((x.written fl).drop (16 + x.payload.length)).take 4) fl x := by
  have body : (packetTail x.payload).take x.payload.length = x.payload := by
    cases x.payload with
    | nil => rfl
    | cons b bs => exact List.take_left' rfl
  have good : x.payload.isEmpty = true
      ∨ crc32c x.payload = leNat (((packetTail x.payload).drop x.payload.length).take 4) := by
    cases x.payload with
    | nil => exact .inl rfl
    | cons b bs =>
      right
      rw [show packetTail (b :: bs) = (b :: bs) ++ leBytes 4 (crc32c (b :: bs)) from rfl, List.drop_left' rfl,
        List.take_of_length_le (by simp), leNat_leBytes, Nat.mod_eq_of_lt (crc32c_lt _)]
  rw [← List.drop_drop, Packet.written_drop16, Packet.written_take16, body]
  exact { good := good, payload := rfl, fence := fence, status := field_head_status ..
          op := (field_head_op ..).trans (Nat.mod_eq_of_lt op), tag := (field_head_tag ..).trans (Nat.mod_eq_of_lt tag)
          flags := (field_head_flags ..).trans (Nat.mod_eq_of_lt (by omega))
          pkg := (field_head_pkg ..).trans (Nat.mod_eq_of_lt pkg) }

include op tag flags pkg fence fits in
/-- The scan of a whole packet that the function accepts. -/
theorem Dev.scanLoop_accepts (takes : d.Takes x) (stamp : x.stamp = d.stamp) (enabled : (d.sdio.ior1 && d.sdio.ioe1) = true)
    (between : d.sdio.skip = 0) (noHeader : d.sdio.hdr = none) (n : Nat) :
    (d.loaded (x.written fl)).scanLoop (n + 2) = d.accepted x := by
  have header : (d.loaded (x.written fl)).scanStep = some (d.loaded (x.written fl)).headerTaken := by
    refine Dev.scanStep_header enabled between noHeader ?_ ?_ Packet.written_crc ?_ (le_of_eq_of_le (Packet.written_size fits) fits)
    · exact (congrArg (field · 0 1) (mkPacket_eq ..)).trans (field_head_start ..)
    · exact le_of_le_of_eq (by omega) Packet.written_length.symm
    · exact (congrArg (field · 1 1) (mkPacket_eq ..)).trans (field_head_version ..)
  have packet := Dev.scanStep_packet (d := (d.loaded (x.written fl)).headerTaken) (stamp := d.stamp) enabled between rfl
    (Packet.written_size fits) Packet.written_length
  rw [Dev.scanLoop_some header, Dev.scanLoop_some packet, ← stamp]
  have spells := Packet.written_spells op tag flags pkg fence
  have accepts := Dev.checkPacket_accepts (takes.headerTaken (x.written fl)) spells flags
  exact (congrArg (Dev.scanLoop · n) accepts).trans (Dev.scanLoop_none (Dev.scanStep_empty rfl) n)

end Written

/-! ### The scan leaves IOE1 as the host has written it (R547) -/

section Enable
variable (d : Dev)

theorem SdioSt.settle_ioe1 (s : SdioSt) (xs : List (List Byte × Option Nat)) : (s.settle xs).ioe1 = s.ioe1 := by
  induction xs generalizing s with
  | nil => rfl
  | cons x xs ih =>
    unfold SdioSt.settle
    split
    · exact ih _
    · rfl

theorem Dev.cnt_sdio (a n : Nat) : (d.cnt a n).sdio = d.sdio := by rw [Dev.cnt_frame]

theorem Dev.putReply_ioe1 (r : List Byte) (tag : Option Nat) : (d.putReply r tag).sdio.ioe1 = d.sdio.ioe1 := by
  unfold Dev.putReply
  dsimp only
  rw [Dev.cnt_sdio]
  exact SdioSt.settle_ioe1 ..

theorem Dev.pumpRemote_ioe1 : d.pumpRemote.sdio.ioe1 = d.sdio.ioe1 := by
  refine foldl_keeps (fun d => d.sdio.ioe1) (fun p _ e => ?_) d
  dsimp only
  split
  · split
    · rw [(Dev.ColOnly.toPeer _ _ _ _).rest]
    · rw [Dev.putReply_ioe1, Dev.cnt_sdio]
  · rfl

theorem Dev.refuse_ioe1 (h : List Byte) (status flags : Nat) (counted : Bool) :
    (d.refuse h status flags counted).sdio.ioe1 = d.sdio.ioe1 := by
  unfold Dev.refuse Dev.place
  rw [Dev.pumpRemote_ioe1, Dev.putReply_ioe1]
  split
  · rfl
  · rw [Dev.cnt_sdio]

theorem Dev.ite_ioe1 {c : Prop} [Decidable c] {a b : Dev} {on : Bool} (ha : a.sdio.ioe1 = on) (hb : b.sdio.ioe1 = on) :
    (if c then a else b).sdio.ioe1 = on := by
  split
  · exact ha
  · exact hb

theorem Dev.checkPacket_ioe1 (h payload pcrc : List Byte) (stamp : Nat) :
    (d.checkPacket h payload pcrc stamp).sdio.ioe1 = d.sdio.ioe1 := by
  have refuses := fun status flags => d.refuse_ioe1 h status flags false
  have counts := fun k status => ((d.cnt (Reg.SDIO_CNT_k k) 1).refuse_ioe1 h status 0 true).trans
    (congrArg SdioSt.ioe1 (d.cnt_sdio _ 1))
  unfold Dev.checkPacket
  exact Dev.ite_ioe1 (counts 2 _) <| Dev.ite_ioe1 (refuses _ _) <| Dev.ite_ioe1 (refuses _ _) <|
    Dev.ite_ioe1 (counts 6 _) <| Dev.ite_ioe1 (refuses _ _) <| Dev.ite_ioe1 (refuses _ _) <| Dev.ite_ioe1 (refuses _ _) <|
    Dev.ite_ioe1 (refuses _ _) <| Dev.ite_ioe1 (refuses _ _) <| Dev.pumpRemote_ioe1 _

theorem Dev.scanByte_ioe1 : d.scanByte.sdio.ioe1 = d.sdio.ioe1 := by
  unfold Dev.scanByte
  dsimp only
  split
  · rfl
  · rfl

/-- A move, if there is one, leaves IOE1 at `on`. -/
def MoveKeeps (on : Bool) (o : Option Dev) : Prop := ∀ e, o = some e → e.sdio.ioe1 = on

theorem moveKeeps_none (on : Bool) : MoveKeeps on none := fun _ h => nomatch h

theorem moveKeeps_some {on : Bool} {e : Dev} (h : e.sdio.ioe1 = on) : MoveKeeps on (some e) := fun _ same =>
  Option.some.inj same ▸ h

theorem moveKeeps_ite {on : Bool} {c : Prop} [Decidable c] {a b : Option Dev} (ha : MoveKeeps on a) (hb : MoveKeeps on b) :
    MoveKeeps on (if c then a else b) := by
  split
  · exact ha
  · exact hb

theorem Dev.scanStep_ioe1 : MoveKeeps d.sdio.ioe1 d.scanStep := by
  have byte := moveKeeps_some d.scanByte_ioe1
  have wait := moveKeeps_none d.sdio.ioe1
  unfold Dev.scanStep
  refine moveKeeps_ite wait <| moveKeeps_ite (moveKeeps_some rfl) ?_
  cases d.sdio.hdr with
  | none =>
    exact moveKeeps_ite byte <| moveKeeps_ite (moveKeeps_ite byte wait) <| moveKeeps_ite byte <|
      moveKeeps_ite (moveKeeps_some (Dev.refuse_ioe1 _ _ _ _ _)) <|
      moveKeeps_ite (moveKeeps_some (Dev.refuse_ioe1 _ _ _ _ _)) <| moveKeeps_some rfl
  | some stamp => exact moveKeeps_ite (moveKeeps_ite byte wait) <| moveKeeps_some (Dev.checkPacket_ioe1 _ _ _ _ _)

theorem Dev.scanLoop_ioe1 (n : Nat) : (d.scanLoop n).sdio.ioe1 = d.sdio.ioe1 := by
  induction n generalizing d with
  | zero => rfl
  | succ n ih =>
    rw [Dev.scanLoop]
    split
    · rfl
    · next e step => rw [ih e, Dev.scanStep_ioe1 d e step]

/-- What a scan leaves is what its moves leave, but for the cut. -/
theorem Dev.sdioScan_sdio : ∃ cut, d.sdioScan.sdio = { (d.scanLoop (2 * d.sdio.cmd.length + 4)).sdio with cut := cut } := by
  unfold Dev.sdioScan
  dsimp only
  generalize d.scanLoop (2 * d.sdio.cmd.length + 4) = e
  by_cases bare : e.sdio.cmd.isEmpty = true
  · rw [if_pos bare]
    split
    · exact ⟨false, rfl⟩
    · exact ⟨false, rfl⟩
  · rw [if_neg bare]
    split
    · exact ⟨_, rfl⟩
    · exact ⟨_, rfl⟩

end Enable

/-! ### The windows -/

/-- Bytes taken from the replies while none waits (R550). -/
theorem exec_sdioRead {s : State} {n k short : Nat} {rs : List (List Byte)} (noWait : s.dev.sdio.waiting = [])
    (own : ∀ x ∈ s.dev.sdio.outstanding, x.pkg = s.dev.pkg)
    (takes : takeReplies s.dev.sdio.replies s.dev.sdio.taken n = (rs, k, short)) : Safety.givesDev (.sdioRead n) s
      ({ s.dev with sdio := { s.dev.sdio with replies := rs, taken := k } }.cnt (Reg.SDIO_CNT_k 5) short) := by
  have hd : exec (.sdioRead n) s = execSdioRead n s := rfl
  rw [execSdioRead, runDev_eq, takes] at hd
  dsimp only at hd
  set d : Dev := { s.dev with sdio := { s.dev.sdio with replies := rs, taken := k } } with isD
  have left : SdioSt.settle (d.cnt (Reg.SDIO_CNT_k 5) short).sdio (d.cnt (Reg.SDIO_CNT_k 5) short).sdio.waiting = d.sdio := by
    rw [Dev.cnt_sdio, show d.sdio.waiting = [] from noWait, SdioSt.settle, ← show d.sdio.waiting = [] from noWait]
  have pkg : (d.cnt (Reg.SDIO_CNT_k 5) short).pkg = d.pkg := congrArg (bits · _ _) (Dev.reg_cnt_ne _ _ (by decide))
  have same : ({ d.cnt (Reg.SDIO_CNT_k 5) short with sdio := d.sdio } : Dev) = d.cnt (Reg.SDIO_CNT_k 5) short := by
    conv_rhs => rw [Dev.cnt_frame]
    conv_lhs => rw [Dev.cnt_frame]
  have none : d.sdio.replies.length - rs.length = 0 := Nat.sub_self _
  rw [left, same, none] at hd
  rw [show Dev.cnt (d.cnt (Reg.SDIO_CNT_k 5) short) (Reg.SDIO_CNT_k 1) 0 = d.cnt (Reg.SDIO_CNT_k 5) short from rfl,
    Dev.pumpRemote_local (by rw [pkg, Dev.cnt_sdio]; exact own)] at hd
  exact hd

/-- Settles O38: a written packet is fed and scanned in one go (`Dev.scanLoop_accepts`); a read takes replies
(`exec_sdioRead`); IOE1 stays through the scan that it starts, which makes no move while it is 0. -/
theorem commandWindowBytes : Obligations.CommandWindowBytes := by
  unfold Obligations.CommandWindowBytes
  refine ⟨?write, ?read, ?enable⟩
  case write =>
    intro op tag fl payload s ho ht hf hl known long ready on empty between noHeader inGroup fresh notDeferred room running own
    let x : Packet := ⟨op, tag, bit fl 1, s.dev.pkg, payload, s.dev.stamp⟩
    have pkg : x.pkg < 2 ^ 8 := lt_of_lt_of_le (bits_lt _ _ _) (by decide)
    have length := Packet.written_length (x := x) (fl := fl)
    have loop : (s.dev.loaded (x.written fl)).scanLoop (2 * (x.written fl).length + 4) = s.dev.accepted x :=
      Dev.scanLoop_accepts ho ht hf pkg rfl hl ⟨fresh, notDeferred, room, known, long, rfl, inGroup, running, own⟩ rfl
        (by rw [ready, on]; rfl) between noHeader (2 * (x.written fl).length + 2)
    obtain ⟨sdio, regs⟩ := Dev.sdioScan_drained loop rfl
    have hd : exec (.sdioWrite (x.written fl)) s = execSdioWrite (x.written fl) s := rfl
    rw [execSdioWrite, runDev_eq, Dev.sdioFeed_fits empty (fun none => by rw [none, List.length_nil] at length; omega)
      (by
        have short : x.payload.length ≤ 32768 := hl
        rw [length]
        split <;> omega)] at hd
    refine ⟨_, hd, ⟨rfl, rfl⟩, ?_, ?_, ?_⟩
    · exact congrArg SdioSt.outstanding sdio
    · exact congrArg SdioSt.cmd sdio
    · exact (regs _ (by decide)).trans (Dev.reg_cnt _ _ 1)
  case read =>
    intro n rs k short s noWait own takes
    exact ⟨_, exec_sdioRead noWait own takes, ⟨rfl, rfl⟩, Dev.cnt_sdio .., Dev.reg_cnt ..⟩
  case enable =>
    intro on s
    obtain ⟨cut, scanned⟩ := Dev.sdioScan_sdio { s.dev with sdio := { s.dev.sdio with ioe1 := on } }
    refine ⟨_, rfl, ⟨rfl, rfl⟩, ?_, fun off => ?_⟩
    · exact (congrArg SdioSt.ioe1 scanned).trans (Dev.scanLoop_ioe1 _ _)
    · rw [Dev.scanLoop_none (Dev.scanStep_off off)] at scanned
      exact ⟨(congrArg SdioSt.cmd scanned :), (congrArg SdioSt.outstanding scanned :)⟩

end Machine
end Sys2Proof
end

section
/-!
PROOFS. Stream packets (O28).
-/
namespace Sys2Proof
namespace Machine

/-! ### Streams of the table -/

section Table
variable {d : Dev} {n : Nat} {x : StreamSt}

theorem Dev.stream_setStream_same (d : Dev) (n : Nat) (x : StreamSt) : (d.setStream n x).stream n = some x :=
  AMap.find_set_same _ _ _

theorem Dev.modStream_some (f : StreamSt → StreamSt) (held : d.stream n = some x) : d.modStream n f = d.setStream n (f x) := by
  rw [Dev.modStream, held]

/-- A modified stream, modified again. -/
theorem Dev.stream_modStream_same (f : StreamSt → StreamSt) (held : d.stream n = some x) :
    (d.modStream n f).stream n = some (f x) := by
  rw [Dev.modStream_some f held, Dev.stream_setStream_same]

end Table

/-! ### A notification leaves the streams -/

theorem Dev.ColOnly.streams {d e : Dev} (h : Dev.ColOnly d e) : e.streams = d.streams := by rw [h.rest]

theorem Dev.cnt_streams (d : Dev) (a n : Nat) : (d.cnt a n).streams = d.streams := by rw [Dev.cnt_frame]

theorem Dev.putReply_streams (d : Dev) (r : List Byte) (tag : Option Nat) : (d.putReply r tag).streams = d.streams :=
  Dev.cnt_streams _ _ _

theorem Dev.pumpRemote_streams (d : Dev) : d.pumpRemote.streams = d.streams := by
  refine foldl_keeps Dev.streams (fun p _ e => ?_) d
  dsimp only
  split
  · split
    · exact (Dev.ColOnly.toPeer _ _ _ _).streams
    · rw [Dev.putReply_streams, Dev.cnt_streams]
  · rfl

theorem Dev.notify_streams (d : Dev) (tag status : Nat) (payload : List Byte) :
    (d.notify tag status payload).streams = d.streams := by
  have counted (e : Dev) (ok : Prop) [Decidable ok] : (if ok then e else e.cnt (Reg.SDIO_CNT_k 7) 1).streams = e.streams := by
    split
    · rfl
    · exact Dev.cnt_streams _ _ _
  unfold Dev.notify
  split
  · rfl
  · dsimp only
    split
    · exact (Dev.ColOnly.toPeer _ _ _ _).streams.trans (counted _ _)
    · rw [Dev.place, Dev.pumpRemote_streams, Dev.putReply_streams, counted]

/-- A closed stream that no step pins is gone (R420). -/
theorem Dev.stream_finishClose {d : Dev} {n : Nat} {x : StreamSt} (held : d.stream n = some x) (closing : x.closing = true)
    (free : x.bufs.any (fun b => !b.pins.isEmpty) = false) : (d.finishClose n).stream n = none := by
  have gone : x.bufs.all (fun b => b.pins.isEmpty) = true := by
    rw [List.any_eq_false] at free
    exact List.all_eq_true.mpr fun b hb => by simpa using free b hb
  unfold Dev.finishClose
  rw [held]
  dsimp only
  rw [if_pos (by rw [closing, gone]; rfl)]
  cases x.closeTag with
  | none => exact AMap.find_erase_same _ _
  | some t => exact (congrArg (AMap.find · n) (Dev.notify_streams _ t _ _)).trans (AMap.find_erase_same _ _)

section StreamPackets
variable {tag : BitVec 16} {p : Packet} {s : State}

theorem exec_streamOpen {n : Nat} (ready : Safety.ready s 0x040E tag.toNat p)
    (enabled : s.dev.rfB Reg.ING_CTRL Fld.ING_CTRL.EN = true)
    (lowest : (List.range 64).find? (fun n => (s.dev.stream n).isNone) = some n)
    (room : s.dev.streamLimit (slice p.payload 0 128) = false)
    (region : Se.kind (slice p.payload 0 128) = 2 →
      (AMap.find s.dev.flash.regions (Se.region (slice p.payload 0 128))).isSome = true)
    (good : (Safety.mach s).streamBad (slice p.payload 0 128) = false) : Safety.givesDev (.streamOpen tag) s
      ((s.dev.setStream n { entry := slice p.payload 0 128, bufs := List.replicate (Se.nbuf (slice p.payload 0 128)) {} }).reply
        p ST.OK (leBytes 4 n)) := by
  have hd := gives_of_cmd (c := .streamOpen tag) rfl ready
  dsimp only at hd
  rw [show (Safety.mach s).dev = s.dev from rfl, enabled, lowest] at hd
  dsimp only at hd
  have found : (Se.kind (slice p.payload 0 128) == 2
      && (AMap.find s.dev.flash.regions (Se.region (slice p.payload 0 128))).isNone) = false := by
    by_cases episode : Se.kind (slice p.payload 0 128) = 2
    · rw [Bool.and_eq_false_iff]
      exact .inr (by rw [← Option.not_isSome, region episode]; rfl)
    · rw [beq_eq_false_iff_ne.mpr episode, Bool.false_and]
  rw [room, found, good] at hd
  exact givesDev_of_gives hd rfl

section Close
variable {x : StreamSt} (ready : Safety.ready s 0x040F tag.toNat p) (inTable : pay8 p.payload 0 < 64)
  (held : s.dev.stream (pay8 p.payload 0) = some x) (live : x.closing = false)
include ready inTable held live

theorem exec_streamClose_free (free : x.bufs.any (fun b => !b.pins.isEmpty) = false) : Safety.givesDev (.streamClose tag) s
    (((s.dev.modStream (pay8 p.payload 0) (fun x => { x with closing := true, frame := none, ready := [] })).finishClose
      (pay8 p.payload 0)).reply p ST.OK []) := by
  have hd := gives_of_cmd (c := .streamClose tag) rfl ready
  dsimp only at hd
  rw [if_neg (Nat.not_le.mpr inTable), show (Safety.mach s).dev = s.dev from rfl, held] at hd
  dsimp only at hd
  rw [live, free] at hd
  exact givesDev_of_gives hd rfl

theorem exec_streamClose_pinned (pinned : x.bufs.any (fun b => !b.pins.isEmpty) = true) :
    Safety.givesDev (.streamClose tag) s
      (((s.dev.modStream (pay8 p.payload 0) (fun x => { x with closing := true, frame := none, ready := [] })).modStream
        (pay8 p.payload 0) (fun x => { x with closeTag := some p.tag })).reply p ST.DEFERRED []) := by
  have hd := gives_of_cmd (c := .streamClose tag) rfl ready
  dsimp only at hd
  rw [if_neg (Nat.not_le.mpr inTable), show (Safety.mach s).dev = s.dev from rfl, held] at hd
  dsimp only at hd
  rw [live, pinned] at hd
  exact givesDev_of_gives hd rfl

end Close
end StreamPackets

/-- Settles O28: the packets leave the table that `Dev.setStream`, `Dev.finishClose` and `Dev.modStream` make. -/
theorem streamPackets : Obligations.StreamPackets := by
  unfold Obligations.StreamPackets
  refine ⟨?opens, ?ends, ?waits⟩
  case opens =>
    intro tag p n s ready enabled lowest room region good
    exact ⟨_, exec_streamOpen ready enabled lowest room region good, Dev.stream_setStream_same _ _ _⟩
  case ends =>
    intro tag p x s ready inTable held live free
    exact ⟨_, exec_streamClose_free ready inTable held live free,
      Dev.stream_finishClose (Dev.stream_modStream_same _ held) rfl free⟩
  case waits =>
    intro tag p x s ready inTable held live pinned
    exact ⟨_, exec_streamClose_pinned ready inTable held live pinned,
      Dev.stream_modStream_same _ (Dev.stream_modStream_same _ held)⟩

end Machine
end Sys2Proof
end

section
/-!
PROOFS. Control-engine packets (O29).
-/
namespace Sys2Proof
namespace Machine

/-! ### Channels -/

section Channels
variable (d : Dev) (c : Nat) (f : ChanSt → ChanSt)

theorem Dev.chan_modChan_same : (d.modChan c f).chan c = f (d.chan c) := AMap.getD_set_same _ _ _ _

theorem Dev.chan_modChan_ne {k : Nat} (other : k ≠ c) : (d.modChan c f).chan k = d.chan k := AMap.getD_set_ne _ _ _ other

theorem Dev.chan_congr {d e : Dev} (same : e.eng = d.eng) : e.chan c = d.chan c := by rw [Dev.chan, same, Dev.chan]

end Channels

section Writes
variable {d : Dev} {c : Nat}

theorem CE_CHn_MAN_ne_MODE {k : Nat} (hc : c < 256) : Reg.CE_CHn_MAN k ≠ Reg.CE_CHn_MODE c := by
  unfold Reg.CE_CHn_MAN Reg.CE_CHn_MODE
  omega

/-- A manual output that is finite (R463). -/
theorem Dev.ceManWrite_finite {v : Nat} (finite : FFmt.f32.isFinite v = true) :
    d.ceManWrite c v = (d.setReg (Reg.CE_CHn_MAN c) v).modChan c (fun x => { x with manNew := true }) := by
  rw [Dev.ceManWrite, if_pos finite]

/-- A mode that a latched F2 does not refuse (R461, R464). -/
theorem Dev.ceModeWrite_taken {mode : Nat} (taken : d.f2 = false ∨ mode = 3) : d.ceModeWrite c mode
    = (d.wf (Reg.CE_CHn_MODE c) Fld.CE_CHn_MODE.MODE mode).modChan c (fun x => { x with reqMode := true }) := by
  rw [Dev.ceModeWrite, if_neg (by rcases taken with h | h <;> simp [h])]

theorem Dev.rf_ceModeWrite_taken {mode : Nat} (taken : d.f2 = false ∨ mode = 3) (two : mode < 4) :
    (d.ceModeWrite c mode).rf (Reg.CE_CHn_MODE c) Fld.CE_CHn_MODE.MODE = mode := by
  rw [Dev.ceModeWrite_taken taken]
  exact (Dev.rf_wf_same _ _ _).trans (Nat.mod_eq_of_lt two)

theorem Dev.chan_ceModeWrite_taken {mode : Nat} (taken : d.f2 = false ∨ mode = 3) :
    (d.ceModeWrite c mode).chan c = { d.chan c with reqMode := true } := by
  rw [Dev.ceModeWrite_taken taken, Dev.chan_modChan_same, Dev.wf]
  rfl

end Writes

section CePackets
variable {tag : BitVec 16} {p : Packet} {s : State}

theorem exec_ceEnable_stops (ready : Safety.ready s 0x0701 tag.toNat p) (off : pay8 p.payload 0 = 0) :
    Safety.gives (.ceEnable tag) s ((Safety.mach s).ceDisable.ok p []) := by
  have hd := gives_of_cmd (c := .ceEnable tag) rfl ready
  dsimp only at hd
  rw [off] at hd
  exact hd

theorem exec_ceEnable_starts {m : Mach} {st : Nat} (ready : Safety.ready s 0x0701 tag.toNat p) (on : pay8 p.payload 0 = 1)
    (starts : (Safety.mach s).ceEnable = (m, st)) : Safety.gives (.ceEnable tag) s (m.answer p st []) := by
  have hd := gives_of_cmd (c := .ceEnable tag) rfl ready
  dsimp only at hd
  rw [on, starts] at hd
  exact hd

theorem exec_ceSwap {m : Mach} {st : Nat} (ready : Safety.ready s 0x0702 tag.toNat p)
    (asks : (Safety.mach s).swapRequest (some p.tag) = (m, st)) : Safety.gives (.ceSwap tag) s (m.answer p st []) := by
  have hd := gives_of_cmd (c := .ceSwap tag) rfl ready
  dsimp only at hd
  rw [asks] at hd
  exact hd

theorem exec_ceSetpoint (ready : Safety.ready s 0x0703 tag.toNat p) (someRows : pay16 p.payload 0 ≠ 0)
    (few : pay16 p.payload 0 ≤ 256)
    (channels : (postRecords ((p.payload.drop 4).take (16 * pay16 p.payload 0))).any (fun r => decide (field r 0 2 ≥ 256))
      = false) : Safety.gives (.ceSetpoint tag) s
      (((Safety.mach s).postRows (postRecords ((p.payload.drop 4).take (16 * pay16 p.payload 0))) p.stamp 0x80).ok p []) := by
  have hd := gives_of_cmd (c := .ceSetpoint tag) rfl ready
  dsimp only at hd
  rw [channels, decide_eq_false someRows, decide_eq_false (Nat.not_lt.mpr few)] at hd
  exact hd

theorem exec_ceMode (ready : Safety.ready s 0x0704 tag.toNat p) (mode : pay8 p.payload 1 ≤ 3)
    (finite : FFmt.f32.isFinite (pay32 p.payload 4) = true) (taken : s.dev.f2 = true → pay8 p.payload 1 = 3) :
    Safety.givesDev (.ceMode tag) s
      (((s.dev.ceManWrite (pay8 p.payload 0) (pay32 p.payload 4)).ceModeWrite (pay8 p.payload 0) (pay8 p.payload 1)).reply
        p ST.OK []) := by
  have hd := gives_of_cmd (c := .ceMode tag) rfl ready
  have allowed : (s.dev.f2 && decide (pay8 p.payload 1 ≠ 3)) = false := by
    by_cases latched : s.dev.f2 = true
    · simp [taken latched]
    · simp [latched]
  dsimp only at hd
  rw [finite, decide_eq_false (Nat.not_lt.mpr mode), show (Safety.mach s).dev = s.dev from rfl, allowed] at hd
  exact givesDev_of_gives hd rfl

theorem exec_traceRead (ready : Safety.ready s 0x0A01 tag.toNat p) (noErrors : Safety.noErrors s)
    (fits : pay16 p.payload 2 * s.dev.traceRec ≤ 32768) :
    Safety.givesDev (.traceRead tag) s (s.dev.reply p ST.OK (((List.range (pay16 p.payload 2)).map (fun i =>
      ceMem + (pay16 p.payload 0 + i) % s.dev.traceCap * s.dev.traceRec)).flatMap
        (fun a => (Safety.mach s).rdBytes a s.dev.traceRec))) := by
  obtain ⟨ue, ce, -⟩ := noErrors
  have clean (as : List Nat) (r : Nat) : as.foldl (fun (x : Mach × Bool) a =>
      let (m, e) := x.1.eccRead a r 187 16
      (m, x.2 || e.isSome)) (Safety.mach s, false) = (Safety.mach s, false) :=
    List.foldlRecOn (motive := fun x => x = (Safety.mach s, false)) as _ rfl fun x hx a _ => by
      rw [hx]
      dsimp only
      rw [(Safety.mach s).eccRead_noErrors ue ce]
      rfl
  have hd := gives_of_cmd (c := .traceRead tag) rfl ready
  dsimp only at hd
  rw [if_neg (by exact Nat.not_lt.mpr fits), clean] at hd
  exact givesDev_of_gives hd rfl

end CePackets

/-- Settles O29: each packet's meaning by the theorem of its opcode; CE_MODE writes MAN, which is no mode register, before
MODE. -/
theorem controlEnginePackets : Obligations.ControlEnginePackets := by
  unfold Obligations.ControlEnginePackets
  refine ⟨fun _ _ _ => exec_ceEnable_stops, fun _ _ _ _ _ => exec_ceEnable_starts, fun _ _ _ _ _ => exec_ceSwap,
    fun _ _ _ => exec_ceSetpoint, ?mode, fun _ _ _ => exec_traceRead⟩
  intro tag p s ready mode finite taken
  have channel : pay8 p.payload 0 < 256 := field_lt _ _ 1
  have latch : (s.dev.ceManWrite (pay8 p.payload 0) (pay32 p.payload 4)).f2 = s.dev.f2 := by
    rw [Dev.ceManWrite_finite finite]
    exact Dev.rfB_congr (Dev.reg_setReg_ne _ _ (by unfold Reg.SAF_STAT Reg.CE_CHn_MAN; omega)) _
  have taken' : (s.dev.ceManWrite (pay8 p.payload 0) (pay32 p.payload 4)).f2 = false ∨ pay8 p.payload 1 = 3 := by
    rw [latch]
    exact (Bool.eq_false_or_eq_true s.dev.f2).symm.imp_right taken
  refine ⟨_, exec_ceMode ready mode finite taken, Dev.rf_ceModeWrite_taken taken' (by omega), ?asked, ?fresh, ?man⟩
  case asked => rw [Dev.chan_ceModeWrite_taken taken']
  case fresh =>
    rw [Dev.chan_ceModeWrite_taken taken', Dev.ceManWrite_finite finite, Dev.chan_modChan_same]
  case man =>
    rw [Dev.ceModeWrite_taken taken']
    refine (Dev.reg_wf_ne _ _ _ (CE_CHn_MAN_ne_MODE channel)).trans ?_
    rw [Dev.ceManWrite_finite finite]
    exact (Dev.reg_setReg_same _ _ _).trans (Nat.mod_eq_of_lt (field_lt _ _ 4))

end Machine
end Sys2Proof
end

section
/-!
PROOFS. Control-engine runs (O60): the record of a failed duplicate compare holds 64 bits of the frame number.
-/
namespace Sys2Proof
namespace Machine

/-- The record of a failed duplicate compare (R514): its detail is the frame number, cut to the 64 bits of DETAIL. -/
theorem Dev.raised_dupCompare (d : Dev) (c : Nat) : (d.dupCompare c).raised
    = d.raised ++ [Safety.rec 3 Src.CE 0x0004 c ((d.eng.k - 1) % 2 ^ 64)] := rfl

/-- A duplicate compare that fails while no swap waits stops the engine. -/
theorem exec_channelEval_fails {c : Fin 256} {s : State} (runs : s.dev.ceRun = true) (inFrame : s.dev.eng.inFrame = true)
    (due : c.val ∈ s.dev.toEvaluate) (noSwap : s.dev.eng.swap = none) :
    Safety.givesDev (.channelEval c true) s (s.dev.dupCompare c.val) := by
  have hd : exec (.channelEval c true) s = execChannelEval c true s := rfl
  have listed : s.dev.toEvaluate.contains c.val = true := List.contains_iff_mem.mpr due
  rw [execChannelEval, run_eq] at hd
  dsimp only at hd
  rw [runs, inFrame, listed] at hd
  have stays : ¬ (((Safety.mach s).mod (fun d => d.dupCompare c.val)).dev.eng.swap.isSome = true) := by
    change ¬ (s.dev.eng.swap.isSome = true)
    rw [noSwap]
    exact Bool.false_ne_true
  rw [if_neg (by decide), if_pos rfl] at hd
  exact hd.trans (congrArg (fun m : Mach => Host.Outcome.next { s with mem := Memory.writeLog s.mem m.log, dev := m.dev })
    (if_neg stays))

/-- The engine in frame 2^64, with channel 0 still to be evaluated. -/
def frameBeyond64Bits : State :=
  { dev := { ({} : Dev).wf Reg.CE_STAT Fld.CE_STAT.RUN 1 with eng := { inFrame := true, sched := [0], k := 2 ^ 64 + 1 } } }

/-- Refutes O60: where the failed frame is number 2^64, the record of the failed duplicate compare has DETAIL 0, since the
detail of a record is 64 bits wide, and the statement asks for the whole number. -/
theorem not_controlEngineRuns : ¬ Obligations.ControlEngineRuns := by
  unfold Obligations.ControlEngineRuns
  rintro ⟨-, -, -, evaluates, -⟩
  obtain ⟨-, fails, -⟩ := evaluates 0 frameBeyond64Bits (by decide) rfl (by decide)
  obtain ⟨u, next, -, -, -, -, raised⟩ := fails rfl
  have gives : Safety.givesDev (.channelEval 0 true) frameBeyond64Bits (frameBeyond64Bits.dev.dupCompare 0) :=
    exec_channelEval_fails (by decide) rfl (by decide) rfl
  rw [Safety.givesDev, next] at gives
  injection gives with same
  rw [same] at raised
  have detail := congrArg (List.map FaultRec.detail) ((Dev.raised_dupCompare _ _).symm.trans raised)
  exact absurd detail (by decide)

end Machine
end Sys2Proof
end

section
/-!
PROOFS. Ingest: CSI packets and frames, SENSOR chunks, tensors, waiting bindings, and replay samples (O59).
-/
namespace Sys2Proof
namespace Machine

theorem gives_of_run {c : Instr} {s : State} {f : Mach → Mach} (h : exec c s = run f s) : Safety.gives c s (f (Safety.mach s)) := h

theorem givesDev_of_runDev {c : Instr} {s : State} {f : Memory → Dev → Dev} (h : exec c s = runDev f s) :
    Safety.givesDev c s (f s.mem s.dev) := h

/-! ### Frames (R423, R428, R429) -/

section Frames
variable {d : Dev} {n : Nat} {x : StreamSt}

theorem Dev.dropFrame_none (held : d.stream n = some x) (idle : x.frame = none) : d.dropFrame n = d := by
  rw [Dev.dropFrame, held]
  dsimp only
  rw [idle]

theorem Dev.stream_cnt (d : Dev) (a k n : Nat) : (d.cnt a k).stream n = d.stream n := by rw [Dev.stream, Dev.cnt_streams, Dev.stream]

theorem Dev.stream_discardTensor (d : Dev) (n k : Nat) (e : List Byte) (b : BufSt) :
    (d.discardTensor n e b).stream k = d.stream k := by
  unfold Dev.discardTensor
  split
  · exact Dev.stream_cnt _ _ _ _
  · rfl

/-- The buffer that a frame takes leaves the stream with its frame as it was. -/
theorem Dev.takeBuf_stream (held : d.stream n = some x) :
    (d.takeBuf n x).2 = x.pick ∧ ∃ y, (d.takeBuf n x).1.stream n = some y := by
  unfold Dev.takeBuf
  cases x.pick with
  | none => exact ⟨rfl, x, (Dev.stream_cnt _ _ _ _).trans held⟩
  | some i => exact ⟨rfl, _, Dev.stream_setStream_same _ _ _⟩

/-- A frame that starts on an idle stream. -/
theorem Dev.frame_startFrame (held : d.stream n = some x) (idle : x.frame = none) (stamp number : Nat) :
    ((d.startFrame n stamp number).stream n).bind (fun x => x.frame)
      = some { buf := x.pick, stamp := stamp, number := number } := by
  obtain ⟨taken, y, left⟩ := Dev.takeBuf_stream held
  rw [Dev.startFrame]
  dsimp only
  rw [Dev.dropFrame_none held idle, held]
  dsimp only
  rw [Dev.stream_modStream_same _ left, taken]
  rfl

section EndOfFrame
variable {f : FrameSt} (held : d.stream n = some x) (framed : x.frame = some f)
include held framed

theorem Dev.endOfFrame_whole (good : f.bad = false) (all : f.lines = Se.h x.entry) : d.endOfFrame n = d.setStream n { x with
    frame := none
    ready := if f.buf.isSome then x.ready ++ [f] else x.ready } := by
  rw [Dev.endOfFrame, held]
  dsimp only
  rw [framed]
  dsimp only
  rw [if_neg (by simp [good, all]), Dev.frameWhole, Dev.modStream_some _ held, framed]

theorem Dev.endOfFrame_corrupt (corrupt : f.bad = true ∨ f.lines ≠ Se.h x.entry) : d.endOfFrame n = d.dropFrame n := by
  rw [Dev.endOfFrame, held]
  dsimp only
  rw [framed]
  dsimp only
  rw [if_pos (by simpa using corrupt)]

end EndOfFrame

/-- A line that failed its check: counted, and the frame is bad (R422). -/
theorem Mach.csiLine_bad {m : Mach} {f : FrameSt} (held : m.dev.stream n = some x) (framed : x.frame = some f) (bs : List Byte) :
    m.csiLine n false bs
      = m.mod (fun d => d.setStream n { x with frame := some { f with lines := f.lines + 1, bad := true } }) := by
  rw [Mach.csiLine, held]
  dsimp only
  rw [framed]
  dsimp only
  rw [Bool.false_and, Bool.false_and, Bool.false_and]
  cases f.buf with
  | none => simp
  | some i => simp

end Frames

section Csi
variable {p vc : Fin 16} {dt : BitVec 6} {ok late : Bool} {bs : List Byte} {no : BitVec 16} {s : State}
  (on : s.dev.csiOn p.val = true)
include on

theorem exec_csiPacket_ecc : Safety.givesDev (.csiPacket p vc dt true ok late bs) s (s.dev.csiDiscard p.val) := by
  have hd := gives_of_run (c := .csiPacket p vc dt true ok late bs) (execCsiPacket.eq_1 p vc dt true ok late bs s)
  dsimp only at hd
  rw [show (Safety.mach s).dev = s.dev from rfl, on] at hd
  exact givesDev_of_gives hd rfl

theorem exec_csiPacket_untaken (untaken : s.dev.csiFor p.val vc.val dt.toNat = none) :
    Safety.givesDev (.csiPacket p vc dt false ok late bs) s (s.dev.csiDiscard p.val) := by
  have hd := gives_of_run (c := .csiPacket p vc dt false ok late bs) (execCsiPacket.eq_1 p vc dt false ok late bs s)
  rw [show (Safety.mach s).dev = s.dev from rfl, on, untaken] at hd
  exact givesDev_of_gives hd rfl

section Taken
variable {n : Nat} {x : StreamSt} (taken : s.dev.csiFor p.val vc.val dt.toNat = some n) (held : s.dev.stream n = some x)
include taken held

theorem exec_csiPacket_idle (idle : x.frame = none) :
    Safety.givesDev (.csiPacket p vc dt false ok late bs) s (s.dev.csiDiscard p.val) := by
  have hd := gives_of_run (c := .csiPacket p vc dt false ok late bs) (execCsiPacket.eq_1 p vc dt false ok late bs s)
  rw [show (Safety.mach s).dev = s.dev from rfl, on, taken] at hd
  dsimp only at hd
  rw [held, Option.all_some, idle] at hd
  exact givesDev_of_gives hd rfl

theorem exec_csiPacket_line {f : FrameSt} (framed : x.frame = some f) :
    Safety.gives (.csiPacket p vc dt false ok late bs) s ((Safety.mach s).csiLine n (ok && !late) bs) := by
  have hd := gives_of_run (c := .csiPacket p vc dt false ok late bs) (execCsiPacket.eq_1 p vc dt false ok late bs s)
  rw [show (Safety.mach s).dev = s.dev from rfl, on, taken] at hd
  dsimp only at hd
  rw [held, Option.all_some, framed] at hd
  exact hd

end Taken

theorem exec_csiFrameStart_untaken (none : s.dev.csiStreams p.val vc.val = []) :
    Safety.givesDev (.csiFrameStart p vc no) s (s.dev.csiDiscard p.val) := by
  have hd := givesDev_of_runDev (c := .csiFrameStart p vc no) (execCsiFrameStart.eq_1 p vc no s)
  rw [on, none] at hd
  exact hd

theorem exec_csiFrameEnd_untaken (none : s.dev.csiStreams p.val vc.val = []) :
    Safety.givesDev (.csiFrameEnd p vc) s (s.dev.csiDiscard p.val) := by
  have hd := givesDev_of_runDev (c := .csiFrameEnd p vc) (execCsiFrameEnd.eq_1 p vc s)
  rw [on, none] at hd
  exact hd

section Some
variable (taken : s.dev.csiStreams p.val vc.val ≠ [])
include taken

theorem exec_csiFrameStart : Safety.givesDev (.csiFrameStart p vc no) s
    ((s.dev.csiStreams p.val vc.val).foldl (fun d n => d.startFrame n d.stamp no.toNat) s.dev) := by
  have hd := givesDev_of_runDev (c := .csiFrameStart p vc no) (execCsiFrameStart.eq_1 p vc no s)
  rw [on] at hd
  cases ns : s.dev.csiStreams p.val vc.val with
  | nil => exact absurd ns taken
  | cons n rest =>
    rw [ns] at hd
    exact hd

theorem exec_csiFrameEnd : Safety.givesDev (.csiFrameEnd p vc) s
    ((s.dev.csiStreams p.val vc.val).foldl Dev.endOfFrame s.dev) := by
  have hd := givesDev_of_runDev (c := .csiFrameEnd p vc) (execCsiFrameEnd.eq_1 p vc s)
  rw [on] at hd
  cases ns : s.dev.csiStreams p.val vc.val with
  | nil => exact absurd ns taken
  | cons n rest =>
    rw [ns] at hd
    exact hd

end Some
end Csi

/-! ### SENSOR chunks (R407, R424) -/

section Sensor
variable {m : Fin 4} {rx n : Nat} {p : List Byte} {rest : List (Nat × List Byte)} {d e : Dev} {s : State}
  (oldest : takeKind 3 (s.dev.mac m.val).sorted = some ((rx, p), rest))
  (sorted : d = s.dev.modMac m.val (fun y => { y with sorted := rest }))
include oldest sorted

omit oldest in
theorem Mach.sensor_sorted : (Safety.mach s).mod (fun d => d.modMac m.val (fun y => { y with sorted := rest })) = ⟨s.mem, [], d⟩ := by
  rw [sorted]
  rfl

theorem exec_sensor_untaken (untaken : d.netStream (beField p 6 2) = none) :
    Safety.givesDev (.sensor m) s (d.ethCnt m.val 4) := by
  have hd := gives_of_run (c := .sensor m) (execSensor.eq_1 m s)
  dsimp only at hd
  rw [show (Safety.mach s).dev = s.dev from rfl, oldest] at hd
  dsimp only at hd
  rw [Mach.sensor_sorted sorted, untaken] at hd
  exact givesDev_of_gives hd rfl

theorem exec_sensor_powerFails (taken : d.netStream (beField p 6 2) = some n) (fails : s.dev.pwr.pwrFail = true) :
    Safety.givesDev (.sensor m) s d := by
  have hd := gives_of_run (c := .sensor m) (execSensor.eq_1 m s)
  dsimp only at hd
  rw [show (Safety.mach s).dev = s.dev from rfl, oldest] at hd
  dsimp only at hd
  rw [Mach.sensor_sorted sorted, taken] at hd
  dsimp only at hd
  rw [if_pos (by rw [sorted]; exact fails)] at hd
  exact givesDev_of_gives hd rfl

section Chunk
variable {f : FrameSt} (taken : d.netStream (beField p 6 2) = some n) (powered : s.dev.pwr.pwrFail = false)
  (framed : ((d.sensorFrame n rx (beField p 16 4)).stream n).bind (fun x => x.frame) = some f)
include taken powered framed

/-- A SENSOR frame of an open stream, with a frame under way: its chunk joins it when it bears its number. -/
theorem exec_sensor_framed : Safety.gives (.sensor m) s (if f.number ≠ beField p 16 4
    then ⟨s.mem, [], d.sensorFrame n rx (beField p 16 4)⟩
    else (⟨s.mem, [], d.sensorFrame n rx (beField p 16 4)⟩ : Mach).netChunk n (beField p 20 4) (beField p 24 4)
      (slice p 32 (beField p 28 2)) (if bit (beField p 2 1) 0 then some (beField p 8 8)
        else if beField p 20 4 = 0 then some rx else none)) := by
  have hd := gives_of_run (c := .sensor m) (execSensor.eq_1 m s)
  dsimp only at hd
  rw [show (Safety.mach s).dev = s.dev from rfl, oldest] at hd
  dsimp only at hd
  rw [Mach.sensor_sorted sorted, taken] at hd
  dsimp only at hd
  rw [if_neg (by rw [sorted]; exact Bool.eq_false_iff.mp powered), Mach.mod_dev, framed] at hd
  exact hd

theorem exec_sensor_chunk (same : f.number = beField p 16 4) : Safety.gives (.sensor m) s
    ((⟨s.mem, [], d.sensorFrame n rx (beField p 16 4)⟩ : Mach).netChunk n (beField p 20 4) (beField p 24 4)
      (slice p 32 (beField p 28 2)) (if bit (beField p 2 1) 0 then some (beField p 8 8)
        else if beField p 20 4 = 0 then some rx else none)) := by
  have hd := exec_sensor_framed oldest sorted taken powered framed
  rw [if_neg (not_not_intro same)] at hd
  exact hd

theorem exec_sensor_other (other : f.number ≠ beField p 16 4) :
    Safety.givesDev (.sensor m) s (d.sensorFrame n rx (beField p 16 4)) := by
  have hd := exec_sensor_framed oldest sorted taken powered framed
  rw [if_pos other] at hd
  exact givesDev_of_gives hd rfl

end Chunk
end Sensor

/-! ### Tensors and waiting bindings (R428, R432) -/

/-- A stream whose oldest whole frame has its tensor complete. -/
def StreamSt.completed (x : StreamSt) (f : FrameSt) (rest : List FrameSt) : StreamSt :=
  { x with ready := rest, completions := x.completions + 1 }.modBuf (f.buf.getD 0) (fun b => { b with
    phase := .complete
    stamp := f.stamp
    number := f.number
    order := x.completions + 1
    wasBound := false })

theorem exec_tensorComplete {n : Fin 64} {x : StreamSt} {f : FrameSt} {rest : List FrameSt} {s : State}
    (held : s.dev.stream n.val = some x) (whole : x.ready = f :: rest) : Safety.givesDev (.tensorComplete n) s
      ((s.dev.setStream n.val (x.completed f rest)).cnt (ingCount n.val 0) 1) := by
  have hd := givesDev_of_runDev (c := .tensorComplete n) (execTensorComplete.eq_1 n s)
  dsimp only at hd
  rw [held] at hd
  dsimp only at hd
  rw [whole] at hd
  exact hd

theorem StreamSt.buf_completed {x : StreamSt} {f : FrameSt} {rest : List FrameSt} {i : Nat} (into : f.buf = some i)
    (inside : i < x.bufs.length) : ((x.completed f rest).buf i).phase = .complete
      ∧ ((x.completed f rest).buf i).stamp = f.stamp := by
  rw [StreamSt.completed, StreamSt.buf, StreamSt.modBuf, into, Option.getD_some, getD_modAt, if_pos ⟨rfl, inside⟩]
  exact ⟨rfl, rfl⟩

section WaitNew
variable {n : Fin 64} {l : Fin 16} {st : StepSt} {b nb : Bound} {x : StreamSt} {k i : Nat} {m : Mach} {s : State}
  (step : (s.dev.loop l.val).step = some st)
  (waits : st.bound.find? (fun b => b.stream == n.val && b.waitNew.isSome) = some b) (since : b.waitNew = some k)
  (held : s.dev.stream n.val = some x)
include step waits since held

theorem exec_waitnewBind_takes (live : x.live = true) (later : k < x.completions) (newest : x.newest = some i)
    (binds : (Safety.mach s).bindBuf l.val n.val x i = (m, nb)) : Safety.gives (.waitnewBind n l) s
      (m.mod (fun d => d.modStep l.val (fun st => { st with
        bound := st.bound.map (fun y => if y.stream == n.val then nb else y) }))) := by
  have hd := gives_of_run (c := .waitnewBind n l) (execWaitnewBind.eq_1 n l s)
  dsimp only at hd
  rw [show (Safety.mach s).dev = s.dev from rfl, step, Option.bind_some, waits, held] at hd
  dsimp only at hd
  rw [since, newest] at hd
  dsimp only at hd
  rw [live, decide_eq_false (Nat.not_le.mpr later), binds] at hd
  exact hd

theorem exec_waitnewBind_waits (early : x.completions ≤ k) : Safety.givesDev (.waitnewBind n l) s s.dev := by
  have hd := gives_of_run (c := .waitnewBind n l) (execWaitnewBind.eq_1 n l s)
  dsimp only at hd
  rw [show (Safety.mach s).dev = s.dev from rfl, step, Option.bind_some, waits, held] at hd
  dsimp only at hd
  rw [since] at hd
  cases newest : x.newest with
  | none =>
    rw [newest] at hd
    exact hd
  | some i =>
    rw [newest] at hd
    dsimp only at hd
    rw [decide_eq_true early, Bool.or_true] at hd
    exact hd

end WaitNew

/-! ### Replay (R441, R442) -/

section Replay
variable {n : Fin 64} {pos ep : Nat} {src : SampleSource} {x y : StreamSt} {i : Nat} {m : Mach} {dec : DecSample} {s : State}
  (held : s.dev.stream n.val = some x)
include held

theorem exec_sampleDecoded (live : x.live = true) (replay : Se.kind x.entry = 2) (inList : pos < Se.listLen x.entry)
    (from_ : x.cursor ≤ ep * Se.listLen x.entry + pos) (to_ : ep * Se.listLen x.entry + pos < x.cursor + 64)
    (fresh : AMap.find x.done (ep * Se.listLen x.entry + pos) = none) (powered : s.dev.pwr.pwrFail = false)
    (decodes : (Safety.mach s).decodeSample x.entry pos src = (m, dec)) : Safety.gives (.sampleDecoded n pos ep src) s
      (m.sampleDone n.val (ep * Se.listLen x.entry + pos) dec) := by
  have hd := gives_of_run (c := .sampleDecoded n pos ep src) (execSampleDecoded.eq_1 n pos ep src s)
  dsimp only at hd
  rw [show (Safety.mach s).dev = s.dev from rfl, held] at hd
  dsimp only at hd
  rw [live, fresh, powered, decide_eq_false (not_not_intro replay), decide_eq_false (Nat.not_le.mpr inList),
    decide_eq_false (Nat.not_lt.mpr from_), decide_eq_false (Nat.not_le.mpr to_), decodes] at hd
  exact hd

theorem exec_sampleDecoded_outside (outside : ep * Se.listLen x.entry + pos < x.cursor
      ∨ x.cursor + 64 ≤ ep * Se.listLen x.entry + pos ∨ AMap.find x.done (ep * Se.listLen x.entry + pos) ≠ none) :
    Safety.givesDev (.sampleDecoded n pos ep src) s s.dev := by
  have hd := gives_of_run (c := .sampleDecoded n pos ep src) (execSampleDecoded.eq_1 n pos ep src s)
  dsimp only at hd
  rw [show (Safety.mach s).dev = s.dev from rfl, held] at hd
  dsimp only at hd
  rw [if_pos (by
    rcases outside with before | after | done
    · simp [before]
    · simp [after]
    · simp [Option.isSome_iff_ne_none.mpr done])] at hd
  exact givesDev_of_gives hd rfl

theorem exec_missingPos_few (few : x.corruptRun < 256) : Safety.givesDev (.missingPos n) s s.dev := by
  have hd := gives_of_run (c := .missingPos n) (execMissingPos.eq_1 n s)
  dsimp only at hd
  rw [show (Safety.mach s).dev = s.dev from rfl, held] at hd
  dsimp only at hd
  rw [if_pos few] at hd
  exact givesDev_of_gives hd rfl

theorem exec_missingPos_noBuffer (many : 256 ≤ x.corruptRun) (none : x.building (s.dev.batchLoops n.val) = none) :
    Safety.givesDev (.missingPos n) s s.dev := by
  have hd := gives_of_run (c := .missingPos n) (execMissingPos.eq_1 n s)
  dsimp only at hd
  rw [show (Safety.mach s).dev = s.dev from rfl, held] at hd
  dsimp only at hd
  rw [if_neg (Nat.not_lt.mpr many), none] at hd
  exact givesDev_of_gives hd rfl

theorem exec_missingPos (many : 256 ≤ x.corruptRun) (builds : x.building (s.dev.batchLoops n.val) = some (y, i))
    (zeroed : m = (((Safety.mach s).mod (fun d => d.setStream n.val y)).zero ((Safety.mach s).bufAddr y.entry i
        + 64 * (1 + Se.manifest y.entry + (y.buf i).placed.length * (Safety.mach s).nplane y.entry * Se.pp y.entry))
      (64 * (Safety.mach s).nplane y.entry * Se.pp y.entry))) : Safety.gives (.missingPos n) s
      ((((m.fillPos n.val i none 0 0 (y.cursor / Se.listLen y.entry) 3).mod (fun d =>
        d.raise 1 Src.INGEST 0x0002 n.val ((y.buf i).placed.length % 256
          + (y.cursor % Se.listLen y.entry) % 2 ^ 24 * 2 ^ 32))).placeReady n.val 4096).mod Dev.settleOrders) := by
  have hd := gives_of_run (c := .missingPos n) (execMissingPos.eq_1 n s)
  dsimp only at hd
  rw [show (Safety.mach s).dev = s.dev from rfl, held] at hd
  dsimp only at hd
  rw [if_neg (Nat.not_lt.mpr many), builds] at hd
  rw [zeroed]
  exact hd

end Replay

/-- Settles O59: every clause is the meaning of its command on the branch that the hypotheses name. -/
theorem ingestFramesAndSamples : Obligations.IngestFramesAndSamples := by
  unfold Obligations.IngestFramesAndSamples
  refine ⟨?packets, ?lines, ?starts, ?frames, ?ends, ?sensor, ?completes, fun _ _ _ _ _ _ _ _ _ _ => exec_waitnewBind_takes,
    fun _ _ _ _ _ _ _ => exec_waitnewBind_waits, fun _ _ _ _ _ _ _ _ => exec_sampleDecoded,
    fun _ _ _ _ _ _ => exec_sampleDecoded_outside, fun _ _ _ => exec_missingPos_few,
    fun _ _ _ _ _ _ => exec_missingPos, fun _ _ _ => exec_missingPos_noBuffer⟩
  case packets =>
    intro p vc dt ok late bs s on
    exact ⟨exec_csiPacket_ecc on, exec_csiPacket_untaken on, fun n x taken held idle => exec_csiPacket_idle on taken held idle⟩
  case lines =>
    intro p vc dt n x f bs s on taken held framed
    refine ⟨fun ok late bad => ?_, exec_csiPacket_line on taken held framed⟩
    have hd := exec_csiPacket_line (ok := ok) (late := late) (bs := bs) on taken held framed
    rw [bad, (Safety.mach s).csiLine_bad held framed] at hd
    exact givesDev_of_gives hd rfl
  case starts =>
    intro p vc no n x s on single held idle
    have starts := exec_csiFrameStart (no := no) on (by rw [single]; exact List.cons_ne_nil _ _)
    rw [single] at starts
    exact ⟨_, starts, ⟨rfl, rfl⟩, Dev.frame_startFrame held idle _ _⟩
  case frames =>
    intro p vc no s on
    exact ⟨fun none => ⟨exec_csiFrameStart_untaken on none, exec_csiFrameEnd_untaken on none⟩,
      fun taken => ⟨exec_csiFrameStart on taken, exec_csiFrameEnd on taken⟩⟩
  case ends =>
    intro p vc n x f s on single held framed
    have ends := exec_csiFrameEnd on (by rw [single]; exact List.cons_ne_nil _ _)
    rw [single, List.foldl_cons, List.foldl_nil] at ends
    refine ⟨fun good all => ?_, fun corrupt => ?_⟩
    · rw [Dev.endOfFrame_whole held framed good all] at ends
      exact ends
    · rw [Dev.endOfFrame_corrupt held framed corrupt] at ends
      exact ends
  case sensor =>
    intro m rx n p rest d e s oldest sorted
    refine ⟨exec_sensor_untaken oldest sorted, exec_sensor_powerFails oldest sorted, fun f taken powered starts framed => ?_⟩
    subst starts
    exact ⟨exec_sensor_chunk oldest sorted taken powered framed, exec_sensor_other oldest sorted taken powered framed⟩
  case completes =>
    intro n x f rest s held whole
    have stream : ((s.dev.setStream n.val (x.completed f rest)).cnt (ingCount n.val 0) 1).stream n.val
        = some (x.completed f rest) := (Dev.stream_cnt _ _ _ _).trans (Dev.stream_setStream_same _ _ _)
    refine ⟨_, exec_tensorComplete held whole, ⟨rfl, rfl⟩, ?_, fun i into inside => ?_, Dev.reg_cnt _ _ 1⟩
    · dsimp only
      rw [stream]
      rfl
    · obtain ⟨phase, stamp⟩ := StreamSt.buf_completed (rest := rest) into inside
      dsimp only
      rw [stream, Option.map_some, phase, stamp]

end Machine
end Sys2Proof
end
